-- ==== Sys2Proof/Word.lean ====
section
/-!
DEFINITION. Words, bytes and the few plain helpers every other file uses: little-endian byte lists, bit fields of a
word, and words built from fields. Nothing here knows about the tray.
-/

namespace Sys2Proof

/-- A byte. -/
abbrev Byte := BitVec 8

/-- A 64-bit word: the width of every set-up register (R13) and of every Sequencer register (R86). -/
abbrev Word := BitVec 64

/-- Bits `[hi:lo]` of a natural number, both ends included (R18). -/
def natBits (x hi lo : Nat) : Nat := (x >>> lo) % 2 ^ (hi + 1 - lo)

/-- Bit `i` of a natural number. -/
def natBit (x i : Nat) : Bool := x.testBit i

/-- The natural number a little-endian byte list spells (R18). -/
def leNat : List Byte → Nat
  | [] => 0
  | b :: bs => b.toNat + 256 * leNat bs

/-- The first `n` bytes of a natural number, little-endian (R18). -/
def toLE : (n x : Nat) → List Byte
  | 0, _ => []
  | n + 1, x => BitVec.ofNat 8 x :: toLE n (x / 256)

/-- A Boolean as the bit a register shows. -/
def bit (b : Bool) : Nat := if b then 1 else 0

/-- The natural number whose fields, each given with its lowest bit, are the listed ones; the fields must not overlap. -/
def fields (l : List (Nat × Nat)) : Nat := l.foldl (fun a p => a + p.2 * 2 ^ p.1) 0

/-- The signed value of the low `w` bits of a natural number. -/
def sgn (w x : Nat) : Int :=
  let m := x % 2 ^ w
  if m < 2 ^ (w - 1) then (m : Int) else (m : Int) - (2 ^ w : Nat)

/-- The low `w` bits of an integer in two's complement. -/
def wrapN (w : Nat) (x : Int) : Nat := (x % ((2 ^ w : Nat) : Int)).toNat

/-- A counter that stops at `2^w - 1` (the form of every saturating counter of the spec). -/
def satAdd (w x n : Nat) : Nat := min (x + n) (2 ^ w - 1)

end Sys2Proof
end

