-- ==== Sys2Proof/Syntax.lean ====
section
/-!
DEFINITION. The commands and events of the tray: one constructor of `Instr` for each row of spec/opcode_table.json, with
the row's operands. The table gives no operand fields; each operand here is what the row's rule needs from outside the
step: which unit acts, the word written, and the data another party returns (host memory, a wire, a pin, a sensor).
-/

namespace Sys2Proof

/-- The two PCIe functions of the tray (R356, R364). -/
inductive Fn where
  | a
  | b
deriving DecidableEq, Repr

/-- The engines of a core (R64). -/
inductive Engine where
  | se
  | dbe
  | ve
  | ru
  | lte
deriving DecidableEq, Repr

/-- Which part of a 64-bit register an access takes (R13). -/
inductive Part where
  | full
  | lo
  | hi
deriving DecidableEq, Repr

/-- The associations of a selective IDE stream (R411): one range of requester IDs and one range of host addresses. -/
structure IdeAssoc where
  stream : Nat
  ridLo : Nat
  ridHi : Nat
  lo : Nat
  hi : Nat
deriving DecidableEq, Repr

/-- What a host writes into a function's configuration space besides Bus Master Enable (R359 to R361, R411), at its reset values where
it writes nothing: the addresses of BAR0 and BAR2, Extended Tag Enable, the encoded Max_Payload_Size and Max_Read_Request_Size, the
completion timeout value, the masks and severities of AER, MSI-X Enable and Function Mask, and the associations of the IDE streams. -/
structure CfgSpace where
  bar0 : Nat := 0
  bar2 : Nat := 0
  extTag : Bool := false
  mps : Nat := 0
  mrrs : Nat := 2
  cto : Nat := 0
  aerMask : Nat := 0
  aerSev : Nat := 0x00462030
  aerCorMask : Nat := 0x00006000
  msixEn : Bool := false
  fnMask : Bool := false
  assoc : List IdeAssoc := []
deriving DecidableEq, Repr

/-- One association for each stream, the last one written, and of at most two streams (R411). -/
def CfgSpace.oneEach (c : CfgSpace) : CfgSpace :=
  let last := (List.range c.assoc.length).filterMap fun i => match c.assoc[i]? with
    | some r => if (c.assoc.drop (i + 1)).any (·.stream == r.stream) then none else some r
    | none => none
  { c with assoc := last.take 2 }

/-- A register of configuration space (R358, R359): one of the header by its offset, or one of a capability by its offset in it. -/
inductive CfgReg where
  | header (off : Nat)
  | pm (off : Nat)
  | pcie (off : Nat)
  | msix (off : Nat)
  | aer (off : Nat)
  | dsn (off : Nat)
  | doe (off : Nat)
  | ideCap (off : Nat)
  | ide (off : Nat)
deriving DecidableEq, Repr

/-- A read by a host (R325, R358, R361 to R363, R369): of a BAR0 register or of a part of one, of BAR2, or of configuration space. -/
inductive HostRd where
  | bar0 (addr : Nat) (p : Part)
  | bar2 (off : Nat)
  | cfg (r : CfgReg)
deriving DecidableEq, Repr

/-- Where a host writes (R13, R359, R361): into a register of BAR0, or into a 32-bit register of configuration space. -/
inductive HostWr where
  | bar0 (addr : Nat)
  | cfg (r : CfgReg)
deriving DecidableEq, Repr

/-- The fields of a short instruction besides its opcode (R253); `res` holds the reserved bits [37:32]. -/
structure SFields where
  rd : BitVec 5
  ra : BitVec 5
  rb : BitVec 5
  rnd : BitVec 2
  i : Bool
  res : BitVec 6
  imm : BitVec 32
deriving DecidableEq, Repr

/-- The fields of a long instruction besides its opcode (R253); `res` holds the reserved bits [102:96]. -/
structure LFields where
  rnd : BitVec 2
  scl : BitVec 10
  preg : BitVec 5
  res : BitVec 7
  op0 : BitVec 16
  op1 : BitVec 16
  op2 : BitVec 16
  op3 : BitVec 16
  param : BitVec 32
deriving DecidableEq, Repr

/-- What a read of host memory returned: the bytes, or one of the errors of R278 and R377. -/
inductive HostRead where
  | data (bytes : List Byte)
  | cto
  | ur
  | ca
  | ep
deriving DecidableEq, Repr

/-- The errors that a channel returned in one line of the external store (R186, R405): the line, as its reader numbers it; the places of
the erroneous bytes among the codeword's 72, on the first read and on the second; and whether errors that cannot be corrected make up
another codeword, so that the decoder finds no erroneous byte on either read. -/
structure LineErr where
  line : Nat
  first : List Nat
  second : List Nat
  clean : Bool
deriving DecidableEq, Repr

/-- A ring whose Kennel command is carried out, with the errors in the lines of the directory and the frame version array that the
command reads, by their LVT indices (R404, R405). -/
structure KnlAsk where
  ring : Nat
  errs : List LineErr
deriving DecidableEq, Repr

/-- An Ethernet frame as it stands on the wire from DA, without FCS, with its stamps (R323, R334). -/
structure EthFrame where
  bytes : List Byte
  fcsOk : Bool
  pause : Bool
  tStart : Nat
  tEnd : Nat
deriving DecidableEq, Repr

/-- A CAN frame as received (R335 to R338). `fmt` is 0 Classical, 1 FD, 2 XL. -/
structure CanFrame where
  ident : Nat
  ide : Bool
  rtr : Bool
  fmt : Nat
  brs : Bool
  esi : Bool
  sdt : Nat
  vcid : Nat
  af : Nat
  secured : Bool
  data : List Byte
  tStart : Nat
  tEnd : Nat
deriving DecidableEq, Repr

/-- A SENT message as timed at the pin (R348): the calibration pulse, then the durations of the status nibble, the data
nibbles and the CRC nibble, all in ns, whether a pause pulse was present, and the stamp of the edge that ends the CRC
nibble (R323). -/
structure SentMsg where
  cal : Nat
  nibbles : List Nat
  pause : Bool
  tEnd : Nat
deriving DecidableEq, Repr

/-- How a transmission ended at a port (R346, R336). -/
inductive TxEnd where
  | sent
  | arbLost
  | error
deriving DecidableEq, Repr

/-- A loop-state snapshot of the partner tray (R454). -/
structure Snap where
  slot : Nat
  state : Nat
  i : Nat
  d : Nat
  yprev : Nat
  usat : Int
  m : Nat
  hcnt : Nat
  curp : Nat
deriving DecidableEq, Repr

/-- A failed send of a flit on a mesh link (R442): the link, and whether the flit is the one whose send failed last. -/
structure FlitFail where
  link : Nat
  again : Bool
deriving DecidableEq, Repr

/-- What a patrol read looks at (R439): a line, a tally, or a word of a table, of a loop slot or of an entry of its queue. -/
inductive PatrolTarget where
  | coreLine (core line : Nat)
  | yardLine (slice line : Nat)
  | storeLine (channel line : Nat)
  | tallyWord (k : Nat)
  | tableWord (skind word : Nat)
  | loopWord (slot word : Nat)
  | trajEntry (slot i word : Nat)
deriving DecidableEq, Repr

/-- What a patrol read found (R439 to R441). `raced` tells that another write to the line was granted before the corrected line could be
written back. In a line of the store it found errors of the codeword (R186, R405). -/
inductive PatrolFind where
  | clean
  | corrected (raced : Bool)
  | uncorrectable
  | storeLine (e : LineErr)
deriving DecidableEq, Repr

/-- The graver of two findings. -/
def PatrolFind.worst (a b : PatrolFind) : PatrolFind :=
  match a, b with
  | .uncorrectable, _ => .uncorrectable
  | _, .uncorrectable => .uncorrectable
  | .corrected r, .clean => .corrected r
  | _, b => b

/-- The errors found in a line of the store, as of line 0. -/
def PatrolFind.storeErrs : PatrolFind → List LineErr
  | .storeLine e => [{ e with line := 0 }]
  | _ => []

/-- An island whose handshake faults (R449, R443). -/
inductive Island where
  | core (c : Nat)
  | mesh
deriving DecidableEq, Repr

/-- A unit that stops answering (R443, R470). -/
inductive DeadUnit where
  | slice (i : Nat)
  | channel (i : Nat)
deriving DecidableEq, Repr

/-- A request by which a connection to an SPDM responder is set up (R406): GET_VERSION, GET_CAPABILITIES under a version, and
NEGOTIATE_ALGORITHMS with the requester's masks of signature, hash, key exchange and cipher algorithms. -/
inductive SpdmSetup where
  | version
  | capabilities (ver : Nat)
  | algorithms (asym hash dhe aead : Nat)
deriving DecidableEq, Repr

/-- A part of the security block's state that is neither a register nor a key of R393 (R421). -/
inductive SecItem where
  | lvt (index : Nat)
  | nonce
  | okey (slot : Nat)
  | lcCopies
  | nboot
  | session (index : Nat)
  | stream (index : Nat)
  | pioKey (index : Nat)
  | scrub
  | m2
  | m3
  | m6
  | fuseJob
  | fuses
deriving DecidableEq, Repr

/-- A request through the TMC's debug port (R421). -/
inductive DebugOp where
  | halt (core : Nat)
  | resume (core : Nat)
  | step (core : Nat)
  | readMem (addr : Nat)
  | readReg (addr : Nat)
  | readSec (x : SecItem)
deriving DecidableEq, Repr

/-- A read of host memory that timed out, by its requester (R377, R278). -/
inductive CtoWho where
  | ring (d r : Nat)
  | chan (n : Nat)
  | copy (d r : Nat)
deriving DecidableEq, Repr

/-- One 64-byte header, body and signature block of the boot flash (R395), as read. -/
abbrev FlashCopy := List Byte

/-- The commands: one constructor for each row of the table of operations and events. -/
inductive Instr where
  -- Sequencer instructions: core, slot, fields
  | nop (c s : Nat) (f : SFields)
  | add (c s : Nat) (f : SFields)
  | sub (c s : Nat) (f : SFields)
  | addc (c s : Nat) (f : SFields)
  | subb (c s : Nat) (f : SFields)
  | setcy (c s : Nat) (f : SFields)
  | clrcy (c s : Nat) (f : SFields)
  | and (c s : Nat) (f : SFields)
  | or (c s : Nat) (f : SFields)
  | xor (c s : Nat) (f : SFields)
  | shl (c s : Nat) (f : SFields)
  | shr (c s : Nat) (f : SFields)
  | sar (c s : Nat) (f : SFields)
  | cmplt (c s : Nat) (f : SFields)
  | cmpltu (c s : Nat) (f : SFields)
  | cmpeq (c s : Nat) (f : SFields)
  | mulu (c s : Nat) (f : SFields)
  | muls (c s : Nat) (f : SFields)
  | divu (c s : Nat) (f : SFields)
  | divs (c s : Nat) (f : SFields)
  | li (c s : Nat) (f : SFields)
  | lih (c s : Nat) (f : SFields)
  | sel (c s : Nat) (f : SFields)
  | swap (c s : Nat) (f : SFields)
  | hadd (c s : Nat) (f : SFields)
  | hsub (c s : Nat) (f : SFields)
  | hmul (c s : Nat) (f : SFields)
  | hdiv (c s : Nat) (f : SFields)
  | hsqrt (c s : Nat) (f : SFields)
  | hcmp (c s : Nat) (f : SFields)
  | hcvti (c s : Nat) (f : SFields)
  | hcvtf (c s : Nat) (f : SFields)
  | ld32 (c s : Nat) (f : SFields)
  | ld64 (c s : Nat) (f : SFields)
  | st32 (c s : Nat) (f : SFields)
  | st64 (c s : Nat) (f : SFields)
  | xmove (c s : Nat) (f : SFields)
  | kget (c s : Nat) (f : SFields)
  | wopen (c s : Nat) (f : SFields)
  | wclose (c s : Nat) (f : SFields)
  | tadd (c s : Nat) (f : SFields)
  | tset (c s : Nat) (f : SFields)
  | twait (c s : Nat) (f : SFields)
  | spawn (c s : Nat) (f : SFields)
  | br (c s : Nat) (f : SFields)
  | bnz (c s : Nat) (f : SFields)
  | bz (c s : Nat) (f : SFields)
  | bcy (c s : Nat) (f : SFields)
  | solve (c s : Nat) (f : SFields)
  | outer (c s : Nat) (f : SFields)
  | inner (c s : Nat) (f : SFields)
  | precswap (c s : Nat) (f : SFields)
  | commit (c s : Nat) (f : LFields)
  | finish (c s : Nat) (f : SFields)
  | corenum (c s : Nat) (f : SFields)
  -- engine commands: core, slot, fields
  | spmv (c s : Nat) (f : LFields)
  | vscale (c s : Nat) (f : LFields)
  | dgemm (c s : Nat) (f : LFields)
  | bdapply (c s : Nat) (f : LFields)
  | formk (c s : Nat) (f : LFields)
  | fact (c s : Nat) (f : LFields)
  | invblk (c s : Nat) (f : LFields)
  | vadd (c s : Nat) (f : LFields)
  | vsub (c s : Nat) (f : LFields)
  | vmul (c s : Nat) (f : LFields)
  | vmadd (c s : Nat) (f : LFields)
  | vclr (c s : Nat) (f : LFields)
  | vcopy (c s : Nat) (f : LFields)
  | vcvt (c s : Nat) (f : LFields)
  | vsel (c s : Nat) (f : LFields)
  | vclamp (c s : Nat) (f : LFields)
  | vneg (c s : Nat) (f : LFields)
  | vabs (c s : Nat) (f : LFields)
  | shift (c s : Nat) (f : LFields)
  | vdot (c s : Nat) (f : LFields)
  | vmaxabs (c s : Nat) (f : LFields)
  | vsumh (c s : Nat) (f : LFields)
  | rdot (c s : Nat) (f : LFields)
  | rspmv (c s : Nat) (f : LFields)
  | rmul (c s : Nat) (f : LFields)
  | lmatv (c s : Nat) (f : LFields)
  -- the life of a command and of a task
  | engineCommandStart (c : Nat) (e : Engine)
  | engineCommandComplete (c : Nat) (e : Engine) (upset : List (Nat × Bool))
  | commandAbort (c : Nat) (e : Engine × List (Nat × Bool))
  | retire (c s : Nat)
  | commitCopyComplete (c s : Nat)
  | deadlineStop (uid : Nat)
  | undispatchedDeadline (uid : Nat)
  | taskDrainComplete (uid : Nat)
  | remoteWordArrival (tgt src : Nat)
  | taskSubmit (d r : Nat)
  | taskRelease (uid : Nat)
  | taskDispatch
  | beYieldForLc (job : Nat)
  | beSliceEnd (uid : Nat)
  | yieldContextSave (uid : Nat)
  | parkedResume (c : Nat)
  | segmentFillComplete (c seg : Nat) (upset : List (Nat × Bool))
  | tallyOpEffect (k n : Nat)
  | waitComplete (c s : Nat)
  | jobLoad (d r : Nat)
  | jobLoadComplete (job : Nat) (image : HostRead)
  | jobUnload (d r : Nat)
  | fellJob (d r : Nat)
  | fellTask (d r : Nat)
  | fellComplete (d r : Nat)
  | assign (d r : Nat)
  | coreScrubStart (c : Nat)
  | coreScrubComplete (c : Nat) (ok : Bool)
  | granuleScrubComplete (g : Nat) (ok : Bool)
  -- Kennel
  | knlLoad (d : Nat) (r : KnlAsk)
  | knlPin (d : Nat) (r : KnlAsk)
  | knlUnpin (d : Nat) (r : KnlAsk)
  | knlEvict (d r : Nat)
  | knlUnload (d : Nat) (r : KnlAsk)
  | kennelFillStart
  | kennelFillComplete (frame : Nat) (errs : List LineErr)
  | kennelReadDone (frame : Nat)
  -- host rings, doorbells, functions
  | sqDescriptorFetch (d r : Nat)
  | sqDescriptorReturn (d r : Nat) (resp : HostRead)
  | hostNop (d r : Nat)
  | hostDescriptorComplete (d r : Nat) (writeOk : Bool)
  | sqTailWrite (fn : Fn) (d r : Nat) (v : Word) (ide : Bool)
  | eqHeadWrite (fn : Fn) (d q : Nat) (v : Word) (ide : Bool)
  | tallyAdd (fn : Fn) (d : Nat) (v : Word) (ide : Bool)
  | sqEnable (fn : Fn) (d r : Nat) (p : Part) (v : Word)
  | sqDisable (fn : Fn) (d r : Nat) (p : Part) (v : Word)
  | eqEnable (fn : Fn) (d q : Nat) (p : Part) (v : Word)
  | eqItimeExpiry (d q : Nat)
  | hifClaim (fn : Fn)
  | hifRelease (fn : Fn)
  | hifTake (fn : Fn)
  | hifFndomWrite (fn : Fn) (p : Part) (v : Word)
  | hifRstArm (fn : Fn)
  | hifRstStart (fn : Fn)
  | hifRstArmExpiry
  | bar0UndecodedAccess (fn : Fn) (bar2 : Bool) (addr size : Nat) (isWrite ide : Bool)
  | registerWrite (fn : Fn) (addr : HostWr) (p : Part) (v : Word) (ide : Bool)
  | tunnelUp (fn : Fn) (gen : Nat) (bme : Bool) (cfg : CfgSpace)
  | tunnelLoss (fn : Fn)
  | hotReset (fn : Fn) (bme : Bool) (cfg : CfgSpace)
  | d3hotEntry (fn : Fn)
  | d3hotExit (fn : Fn) (bme : Bool) (cfg : CfgSpace)
  | busMasterClear (fn : Fn)
  -- Yarder
  | yrdEnable (fn : Fn) (n : Nat)
  | yrdDisable (fn : Fn) (n : Nat)
  | yrdDoorbell (fn : Fn) (n : Nat)
  | yrdAbort (fn : Fn) (n : Nat)
  | yrdPollExpiry (n : Nat)
  | yrdDescriptorFetch (n : Nat) (resp : HostRead)
  | yrdMove (n : Nat)
  | yrdLoop (n : Nat)
  | yrdWait (n : Nat)
  | yrdWaitSatisfied (n : Nat)
  | yrdSignal (n : Nat)
  | yrdEmpty (n errs : Nat)
  | yrdEnd (n errs : Nat)
  | yrdBurstGrant (host : Bool)
  | yrdBurstComplete (n : Nat) (resp : HostRead)
  -- loop engine
  | loopDvalidSet (fn : Fn) (slot : Nat) (p : Part) (v : Word)
  | loopDvalidClear (fn : Fn) (slot : Nat) (p : Part) (v : Word)
  | loopClose (d r : Nat)
  | loopOpen (d r : Nat)
  | loopResume (d r : Nat)
  | loopQclear (d r : Nat)
  | trajectoryPush (slot : Nat) (word : Word)
  | gridInstant
  | loopCommit
  | loopBaseWrite (fn : Fn) (p : Part) (v : Word)
  | loopCtlClr (fn : Fn)
  -- plant I/O
  | ethernetFrameReceived (m : Nat) (fr : EthFrame)
  | canFrameReceived (n : Nat) (fr : CanFrame)
  | send (q : Nat) (word : Word)
  | portTransmitStart (port : Nat)
  | portTransmitEnd (port : Nat) (e : TxEnd)
  | queueFrameLate (q : Nat)
  | canRecover (fn : Fn) (n : Nat)
  | canBusOffRecovered (n : Nat)
  | ringEnable (fn : Fn) (n : Nat) (p : Part) (v : Word)
  | encoderTransition (n : Nat) (a b : Bool) (t : Nat)
  | encoderIndexEdge (n t : Nat)
  | sentMessageEnd (n : Nat) (msg : SentMsg)
  | captureEnable (fn : Fn) (n : Nat) (p : Part) (v : Word)
  | overspeedClear (fn : Fn) (n : Nat) (samecycle : Bool)
  | dinRawEdge (i : Nat) (level : Bool) (t : Nat)
  | dinFilterExpiry (i : Nat)
  | dinStuckExpiry (i : Nat)
  | dinEnable (fn : Fn) (i : Nat) (p : Part) (v : Word)
  | pwmPeriodStart (o : Nat)
  | pioOwnWrite (fn : Fn) (u : Nat) (p : Part) (v : Word)
  -- timebase
  | ppsInEdge (e : Nat × Bool)
  | holdoverTimeout
  | discEnable (fn : Fn) (p : Part) (v : Word)
  | discDisable (fn : Fn) (p : Part) (v : Word)
  | timeEpochWrite (fn : Fn) (p : Part) (v : Word)
  | timeFreqWrite (fn : Fn) (v : BitVec 32)
  | timeDtLowRead (fn : Fn) (rd : HostRd) (ide : Bool)
  | gptpSyncTimer (m : Nat)
  | gptpAnnounceTimer (m : Nat)
  | gptpPdelayReqTimer (m : Nat)
  | gptpPdelayReqReceived (m seq t : Nat)
  | gptpPdelayRespReceived (m seq t : Nat)
  | gptpForeignReceived (m : Nat) (kind : Nat)
  -- security
  | nonce (d r : Nat) (rnd : List Byte) (writeOk : Bool)
  | tokenProvision (d r : Nat) (tok : HostRead) (uds : List Byte)
  | tokenOwn (d r : Nat) (tok : HostRead)
  | tokenSeal (d r : Nat) (tok : HostRead)
  | tokenReturn (d r : Nat) (tok : HostRead)
  | tokenScrap (d r : Nat) (tok : HostRead)
  | tokenDebug (d r : Nat) (tok : HostRead)
  | tokenRevoke (d r : Nat) (tok : HostRead)
  | fuseSafe (d r : Nat)
  | keyInstall (d r : Nat) (obj : HostRead)
  | spdmGetDigests (fn : Fn) (setup : List SpdmSetup)
  | spdmGetCertificate (fn : Fn) (slot : Nat)
  | spdmChallenge (fn : Fn) (slot : Nat) (chal : List Byte)
  | spdmGetMeasurements (fn : Fn) (index : Nat) (chal : List Byte)
  | spdmKeyExchange (fn : Fn) (slot : Nat) (exch : List Byte)
  | spdmEndSession (fn : Fn) (sid : Nat)
  | spdmHeartbeat (fn : Fn) (sid : Nat)
  | spdmHeartbeatTimeout (fn : Fn) (sid : Nat)
  | spdmKeyUpdate (fn : Fn) (sid : Nat)
  | ideKmQuery (fn : Fn) (sid : Nat)
  | ideKmKeyProg (fn : Fn) (sid stream keySet sub : Nat) (key : List Byte)
  | ideKmKSetGo (fn : Fn) (sid stream keySet sub : Nat)
  | ideKmKSetStop (fn : Fn) (sid stream keySet sub : Nat)
  | secSetupLock (fn : Fn) (p : Part) (v : Word)
  -- set-up writes with an effect of their own
  | tlyDrangeWrite (fn : Fn) (d : Nat) (p : Part) (v : Word)
  | knlDrangeWrite (fn : Fn) (d : Nat) (p : Part) (v : Word)
  | coreConfClr (fn : Fn) (c : Nat)
  | knlCtlClr (fn : Fn)
  | schedCtlClr (fn : Fn)
  | yrdCtlClr (fn : Fn)
  -- Leash, temperature
  | leashRecompute
  | lowvExit
  | leashRaise
  | grantHysteresisExpiry (c : Nat)
  | islandStepChange (c : Nat)
  | tmcReport (tin tout : Int) (flow pto : Nat)
  | tmcReportTimeout
  | tmccapWrite (w : Nat)
  | junctionSensorRead (readings : List Int)
  | hotClear
  | thermalTrip
  -- reliability
  | patrolStep (t : PatrolTarget) (r : PatrolFind)
  | islandHandshakeFault (i : Island)
  | meshFlitCrcFail (f : FlitFail)
  | meshLinkRetrainDone (link : Nat) (ok : Bool)
  | rasRecordLog
  -- Knago link and authority
  | knagoHelloReceived (dsn : Word) (side : Bool) (pairid : BitVec 32)
  | knagoLossOfSignal
  | knagoFrameTimeout
  | knagoSearchTimeout
  | knagoSearchRetry
  | knagoFrameError
  | knagoHeartbeatSend
  | knagoHeartbeatReceived (ast : Nat)
  | snapshotReceived (sn : Snap)
  | twinCfgWrite (fn : Fn) (p : Part) (v : Word)
  | twinClaim (fn : Fn)
  | twinRelease (fn : Fn)
  | twinStandby (fn : Fn)
  | twinHandover (fn : Fn)
  | claimMessageReceived (side : Bool)
  | grantReceived
  | claimTimeout
  | handoverReceived
  | handoverAckReceived
  | twinAuthInFall
  | twinAuthInContention
  | compareTrigger (n : Nat)
  | compareDigestFormed (n : Nat)
  | partnerDigestReceived (n : Nat) (seq : BitVec 32) (dig : List Byte)
  | compareTimeout (n : Nat)
  -- power-up, bring-up, reset
  | powerGood
  | inputUndervoltage
  | inputBrownout
  | railInRange
  | railFault
  | railRetry
  | coolantCheck (tin : Int) (flow : Nat)
  | tcrWrite (bytes : List Byte)
  | bootRomRun (copy0 copy1 : FlashCopy) (trng : List Byte) (trngOk : Bool)
  | standStart (failed : List Nat)
  | timebaseStart
  | functionConfigReady (fn : Fn)
  | storeReady
  | ptpInstanceStart
  | resetNPulse (lowNs : Nat) (recognised : Bool)
  | tmcFullReset (reason : Nat)
  | fullResetRelease
  | watchdogRestart
  | watchdogProbe (sched kennel leash : Bool)
  | watchdogExpiry
  | tmcRestart
  -- rows added at the end of the table
  | ethernetLinkChange (m : Nat) (up : Bool)
  | canBusError (n : Nat) (rec : Nat)
  | ppsOutEdge
  | pwmOnTimeEnd (o : Nat)
  | msixVectorUnmask (fn : Fn) (vec : Nat)
  | pcieCompletionTimeout (who : CtoWho)
  | sliceOrChannelStopsAnswering (u : DeadUnit)
  | takeoverWindowEnd
  | knlLoadCopyComplete (d : Nat) (r : KnlAsk) (pages : HostRead)
  | debugAccess (op : DebugOp)
  | coreRailMoveComplete
  | fuseProgrammingComplete (ok : Bool)
  | spdmRequestRefused (fn : Fn)
deriving DecidableEq, Repr

end Sys2Proof
end

