-- ==== Sys2Proof/Decode.lean ====
section
/-!
DEFINITION. The commands that words spell by the table's bits: none, since no row of spec/opcode_table.json gives any bits. The
instructions of a job's segment have their encoding in Machine/Operands.lean and Machine/Issue.lean, where a slot's next words are
compared with a row.
-/

namespace Sys2Proof

/-- The table gives no row any bits, so no word spells a command. -/
def decodeTableWord (_nbits _w : Nat) : Option Instr := none

end Sys2Proof
end

