-- ==== Sys2Proof/Config.lean ====
section
/-!
DEFINITION. What the spec leaves open and what it takes whole from a cited outside standard. Every constant here is opaque:
no proof can see a value of it, so a claim holds whatever it is.
-/

namespace Sys2Proof.Config

/-- A free value (notes/assumptions/5.md): the value the spec leaves open at the `n`th draw. -/
opaque freeValue : (n : Nat) → Nat

/-- A value that the spec leaves open in the work of a command and that R28 and R79 make a function of the command and its data alone: of
its words and descriptors, the bits of the elements it reads and what the value is for (notes/assumptions/169.md). -/
opaque cmdFree : (cmd data what : List Nat) → Nat

/-- Whether what passes between two routers must cross a mesh link (R442). The spec fixes no route (notes/assumptions/149.md). -/
opaque crosses : (a b link : Nat) → Bool

/-- The router at which a tally, the Yarder and the other units of the mesh island stand (R442, notes/assumptions/149.md). -/
opaque meshRouter : (unit : Nat) → Nat

/-- SHAKE256 with `len` bytes of output (R246, R398 to R400, R455). FIPS 202; the spec cites it and does not restate it. -/
opaque shake256 : (len : Nat) → (msg : List Byte) → List Byte

/-- SHA3-384 (R408, R410). FIPS 202. -/
opaque sha3_384 : (msg : List Byte) → List Byte

/-- Ed448ph verification of RFC 8032 (R395, R400, R418): public key, context, message, signature. -/
opaque ed448phVerify : (pub ctx msg sig : List Byte) → Bool

/-- The Ed448 public key of a seed, and a signature under it (R394, R406). RFC 8032. -/
opaque ed448Public : (seed : List Byte) → List Byte
opaque ed448Sign : (seed msg : List Byte) → List Byte

/-- AES Key Wrap of RFC 3394 (R413): the unwrapped object, or none when the integrity check fails. -/
opaque aesUnwrap : (key wrapped : List Byte) → Option (List Byte)

/-- XTS-AES-256 on a 64-byte line, as a little-endian number: for each key and tweak a permutation (R401). IEEE 1619. -/
opaque xts : (key : List Byte) → (tweak : Nat) → Equiv.Perm (BitVec 512)

/-- KMAC256 with `bits` bits of output (R402). SP 800-185. -/
opaque kmac256 : (key msg : List Byte) → (bits : Nat) → (custom : List Byte) → List Byte

/-- KDF(K, label, n) of R392: the first `n` bytes of KMAC256 with key K, input string label, output length 8n bits and customisation
string "SN-KDF". -/
def kdf (key label : List Byte) (n : Nat) : List Byte :=
  (kmac256 key label (8 * n) ("SN-KDF".toList.map fun c => BitVec.ofNat 8 c.toNat)).take n

/-- The four Reed-Solomon check symbols over GF(2^8) of 68 bytes (R186). The spec names no field or generator polynomial. -/
opaque rsCheck : (msg : List Byte) → List Byte

/-- MACsec validation of a received frame but for the replay window (R333): the frame without SecTAG and ICV, with the SC, AN and packet
number of the key that opened it, or none when it fails. IEEE 802.1AE. The keys are the MAC's receive keys by SC and AN. -/
opaque macsecOpen : (keys : List (Nat × Nat × List Byte)) → (frame : List Byte) → Option (List Byte × Nat × Nat × Nat)

/-- The replay window of a unit's secure channel (R332, R335), which no register of the spec sets (notes/assumptions/199.md). -/
opaque replayWindow : (unit sc : Nat) → Nat

/-- MACsec protection of a frame sent (R345). IEEE 802.1AE. -/
opaque macsecSeal : (key : List Byte) → (pn : Nat) → (frame : List Byte) → List Byte

/-- CANsec verification of a received CAN XL frame but for the freshness window (R335): the plain data field with the SC, AN and
freshness value, or none. CiA 613-2. -/
opaque cansecOpen : (keys : List (Nat × Nat × List Byte)) → (hdr data : List Byte) → Option (List Byte × Nat × Nat × Nat)

/-- CANsec protection of a CAN XL frame sent (R344), and the secure channel that its header selects. CiA 613-2. -/
opaque cansecSeal : (key : List Byte) → (fresh : Nat) → (hdr data : List Byte) → List Byte
opaque cansecChannel : (hdr : List Byte) → Nat

/-- The FCS of an Ethernet frame (R345): its CRC-32. IEEE 802.3. -/
opaque ethFcs : (frame : List Byte) → BitVec 32

/-- The bytes of a gPTP message after the EtherType, in gPTP domain 0, by what it is, its port and its fields (R331). IEEE 802.1AS-2020. -/
opaque gptpBody : (kind mac : Nat) → (clock : Nat) → (fields : List Nat) → List Byte

/-- The slow-channel message that the status nibbles of the last messages complete, newest first, if any (R348). SAE J2716. -/
opaque sentSlow : (status : List Nat) → Option Nat

/-- The CRC nibble of a SENT message, in its recommended or legacy form (R348). SAE J2716. -/
opaque sentCrc : (legacy : Bool) → (nibbles : List Nat) → Nat

/-- The export master secret of an SPDM session (R406), by function, session and key exchange. DSP0274. -/
opaque spdmSecret : (fn sid n : Nat) → (exch : List Byte) → List Byte

/-- The bytes an SPDM responder signs for an answer (R406): its code, the requester's nonce or exchange data, and its body. DSP0274. -/
opaque spdmToSign : (code : Nat) → (chal body : List Byte) → List Byte

/-- The root, intermediate and DeviceID certificates that the boot flash holds for a DSN, of the RETURN phase or an earlier one (R407);
none where it lacks them. -/
opaque flashChain : (dsn : Nat) → (ret : Bool) → Option (List Byte)

/-- The Alias certificate formed on chip (R407): DeviceID seed, Alias public key, M1, M2, M3, M5 and the firmware SVN. X.509. -/
opaque aliasCert : (idSeed aliasPub m1 m2 m3 m5 : List Byte) → (svn : Nat) → List Byte

/-- M1, the digest of the boot ROM, and the digests of the four maker public keys that the ROM holds (R397, R408). -/
opaque romDigest : List Byte
opaque makerDigest : (slot : Nat) → List Byte

/-- The bytes by which a fuse enters M3 (R408): 0 DSN, 1 LCSTATE, 2 MREV, 3 OREV, 4 SVN, 5 SAFE. R408 gives their order and not the width
of each. -/
opaque fuseBytes : (fuse value : Nat) → List Byte

/-- The bytes that M3 digests (R408): DSN, LCSTATE, MREV, OREV, OKEY0 to OKEY7, SVN and SAFE in that order, all as fused: LCSTATE is the
five transition bits in their three copies, and an owner digest is 32 bytes (R391). -/
def m3Bytes (dsn lcstate mrev orev svn safe : Nat) (okeys : List (List Byte)) : List Byte :=
  fuseBytes 0 dsn ++ fuseBytes 1 lcstate ++ fuseBytes 2 mrev ++ fuseBytes 3 orev ++ okeys.flatMap (fun k => (List.range 32).map (k.getD · 0))
  ++ fuseBytes 4 svn ++ fuseBytes 5 safe

/-- The PCI-SIG Vendor ID of Hokumet (R358). -/
opaque vendorId : Nat

/-- A link register of the PCI Express capability, by the link generation that the tunnel presents and its offset (R359). -/
opaque tunnelLink : (gen off : Nat) → Nat

/-- The first 32-bit word of a data object that the mailbox holds (R359, R406): an answer's code and body. PCI Express Base
Specification, DSP0274. -/
opaque doeWord : (code : Nat) → (body : List Byte) → Nat

/-- The header of a request that AER logs (R359, R362): function, address, size. PCI Express Base Specification. -/
opaque tlpHeader : (fn addr size : Nat) → Nat

end Sys2Proof.Config
end

