-- ==== Sys2Proof/Machine/Exact.lean ====
section
/-!
DEFINITION. Exact numbers and rounding (chapter 02). A finite value is an integer times a power of two. Results that are
not of that form (quotients, square roots) are kept with far more bits than any destination has and one sticky bit below
them, which rounds as the exact value does (R54, R55). HF24 encodings and the special results of R44 to R46 are here.
-/

namespace Sys2Proof.Machine

/-- Rounding modes (R53): to nearest, ties to even; to odd. -/
inductive Rnd where
  | rne
  | rto
deriving DecidableEq, Repr

/-- The RND field (R53); 2 and 3 are reserved. -/
def Rnd.ofField : Nat → Option Rnd
  | 0 => some .rne
  | 1 => some .rto
  | _ => none

/-- The number `m * 2^e`. -/
structure Dy where
  m : Int
  e : Int
deriving DecidableEq, Repr

/-- Two to a natural power, as an integer. -/
def pow2 (n : Nat) : Int := ((2 ^ n : Nat) : Int)

/-- The significand of `x` on the grid `2^g`, for `g` at or below its own. -/
def Dy.mant (x : Dy) (g : Int) : Int := x.m * pow2 (x.e - g).toNat

def Dy.zero : Dy := ⟨0, 0⟩
def Dy.neg (x : Dy) : Dy := ⟨-x.m, x.e⟩
def Dy.abs (x : Dy) : Dy := ⟨x.m.natAbs, x.e⟩
def Dy.mul (x y : Dy) : Dy := ⟨x.m * y.m, x.e + y.e⟩
def Dy.add (x y : Dy) : Dy :=
  let g := min x.e y.e
  ⟨x.mant g + y.mant g, g⟩
def Dy.sub (x y : Dy) : Dy := x.add y.neg

/-- Exact order of values. -/
def Dy.lt (x y : Dy) : Bool :=
  let g := min x.e y.e
  decide (x.mant g < y.mant g)
def Dy.le (x y : Dy) : Bool := !(y.lt x)
def Dy.eqv (x y : Dy) : Bool := x.le y && y.le x

/-- Number of significant bits of a natural number. -/
def bits (x : Nat) : Nat := if x = 0 then 0 else Nat.log2 x + 1

/-- `x / 2^g` rounded to an integer (R54, R55), and whether nothing was discarded. -/
def Dy.round (rnd : Rnd) (g : Int) (x : Dy) : Int × Bool :=
  if g ≤ x.e then (x.mant g, true)
  else
    let p := pow2 (g - x.e).toNat
    let q := x.m / p
    let r := x.m % p
    if r = 0 then (q, true)
    else match rnd with
      | .rto => (if q % 2 = 0 then q + 1 else q, false)
      | .rne =>
        if 2 * r < p then (q, false)
        else if p < 2 * r then (q + 1, false)
        else (if q % 2 = 0 then q else q + 1, false)

/-- The quotient of two nonzero values to at least `n - bits y` significant bits, with a sticky bit. -/
def Dy.div (n : Nat) (x y : Dy) : Dy :=
  let a := x.m.natAbs * 2 ^ n
  let b := y.m.natAbs
  let q := 2 * (a / b) + (if a % b = 0 then 0 else 1)
  let s : Int := if (x.m < 0) = (y.m < 0) then q else -(q : Int)
  ⟨s, x.e - y.e - n - 1⟩

/-- Integer square root by bits, from bit `n - 1` down. -/
def isqrtGo (x : Nat) : (n r : Nat) → Nat
  | 0, r => r
  | n + 1, r => if (r + 2 ^ n) * (r + 2 ^ n) ≤ x then isqrtGo x n (r + 2 ^ n) else isqrtGo x n r

/-- The square root of a positive value with a 16-bit significand, to 40 bits or more, with a sticky bit. -/
def Dy.sqrt (x : Dy) : Dy :=
  let odd := x.e % 2 ≠ 0
  let m := x.m.natAbs * 2 ^ (if odd then 81 else 80)
  let e := x.e - (if odd then 81 else 80)
  let r := isqrtGo m 64 0
  ⟨2 * r + (if r * r = m then 0 else 1), e / 2 - 1⟩

/-! ### HF24 (R42 to R46) -/

/-- The value of an HF24 encoding; a zero has no sign (R44). -/
inductive HV where
  | nan
  | inf (neg : Bool)
  | fin (x : Dy)
deriving DecidableEq, Repr

/-- The canonical NaN, infinity and largest finite encodings (R42). -/
def hfNaN : Nat := 0x7FC000
def hfInf (neg : Bool) : Nat := if neg then 0xFF8000 else 0x7F8000
def hfMax (neg : Bool) : Nat := if neg then 0xFF7FFF else 0x7F7FFF

/-- The value of bits 23 to 0 (R42, R43). -/
def hfVal (b : Nat) : HV :=
  let s := natBit b 23
  let x := natBits b 22 15
  let f := natBits b 14 0
  if x = 255 then (if f = 0 then .inf s else .nan)
  else
    let m : Nat := if x = 0 then f else f + 0x8000
    let e : Int := if x = 0 then -141 else (x : Int) - 142
    .fin ⟨if s then -(m : Int) else m, e⟩

/-- Flag numbers (R62). -/
def fInvalid : Nat := 0
def fDivZero : Nat := 1
def fInf : Nat := 2
def fUnder : Nat := 3
def fSat : Nat := 4
def fRange : Nat := 5
def fOvf : Nat := 6
def fLoss : Nat := 7
def fScale : Nat := 8

/-- A finite value rounded to HF24, with its flags (R45). -/
def hfRound (rnd : Rnd) (x : Dy) : Nat × List Nat :=
  if x.m = 0 then (0, [])
  else
    let neg := decide (x.m < 0)
    let a := x.abs
    let p : Int := (bits a.m.natAbs : Int) - 1 + a.e
    let ovf : Nat × List Nat :=
      match rnd with
      | .rne => (hfInf neg, [fInf])
      | .rto => (hfMax neg, [fInf])
    if 127 < p then ovf
    else
      let g : Int := if -126 ≤ p then p - 15 else -141
      let (ki, exact) := a.round rnd g
      let k := ki.toNat
      if rnd = .rto && !exact && p == 127 && k == 0xFFFF && !(a.le ⟨0xFFFF, 112⟩) then ovf
      else
        let carry := decide (k = 0x10000)
        let k' := if carry then 0x8000 else k
        let g' := if carry then g + 1 else g
        if carry && p == 127 then ovf
        else if k' < 0x8000 then
          (if k' = 0 then 0 else k' + (if neg then 0x800000 else 0), if exact then [] else [fUnder])
        else
          (((g' + 142).toNat * 0x8000 + (k' - 0x8000)) + (if neg then 0x800000 else 0), [])

/-- HF24 addition (R44, R45). -/
def hfAdd (rnd : Rnd) (a b : Nat) : Nat × List Nat :=
  match hfVal a, hfVal b with
  | .nan, _ => (hfNaN, [])
  | _, .nan => (hfNaN, [])
  | .inf s, .inf t => if s = t then (hfInf s, []) else (hfNaN, [fInvalid])
  | .inf s, .fin _ => (hfInf s, [])
  | .fin _, .inf t => (hfInf t, [])
  | .fin x, .fin y => hfRound rnd (x.add y)

/-- The encoding with its sign changed; a NaN stays a NaN. -/
def hfNeg (a : Nat) : Nat := if natBit a 23 then a % 0x800000 else a % 0x800000 + 0x800000

/-- HF24 subtraction (R44, R45). -/
def hfSub (rnd : Rnd) (a b : Nat) : Nat × List Nat := hfAdd rnd a (hfNeg b)

/-- HF24 multiplication (R44, R45). -/
def hfMul (rnd : Rnd) (a b : Nat) : Nat × List Nat :=
  match hfVal a, hfVal b with
  | .nan, _ => (hfNaN, [])
  | _, .nan => (hfNaN, [])
  | .inf s, .inf t => (hfInf (s != t), [])
  | .inf s, .fin y => if y.m = 0 then (hfNaN, [fInvalid]) else (hfInf (s != decide (y.m < 0)), [])
  | .fin x, .inf t => if x.m = 0 then (hfNaN, [fInvalid]) else (hfInf (t != decide (x.m < 0)), [])
  | .fin x, .fin y => hfRound rnd (x.mul y)

/-- HF24 division (R44, R45). An infinity over a zero has the sign of the dividend, a zero having no sign (R44). -/
def hfDiv (rnd : Rnd) (a b : Nat) : Nat × List Nat :=
  match hfVal a, hfVal b with
  | .nan, _ => (hfNaN, [])
  | _, .nan => (hfNaN, [])
  | .inf _, .inf _ => (hfNaN, [fInvalid])
  | .inf s, .fin y => (hfInf (s != decide (y.m < 0)), [])
  | .fin _, .inf _ => (0, [])
  | .fin x, .fin y =>
    if y.m = 0 then (if x.m = 0 then (hfNaN, [fInvalid]) else (hfInf (decide (x.m < 0)), [fDivZero]))
    else if x.m = 0 then (0, [])
    else hfRound rnd (x.div 48 y)

/-- HF24 square root (R44, R45). -/
def hfSqrt (rnd : Rnd) (a : Nat) : Nat × List Nat :=
  match hfVal a with
  | .nan => (hfNaN, [])
  | .inf s => if s then (hfNaN, [fInvalid]) else (hfInf false, [])
  | .fin x => if x.m = 0 then (0, []) else if x.m < 0 then (hfNaN, [fInvalid]) else hfRound rnd x.sqrt

/-- Strict order of two HF24 values, false when unordered (R46). -/
def HV.lt : HV → HV → Bool
  | .fin x, .fin y => x.lt y
  | .inf s, .inf t => s && !t
  | .inf s, .fin _ => s
  | .fin _, .inf t => !t
  | _, _ => false

/-- Equality of two HF24 values; a NaN is equal to nothing (R46). -/
def HV.eqv : HV → HV → Bool
  | .fin x, .fin y => x.eqv y
  | .inf s, .inf t => s == t
  | _, _ => false

/-- The comparisons of HCMP, by IMM[2:0]: LT, LE, EQ, GE, GT, NE (R46, R255). -/
def hfCmp (cond a b : Nat) : Bool :=
  let x := hfVal a
  let y := hfVal b
  match cond with
  | 0 => x.lt y
  | 1 => x.lt y || x.eqv y
  | 2 => x.eqv y
  | 3 => y.lt x || x.eqv y
  | 4 => y.lt x
  | _ => !(x.eqv y)

end Sys2Proof.Machine
end

