-- ==== Sys2Proof/Machine/Formats.lean ====
section
/-!
DEFINITION. Tensor descriptors, the reading of elements, and the one way a unit stores a result (chapter 02, R48 to R60;
scalars of R498). Memory is read through a function from device addresses to bytes, so that these definitions do not
depend on the state.
-/

namespace Sys2Proof.Machine

/-- An exact result on its way to a destination: a number, an HF24 special, or a saturated accumulator (R66, R76). -/
inductive XV where
  | num (x : Dy)
  | inf (neg : Bool)
  | nan
  | sat (neg : Bool)
deriving DecidableEq, Repr

/-- The value of an HF24 operand as an exact result. -/
def XV.ofHV : HV → XV
  | .nan => .nan
  | .inf s => .inf s
  | .fin x => .num x

/-- A tensor descriptor (R48). `res` is the value of all its reserved bits. -/
structure TDesc where
  fmt : Nat
  nonneg : Bool
  rb : Int
  cexp : Int
  frac : Nat
  dim0 : Nat
  dim1 : Nat
  dim2 : Nat
  stride1 : Nat
  stride2 : Nat
  sbase : Nat
  base : Nat
  res : Nat
deriving DecidableEq, Repr

/-- An operand field resolved (R254). `wrong` is a DIDX that names nothing, or bit 0 not zero. -/
inductive Opnd where
  | none
  | tensor (d : TDesc)
  | scalar (reg : Nat) (w : Nat)
  | wrong
deriving DecidableEq, Repr

/-- The descriptor that 256 bits spell (R48). -/
def TDesc.ofNat (x : Nat) : TDesc where
  fmt := natBits x 255 252
  nonneg := natBit x 251
  rb := sgn 8 (natBits x 247 240)
  cexp := sgn 8 (natBits x 239 232)
  frac := natBits x 231 226
  dim0 := natBits x 223 208
  dim1 := natBits x 207 192
  dim2 := natBits x 191 176
  stride1 := natBits x 175 152
  stride2 := natBits x 143 112
  sbase := natBits x 95 48
  base := natBits x 47 0
  res := natBits x 250 248 + natBits x 225 224 + natBits x 151 144 + natBits x 111 96

/-- Format codes (R49). -/
def fmtHQ16 : Nat := 0
def fmtHQ32 : Nat := 1
def fmtHQ64 : Nat := 2
def fmtHB8 : Nat := 3
def fmtHB16 : Nat := 4
def fmtHF24 : Nat := 5
def fmtINT8 : Nat := 6
def fmtINT4 : Nat := 7

def isHQ (f : Nat) : Bool := f ≤ 2
def isBlock (f : Nat) : Bool := f == 3 || f == 4

/-- Width of an element in bits (R36, R43, R49). -/
def elemBits : Nat → Nat
  | 0 => 16
  | 1 => 32
  | 2 => 64
  | 3 => 8
  | 4 => 16
  | 5 => 32
  | 6 => 8
  | _ => 4

/-- Number of elements. -/
def TDesc.n (d : TDesc) : Nat := d.dim0 * d.dim1 * d.dim2

/-- Element offset of the linear index `i0 + DIM0 * (i1 + DIM1 * i2)` (R50, R83). -/
def TDesc.off (d : TDesc) (i : Nat) : Nat :=
  i % d.dim0 + (i / d.dim0 % d.dim1) * d.stride1 + (i / d.dim0 / d.dim1) * d.stride2

/-- Linear index of element (i0, i1, i2). -/
def TDesc.ix (d : TDesc) (i0 i1 i2 : Nat) : Nat := i0 + d.dim0 * (i1 + d.dim1 * i2)

/-- Byte address of the element of a linear index; for INT4, of the byte that holds it (R50). -/
def TDesc.addr (d : TDesc) (i : Nat) : Nat := d.base + d.off i * elemBits d.fmt / 8

/-- Index of the scale nibble of an element (R39). -/
def TDesc.nib (d : TDesc) (i : Nat) : Nat :=
  i % d.dim0 / 16 + (i / d.dim0 % d.dim1) * (d.stride1 / 16) + (i / d.dim0 / d.dim1) * (d.stride2 / 16)

/-- Linear index of the last element. -/
def TDesc.last (d : TDesc) : Nat := d.n - 1

/-- Half-open byte range of the elements (R157). -/
def TDesc.range (d : TDesc) : Nat × Nat :=
  (d.base, d.base + ((d.off d.last + 1) * elemBits d.fmt + 7) / 8)

/-- Half-open byte range of the scale array; empty for a format that has none (R157). -/
def TDesc.srange (d : TDesc) : Nat × Nat :=
  if isBlock d.fmt then (d.sbase, d.sbase + d.nib d.last / 2 + 1) else (0, 0)

/-- The checks of R51 on the descriptor's own fields. -/
def TDesc.shapeOk (d : TDesc) : Bool :=
  d.fmt < 8 && d.res == 0
  && (match d.fmt with
      | 3 | 4 => d.frac == 0
      | 5 => !d.nonneg && d.rb == 0 && d.cexp == 0 && d.frac == 0 && d.sbase == 0
      | _ => d.cexp == 0 && d.sbase == 0)
  && d.dim0 ≠ 0 && d.dim1 ≠ 0 && d.dim2 ≠ 0 && d.frac ≤ 62
  && (if isBlock d.fmt then (d.dim0 + 15) / 16 * 16 ≤ d.stride1 && d.stride1 % 16 == 0 && d.stride2 % 16 == 0
      else d.dim0 ≤ d.stride1)
  && (d.fmt ≠ 7 || (d.stride1 % 2 == 0 && d.stride2 % 2 == 0))
  && (match d.fmt with
      | 0 => d.base % 2 == 0
      | 1 => d.base % 4 == 0
      | 2 => d.base % 8 == 0
      | 3 => d.base % 16 == 0
      | 4 => d.base % 32 == 0
      | 5 => d.base % 4 == 0
      | _ => true)

/-- The bytes of a memory as seen by a command. -/
abbrev Rd := Nat → Nat

/-- A little-endian number of `n` bytes. -/
def Rd.le (m : Rd) (a : Nat) : Nat → Nat
  | 0 => 0
  | n + 1 => m a + 256 * Rd.le m (a + 1) n

/-- The raw bits of an element. -/
def TDesc.raw (d : TDesc) (m : Rd) (i : Nat) : Nat :=
  if d.fmt = 7 then (if d.off i % 2 = 0 then m (d.addr i) % 16 else m (d.addr i) / 16)
  else Rd.le m (d.addr i) (elemBits d.fmt / 8)

/-- The fine exponent of an element's block (R39). -/
def TDesc.fine (d : TDesc) (m : Rd) (i : Nat) : Nat :=
  let b := m (d.sbase + d.nib i / 2)
  if d.nib i % 2 = 0 then b % 16 else b / 16

/-- Weight exponent of the least significant bit of an element with fine exponent `e` (R37, R38, R74). -/
def lsbExp (fmt : Nat) (frac : Nat) (cexp : Int) (e : Nat) : Int :=
  match fmt with
  | 3 => cexp - e - 6
  | 4 => cexp - e - 14
  | _ => -(frac : Int)

/-- The value that raw bits stand for (R36 to R43, R47). -/
def decodeElem (fmt frac : Nat) (cexp : Int) (e raw : Nat) : XV :=
  match fmt with
  | 3 => .num ⟨if natBit raw 7 then -((raw % 128 : Nat) : Int) else (raw % 128 : Nat), lsbExp 3 frac cexp e⟩
  | 4 => .num ⟨if natBit raw 15 then -((raw % 32768 : Nat) : Int) else (raw % 32768 : Nat), lsbExp 4 frac cexp e⟩
  | 5 => XV.ofHV (hfVal (raw % 0x1000000))
  | _ => .num ⟨sgn (elemBits fmt) raw, -(frac : Int)⟩

/-- The value of an element. -/
def TDesc.val (d : TDesc) (m : Rd) (i : Nat) : XV :=
  decodeElem d.fmt d.frac d.cexp (if isBlock d.fmt then d.fine m i else 0) (d.raw m i)

/-- The values of all elements, in linear order. -/
def TDesc.vals (d : TDesc) (m : Rd) : List XV := (List.range d.n).map (d.val m)

/-- A scalar source read in a format with a fraction length (R498). -/
def scalarVal (fmt frac : Nat) (w : Nat) : XV :=
  match fmt with
  | 3 => decodeElem 3 0 0 0 (w % 256)
  | 4 => decodeElem 4 0 0 0 (w % 65536)
  | 5 => decodeElem 5 0 0 0 (w % 0x1000000)
  | f => decodeElem f frac 0 0 (w % 2 ^ elemBits f)

/-! ### Storing (R57 to R60) -/

/-- Whether the value `k * 2^g` breaks a certified range (R57 step 3). -/
def breaksRange (rb : Int) (nonneg : Bool) (g : Int) (k : Int) : Bool :=
  (rb ≠ -128 && Dy.le ⟨1, rb⟩ ⟨k.natAbs, g⟩) || (nonneg && decide (k < 0))

/-- Storing into a two's complement format of `w` bits on the grid `2^g` (R57): the integer and its flags. -/
def storeInt (rnd : Rnd) (w : Nat) (g : Int) (rb : Int) (nonneg : Bool) : XV → Int × List Nat
  | .nan => (0, [fInvalid])
  | .inf s => (if s then -pow2 (w - 1) else pow2 (w - 1) - 1, [fSat, fRange])
  | .sat s => (if s then -pow2 (w - 1) else pow2 (w - 1) - 1, [fSat, fRange])
  | .num x =>
    let k := (x.round rnd g).1
    if k < -pow2 (w - 1) then (-pow2 (w - 1), [fSat, fRange])
    else if pow2 (w - 1) - 1 < k then (pow2 (w - 1) - 1, [fSat, fRange])
    else (k, (if breaksRange rb nonneg g k then [fRange] else []) ++ (if x.m ≠ 0 && k == 0 then [fUnder] else []))

/-- Largest magnitude of a block element (R38). -/
def blockMax (fmt : Nat) : Int := if fmt = 3 then 127 else 32767

/-- Whether a value fits a block of fine exponent `e` (R59). -/
def fitsBlock (rnd : Rnd) (fmt : Nat) (cexp : Int) (e : Nat) : XV → Bool
  | .nan => true
  | .inf _ => false
  | .sat _ => false
  | .num x => decide (((x.round rnd (lsbExp fmt 0 cexp e)).1).natAbs ≤ (blockMax fmt).natAbs)

/-- The fine exponent a unit chooses for the elements of one block (R59). -/
def chooseFine (rnd : Rnd) (fmt : Nat) (cexp : Int) (l : List XV) : Nat :=
  (((List.range 16).reverse.find? fun e => l.all (fitsBlock rnd fmt cexp e)).getD 0)

/-- Storing into a block format with a given fine exponent (R57, R59): the bits and the flags. -/
def storeBlock (rnd : Rnd) (fmt : Nat) (cexp : Int) (e : Nat) (rb : Int) (nonneg : Bool) : XV → Nat × List Nat
  | .nan => (0, [fInvalid])
  | .inf s => ((blockMax fmt).toNat + (if s then 2 ^ (elemBits fmt - 1) else 0), [fSat, fRange])
  | .sat s => ((blockMax fmt).toNat + (if s then 2 ^ (elemBits fmt - 1) else 0), [fSat, fRange])
  | .num x =>
    let g := lsbExp fmt 0 cexp e
    let k := (x.round rnd g).1
    let sb := if k < 0 then 2 ^ (elemBits fmt - 1) else 0
    if blockMax fmt < k.natAbs then ((blockMax fmt).toNat + sb, [fSat, fRange])
    else (k.natAbs + sb, (if breaksRange rb nonneg g k then [fRange] else []) ++ (if x.m ≠ 0 && k == 0 then [fUnder] else []))

/-- Storing into HF24 (R44, R45, R77): a saturated accumulator is an overflowing finite result. -/
def storeHF (rnd : Rnd) : XV → Nat × List Nat
  | .nan => (hfNaN, [])
  | .inf s => (hfInf s, [])
  | .sat s => (match rnd with | .rne => hfInf s | .rto => hfMax s, [fInf])
  | .num x => hfRound rnd x

/-- A flag event: a flag of R62 raised at an index of R83. -/
abbrev Ev := Nat × Nat

/-- One write of a command: the bytes of an element, or those of a block with the fine exponent of its scale nibble, which a unit writes
together (R39, R59). A nibble is numbered from address 0: twice the address of its byte, and one more for the upper half. -/
structure Wr where
  bytes : List (Nat × Byte)
  nib : Option (Nat × Nat) := none
deriving DecidableEq, Repr

/-- The addresses of the bytes that a write changes. -/
def Wr.addrs (w : Wr) : List Nat := w.bytes.map (·.1) ++ (w.nib.map fun p => p.1 / 2).toList

/-- The bytes and flag events of storing one element of a non-block tensor. -/
def storeElem (d : TDesc) (rnd : Rnd) (i : Nat) (x : XV) : Wr × List Ev :=
  let r : Nat × List Nat :=
    if d.fmt = 5 then storeHF rnd x
    else
      let (k, fl) := storeInt rnd (elemBits d.fmt) (-(d.frac : Int)) d.rb d.nonneg x
      (wrapN (elemBits d.fmt) k, fl)
  (⟨((toLE (elemBits d.fmt / 8) r.1).zipIdx).map (fun p => (d.addr i + p.2, p.1)), none⟩, r.2.map fun f => (f, i))

/-- A byte of the memory as changed by the writes made so far (later entries win). -/
def overlay (m : Rd) (w : List (Nat × Byte)) : Rd := fun a =>
  match w.reverse.find? fun p => p.1 == a with
  | some p => p.2.toNat
  | none => m a

/-- The byte that a fine exponent leaves at a scale nibble, merged with the other nibble of its byte (R39). -/
def nibByte (n e old : Nat) : Byte := BitVec.ofNat 8 (if n % 2 = 0 then old / 16 * 16 + e else old % 16 + 16 * e)

/-- The bytes of listed writes as they land in a memory, one after the other. -/
def landAll (m : Rd) (l : List Wr) : List (Nat × Byte) :=
  l.foldl (fun acc w =>
    let acc := acc ++ w.bytes
    match w.nib with
    | none => acc
    | some (n, e) => acc ++ [(n / 2, nibByte n e (overlay m acc (n / 2)))]) []

/-- The number of the scale nibble `nib` of a tensor, from address 0. -/
def TDesc.nibAt (d : TDesc) (nib : Nat) : Nat := 2 * d.sbase + nib

/-- The linear indices of the elements of the block that begins at linear index `i`, tail elements left out (R39, R40). -/
def TDesc.blockIx (d : TDesc) (i : Nat) : List Nat :=
  (List.range (min 16 (d.dim0 - i % d.dim0))).map (i + ·)

/-- The first linear index of every block, in linear order. -/
def TDesc.blocks (d : TDesc) : List Nat :=
  (List.range (d.dim1 * d.dim2)).flatMap fun r => (List.range ((d.dim0 + 15) / 16)).map fun b => r * d.dim0 + 16 * b

/-- Storing one block with a given fine exponent: its elements, its tail elements as +0, and its scale nibble (R40, R59). -/
def storeBlockAt (d : TDesc) (rnd : Rnd) (e i : Nat) (x : Nat → XV) : Wr × List Ev :=
  let nb := elemBits d.fmt / 8
  let ix := d.blockIx i
  let rs := ix.map fun j => (j, storeBlock rnd d.fmt d.cexp e d.rb d.nonneg (x j))
  let elems := rs.flatMap fun p => ((toLE nb p.2.1).zipIdx).map fun q => (d.addr p.1 + q.2, q.1)
  let tail := (List.range ((16 - ix.length) * nb)).map fun k => (d.addr i + ix.length * nb + k, (0 : Byte))
  (⟨elems ++ tail, some (d.nibAt (d.nib i), e)⟩, rs.flatMap fun p => p.2.2.map fun f => (f, p.1))

/-- Storing the results of a whole tensor: one write for each element, or for each block.
`x i` is the result of linear index `i`, none where the command writes nothing; a block is written where every one of its elements has a result, also where a command that faulted left some of a block's rows complete
(log entry 178). With `oneE` the one fine exponent of R59's mirrored matrix,
chosen over the elements listed in `oneE`, is used. Each result may carry flags raised before the store. -/
def storeTensor (d : TDesc) (rnd : Rnd) (oneE : Option (List Nat)) (x : Nat → Option XV) : List Wr × List Ev :=
  let rs :=
    if isBlock d.fmt then
      let xs := fun j => (x j).getD (.num Dy.zero)
      let one := oneE.map fun l => chooseFine rnd d.fmt d.cexp (l.map xs)
      (d.blocks.filter fun i => (d.blockIx i).all fun j => (x j).isSome).map fun i =>
        storeBlockAt d rnd (one.getD (chooseFine rnd d.fmt d.cexp ((d.blockIx i).map xs))) i xs
    else (List.range d.n).filterMap fun i => (x i).map (storeElem d rnd i)
  (rs.map (·.1), rs.flatMap (·.2))

/-- The bits a scalar destination register takes (R498, R501), for HQ64 with a fraction length or HF24, and the flags. -/
def storeScalar (fmt frac : Nat) (rnd : Rnd) (x : XV) : Word × List Nat :=
  if fmt = 5 then
    let r := storeHF rnd x
    (BitVec.ofNat 64 r.1, r.2)
  else
    let r := storeInt rnd (elemBits fmt) (-(frac : Int)) (-128) false x
    (BitVec.ofInt 64 r.1, r.2)

end Sys2Proof.Machine
end

