-- ==== Sys2Proof/Machine/Tab.lean ====
section
/-!
DEFINITION. Sparse tables: the one plain-data form of everything the tray holds many of (bytes of a memory, registers of
a file, channels, slots, tallies). A table is a list of (key, value) pairs with keys strictly rising and no entry equal to
the table's default value, so that equal tables are equal lists.
-/

namespace Sys2Proof.Machine

/-- A sparse table from natural-number keys. -/
abbrev Tab (α : Type) := List (Nat × α)

/-- The value at a key; an unlisted key holds the default. -/
def Tab.get {α : Type} (d : α) : Tab α → Nat → α
  | [], _ => d
  | (k, v) :: t, i => if i = k then v else Tab.get d t i

/-- Put a value at a key, keeping the keys rising and no entry equal to the default. -/
def Tab.set {α : Type} [DecidableEq α] (d : α) : Tab α → Nat → α → Tab α
  | [], i, x => if x = d then [] else [(i, x)]
  | (k, v) :: t, i, x =>
    if i < k then (if x = d then (k, v) :: t else (i, x) :: (k, v) :: t)
    else if i = k then (if x = d then t else (i, x) :: t)
    else (k, v) :: Tab.set d t i x

/-- Change the value at a key. -/
def Tab.upd {α : Type} [DecidableEq α] (d : α) (t : Tab α) (i : Nat) (f : α → α) : Tab α :=
  Tab.set d t i (f (Tab.get d t i))

/-- Apply a function to every listed entry, dropping those that become the default. -/
def Tab.mapAll {α : Type} [DecidableEq α] (d : α) (t : Tab α) (f : Nat → α → α) : Tab α :=
  t.filterMap fun p => let x := f p.1 p.2; if x = d then none else some (p.1, x)

/-- The canonical form: keys strictly rising, and no listed value equal to the default. -/
def Tab.wf {α : Type} [DecidableEq α] (d : α) : Tab α → Bool
  | [] => true
  | [(_, v)] => decide (v ≠ d)
  | (k, v) :: (k', v') :: t => decide (v ≠ d) && decide (k < k') && Tab.wf d ((k', v') :: t)

end Sys2Proof.Machine
end

