-- ==== Sys2Proof/Machine/State.lean ====
section
/-!
DEFINITION. The state of the tray as plain data: every register, queue, buffer, counter, mode and pin the spec gives it, and
the queue of commands that wait. A field whose docstring names a register holds that register or its field; reset values are
the Reset columns of the spec's tables unless a log entry is named. Numbers are `Nat` where the spec counts or names a value
and `Word` where software reads or writes a whole 64-bit register.
-/

namespace Sys2Proof.Machine

/-- A byte map of one memory; an unlisted byte is 0 (R174: every memory is zero at full reset complete). -/
abbrev Mem := Tab Byte

/-- The three variants of the tray (R2). -/
inductive Variant where
  | sn9600
  | sn9620
  | sn9610
deriving DecidableEq, Repr

/-- Identity fixed at manufacture (R5, R6; log entry 1). -/
structure Ident where
  variant : Variant := .sn9600
  step : Nat := 1
  tray : Nat := 1
deriving DecidableEq, Repr

/-- The one-time fuses (R391). Each life-cycle transition bit stands in three copies. `pfix` is R429's calibration (log entry 2). -/
structure Fuses where
  uds : List Byte := []
  dsn : Nat := 0
  lc0 : Nat := 0
  lc1 : Nat := 0
  lc2 : Nat := 0
  mrev : Nat := 0
  okey : Tab (List Byte) := []
  oset : Nat := 0
  orev : Nat := 0
  svn : Nat := 0
  safe : Nat := 0
  pfix : Nat := 0
deriving DecidableEq, Repr

/-! ### Timebase (chapter 12) -/

/-- States of the discipline (R325 TIME_DISC.STATE, R327). -/
inductive Disc where
  | free
  | acquire
  | track
  | locked
  | holdover
deriving DecidableEq, Repr

/-- One gPTP message sent (R331): the MAC, what it is, its body fields, and the frame as it goes out, without its FCS. -/
structure Gptp where
  mac : Nat
  kind : Nat
  fields : List Nat
  frame : List Byte
deriving DecidableEq, Repr

/-- The TIME block (R321 to R331). `edge` is an accepted PPS edge whose ns has not passed: its servo step comes as DT passes it, after
whatever else happens at that ns (R355). -/
structure Time where
  running : Bool := false
  dt : Nat := 0
  frac : Nat := 0
  latchA : Option Nat := none
  latchB : Option Nat := none
  epoch : Word := 0
  rate : Int := 0
  freq : Int := 0
  en : Bool := false
  disc : Disc := .free
  pol : Bool := false
  dly : Nat := 0
  phi : Int := 0
  nok : Nat := 0
  lastEdge : Option Nat := none
  edge : Option Nat := none
  pen : Bool := false
  ten : Bool := false
  pw : Nat := 0x05F5E100
  ppsHigh : Bool := false
  ppsFall : Nat := 0
  clkHigh : Bool := false
  clkFall : Nat := 0
  rej : Nat := 0
  hold : Nat := 0
  acc : Nat := 0
  prio1 : Nat := 0xF8
  prio2 : Nat := 0xF8
  lsync : Nat := 0xD
  lann : Nat := 0
  tbi : Nat := 0
  foreign : Nat := 0
  lastStep : Int := 0
  sent : List Gptp := []
  nextSync : Tab Nat := []
  nextAnn : Tab Nat := []
  nextPdelay : Tab Nat := []
  pdelay : Tab (List Nat) := []
deriving DecidableEq, Repr

/-! ### Host interface (chapter 13) -/

/-- One PCIe function (R358 to R368, R387, R388). `msixMask` starts all ones: every vector masked, as PCIe resets it (log entry 105).
`aerUnc`, `aerCor` and `aerLog` are the error statuses and the header log of AER (R359); `cfgNext` is what its host writes into `cfg` when
the function first answers. `readSent` is the last read of host memory that was sent: address, length, and the largest request it is cut
into (R360). `rdata` is what the last read by a host returned, none for an Unsupported Request. `spdmVer` and `spdmAlg` are the version that the
function's SPDM responder works under and whether the algorithms have been negotiated (R406). -/
structure FnSt where
  ls : Nat := 0
  gen : Nat := 0
  bme : Bool := false
  bmeNext : Bool := false
  d3 : Bool := false
  downSince : Nat := 0
  ready : Bool := false
  aerUnc : Nat := 0
  aerCor : Nat := 0
  aerLog : Nat := 0
  cfg : CfgSpace := {}
  cfgNext : CfgSpace := {}
  readSent : Option (Nat × Nat × Nat) := none
  rdata : Option Nat := none
  spdmVer : Option Nat := none
  spdmAlg : Bool := false
  msixAddr : Tab Nat := []
  msixData : Tab Nat := []
  msixMask : Nat := 0xFFFFFFFFFFFFFFFF
  msixPend : Nat := 0
  msixSent : Tab Nat := []
  mem : Mem := []
deriving DecidableEq, Repr

/-- How far an accepted host descriptor has come (R375). `busy` carries what the command waits for: the model of a Kennel command,
or the job of a scheduler command. `t` is the DT at which it completed; `written` tells that the status stands in host memory with OWN
still 1 (R373). -/
inductive CmdSt where
  | fresh
  | busy (arg : Nat)
  | done (hres result t : Nat)
  | written (hres result t : Nat)
deriving DecidableEq, Repr

/-- The descriptor a ring has accepted and not completed (R371, R375): its index, its 48 bytes of header and body, its place in the
order of acceptance over all rings (R416), and whether SEC_SETUP.LOCK was set and its function held set-up control at its acceptance
(R416, R425). -/
structure HostCmd where
  index : Nat
  bytes : List Byte
  st : CmdSt
  seq : Nat := 0
  locked : Bool := false
  ctl : Bool := false
deriving DecidableEq, Repr

/-- A submission ring (R374). `state` is 0 STOPPED, 1 RUNNING, 2 HALTED; `mute` tells that the ring halted while `cur` was being
carried out, so that no status is written for it (R377). -/
structure Ring where
  en : Bool := false
  state : Nat := 0
  fn : Fn := .a
  eq : Nat := 0
  evt : Nat := 0
  hrsn : Nat := 0
  nM1 : Nat := 0
  base : Nat := 0
  head : Nat := 0
  wb : Nat := 0
  tail : Nat := 0
  reading : Bool := false
  again : Bool := false
  stall : Bool := false
  mute : Bool := false
  cur : Option HostCmd := none
deriving DecidableEq, Repr

/-- An event queue (R379 to R383). -/
structure EvQ where
  en : Bool := false
  fn : Fn := .a
  vec : Nat := 0
  itime : Nat := 0
  nM1 : Nat := 0
  base : Nat := 0
  tail : Nat := 0
  head : Nat := 0
  lost : Nat := 0
  phase : Bool := false
  lostf : Bool := false
  itEnd : Option Nat := none
  itPend : Bool := false
deriving DecidableEq, Repr

/-- The HIF block. `accepted` counts the descriptors accepted; `armed` is the function whose full-reset request is armed and when the
arming ends (R389). -/
structure Hif where
  holder : Option Fn := none
  rstany : Bool := false
  doma : Nat := 0
  domb : Nat := 0
  armed : Option (Fn × Nat) := none
  a : FnSt := {}
  b : FnSt := {}
  filt : Nat := 0
  ur : Nat := 0
  linkdn : Nat := 0
  rings : Tab Ring := []
  eqs : Tab EvQ := []
  domevt : Tab Word := []
  devevt : Word := 0
  accepted : Nat := 0
deriving DecidableEq, Repr

/-! ### Domains, jobs, tasks (chapter 08) -/

/-- SCHED_CMAPc, without the fields computed from slots (R205). -/
structure CoreOwn where
  valid : Bool := false
  scrub : Bool := false
  closing : Bool := false
  pack : Bool := false
  dom : Nat := 0
  job : Nat := 0
deriving DecidableEq, Repr

/-- A granule's SCHED_YMAP entry (R172), and whether an ASSIGN is taking it out of the Kennel or scrubbing it (R178, R199). -/
structure GranOwn where
  valid : Bool := false
  knl : Bool := false
  dom : Nat := 0
  leaving : Bool := false
  scrub : Bool := false
deriving DecidableEq, Repr

/-- Job states (R208, R209). -/
inductive JobSt where
  | free
  | loading
  | loaded
  | felling
  | felled
deriving DecidableEq, Repr

/-- A job: SCHED_JOBj (R208) and what its image gives it (R243 to R248). `models` are the 16 identifiers
of its MODELS field, `segBytes` the descriptor table and the code, `prehash` the P of R410; `counted` tells that its code frame counts
as pinned. -/
structure Job where
  st : JobSt := .free
  be : Bool := false
  dom : Nat := 0
  packHi : Nat := 0
  packLo : Nat := 0
  slice : Nat := 0
  ring : Nat := 0
  xlen : Nat := 0
  verified : Bool := false
  models : List Nat := []
  nmodels : Nat := 0
  entries : List Nat := []
  ndesc : Nat := 0
  codeLen : Nat := 0
  segBytes : List Byte := []
  prehash : List Byte := []
  frame : Option Nat := none
  counted : Bool := false
deriving DecidableEq, Repr

/-- Where a task stands (R215). -/
inductive TaskSt where
  | waiting
  | ready
  | running (core slot : Nat)
  | parked (core : Nat)
  | draining (core slot : Nat)
  | ended
deriving DecidableEq, Repr

/-- A task (R211 to R215). `deadline` is `none` for DLMODE 2, and for a DLMODE 1 task not yet released. -/
structure Task where
  uid : Nat
  job : Nat
  dom : Nat
  be : Bool
  entry : Nat
  taskId : Nat
  dlmode : Nat
  dlval : Nat
  deadline : Option Nat
  trigV : Bool
  trigTally : Nat
  trigN : Nat
  trigSat : Bool
  doneV : Bool
  doneTally : Nat
  result : Nat
  arg : Nat
  release : Nat
  queueTime : Nat
  tDisp : Nat
  st : TaskSt
deriving DecidableEq, Repr

/-- An ASSIGN in progress (R206): the units it names that have not finished, whether a scrub failed, and all the units it names. -/
structure AssignCmd where
  ring : Nat
  kind : Nat
  valid : Bool
  force : Bool
  dom : Nat
  units : List Nat
  failed : Bool
  named : List Nat
deriving DecidableEq, Repr

/-- A FELL in progress (R237): the tasks and Yarder channels it waits for. -/
structure FellCmd where
  ring : Nat
  whole : Bool
  job : Nat
  uids : List Nat
  chans : List Nat
deriving DecidableEq, Repr

/-- The scheduler (chapter 08). -/
structure Sched where
  cmap : Tab CoreOwn := []
  ymap : Tab GranOwn := []
  jobs : Tab Job := []
  tasks : List Task := []
  nextUid : Nat := 0
  rrDom : Nat := 0
  spawnRef : Tab Nat := []
  ovrCnt : Tab Nat := []
  ovrNs : Tab Nat := []
  assigns : List AssignCmd := []
  fells : List FellCmd := []
deriving DecidableEq, Repr

/-! ### Cores (chapters 03 to 06, 09) -/

/-- One flag event of a command: the flag's bit number of R62 and its index of R83. -/
structure FlagEv where
  flag : Nat
  idx : Nat
deriving DecidableEq, Repr

/-- The exception record of R84, without FLAGS. -/
structure ExcRec where
  rangeV : Bool := false
  rangeIdx : Nat := 0
  rangeCseq : Nat := 0
  rangeOpc : Nat := 0
  rangeEng : Nat := 0
  invV : Bool := false
  invIdx : Nat := 0
  invCseq : Nat := 0
  invOpc : Nat := 0
  invEng : Nat := 0
  lossCnt : Nat := 0
  ovfCnt : Nat := 0
deriving DecidableEq, Repr

/-- A pivot replacement (R131): stage, column, kind 1 ZERO, 2 TINY, 3 RECIP. -/
structure Pivot where
  stage : Nat
  col : Nat
  kind : Nat
deriving DecidableEq, Repr

/-- The solve control of a task (R94, R113, R124 to R134). Numbers of the SPB are as its fields hold them. `outCnt` and `inCnt` count what
has issued; `outDone` and `innerDone` what has retired, which the result record shows (R28, R142). -/
structure SolveCtl where
  solved : Bool := false
  retired : Bool := false
  method : Nat := 0
  nVar : Nat := 0
  mCon : Nat := 0
  capOut : Nat := 0
  capIn : Nat := 0
  pivlim : Nat := 0
  tau : Nat := 0
  delta : Nat := 0
  prebOff : Nat := 0
  outCnt : Nat := 0
  inCnt : Nat := 0
  outDone : Nat := 0
  innerDone : Nat := 0
  psel : Bool := false
  stgDone : Bool := false
  swapped : Bool := false
  pivCnt : Nat := 0
  pivFirst : Option (Nat × Pivot) := none
  committed : Bool := false
  cv : Bool := false
  active : Nat := 0
  np0 : Nat := 0
  np1 : Nat := 0
  k0 : Nat := 0
  k1 : Nat := 0
  cib : Nat := 0
  lastHalf : Nat := 0
deriving DecidableEq, Repr

/-- Faults a command or instruction may retire with (R118 events 5 and 6, R259). -/
inductive RFault where
  | malformed
  | aborted
  | dataError (addr : Nat)
deriving DecidableEq, Repr

/-- A commit copy in progress (R126, R127): target half, k, np, CIB address, the three sources, and the words and descriptors of its COMMIT
(R79, log entry 46). -/
structure CommitJob where
  half : Nat
  k : Nat
  np : Nat
  cib : Nat
  z : Nat
  zc : Nat
  y : Nat
  key : List Nat := []
deriving DecidableEq, Repr

/-- What an instruction does when it retires, beyond its flags (R118, R126, R128, R133): `outer` and `inner` are an OUTER and an INNER
that counted. -/
inductive RetAct where
  | none
  | outer
  | inner
  | finish (status : Nat)
  | cap
  | solve
  | commit (j : CommitJob)
  | pivots (l : List Pivot)
  | wopen (n : Nat) (w : Nat)
  | wclose (n : Nat)
deriving DecidableEq, Repr

/-- An instruction or command issued and not yet retired (R81, R82). -/
structure RetEntry where
  cseq : Nat
  opc : Nat
  eng : Nat
  complete : Bool
  cycles : Nat
  evs : List FlagEv
  fault : Option RFault
  act : RetAct
deriving DecidableEq, Repr

/-- A WAIT of a task in progress (R229). -/
structure WaitSt where
  cseq : Nat
  tally : Nat
  n : Nat
  refused : Bool
  sat : Bool
deriving DecidableEq, Repr

/-- A terminating event taken (R118): its status, cause, DT, STOP_CSEQ and the uncorrectable line, if any. -/
structure Term where
  status : Nat
  cause : Nat
  t : Nat
  stopCseq : Nat
  derr : Option Nat
deriving DecidableEq, Repr

/-- A task slot of a core with the context of its task (R86, R216, R227). `pc` is a byte offset into the segment; `lastRet` is the
number of instructions retired, which is the CSEQ of the next to retire. `yield` is a yield in progress: whether a slice end
started it, and when that slice ended or the yield started (R221, R226). `sliceLen`, `sliceUsed` and `sliceFrom` are the slice
in ns, what of it the task has used, and since when it counts (R225). `copyHold` are the earlier commands, by task and CSEQ, whose
writes the scoreboard makes the commit copy wait for (R126 step 2). -/
structure Slot where
  uid : Option Nat := none
  started : Bool := false
  seg : Nat := 0
  pc : Nat := 0
  g : Tab Word := []
  cy : Bool := false
  cseq : Nat := 0
  stop : Option Nat := none
  sliceLen : Nat := 0
  sliceUsed : Nat := 0
  sliceFrom : Nat := 0
  flags : Nat := 0
  exc : ExcRec := {}
  sc : SolveCtl := {}
  ret : List RetEntry := []
  lastRet : Nat := 0
  stopIssue : Bool := false
  wait : Option WaitSt := none
  remote : Option Nat := none
  copy : Option CommitJob := none
  copyHold : List (Nat × Nat) := []
  term : Option Term := none
  yield : Option (Bool × Nat) := none
deriving DecidableEq, Repr

/-- A parked context (R227): the slot as saved, the windows it held, when it parked. -/
structure Parked where
  slot : Slot
  wins : List (Nat × Nat)
  at_ : Nat
deriving DecidableEq, Repr

/-- A scoreboard range of a command in flight, in 64-byte lines of device addresses (R157). -/
structure SbRange where
  uid : Nat
  cseq : Nat
  lo : Nat
  hi : Nat
  write : Bool
deriving DecidableEq, Repr

/-- An engine command issued: its task and number, and all that its issue fixed: its fields, its operands as they resolved and were
relocated (R113, R254), its PREG address, its slot's registers and solve control, whether the solve control refused it (R113), its
scalar destination and its scalar sources (R254, R498). `order` is its place in the order of entry into the queue (R224). Once it has
started, `started`, `dur` and `line` are its DT, its duration (R256) and an uncorrectable line that it has received (R140), and `got` the
bytes that its engine has staged for it, by address (R147, log entry 25). -/
structure ECmd where
  uid : Nat
  slot : Nat
  cseq : Nat
  opc : Nat
  order : Nat
  f : LFields
  o0 : Opnd
  o1 : Opnd
  o2 : Opnd
  o3 : Opnd
  preg : Nat
  g : Tab Word
  sc : SolveCtl
  refuse : Bool
  reg : Option Nat
  srcs : List Nat
  started : Nat := 0
  dur : Nat := 0
  line : Option Nat := none
  got : Mem := []
deriving DecidableEq, Repr

/-- An engine: the command it runs, its issue queue, oldest first (R223), and its operand buffer: the bytes of the lines staged last, at
most 512 of them, on an LTE 1,024, by the address each was staged from (R146, R147). -/
structure EngSt where
  run : Option ECmd := none
  queue : List ECmd := []
  buf : Mem := []
deriving DecidableEq, Repr

/-- A remote word, or an XMOVE's remaining beats, between two cores (R161 to R168). A load carries its destination register.
`left` is the number of 8-byte beats still to pass; 0 marks a single word of `width` bytes. `refused` and `firstBad` are the beats that a
window refused and the address of the first; `nowhere` and `firstGone` the same of beats whose address does not decode (R165). -/
structure RWord where
  src : Nat
  slot : Nat
  uid : Nat
  cseq : Nat
  tgt : Nat
  addr : Nat
  write : Bool
  width : Nat
  val : Nat
  reg : Nat
  left : Nat
  laddr : Nat
  refused : Nat := 0
  firstBad : Nat := 0
  nowhere : Nat := 0
  firstGone : Nat := 0
deriving DecidableEq, Repr

/-- An instruction-store segment (R250, R251): the job whose frame it holds, whether its fill is still in progress, and the offsets of
its uncorrectable 64-bit units and of those with an error that is corrected as they are read. -/
structure Seg where
  job : Nat
  filling : Bool
  bad : List Nat := []
  weak : List Nat := []
deriving DecidableEq, Repr

/-- One core. `wins` holds the eight CORE_WIN registers as words; `bad` lists the uncorrectable 32-bit words by offset, and `weak` those
with an error that is corrected as they are read. `halted` tells that the core issues nothing, by fencing or debug, but for the next
`steps` instructions (R421). -/
structure Core where
  mem : Mem := []
  bad : List Nat := []
  weak : List Nat := []
  wins : Tab Nat := []
  narrowWait : Nat := 0
  poolWait : Nat := 0
  sbHold : Nat := 0
  winRefused : Nat := 0
  segs : Tab (Option Seg) := []
  slots : Tab Slot := []
  parked : List Parked := []
  se : EngSt := {}
  dbe : EngSt := {}
  ve : EngSt := {}
  ru : EngSt := {}
  lte : EngSt := {}
  sb : List SbRange := []
  orders : Nat := 0
  step : Nat := 4
  stepNext : Option Nat := none
  grant : Nat := 0
  isFloor : Bool := false
  fallAt : Option Nat := none
  halted : Bool := false
  steps : Nat := 0
deriving DecidableEq, Repr

/-- The Yard: bytes by Yard offset, and by offset its uncorrectable 64-bit units and those with an error that is corrected as they are
read (R169, R171). -/
structure Yard where
  mem : Mem := []
  bad : List Nat := []
  weak : List Nat := []
deriving DecidableEq, Repr

/-! ### Kennel (chapter 07) -/

/-- A model-table entry (R182, R246). -/
structure Model where
  valid : Bool := false
  pnBase : Nat := 0
  npages : Nat := 0
  dom : Nat := 0
  refs : Nat := 0
  jpins : Nat := 0
  hpin : Bool := false
  loading : Bool := false
  digest : List Byte := []
deriving DecidableEq, Repr

/-- A directory entry (R189). -/
structure DirEnt where
  valid : Bool := false
  dom : Nat := 0
  pin : Bool := false
  version : Nat := 0
  model : Nat := 0
  sframe : Nat := 0
deriving DecidableEq, Repr

/-- A frame-version word and whether a page is bound to the store frame (R187, R188). -/
structure SFrame where
  retired : Bool := false
  lastver : Nat := 0
  bound : Bool := false
deriving DecidableEq, Repr

/-- Frame states (R192). `code` marks the PINNED code frame of a job (R248). -/
inductive FrSt where
  | free
  | filling
  | resident
  | pinned
  | code (job : Nat)
deriving DecidableEq, Repr

/-- A frame-table entry (R191): `ent` is the directory entry that its fill read; `doomed` frees it once its reads reach zero (R199); and
`gone` says that the model was unloaded while the frame was FILLING or in a read, so that it serves no new touch (R199, R201). -/
structure Frame where
  st : FrSt := .free
  pn : Nat := 0
  ent : DirEnt := {}
  ref : Bool := false
  reads : Nat := 0
  doomed : Bool := false
  gone : Bool := false
deriving DecidableEq, Repr

/-- A touch in progress or waiting for a fill (R195): a KGET of a slot, or a Yarder channel. `frame` is the frame it reads, none
while it waits. -/
structure Touch where
  core : Nat
  slot : Nat
  uid : Nat
  cseq : Nat
  chan : Option Nat
  pn : Nat
  off : Nat
  len : Nat
  dst : Nat
  frame : Option Nat
deriving DecidableEq, Repr

/-- What waits for a frame (R193, R248): a page for its fill, or a job for its code frame. -/
inductive Want where
  | page (pn : Nat)
  | code (job : Nat)
deriving DecidableEq, Repr

/-- An accepted PIN, or LOAD with PIN = 1, that fills its model's pages (R201): its ring, whether it is the LOAD, its model and the pages
not filled yet. -/
structure KnlWait where
  ring : Nat
  isLoad : Bool
  id : Nat
  left : List Nat
deriving DecidableEq, Repr

/-- The Kennel and the external store. `store` holds the bytes that stand in the channels, ciphertext and metadata, by channel × 128 MiB +
channel byte (R183); `dir` and `sframes` are the directory and the frame version array as the Kennel reads them; `badLines` the lines
that the patrol found uncorrectable, by store offset / 64; `waiting` what waits for a frame, oldest first (R193); `cmds` the commands
that wait for pages. -/
structure Knl where
  models : Tab Model := []
  dir : Tab DirEnt := []
  sframes : Tab SFrame := []
  store : Mem := []
  lvt : Tab Nat := []
  frames : Tab Frame := []
  hand : Nat := 0
  badLines : List Nat := []
  waiting : List Want := []
  cmds : List KnlWait := []
  touches : List Touch := []
  drange : Tab Word := []
  hits : Nat := 0
  misses : Nat := 0
  victims : Nat := 0
  fillFail : Nat := 0
deriving DecidableEq, Repr

/-! ### Tallies (chapter 08) -/

/-- An operation on its way to a tally (R229, R231), with the domain of its initiator and, for a task's own operation, the
task and the CSEQ of its instruction (R168, R231). -/
structure TOp where
  tally : Nat
  isSet : Bool
  n : Nat
  dom : Nat
  uid : Option Nat
  cseq : Nat
deriving DecidableEq, Repr

/-- The tally block (R229 to R234); `failed` are the tallies marked failed by R448. -/
structure Tly where
  val : Tab Nat := []
  failed : List Nat := []
  ops : List TOp := []
  drange : Tab Word := []
  satCnt : Nat := 0
  refused : Nat := 0
deriving DecidableEq, Repr

/-! ### Yarder (chapter 10) -/

/-- Channel states (R282 CHSTAT.STATE, R275). -/
inductive ChSt where
  | disabled
  | idle
  | fetch
  | run
  | waiting
  | halted
deriving DecidableEq, Repr

/-- A burst of a channel (R271, R272): its ranges, its burst slot once granted, its retries, the store line of a touched page whose fill
failed, and the page that a model-space source names. -/
structure Burst where
  sspace : Nat
  src : Nat
  dspace : Nat
  dst : Nat
  len : Nat
  granted : Option Nat
  retries : Nat
  bad : Option Nat := none
  page : Option Nat := none
deriving DecidableEq, Repr

/-- What a channel does when the write-back of its descriptor ends (R275, R280). -/
inductive WbEnd where
  | fetch
  | idle
  | halt (aborted : Bool)
deriving DecidableEq, Repr

/-- A write-back in progress (R280): its result, RESIDUE and WORD, how it ends, the DT at which the descriptor ended (R263), and, once the
16-byte status has been written, the byte that the separate write of OWN leaves. -/
structure WBack where
  yres : Nat
  residue : Nat
  word : Nat
  fin : WbEnd
  ended : Nat
  own : Option Byte := none
deriving DecidableEq, Repr

/-- A Yarder channel (R275, R282). `w` are the six words of the running descriptor. -/
structure Chan where
  cfg : Word := 0x0000000000000300
  nM1 : Nat := 0
  base : Word := 0
  en : Bool := false
  head : Nat := 0
  exp : Nat := 0
  st : ChSt := .disabled
  yres : Nat := 0
  iter : Nat := 0
  word : Nat := 0
  bytes : Nat := 0
  w : List Word := []
  passDone : Option Nat := none
  residue : Nat := 0
  burst : Option Burst := none
  wb : Option WBack := none
  retriesMax : Nat := 0
  pollFrom : Nat := 0
  abort : Bool := false
  waitN : Option Nat := none
  waitSat : Bool := false
  waitRefused : Bool := false
deriving DecidableEq, Repr

/-- The Yarder: its channels, burst slots, arbiter pointers (class × 8 + priority) and counters (R273, R283). -/
structure Yrd where
  chans : Tab Chan := []
  slots : Tab (Option Nat) := []
  rr : Tab Nat := []
  retried : Nat := 0
  halts : Nat := 0
deriving DecidableEq, Repr

/-! ### Loop engine (chapter 11) -/

/-- A trajectory entry with its position in its push (R301, R303), and whether an uncorrectable error stands in it (R448). -/
structure Traj where
  op : Nat
  cl : Nat
  v0 : Nat
  v1 : Nat
  v2 : Nat
  v3 : Nat
  p : Nat
  bad : Bool := false
deriving DecidableEq, Repr

/-- Loop states (R310, R317). -/
inductive LoopSt where
  | disabled
  | open_
  | armed
  | ramp
  | closed
  | tripped
deriving DecidableEq, Repr

/-- A loop slot (R296 to R317): its configuration registers, its shown state and what persists between samples. `openAt` is the DT
at which an OPEN was accepted; `safeDue` is an output by SAFE that waits for the next commit; `arrived` are the pushes accepted, with
their stamps, after an instant whose samples are not computed yet, and none for a QCLEAR (R291, R293, R310, R316). -/
structure LoopSlot where
  cfg : Word := 0
  src : Word := 0
  msc0 : Word := 0
  msc1 : Word := 0
  msc2 : Word := 0
  g0 : Word := 0
  g1 : Word := 0
  lim : Word := 0
  imin : Word := 0
  imax : Word := 0
  i0 : Word := 0
  osc : Word := 0
  heel : Word := 0
  qcfg : Word := 0
  tly : Word := 0
  st : LoopSt := .disabled
  cause : Nat := 0
  late : Bool := false
  exh : Bool := false
  ihold : Bool := false
  inhib : Bool := false
  usatBit : Bool := false
  hcnt : Nat := 0
  lateCnt : Nat := 0
  skipCnt : Nat := 0
  pushRef : Nat := 0
  wign : Nat := 0
  u : Nat := 0
  e : Nat := 0
  integ : Int := 0
  d : Nat := 0
  yprev : Nat := 0
  usat : Int := 0
  m : Nat := 0
  x0 : List Nat := []
  rlast : List Nat := []
  tAcc : Nat := 0
  openAt : Option Nat := none
  safeDue : Bool := false
  staging : Mem := []
  queue : List Traj := []
  arrived : List (Nat × Option (List Traj)) := []
  cur : Option Traj := none
  bad : Bool := false
deriving DecidableEq, Repr

/-- What a target takes at a commit: a raw value, or its safe level (R294, R309). -/
inductive LoopOut where
  | raw (v : Int)
  | safe
deriving DecidableEq, Repr

/-- The sweep of a grid instant between its freeze and its commit (R290): the number of samples, the new raw values by slot, the
slots with an outer sample, the slots with events to count, and the slots that tripped, each with its cause. -/
structure Sweep where
  t : Nat
  k : Nat
  n : Nat
  outs : List (Nat × LoopOut)
  outerSlots : List Nat
  evSlots : List Nat
  trips : List (Nat × Nat)
deriving DecidableEq, Repr

/-- A loop command of a ring that has been accepted and waits for its loops (R314). -/
structure LoopCmd where
  ring : Nat
  lop : Nat
  slots : List Nat
deriving DecidableEq, Repr

/-! ### Plant I/O (chapter 12) -/

/-- An Ethernet MAC (R332 to R334). `txBlocked` tells that its transmit SA has reached its limit, and that the record has been written. -/
structure MacSt where
  cfg : Word := BitVec.ofNat 64 (1518 * 2 ^ 46)
  addr : Word := 0
  rxErr : Nat := 0
  secDrop : Nat := 0
  noRule : Nat := 0
  rules : Tab Word := []
  link : Bool := false
  txBlocked : Bool := false
deriving DecidableEq, Repr

/-- A CAN XL controller (R335 to R337). -/
structure CanSt where
  cfg : Word := BitVec.ofNat 64 (80 * 2 ^ 45 + 70 * 2 ^ 38)
  bstate : Nat := 0
  tec : Nat := 0
  rec_ : Nat := 0
  secDrop : Nat := 0
  noFlt : Nat := 0
  fltA : Tab Word := []
  fltB : Tab Word := []
  recovering : Bool := false
deriving DecidableEq, Repr

/-- A frame for a receive ring (R338, R339): the bytes that go into the slot, its stamps, the bytes of the frame as received, the unit
that received it, and whether MACsec or CANsec verified it. -/
structure RxFrame where
  bytes : List Byte
  tStart : Nat
  tEnd : Nat
  flen : Nat
  srcu : Nat
  secv : Bool
deriving DecidableEq, Repr

/-- A receive ring (R338 to R340); `frames` is the number w of the next frame, `waiting` the frames whose T_END has not passed, in the
order in which they will be written. -/
structure RxRing where
  a : Word := 0
  b : Word := 0
  frames : Nat := 0
  full : Nat := 0
  refused : Nat := 0
  waiting : List RxFrame := []
deriving DecidableEq, Repr

/-- A receive field (R341): its registers and its last value with the T_END of its frame. -/
structure RxField where
  a : Word := 0
  b : Word := 0
  val : Option (Int × Nat) := none
deriving DecidableEq, Repr

/-- A transmit field (R342): its register and the raw value it holds; none before any commit and at the safe level. -/
structure TxField where
  cfg : Word := 0
  raw : Option Int := none
deriving DecidableEq, Repr

/-- A frame waiting to be sent (R343 to R346): `hdr` is the 64-byte header, `src` 0 for a map and 1 for a queue. -/
structure TxFrame where
  isMap : Bool
  idx : Nat
  due : Nat
  close : Nat
  hdr : List Byte
  data : List Byte
deriving DecidableEq, Repr

/-- A transmit map (R343): its register, template and due frame. -/
structure TxMap where
  cfg : Word := BitVec.ofNat 64 (2 ^ 62)
  tmpl : Mem := []
  ovr : Nat := 0
  due : Option TxFrame := none
deriving DecidableEq, Repr

/-- A transmit queue (R344, R345): its staging window, its frames and its counters. -/
structure TxQueue where
  staging : Mem := []
  frames : List TxFrame := []
  refused : Nat := 0
  late : Nat := 0
deriving DecidableEq, Repr

/-- A pin of an encoder behind its filter (R347): the level that has passed, the pin's level and the stamp at which that began. -/
structure EncPin where
  level : Bool := false
  raw : Bool := false
  since : Nat := 0
deriving DecidableEq, Repr

/-- A capture input (R347 to R349). `trans` are the values COUNT has taken with their stamps, newest first; `ovsAt` are the stamps at
which OVERSPEED was last raised and had first been raised since it was clear; `good` is the last good message, `status` the status
nibbles of the last good messages in a row, newest first, and `slow` the last slow-channel message they gave. -/
structure CapSt where
  cfg : Word := 0
  v1 : Nat := 0
  v2 : Nat := 0
  ovs : Bool := false
  serr : Nat := 0
  count : Nat := 0
  lastEdge : Option Nat := none
  ovsAt : Option (Nat × Nat) := none
  trans : List (Nat × Nat) := []
  pinA : EncPin := {}
  pinB : EncPin := {}
  prevCal : Option Nat := none
  good : Option (Nat × Nat × Nat) := none
  errRun : Nat := 0
  status : List Nat := []
  slow : Option Nat := none
deriving DecidableEq, Repr

/-- A digital input (R350, R351): the pin's level and when its run began; whether the filtered level is active, and the stamp of
the last filtered edge since enable. -/
structure DinSt where
  cfg : Word := 0
  raw : Bool := false
  rawAt : Nat := 0
  filt : Bool := false
  filtAt : Option Nat := none
  stuck : Bool := false
  glitch : Nat := 0
deriving DecidableEq, Repr

/-- A PWM output (R352, R354): the clamped value c in force and the one that waits for the next period, the current period's start with
its edges still to come, and whether the output is active. -/
structure PwmSt where
  cfg : Word := 0
  safe : Bool := true
  c : Nat := 0
  pend : Option Nat := none
  start : Option Nat := none
  rise : Option Nat := none
  fall : Option Nat := none
  active : Bool := false
deriving DecidableEq, Repr

/-- A digital output (R353, R354). -/
structure DoutSt where
  cfg : Word := 0
  safe : Bool := true
  active : Bool := false
deriving DecidableEq, Repr

/-- The plant I/O units (chapter 12). `txing` is the frame in transmission at each port; `sentFrames` counts frames sent. -/
structure Pio where
  own : Tab Word := []
  macs : Tab MacSt := []
  cans : Tab CanSt := []
  rings : Tab RxRing := []
  rxf : Tab RxField := []
  txf : Tab TxField := []
  maps : Tab TxMap := []
  queues : Tab TxQueue := []
  caps : Tab CapSt := []
  dins : Tab DinSt := []
  pwms : Tab PwmSt := []
  douts : Tab DoutSt := []
  txing : Tab (Option TxFrame) := []
  sentFrames : Tab Nat := []
  lastSent : Tab (List Byte) := []
  txOff : Bool := false
deriving DecidableEq, Repr

/-- The inputs of a grid instant `t`, instant number `k`, frozen as DT passes it (R293): the owners and states of the units that a loop
can read. -/
structure Frozen where
  t : Nat
  k : Nat
  own : Tab Word
  caps : Tab CapSt
  rxf : Tab RxField
  dins : Tab DinSt
deriving DecidableEq, Repr

/-- The loop engine (R286 to R318). `frozen` are the grid instants whose inputs are frozen and whose samples are not computed yet, oldest
first. -/
structure LoopEng where
  slots : Tab LoopSlot := []
  base : Word := 0
  auth : Bool := false
  frozen : List Frozen := []
  sweep : Option Sweep := none
  cmds : List LoopCmd := []
deriving DecidableEq, Repr

/-! ### Security (chapter 14) -/

/-- What the fuses read when last sensed (R391, R420). -/
structure Sensed where
  lc : Nat := 0
  dsn : Nat := 0
  mrev : Nat := 0
  oset : Nat := 0
  orev : Nat := 0
  svn : Nat := 0
  safe : Nat := 0
  pfix : Nat := 0
  done : Bool := false
deriving DecidableEq, Repr

/-- An SPDM session of a function (R406). -/
structure Spdm where
  fn : Fn
  sid : Nat
  secret : List Byte
  updates : Nat
  beat : Nat
deriving DecidableEq, Repr

/-- A selective IDE stream of a function (R411): its keys by key set and substream, and the key sets that run by substream.
Substreams 0 to 2 are those received, 3 to 5 those sent. -/
structure IdeStream where
  fn : Fn
  stream : Nat
  keys : List (Nat × Nat × List Byte)
  going : List (Nat × Nat)
deriving DecidableEq, Repr

/-- An installed MACsec or CANsec key (R413, R414) with its packet or freshness number: of the next frame to send, or one above the
highest received. -/
structure PioKey where
  unit : Nat
  sc : Nat
  an : Nat
  tx : Bool
  obj : List Byte
  pn : Nat
deriving DecidableEq, Repr

/-- Fuse programming in progress (R416, R417): the ring that waits, and the fuses it leaves. -/
structure FuseJob where
  ring : Nat
  f : Fuses
deriving DecidableEq, Repr

/-- An answer of the SPDM responder (R406 to R411): the code of the response, its content, and its signature where it bears one. -/
structure SpdmAns where
  fn : Fn
  code : Nat
  body : List Byte
  sig : List Byte
deriving DecidableEq, Repr

/-- The security block (chapter 14, and R176 to R180). `scrubQ` are the units waiting to be scrubbed: core or granule. -/
structure Sec where
  sensed : Sensed := {}
  pend : Nat := 0
  dbg : Nat := 0
  dbgp : Nat := 0
  lock : Bool := false
  ideA : Bool := false
  ideB : Bool := false
  result : Nat := 0
  fwsvn : Nat := 0
  statusMode : Bool := false
  tagfail : Nat := 0
  forge : Nat := 0
  unwrapf : Nat := 0
  spdmerr : Nat := 0
  scrubBusy : Option (Bool × Nat) := none
  scrubQ : List (Bool × Nat) := []
  scrubFailed : Nat := 0
  nonce : Option (List Byte) := none
  nboot : List Byte := []
  kses : List Byte := []
  kxts : List Byte := []
  ktag : List Byte := []
  idSeed : List Byte := []
  aliasSeed : List Byte := []
  m2 : List Byte := []
  m3 : List Byte := []
  m6 : List Byte := List.replicate 48 0
  sessions : List Spdm := []
  streams : List IdeStream := []
  keys : List PioKey := []
  fuseJob : Option FuseJob := none
  answers : List SpdmAns := []
deriving DecidableEq, Repr

/-! ### Power, reliability, twin (chapter 15) -/

/-- A command that waits for credits (R432). -/
structure CredWait where
  core : Nat
  eng : Engine
  uid : Nat
  cseq : Nat
deriving DecidableEq, Repr

/-- The PWR block and Leash (R426 to R438, R460). `rail` is in units of 50 mV above 0.55 V (log entry 165); `derLow` tells that
the last report called for DER 60. -/
structure Pwr where
  fmax : Nat := 6
  budget : Nat := 280
  tray : Nat := 360
  tmccap : Nat := 300
  ctot : Nat := 0
  rail : Nat := 2
  railNext : Option Nat := none
  lowv : Bool := false
  floordef : Bool := false
  hot : Bool := false
  tin : Nat := 0
  tout : Nat := 0
  flow : Nat := 0
  tj : Int := 0
  der : Nat := 100
  derLow : Bool := false
  pto : Nat := 0
  stepdn : Nat := 0
  waits : Nat := 0
  waiting : List CredWait := []
  lastReport : Nat := 0
  coolSince : Option Nat := none
  fitSince : Option Nat := none
  moves : List (Nat × Int) := []
  tripped : Bool := false
deriving DecidableEq, Repr

/-- An error record (R444). -/
structure ErrRec where
  t : Nat
  seq : Nat
  cls : Nat
  code : Nat
  dom : Option Nat
  skind : Nat
  sidx : Nat
  count : Nat
  addr : Nat
  detail : Nat
deriving DecidableEq, Repr

/-- The RAS block (R439 to R450): queue, log, counters, fenced cores, cores to be fenced once they
are empty with the CODE of their record, mesh links, and the full
resets the die asked the TMC for (class and code of the reason) and when it first asked. -/
structure Ras where
  queue : List ErrRec := []
  log : Tab (Option ErrRec) := []
  next : Nat := 0
  yref : Nat := 0
  lost : Nat := 0
  ce : Nat := 0
  ue : Nat := 0
  fence : List Nat := []
  fencing : List (Nat × Nat) := []
  linkFails : Tab Nat := []
  linkRetrains : Tab Nat := []
  linkDown : List Nat := []
  corrected : List (Nat × Nat × Nat) := []
  asks : List (Nat × Nat) := []
  askAt : Nat := 0
deriving DecidableEq, Repr

/-- Link states (R453). -/
inductive Link where
  | down
  | search
  | paired
  | lost
  | mismatch
deriving DecidableEq, Repr

/-- Authority states (R457). -/
inductive Auth where
  | off
  | standby
  | active
deriving DecidableEq, Repr

/-- A message of the Knago link sent to the partner (R452 to R458): its kind (0 HELLO, 1 heartbeat, 2 snapshot, 3 digest, 4 claim,
5 GRANT, 6 HANDOVER, 7 its acknowledgement) and its content. -/
structure KMsg where
  kind : Nat
  vals : List Nat
deriving DecidableEq, Repr

/-- A compare slot (R455, R456): `stage` is 0 idle, 1 forming its digest, 2 waiting for the partner's since `at_`; `pend` are the
SEQs of the triggers that wait; `refused` tells that its wait on TRIG was refused (R233). -/
structure CmpSt where
  a : Word := 0
  b : Word := 0
  c : Word := 0
  exp : Nat := 0
  lastres : Nat := 0
  seq : Nat := 0
  stage : Nat := 0
  at_ : Nat := 0
  own : List Byte := []
  pend : List Nat := []
  partner : Option (Nat × List Byte) := none
  refused : Bool := false
deriving DecidableEq, Repr

/-- The TWIN block (R452 to R459). `linkAt` is when the link state last changed. `pin` is the filtered TWIN_AUTH_IN and `pinAt` when it rose.
`authNext` is the value AUTH takes at the next commit; `handing` a hand-over whose acknowledgement has not come. `frameErrs` are the failed
sends of the frame last sent, the `frameOf`th, and `retrains` the retrains in a row that have not got it through (R452). `snapQ` are the
snapshots not yet sent; `silent` tells that the lanes have been silenced (R438, R473). -/
structure Twin where
  cfg : Word := 0
  link : Link := .down
  ast : Auth := .off
  past : Nat := 0
  pin : Bool := false
  pinAt : Nat := 0
  pdsn : Word := 0
  snapAdopt : Nat := 0
  snapDrop : Nat := 0
  resend : Nat := 0
  miss : Nat := 0
  cmps : Tab CmpSt := []
  linkAt : Nat := 0
  lastFrame : Nat := 0
  lastBeat : Nat := 0
  claimAt : Option Nat := none
  authNext : Option Bool := none
  handing : Bool := false
  handoverAt : Option Nat := none
  lostAt : Option Nat := none
  fallAt : Option Nat := none
  frameErrs : Nat := 0
  frameOf : Nat := 0
  retrains : Nat := 0
  snapQ : List Snap := []
  out : List KMsg := []
  silent : Bool := false
deriving DecidableEq, Repr

/-! ### Bring-up, TMC and pins (chapters 16, 17) -/

/-- Bring-up, the TMC, the watchdog and the reset sources (R462 to R480). `step` is the highest bring-up step completed in the
order of R467 (3 when the die has just been released); `holds` are the sources that hold a full reset: 1 the TMC after a thermal
trip, 2 the TMC for its input, 3 the TMC after three bring-ups that ended FATAL. `tmcLog` and `tmcStats` are the error records and
HIF_BOOTSTAT words the TMC has kept, `tmcEvents` the faults it has logged itself, `tmcFences` the cores in its fault log (R451).
`tcrBytes` is the TCR in the TMC's store and `tcr` what this bring-up has read of it (R466). `justReset` says that no step on an empty
queue has passed since a full reset began (log entry 241), and `wdDue` that the watchdog was due as it began; `wdNow` is the watchdog's own clock in ns (log entry 163). -/
structure Boot where
  pg : Bool := true
  rails : Nat := 4
  railFaults : Nat := 0
  railWait : Bool := false
  step : Nat := 3
  stands : Nat := 0
  cause : Nat := 0
  tmcrsn : Nat := 0
  store : Bool := false
  ptp : Bool := false
  twinres : Nat := 0
  tStore : Nat := 0
  inReset : Bool := false
  holds : List Nat := []
  coolOk : Bool := true
  coolDer60 : Bool := false
  tcrBytes : List Byte := List.replicate 40 0 ++ [0x2C, 0x01] ++ List.replicate 6 0
  tcr : List Byte := List.replicate 40 0 ++ [0x2C, 0x01] ++ List.replicate 6 0
  tmcFences : List Nat := []
  justReset : Bool := false
  wdDue : Bool := false
  fatalRuns : Nat := 0
  tmcLog : List ErrRec := []
  tmcStats : List Nat := []
  tmcEvents : List Nat := []
  wdNow : Nat := 0
  wdRestart : Nat := 0
  wdFails : Nat := 0
  wdFailsK : Nat := 0
  wdFailsL : Nat := 0
  debugOut : List Word := []
deriving DecidableEq, Repr

/-- The tray. `pending` is the queue of commands that wait, first in, first out; `freeCtr` counts the free values drawn
(notes/assumptions/5.md); both are the model's own fields. -/
structure State where
  pending : List Instr := []
  freeCtr : Nat := 0
  id : Ident := {}
  fuses : Fuses := {}
  time : Time := {}
  hif : Hif := {}
  sched : Sched := {}
  cores : Tab Core := []
  yard : Yard := {}
  mesh : List RWord := []
  knl : Knl := {}
  tly : Tly := {}
  yrd : Yrd := {}
  loop : LoopEng := {}
  pio : Pio := {}
  sec : Sec := {}
  pwr : Pwr := {}
  ras : Ras := {}
  twin : Twin := {}
  boot : Boot := {}
deriving DecidableEq, Repr

/-- The tray at the release of a power-on reset, before bring-up step 4 (log entry 4): every register at its Reset column. -/
def State.reset : State := {}

/-- How a step can stop without a next state. -/
inductive Fault where
  /-- A command names a unit that no variant of the tray has (a core above 255, a ring above 15, ...). Raised by the meanings
  that take a unit number from outside; safe: nothing happens on a unit that does not exist. -/
  | noSuchUnit
deriving DecidableEq, Repr

/-- Why a command has no meaning here. -/
inductive Refusal where
  /-- The row has no meaning yet. Raised by exec's arms only; safe. -/
  | notModelled (mnemonic : String)
deriving DecidableEq, Repr

/-- The outcome of one command. -/
abbrev Out := Host.Outcome State Fault Refusal

end Sys2Proof.Machine
end

