-- ==== Sys2Proof/Machine/Ops.lean ====
section
/-!
DEFINITION. The operations that several commands share: which units a variant has, getting and changing one unit's state,
the address map, memories with their uncorrectable units, error records, events, tallies, and the end of a task.
-/

namespace Sys2Proof.Machine

/-! ### Variants and units (R2, R3, R64) -/

def Variant.cores : Variant → Nat
  | .sn9610 => 128
  | _ => 256
def Variant.slices : Variant → Nat
  | .sn9610 => 32
  | _ => 64
def Variant.channels : Variant → Nat
  | .sn9610 => 48
  | _ => 96
def Variant.stands (v : Variant) : Nat := v.cores / 16
/-- The loop engine, plant I/O and the Knago link stand or fall together (R2). -/
def Variant.acts : Variant → Bool
  | .sn9620 => false
  | _ => true
def Variant.lte : Variant → Bool
  | .sn9610 => false
  | _ => true
/-- Yard granules (R169): 48 of 64 KiB for each slice. -/
def Variant.granules (v : Variant) : Nat := 48 * v.slices
/-- Populated bytes of the external-store window (R184). -/
def Variant.storeBytes : Variant → Nat
  | .sn9610 => 0x155400000
  | _ => 0x2AA800000
def Variant.part : Variant → Nat
  | .sn9600 => 0x9600
  | .sn9620 => 0x9620
  | .sn9610 => 0x9610

/-- CAPS_UNITS[4:1]: LTE, TWIN, PIO, LOOP (R6). -/
def Variant.units (v : Variant) : Nat := fields [(0, bit v.acts), (1, bit v.acts), (2, bit v.acts), (3, bit v.lte)]

/-- Whether core `c` has a Learned-Term Engine (R64). -/
def Variant.coreLte (v : Variant) (c : Nat) : Bool := v.lte && c % 8 == 0


def State.var (s : State) : Variant := s.id.variant
def State.dt (s : State) : Nat := s.time.dt

/-- A free value (notes/assumptions/5.md) and the state in which the next draw is another one. -/
def State.draw (s : State) : Nat × State := (Config.freeValue s.freeCtr, { s with freeCtr := s.freeCtr + 1 })

/-- The bytes of an ASCII string. -/
def ascii (x : String) : List Byte := x.toList.map fun c => BitVec.ofNat 8 c.toNat

/-! ### One unit's state -/

def State.core (s : State) (c : Nat) : Core := Tab.get {} s.cores c
def State.updCore (s : State) (c : Nat) (f : Core → Core) : State := { s with cores := Tab.upd {} s.cores c f }
def Core.slot (k : Core) (i : Nat) : Slot := Tab.get {} k.slots i
def Core.updSlot (k : Core) (i : Nat) (f : Slot → Slot) : Core := { k with slots := Tab.upd {} k.slots i f }
def State.slot (s : State) (c i : Nat) : Slot := (s.core c).slot i
def State.updSlot (s : State) (c i : Nat) (f : Slot → Slot) : State := s.updCore c fun k => k.updSlot i f
def State.owner (s : State) (c : Nat) : CoreOwn := Tab.get {} s.sched.cmap c
def State.updOwner (s : State) (c : Nat) (f : CoreOwn → CoreOwn) : State :=
  { s with sched := { s.sched with cmap := Tab.upd {} s.sched.cmap c f } }
def State.gran (s : State) (g : Nat) : GranOwn := Tab.get {} s.sched.ymap g
def State.updGran (s : State) (g : Nat) (f : GranOwn → GranOwn) : State :=
  { s with sched := { s.sched with ymap := Tab.upd {} s.sched.ymap g f } }
def State.job (s : State) (j : Nat) : Job := Tab.get {} s.sched.jobs j
def State.updJob (s : State) (j : Nat) (f : Job → Job) : State :=
  { s with sched := { s.sched with jobs := Tab.upd {} s.sched.jobs j f } }
def State.task (s : State) (uid : Nat) : Option Task := s.sched.tasks.find? fun t => t.uid == uid
def State.updTask (s : State) (uid : Nat) (f : Task → Task) : State :=
  { s with sched := { s.sched with tasks := s.sched.tasks.map fun t => if t.uid = uid then f t else t } }
def State.chan (s : State) (n : Nat) : Chan := Tab.get {} s.yrd.chans n
def State.updChan (s : State) (n : Nat) (f : Chan → Chan) : State :=
  { s with yrd := { s.yrd with chans := Tab.upd {} s.yrd.chans n f } }
def State.loopSlot (s : State) (n : Nat) : LoopSlot := Tab.get {} s.loop.slots n
def State.updLoop (s : State) (n : Nat) (f : LoopSlot → LoopSlot) : State :=
  { s with loop := { s.loop with slots := Tab.upd {} s.loop.slots n f } }

/-- A host function's own state. -/
def State.fnSt (s : State) : Fn → FnSt
  | .a => s.hif.a
  | .b => s.hif.b
def State.updFn (s : State) (fn : Fn) (f : FnSt → FnSt) : State :=
  match fn with
  | .a => { s with hif := { s.hif with a := f s.hif.a } }
  | .b => { s with hif := { s.hif with b := f s.hif.b } }
def fnOther : Fn → Fn
  | .a => .b
  | .b => .a
def fnNum : Fn → Nat
  | .a => 0
  | .b => 1
def fnOfBool : Bool → Fn
  | false => .a
  | true => .b

/-- Key of ring `r` of domain `d`, and of event queue `q` of domain `d`. -/
def ringKey (d r : Nat) : Nat := d * 16 + r
def eqKey (d q : Nat) : Nat := d * 4 + q
def State.ring (s : State) (d r : Nat) : Ring := Tab.get {} s.hif.rings (ringKey d r)
def State.updRing (s : State) (d r : Nat) (f : Ring → Ring) : State :=
  { s with hif := { s.hif with rings := Tab.upd {} s.hif.rings (ringKey d r) f } }
def State.evq (s : State) (d q : Nat) : EvQ := Tab.get {} s.hif.eqs (eqKey d q)
def State.updEvq (s : State) (d q : Nat) (f : EvQ → EvQ) : State :=
  { s with hif := { s.hif with eqs := Tab.upd {} s.hif.eqs (eqKey d q) f } }

/-- The domains a function is a host driver of (R365), as a mask. -/
def State.fnMask (s : State) : Fn → Nat
  | .a => s.hif.doma
  | .b => s.hif.domb
def State.isDriver (s : State) (fn : Fn) (d : Nat) : Bool := natBit (s.fnMask fn) d

/-- Whether an IDE stream is in Secure state: keys run on all three substreams in both directions (R411; log entry 109). -/
def IdeStream.secure (x : IdeStream) : Bool := (List.range 6).all fun i => x.going.any fun p => p.2 = i

/-- SEC_SETUP.IDEREQ of a function (R412), and whether one of its streams is in Secure state. -/
def State.ideReq (s : State) (fn : Fn) : Bool := match fn with
  | .a => s.sec.ideA
  | .b => s.sec.ideB
def State.anySecure (s : State) (fn : Fn) : Bool := s.sec.streams.any fun x => x.fn == fn && x.secure

/-- Whether a function requires IDE and has no stream in Secure state (R412). -/
def State.ideBlocks (s : State) (fn : Fn) : Bool := s.ideReq fn && !s.anySecure fn

/-- Whether an access of a host is filtered for want of IDE (R412): the function requires it, and the access does not arrive in a stream
in Secure state; `ide` tells that its host sent it in a stream of the function. -/
def State.ideFilters (s : State) (fn : Fn) (ide : Bool) : Bool := s.ideReq fn && !(ide && s.anySecure fn)

/-- Whether the device may issue a request to a function's memory (R388, R412). -/
def State.fnReach (s : State) (fn : Fn) : Bool :=
  (s.fnSt fn).ls == 2 && (s.fnSt fn).bme && !(s.fnSt fn).d3 && !s.ideBlocks fn

/-- Whether function `fn` may issue a request for `n` bytes at host address `a`: it reaches its host (R388), and where it requires IDE a
Secure stream's address association covers them (R411, R412). -/
def State.fnReachAt (s : State) (fn : Fn) (a n : Nat) : Bool :=
  s.fnReach fn && (!s.ideReq fn || s.sec.streams.any fun x => x.fn == fn && x.secure
    && (s.fnSt fn).cfg.assoc.any fun r => r.stream == x.stream && decide (r.lo ≤ a) && decide (a + n ≤ r.hi + 1))

/-- What a read of `n` bytes of host memory answers: an Unsupported Request where it cannot be issued (R388). -/
def State.answered (s : State) (fn : Fn) (a n : Nat) (resp : HostRead) : HostRead := if s.fnReachAt fn a n then resp else .ur

/-- The largest read request of a function: 4,096 bytes, and no more than its Max_Read_Request_Size (R360). -/
def FnSt.readMax (f : FnSt) : Nat := min 4096 (128 * 2 ^ f.cfg.mrrs)

/-- A read of host memory is sent, in requests of at most the function's size (R360); a function that may not issue it sends none (R388,
R412). -/
def State.sendRead (s : State) (fn : Fn) (a n : Nat) : State :=
  if s.fnReachAt fn a n then s.updFn fn fun f => { f with readSent := some (a, n, f.readMax) } else s

/-! ### Engines of a core -/

def Core.eng (k : Core) : Engine → EngSt
  | .se => k.se
  | .dbe => k.dbe
  | .ve => k.ve
  | .ru => k.ru
  | .lte => k.lte
def Core.setEng (k : Core) (e : Engine) (x : EngSt) : Core :=
  match e with
  | .se => { k with se := x }
  | .dbe => { k with dbe := x }
  | .ve => { k with ve := x }
  | .ru => { k with ru := x }
  | .lte => { k with lte := x }
def engineAll : List Engine := [.se, .dbe, .ve, .ru, .lte]
/-- Unit numbers of the exception record (R84). -/
def engineNum : Engine → Nat
  | .se => 1
  | .dbe => 2
  | .ve => 3
  | .ru => 4
  | .lte => 5
/-- Cycles of an engine's staging round (R153). -/
def engineRound : Engine → Nat
  | .ru => 8
  | .lte => 16
  | _ => 4

/-! ### Address map (R11, R12, R149, R169, R184) -/

/-- Where a device address leads. -/
inductive Place where
  | regs (a : Nat)
  | core (c off : Nat)
  | yard (off : Nat)
  | store (off : Nat)
  | nowhere
deriving DecidableEq, Repr

def coreBase (c : Nat) : Nat := 0x40000000 + c * 0x100000
def yardBase : Nat := 0x100000000
def storeBase : Nat := 0x1000000000
/-- Bytes of a core's memory (R149). -/
def coreBytes : Nat := 786432

/-- The decode of a device address (R8, R11, R12). -/
def State.place (s : State) (a : Nat) : Place :=
  if a < 0x1000000 then .regs a
  else if 0x40000000 ≤ a ∧ a < 0x40000000 + s.var.cores * 0x100000 then
    (if (a - 0x40000000) % 0x100000 < coreBytes then .core ((a - 0x40000000) / 0x100000) ((a - 0x40000000) % 0x100000)
     else .nowhere)
  else if yardBase ≤ a ∧ a < yardBase + s.var.granules * 65536 then .yard (a - yardBase)
  else if storeBase ≤ a ∧ a < storeBase + s.var.storeBytes then .store (a - storeBase)
  else .nowhere

/-! ### Memories with uncorrectable units (R150, R171, R499) -/

/-- Read `n` bytes. -/
def Mem.read (m : Mem) (a n : Nat) : List Byte := (List.range n).map fun i => Tab.get 0 m (a + i)

/-- Write one byte. -/
def Mem.put (m : Mem) (a : Nat) (b : Byte) : Mem := Tab.set 0 m a b

/-- Write listed bytes, later ones last. -/
def Mem.puts (m : Mem) (w : List (Nat × Byte)) : Mem := w.foldl (fun m p => Mem.put m p.1 p.2) m

/-- Write bytes from an address upward. -/
def Mem.write (m : Mem) (a : Nat) (l : List Byte) : Mem := Mem.puts m (l.zipIdx.map fun p => (a + p.2, p.1))

/-- The bytes of a list from an address upward, as listed writes. -/
def bytesAt (a : Nat) (l : List Byte) : List (Nat × Byte) := l.zipIdx.map fun p => (a + p.2, p.1)

/-- Remove every byte of a half-open range: it reads as zero (R176, R178). -/
def Mem.zero (m : Mem) (lo hi : Nat) : Mem := m.filter fun p => p.1 < lo || hi ≤ p.1

/-- Whether a byte lies in the unit of `u` bytes that holds the byte at `b`. -/
def inUnit (u b a : Nat) : Bool := a / u == b / u

/-- The outcome of writing into a memory of checked units of `u` bytes: a unit that is uncorrectable and not covered whole keeps
its data and its error; one covered whole is good again (R499). The last part lists the units not merged. -/
def writeChecked (u : Nat) (m : Mem) (bad : List Nat) (w : List (Nat × Byte)) : Mem × List Nat × List Nat :=
  let covered := fun b => (List.range u).all fun i => w.any fun p => p.1 == b / u * u + i
  let stuck := bad.filter fun b => (w.any fun p => inUnit u b p.1) && !covered b
  (m.puts (w.filter fun p => !stuck.any fun b => inUnit u b p.1),
   bad.filter (fun b => !covered b), stuck)

/-- The units of `u` bytes in a list that no write meets: a write stores a met unit with new check bits (R499). -/
def unmet (u : Nat) (l : List Nat) (w : List (Nat × Byte)) : List Nat := l.filter fun b => !w.any fun p => inUnit u b p.1

/-- The units of `u` bytes in a list that a half-open range of offsets meets. -/
def unitsIn (u : Nat) (l : List Nat) (lo hi : Nat) : List Nat := l.filter fun b => b / u * u < hi && lo < b / u * u + u

/-- Write into core memory by offset; the offsets of words not merged. -/
def State.coreWrite (s : State) (c : Nat) (w : List (Nat × Byte)) : State × List Nat :=
  let k := s.core c
  let r := writeChecked 4 k.mem k.bad w
  (s.updCore c fun k => { k with mem := r.1, bad := r.2.1, weak := unmet 4 k.weak w }, r.2.2)

/-- Write into the Yard by offset; the offsets of units not merged. -/
def State.yardWrite (s : State) (w : List (Nat × Byte)) : State × List Nat :=
  let r := writeChecked 8 s.yard.mem s.yard.bad w
  ({ s with yard := { mem := r.1, bad := r.2.1, weak := unmet 8 s.yard.weak w } }, r.2.2)

/-- The uncorrectable units of a core that a half-open range of offsets meets. -/
def Core.badIn (k : Core) (lo hi : Nat) : List Nat := unitsIn 4 k.bad lo hi
def State.yardBadIn (s : State) (lo hi : Nat) : List Nat := unitsIn 8 s.yard.bad lo hi

/-- The units with a correctable error that a half-open range of offsets meets. -/
def Core.weakIn (k : Core) (lo hi : Nat) : List Nat := unitsIn 4 k.weak lo hi
def State.yardWeakIn (s : State) (lo hi : Nat) : List Nat := unitsIn 8 s.yard.weak lo hi

/-- Address of the 64-byte line of an address. -/
def lineAddr (a : Nat) : Nat := a / 64 * 64

/-- The 64-byte lines that a half-open range of addresses meets. -/
def lineAddrs (lo hi : Nat) : List Nat := (List.range ((hi + 63) / 64 - lo / 64)).map fun i => 64 * (lo / 64 + i)

/-- The slice of a Yard offset (R169). -/
def State.slice (s : State) (off : Nat) : Nat := off / 64 % s.var.slices

/-- A core's memory as its engines and its Sequencer see it, by device address. -/
def State.coreRd (s : State) (c : Nat) : Rd := fun a =>
  if coreBase c ≤ a ∧ a < coreBase c + coreBytes then (Tab.get 0 (s.core c).mem (a - coreBase c)).toNat else 0

/-- A read through the address map of core memory and the Yard. -/
def State.rd (s : State) : Rd := fun a =>
  match s.place a with
  | .core c o => (Tab.get 0 (s.core c).mem o).toNat
  | .yard o => (Tab.get 0 s.yard.mem o).toNat
  | _ => 0

/-- `n` bytes through the address map. -/
def State.rdBytes (s : State) (a n : Nat) : List Byte := (List.range n).map fun i => BitVec.ofNat 8 (s.rd (a + i))

/-- Whether a Yard offset lies in a granule assigned to a domain (R172, R173, R178). -/
def State.yardOk (s : State) (d off : Nat) : Bool :=
  let g := s.gran (off / 65536)
  g.valid && !g.knl && g.dom == d && !g.scrub

/-! ### Mesh paths (R169, R442) -/

/-- Whether a mesh path between two routers must cross a failed link (R442, log entry 149). A router has its core's number. -/
def State.undeliverable (s : State) (a b : Nat) : Bool := s.ras.linkDown.any (Config.crosses a b)

/-- Whether a path from a router to the slice of a Yard offset does so: the slice's router is that of core 4 × slice (R169). -/
def State.yardCut (s : State) (a off : Nat) : Bool := s.undeliverable a (4 * s.slice off)

/-! ### Error records (R444 to R447) -/

/-- Source kinds of an error record (R444). -/
def skCore : Nat := 0
def skSlice : Nat := 1
def skStore : Nat := 2
def skChan : Nat := 3
def skLoop : Nat := 4
def skPio : Nat := 5
def skLink : Nat := 6
def skTally : Nat := 7
def skFn : Nat := 8
def skKnl : Nat := 9
def skSched : Nat := 10
def skSec : Nat := 11
def skLeash : Nat := 12
def skKnago : Nat := 13

/-- Put an error record into the queue of the log, or lose it when 64 are waiting (R446). -/
def State.recordN (s : State) (count cls code : Nat) (dom : Option Nat) (skind sidx addr detail : Nat) : State :=
  if s.ras.queue.length < 64 then
    { s with ras := { s.ras with queue := s.ras.queue ++
        [{ t := s.dt, seq := 0, cls, code, dom, skind, sidx, count, addr, detail }] } }
  else { s with ras := { s.ras with lost := satAdd 7 s.ras.lost 1 } }
def State.record (s : State) (cls code : Nat) (dom : Option Nat) (skind sidx addr detail : Nat) : State :=
  s.recordN 1 cls code dom skind sidx addr detail

/-- Count an uncorrectable error met (R447) and write its record of class UE (R445). -/
def State.ueMet (s : State) (code : Nat) (dom : Option Nat) (skind sidx addr : Nat) : State :=
  ({ s with ras := { s.ras with ue := satAdd 32 s.ras.ue 1 } }).record 2 code dom skind sidx addr 0

/-- The die asks firmware on the TMC for a full reset (R405, R438, R443), with the class and code of the reason; the watchdog counts from the
first request (R477). -/
def State.askTmc (s : State) (cls code : Nat) : State :=
  { s with ras := { s.ras with
    asks := if s.ras.asks.contains (cls, code) then s.ras.asks else s.ras.asks ++ [(cls, code)]
    askAt := if s.ras.asks.isEmpty then s.boot.wdNow else s.ras.askAt } }

/-- A FATAL record signals the TMC, which must assert full reset (R443). -/
def State.fatal (s : State) (code skind sidx addr : Nat) : State :=
  (s.record 0x0B code none skind sidx addr 0).askTmc 0x0B code

/-! ### Events and messages (R368, R379 to R384) -/

/-- Whether a vector's message must wait: MSI-X is not enabled, or the function or the vector is masked (R359). -/
def FnSt.msixHeld (f : FnSt) (vec : Nat) : Bool := !f.cfg.msixEn || f.cfg.fnMask || natBit f.msixMask vec

/-- An MSI-X message of a function (R359, R382): pending while it must wait; a request that cannot be issued ends without retry (R388). -/
def State.msix (s : State) (fn : Fn) (vec : Nat) : State :=
  if (s.fnSt fn).msixHeld vec then s.updFn fn fun f => { f with msixPend := f.msixPend ||| 2 ^ vec }
  else if s.fnReachAt fn (Tab.get 0 (s.fnSt fn).msixAddr vec) 4 then
    s.updFn fn fun f => { f with msixSent := Tab.upd 0 f.msixSent vec (· + 1) }
  else s

/-- Signal an event queue after an entry, at most once per ITIME (R382). -/
def State.signalEq (s : State) (d q : Nat) : State :=
  let e := s.evq d q
  if e.itime = 0 then s.msix e.fn e.vec
  else match e.itEnd with
    | some _ => s.updEvq d q fun e => { e with itPend := true }
    | none => (s.msix e.fn e.vec).updEvq d q fun e => { e with itEnd := some (s.dt + 1000 * e.itime) }

/-- The 16 bytes of an event entry (R379). -/
def eventEntry (ph lostf : Bool) (kind code aux id t : Nat) : List Byte :=
  toLE 16 (fields [(127, bit ph), (126, bit lostf), (120, kind % 64), (112, code % 256), (96, aux % 65536),
    (64, id % 2 ^ 32), (0, t % 2 ^ 64)])

/-- An event queue is disabled (R383, R388). -/
def EvQ.off (x : EvQ) : EvQ := { x with en := false, itEnd := none, itPend := false }

/-- Post an event to a queue (R381) with the DT of the event: discarded when it is not enabled, lost when it is full. A queue whose memory
cannot be reached is disabled (R388). -/
def State.postAt (s : State) (t d q kind code aux id : Nat) : State :=
  let e := s.evq d q
  if !e.en then s
  else
    let n := e.nM1 + 1
    if (e.tail + n - e.head) % n = n - 1 then s.updEvq d q fun e => { e with lost := satAdd 32 e.lost 1, lostf := true }
    else if !s.fnReachAt e.fn (e.base + 16 * e.tail) 16 then s.updEvq d q EvQ.off
    else
      let entry := eventEntry e.phase e.lostf kind code aux id t
      let s := s.updFn e.fn fun f => { f with mem := f.mem.write (e.base + 16 * e.tail) entry }
      let s := s.updEvq d q fun e =>
        { e with tail := (e.tail + 1) % n, phase := if e.tail + 1 = n then !e.phase else e.phase, lostf := false }
      s.signalEq d q

/-- Post an event that happens now. -/
def State.post (s : State) (d q kind code aux id : Nat) : State := s.postAt s.dt d q kind code aux id

/-- Post an event to the device queue (R380, R384). -/
def State.postDevice (s : State) (kind code aux id : Nat) : State :=
  let w := s.hif.devevt.toNat
  if natBit w 63 then s.post (natBits w 62 59) (natBits w 58 57) kind code aux id else s

/-- HIF_DOMEVTd of a domain (R384). -/
def State.domevt (s : State) (d : Nat) : Nat := (Tab.get 0 s.hif.domevt d).toNat

/-! ### Tallies (R229 to R234, R448) -/

def tallies : Nat := 262144
def tallyAddr (k : Nat) : Nat := 0x800000 + 8 * k

/-- Whether a tally lies in a domain's range (R232). -/
def State.ownsTally (s : State) (d k : Nat) : Bool :=
  let w := (Tab.get 0 s.tly.drange d).toNat
  natBits w 17 0 ≤ k && k < natBits w 50 32
def State.tallyVal (s : State) (k : Nat) : Nat := Tab.get 0 s.tly.val k
def State.tallyFailed (s : State) (k : Nat) : Bool := s.tly.failed.contains k

/-- A refused tally operation (R233). -/
def State.tallyRefuse (s : State) (d k : Nat) : State :=
  ({ s with tly := { s.tly with refused := satAdd 32 s.tly.refused 1 } }).record 3 2 (some d) skTally 0
    (tallyAddr k % 2 ^ 48) (k % 2 ^ 18)

/-- Whether a failed link loses an operation on its way to its tally: from the core of a task, or from another unit (R442). -/
def State.tallyLost (s : State) (op : TOp) : Bool :=
  let from_ := match op.uid.bind s.task with
    | some t => (match t.st with
      | .running c _ => c
      | .draining c _ => c
      | _ => Config.meshRouter 2)
    | none => Config.meshRouter 2
  s.undeliverable from_ (Config.meshRouter 1)

/-- Issue an ADD or SET, checked against the initiator's domain (R233); one that cannot be delivered is lost (R442). -/
def State.tallyIssue (s : State) (op : TOp) : State :=
  if s.tallyLost op then s
  else if op.tally < tallies && s.ownsTally op.dom op.tally then { s with tly := { s.tly with ops := s.tly.ops ++ [op] } }
  else s.tallyRefuse op.dom op.tally

/-- An ADD of a unit other than a task. -/
def State.tallyAdd (s : State) (d k n : Nat) : State := s.tallyIssue ⟨k, false, n, d, none, 0⟩

/-- Whether a WAIT on a tally for `n` is met now (R229). -/
def State.waitMet (s : State) (k n : Nat) : Bool := !s.tallyFailed k && decide (n ≤ s.tallyVal k)

/-! ### The commit copy (R124, R126, R127) -/

/-- Bytes of `x` rounded up to whole lines. -/
def lineUp (x : Nat) : Nat := (x + 63) / 64 * 64

/-- The bytes of one half of a CIB (R124). -/
def SolveCtl.halfBytes (sc : SolveCtl) : Nat := lineUp (4 * sc.nVar) + 2 * lineUp (4 * sc.mCon)

/-- What a commit copy reads: for z, z_c and y the offset in core memory, the bytes and the place in the half (R124). -/
def CommitJob.parts (j : CommitJob) (c : Nat) (sc : SolveCtl) : List (Nat × Nat × Nat) :=
  let n := 4 * sc.nVar
  let m := 4 * sc.mCon
  [(j.z - coreBase c, n, 0), (j.zc - coreBase c, m, lineUp n), (j.y - coreBase c, m, lineUp n + lineUp m)]

/-- A line of the target half: its place in the half, and the offsets in core memory that bound the bytes it takes. -/
structure CopyLine where
  at_ : Nat
  lo : Nat
  hi : Nat
deriving DecidableEq, Repr

/-- The lines of a commit copy (R127). -/
def CommitJob.lines (j : CommitJob) (c : Nat) (sc : SolveCtl) : List CopyLine :=
  (j.parts c sc).flatMap fun p => (List.range (lineUp p.2.1 / 64)).map fun i =>
    ⟨p.2.2 + 64 * i, p.1 + 64 * i, min (p.1 + 64 * i + 64) (p.1 + p.2.1)⟩

/-- The offset in core memory of the half that a commit copy fills. -/
def CommitJob.target (j : CommitJob) (c : Nat) (sc : SolveCtl) : Nat := j.cib + 64 + j.half * sc.halfBytes - coreBase c

/-- The bytes of the elements that a commit copy reads. -/
def State.copyBits (s : State) (c : Nat) (sc : SolveCtl) (j : CommitJob) : List Nat :=
  (j.parts c sc).flatMap fun p => ((s.core c).mem.read p.1 p.2.1).map (·.toNat)

/-- One line of a commit copy, by offset: the bytes it takes, and after a vector's last element pad bytes, each of them an open value of
the COMMIT (R79, log entry 46). -/
def State.copyLine (s : State) (c : Nat) (sc : SolveCtl) (j : CommitJob) (l : CopyLine) : List (Nat × Byte) :=
  let n := l.hi - l.lo
  bytesAt (j.target c sc + l.at_) ((s.core c).mem.read l.lo n ++
    (List.range (64 - n)).map fun i => BitVec.ofNat 8 (Config.cmdFree j.key (s.copyBits c sc j) [4, l.at_ + n + i]))

/-- The uncorrectable words in the 64-byte lines that a line of a commit copy reads, and in those of the whole copy (R127, R139). -/
def State.copyLineBad (s : State) (c : Nat) (l : CopyLine) : List Nat := (s.core c).badIn (lineAddr l.lo) (lineUp l.hi)
def State.copyBad (s : State) (c : Nat) (sc : SolveCtl) (j : CommitJob) : List Nat := (j.lines c sc).flatMap (s.copyLineBad c)

/-- One of several uncorrectable lines that are read, by a free value (R140, log entry 36). -/
def State.pickOne (s : State) (l : List Nat) : Option Nat × State :=
  match l with
  | [] => (none, s)
  | a :: _ => (some (l.getD ((s.draw).1 % l.length) a), (s.draw).2)

/-- Whether the commit copy of a slot still waits for an earlier command to leave the scoreboard (R126 step 2). -/
def State.copyHeld (s : State) (c k : Nat) : Bool :=
  (s.core c).sb.any fun r => (s.slot c k).copyHold.contains (r.uid, r.cseq)

/-- The lines that a commit copy has written when it ends early: each line that it can read is written or not by a free value (log entries
47 and 222). -/
def State.copySome (s : State) (c : Nat) (sc : SolveCtl) (j : CommitJob) : State :=
  let ls := j.lines c sc
  let kept := ((ls.zipIdx.filter fun p => Config.freeValue (s.freeCtr + p.2) % 2 = 1).map (·.1)).filter fun l => (s.copyLineBad c l).isEmpty
  (({ s with freeCtr := s.freeCtr + ls.length }).coreWrite c (kept.flatMap (s.copyLine c sc j))).1

/-- A stop abandons the running commit copy of a slot, which leaves its half as leftover data (R120). An uncorrectable line that it had
received by then, which a free value says, is logged (R140). -/
def State.copyStop (s : State) (c k : Nat) : State :=
  let x := s.slot c k
  match x.copy with
  | none => s
  | some j =>
    if s.copyHeld c k then s
    else
      let bad := s.copyBad c x.sc j
      let p := (s.copySome c x.sc j).pickOne bad
      match p.1 with
      | none => p.2
      | some b =>
        if (p.2.draw).1 % 2 = 1 then (p.2.draw).2.ueMet 0 (some (s.owner c).dom) skCore c (lineAddr (coreBase c + b)) else (p.2.draw).2

/-! ### Tasks and their end (R118 to R121, R138) -/

/-- The commands of a task on a core that have not started, by CSEQ. -/
def Core.queuedOf (k : Core) (uid : Nat) : List Nat :=
  engineAll.flatMap fun e => ((k.eng e).queue.filter fun c => c.uid = uid).map (·.cseq)

/-- Remove the commands of a task that have not started, with their scoreboard ranges (R120). -/
def Core.dropQueued (k : Core) (uid : Nat) : Core :=
  let gone := k.queuedOf uid
  let k := engineAll.foldl (fun k e =>
    k.setEng e { k.eng e with queue := (k.eng e).queue.filter fun c => c.uid ≠ uid }) k
  { k with sb := k.sb.filter fun r => !(r.uid == uid && gone.contains r.cseq) }

/-- The highest CSEQ a slot has retired; 0 when none has. -/
def Slot.highest (k : Slot) : Nat := k.lastRet - 1

/-- The CSEQ of the COMMIT whose copy a slot runs. -/
def Slot.commitCseq (x : Slot) : Nat := ((x.ret.find? fun e => match e.act with
  | .commit _ => true
  | _ => false).map (·.cseq)).getD 0

/-- What a task that ends will never write: its commands that have not started, and its commit copy, by CSEQ (R120). -/
def State.neverDone (s : State) (c k uid : Nat) : List Nat :=
  (s.core c).queuedOf uid ++ (if (s.slot c k).copy.isSome then [(s.slot c k).commitCseq] else [])

/-- The ADDs of a task that wait for data which will never be written are dropped: one that took effect would announce what is not there
(R27, log entry 223). -/
def State.dropAdds (s : State) (uid : Nat) (never : List Nat) : State :=
  { s with tly := { s.tly with ops := s.tly.ops.filter fun o =>
      !(o.uid == some uid && !o.isSet && never.any fun n => decide (n < o.cseq)) } }

/-- The terminating event of the task in a slot (R118): the first one counts, and its drain starts (R120). What an abandoned commit copy
has written is free, and an ADD that waits for what will never be written is dropped (log entries 222 and 223). -/
def State.terminate (s : State) (c k : Nat) (status cause stopCseq : Nat) (derr : Option Nat) : State :=
  match (s.slot c k).uid with
  | none => s
  | some uid =>
    if (s.slot c k).term.isSome then s
    else
      let never := s.neverDone c k uid
      let s := (s.copyStop c k).dropAdds uid never
      let s := s.updCore c fun x => x.dropQueued uid
      let s := s.updSlot c k fun x =>
        { x with term := some ⟨status, cause, s.dt, stopCseq, derr⟩, stopIssue := true, wait := none, copy := none,
                 yield := none }
      s.updTask uid fun t => { t with st := .draining c k }

/-- The status of a deadline stop (R138). -/
def SolveCtl.deadlineStatus (sc : SolveCtl) : Nat :=
  if sc.retired && sc.method < 2 && sc.committed && sc.cv then 2 else 3

/-- The windows that a slot opened close (R167, R227). -/
def Core.closeWins (k : Core) (slot : Nat) : Core :=
  { k with wins := Tab.mapAll 0 k.wins fun _ w => if natBits w 7 5 = slot then w / 2 * 2 else w }

end Sys2Proof.Machine
end

