-- ==== Sys2Proof/Machine/Tasks.lean ====
section
/-!
DEFINITION. Task blocks (R211 to R213), what of memory belongs to a domain, and the entry of tasks into the queues (R215).
-/

namespace Sys2Proof.Machine

/-! ### What belongs to a domain -/

/-- Whether a half-open Yard range lies in granules of a domain. -/
def State.yardRangeOk (s : State) (d lo n : Nat) : Bool :=
  decide (lo + n ≤ s.var.granules * 65536)
  && (List.range ((lo + n + 65535) / 65536 - lo / 65536)).all fun i => s.yardOk d ((lo / 65536 + i) * 65536)

/-- Whether `n` bytes at a device address lie wholly in the memory of one core of a domain, or in its Yard granules (R213). -/
def State.domainRange (s : State) (d a n : Nat) : Bool :=
  match s.place a with
  | .core c off => off + n ≤ coreBytes && (s.owner c).valid && (s.owner c).dom == d
  | .yard off => s.yardRangeOk d off n
  | _ => false

/-- Whether `n` bytes at a device address lie wholly in one core's memory, or in Yard granules of a domain (R97). -/
def State.taskRange (s : State) (c d a n : Nat) : Bool :=
  match s.place a with
  | .core t off => t == c && off + n ≤ coreBytes
  | .yard off => s.yardRangeOk d off n
  | _ => false

/-! ### The task block (R211) -/

/-- A task block as read: each field of R211. -/
structure TaskBlock where
  job : Nat
  entry : Nat
  dlmode : Nat
  trigV : Bool
  doneV : Bool
  trigTally : Nat
  doneTally : Nat
  res : Nat
  trigN : Nat
  taskId : Nat
  deadline : Nat
  result : Nat
  arg : Nat
  countM1 : Nat
  stride : Nat
deriving DecidableEq, Repr

/-- The 40 bytes of a task block as fields. -/
def TaskBlock.ofNat (x : Nat) : TaskBlock where
  job := natBits x 319 312
  entry := natBits x 311 304
  dlmode := natBits x 303 302
  trigV := natBit x 301
  doneV := natBit x 300
  trigTally := natBits x 299 282
  doneTally := natBits x 281 264
  res := natBits x 263 256
  trigN := natBits x 255 224
  taskId := natBits x 223 192
  deadline := natBits x 191 128
  result := natBits x 127 80
  arg := natBits x 79 32
  countM1 := natBits x 31 16
  stride := natBits x 15 0

/-! ### Results of scheduler commands and submissions (R241) -/

def sresOk : Nat := 0
def sresNoJob : Nat := 1
def sresQueueFull : Nat := 2
def sresBadTally : Nat := 3
def sresBadAddr : Nat := 4
def sresBadDeadline : Nat := 5
def sresPackConflict : Nat := 6
def sresPinLimit : Nat := 7
def sresImage : Nat := 8
def sresBusy : Nat := 9
def sresNotControl : Nat := 0xA
def sresBadCommand : Nat := 0xB
def sresScrubFail : Nat := 0xC
def sresTooMany : Nat := 0xD
def sresBadModel : Nat := 0xE

/-! ### Submission -/

/-- Whether a task is pending: WAITING or READY (R215). -/
def Task.pending (t : Task) : Bool := t.st == .waiting || t.st == .ready

/-- The pending count of a domain (R215, R242). -/
def State.pendingCount (s : State) (d : Nat) : Nat := (s.sched.tasks.filter fun t => t.dom == d && t.pending).length

/-- Whether a block breaks a condition of R213 other than room in the queue, with the first SRES of its table. -/
def State.blockRefusal (s : State) (d : Nat) (b : TaskBlock) : Option Nat :=
  let j := s.job b.job
  let inst := List.range (b.countM1 + 1)
  if j.st ≠ .loaded || j.dom ≠ d then some sresNoJob
  else if (b.trigV && !s.ownsTally d b.trigTally) || (b.doneV && !s.ownsTally d b.doneTally) then some sresBadTally
  else if b.result % 32 ≠ 0 || b.arg % 64 ≠ 0
      || !(inst.all fun i => s.domainRange d (b.result + 96 * i) 96 && s.domainRange d (b.arg + 64 * b.stride * i) 64) then
    some sresBadAddr
  else if b.dlmode == 3 || (b.dlmode == 2 && !j.be) then some sresBadDeadline
  else if j.entries.length ≤ b.entry || b.res ≠ 0 then some sresBadCommand
  else none

/-- Whether the domain's queues have room for a block's tasks (R213). -/
def State.blockRoom (s : State) (d : Nat) (b : TaskBlock) : Bool := s.pendingCount d + b.countM1 + 1 ≤ 65536

/-- Instance `i` of an accepted block (R212, R215). -/
def State.newTask (s : State) (d : Nat) (b : TaskBlock) (i : Nat) : Task where
  uid := s.sched.nextUid + i
  job := b.job
  dom := d
  be := (s.job b.job).be
  entry := b.entry
  taskId := (b.taskId + i) % 2 ^ 32
  dlmode := b.dlmode
  dlval := b.deadline
  deadline := if b.dlmode = 0 then some b.deadline
    else if b.dlmode = 1 && !b.trigV then some ((s.dt + b.deadline) % 2 ^ 64) else none
  trigV := b.trigV
  trigTally := b.trigTally
  trigN := b.trigN
  trigSat := b.trigV && s.waitMet b.trigTally b.trigN
  doneV := b.doneV
  doneTally := b.doneTally
  result := b.result + 96 * i
  arg := b.arg + 64 * b.stride * i
  release := s.dt
  queueTime := s.dt
  tDisp := 0
  st := if b.trigV then .waiting else .ready

/-- The instances of an accepted block enter the queue in increasing order, as one event (R212). -/
def State.acceptBlock (s : State) (d : Nat) (b : TaskBlock) : State :=
  { s with sched := { s.sched with
      tasks := s.sched.tasks ++ (List.range (b.countM1 + 1)).map (s.newTask d b)
      nextUid := s.sched.nextUid + b.countM1 + 1 } }

/-- A WAIT or trigger outside the domain's range, or on a failed tally, is refused (R233, R448). -/
def State.waitRefused (s : State) (d k : Nat) : Bool := !(decide (k < tallies) && s.ownsTally d k) || s.tallyFailed k

end Sys2Proof.Machine
end

