-- ==== Sys2Proof/Machine/HostOps.lean ====
section
/-!
DEFINITION. Submission rings, host descriptors and their completion, doorbells, and what happens to rings and event queues when
a host falls silent (R369 to R390): the operations that the host's commands share.
-/

namespace Sys2Proof.Machine

/-! ### Descriptors (R371, R372) -/

/-- The header word, and the 40 bytes of the body as a number with the class's own numbering. -/
def HostCmd.hdr (h : HostCmd) : Nat := leNat (h.bytes.take 8)
def HostCmd.body (h : HostCmd) : Nat := leNat ((h.bytes.drop 8).take 40)
def HostCmd.cls (h : HostCmd) : Nat := natBits h.hdr 63 56
def HostCmd.tag (h : HostCmd) : Nat := natBits h.hdr 47 32
def HostCmd.xlen (h : HostCmd) : Nat := natBits h.hdr 31 0
/-- The operation byte of a scheduler, Kennel, loop or security command: bits [319:312] of the body. -/
def HostCmd.op (h : HostCmd) : Nat := natBits h.body 319 312

/-- HRES of a descriptor's header (R371 to R373). -/
def HostCmd.hres (h : HostCmd) : Nat :=
  if 5 < h.cls then 1
  else if natBits h.hdr 55 48 ≠ 0 ∨ (h.xlen ≠ 0 ∧ ¬(h.cls = 2 ∧ h.op = 0x10)) then 2
  else 0

/-- A reserved operation of a class, with the result that refuses it (R201, R240, R313, R416): scheduler, Kennel, loop, security. -/
def HostCmd.badOp (h : HostCmd) : Option Nat :=
  match h.cls with
  | 2 => if 0x10 ≤ h.op ∧ h.op ≤ 0x14 then none else some sresBadCommand
  | 3 => if 1 ≤ h.op ∧ h.op ≤ 5 then none else some 9
  | 4 => if 0x30 ≤ h.op ∧ h.op ≤ 0x33 then none else some 6
  | 5 => if 1 ≤ h.op ∧ h.op ≤ 4 then none else some 8
  | _ => none

/-- A ring by its key, and SRC of the scheduler command it has accepted (R239). -/
def State.ringAt (s : State) (key : Nat) : Ring := Tab.get {} s.hif.rings key
def State.cmdSrc (s : State) (key : Nat) : Nat := ((s.ringAt key).cur.map fun h => natBits h.body 63 0).getD 0

/-- Words of one ring of one domain that exist (R374). -/
def hasRing (d r : Nat) : Bool := decide (d < 16) && decide (r < 16)

/-! ### The progress of an accepted descriptor -/

/-- Change the progress of a ring's accepted descriptor. -/
def State.setCmd (s : State) (key : Nat) (st : CmdSt) : State :=
  { s with hif := { s.hif with rings := Tab.upd {} s.hif.rings key fun x => { x with cur := x.cur.map fun h => { h with st := st } } } }

/-- A descriptor of a ring is done with a result (R373). -/
def State.cmdDone (s : State) (key result : Nat) : State := s.setCmd key (.done 0 result s.dt)

/-- A row of the table that carries out an accepted descriptor: it acts when the ring's accepted descriptor is of its class and
operation and has not been carried out. -/
def hostRow (d r cls : Nat) (op : Option Nat) (s : State) (f : HostCmd → State → State) : Out :=
  if !hasRing d r then .fault .noSuchUnit
  else match (s.ring d r).cur with
    | none => .next s
    | some h =>
      if h.st = .fresh ∧ h.cls = cls ∧ op.all (· = h.op) then .next (f h s) else .next s

/-! ### Halts (R377, R388) -/

/-- Reasons of a halt (R374 HRSN). -/
def hrFetch : Nat := 1
def hrWriteback : Nat := 2
def hrLink : Nat := 3
def hrMask : Nat := 4

/-- A ring halts with a reason, and its event is posted when its queue can still be written (R377, R380). -/
def State.haltRing (s : State) (d r reason : Nat) : State :=
  let s := s.updRing d r fun x =>
    { x with state := 2, hrsn := reason, reading := false, again := false, stall := false, mute := x.cur.isSome }
  s.post d (s.ring d r).eq 5 reason 0 r

/-- The rings and event queues of one function in the domains of a mask: queues are disabled, then running rings halt (R365, R388). -/
def State.haltFn (s : State) (fn : Fn) (mask reason : Nat) : State :=
  let off := fun (k : Nat) (x : EvQ) =>
    if x.fn == fn && natBit mask (k / 4) then x.off else x
  let s := { s with hif := { s.hif with eqs := Tab.mapAll {} s.hif.eqs off } }
  let keys := (s.hif.rings.filter fun p => p.2.fn == fn && natBit mask (p.1 / 16) && p.2.state == 1).map (·.1)
  keys.foldl (fun s k => s.haltRing (k / 16) (k % 16) reason) s

/-- The disarming of a full-reset request by a hot reset of its function (R389). -/
def State.disarm (s : State) (fn : Fn) : State :=
  match s.hif.armed with
  | some (f, _) => if f = fn then { s with hif := { s.hif with armed := none } } else s
  | none => s

/-! ### Reading descriptors (R375, R377) -/

/-- Whether a ring may read its next descriptor (R375). -/
def Ring.mayRead (x : Ring) : Bool := x.en && x.state == 1 && x.head ≠ x.tail && x.cur.isNone && !x.reading && !x.stall

/-- SQ_DESCRIPTOR_FETCH: the read of descriptor HEAD is sent; a function that cannot be reached ends it at once (R388). -/
def execSqDescriptorFetch (d r : Nat) (s : State) : Out :=
  if !hasRing d r then .fault .noSuchUnit
  else
    let x := s.ring d r
    if !x.mayRead then .next s
    else if !s.fnReachAt x.fn (x.base + 64 * x.head) 64 then .next (s.haltRing d r hrFetch)
    else .next ((s.sendRead x.fn (x.base + 64 * x.head) 64).updRing d r fun x => { x with reading := true })

/-- The state of a descriptor accepted at a DT: refused by its header or its operation, or to be carried out. A descriptor of CLASS 3 or a
JOB_LOAD waits for the store first (R469). -/
def HostCmd.begin (h : HostCmd) (store : Bool) (t : Nat) : CmdSt :=
  if !store && (h.cls == 3 || (h.cls == 2 && h.op == 0x10)) then .fresh
  else if h.hres ≠ 0 then .done h.hres 0 t
  else match h.badOp with
    | some res => .done 0 res t
    | none => .fresh

/-- The descriptors that waited for the store begin once it is ready (R469). -/
def State.beginAgain (s : State) : State :=
  let again := fun (h : HostCmd) => if h.st = .fresh then { h with st := h.begin true s.dt } else h
  { s with hif := { s.hif with rings := Tab.mapAll {} s.hif.rings fun _ x => { x with cur := x.cur.map again } } }

/-- SQ_DESCRIPTOR_RETURN: the read ends with the descriptor or with an error (R375, R377, R390). LOCK and set-up control are noted as they
stand then (log entry 242). -/
def execSqDescriptorReturn (d r : Nat) (resp : HostRead) (s : State) : Out :=
  if !hasRing d r then .fault .noSuchUnit
  else
    let x := s.ring d r
    if !x.reading then .next s
    else if !x.en then .next (s.updRing d r fun x => { x with reading := false, again := false })
    else match resp with
      | .data bs =>
        if natBit ((bs.getD 63 0).toNat) 7 then
          let h : HostCmd := {
            index := x.head, bytes := bs.take 48, st := .fresh, seq := s.hif.accepted,
            locked := s.sec.lock, ctl := s.hif.holder == some x.fn }
          let s := { s with hif := { s.hif with accepted := s.hif.accepted + 1 } }
          .next (s.updRing d r fun x => { x with
            reading := false, again := false, head := (x.head + 1) % (x.nM1 + 1), cur := some { h with st := h.begin s.boot.store s.dt } })
        else .next (s.updRing d r fun x => { x with reading := false, again := false, stall := !x.again })
      | _ => .next (s.haltRing d r hrFetch)

/-! ### Completion (R373, R375, R377) -/

/-- Bytes 48 to 63 of a descriptor as the first write leaves them, with OWN still 1 (R373). -/
def statusBytes (dt index ring hres result : Nat) : List Byte :=
  toLE 16 (fields [(127, 1), (64, dt % 2 ^ 63), (48, index % 65536), (44, ring % 16), (24, hres % 256),
    (0, if hres = 0 then result % 2 ^ 24 else 0)])

/-- Byte 63 as the second write leaves it: OWN 0, the timestamp's bits as the first write wrote them (R373). -/
def ownByte (dt : Nat) : Byte := BitVec.ofNat 8 (dt / 2 ^ 56 % 128)

/-- HOST_DESCRIPTOR_COMPLETE: one of the two writes that complete a descriptor (R23, R373, R375). The first writes the status with OWN 1;
the second clears OWN, and WB advances and the event is posted. T_DONE and the event's T are the DT of the completion (R373, R379). On a ring that has halted the effect stands and nothing more is written
(R377, R390). -/
def execHostDescriptorComplete (d r : Nat) (writeOk : Bool) (s : State) : Out :=
  if !hasRing d r then .fault .noSuchUnit
  else
    let x := s.ring d r
    match x.cur with
    | none => .next s
    | some h =>
      let a := x.base + 64 * h.index + 48
      let quit := s.updRing d r fun x => { x with cur := none, mute := false }
      match h.st with
      | .done hres result t =>
        if x.mute then .next quit
        else if !writeOk || !s.fnReachAt x.fn a 16 then .next (quit.haltRing d r hrWriteback)
        else
          let s := s.updFn x.fn fun f => { f with mem := f.mem.write a (statusBytes t h.index r hres result) }
          .next (s.setCmd (ringKey d r) (.written hres result t))
      | .written hres result t =>
        if x.mute then .next quit
        else if !writeOk || !s.fnReachAt x.fn (a + 15) 1 then .next (quit.haltRing d r hrWriteback)
        else
          let s := quit.updFn x.fn fun f => { f with mem := f.mem.write (a + 15) [ownByte t] }
          let s := s.updRing d r fun x => { x with wb := (h.index + 1) % (x.nM1 + 1), state := if x.en then x.state else 0 }
          let wants := x.evt = 1 ∨ (x.evt = 2 ∧ (hres ≠ 0 ∨ result % 256 ≠ 0))
          if wants then .next (s.postAt t d x.eq 1 (if hres ≠ 0 then hres else result % 256) h.tag (r * 65536 + h.index))
          else .next s
      | _ => .next s

/-- HOST_NOP: its body must be 0 (R372). A body that is not 0 is a reserved field (log entry 102): HRES BAD_HEADER. -/
def execHostNop (d r : Nat) (s : State) : Out :=
  hostRow d r 0 none s fun h s =>
    s.setCmd (ringKey d r) (if h.body = 0 then .done 0 0 s.dt else .done 2 0 s.dt)

/-! ### Doorbells (R369, R370) -/

/-- A filtered access (R368, R369). -/
def State.filtered (s : State) : State := { s with hif := { s.hif with filt := satAdd 16 s.hif.filt 1 } }
/-- HIF_STAT.UR counts (R362, R368, R369). -/
def State.countUr (s : State) : State := { s with hif := { s.hif with ur := satAdd 16 s.hif.ur 1 } }

/-- An Unsupported Request error is logged under AER (R359, R362): its status bit, and the header of the first error not masked. -/
def FnSt.logUr (f : FnSt) (hdr : Nat) : FnSt :=
  { f with
    aerUnc := f.aerUnc ||| 2 ^ 20
    aerLog := if natBit f.cfg.aerMask 20 || f.aerUnc ≠ f.aerUnc &&& f.cfg.aerMask then f.aerLog else hdr }

/-- An access that ends under R362: counted, and a write is logged under AER (R362, R368). -/
def State.unsupported (s : State) (fn : Fn) (addr size : Nat) (isWrite : Bool) : State :=
  s.countUr.updFn fn fun f => if isWrite then f.logUr (Config.tlpHeader (fnNum fn) addr size) else f
/-- A doorbell value that is discarded (R370). -/
def State.badDoorbell (s : State) (fn : Fn) (d : Nat) : State := s.record 4 0 (some d) skFn (fnNum fn) 0 0

/-- Whether BAR0 and BAR2 of a function answer (R469): an access reaches it through its tunnel, and not in D3hot. -/
def State.fnAnswers (s : State) (fn : Fn) : Bool := (s.fnSt fn).ready && (s.fnSt fn).ls == 2 && !(s.fnSt fn).d3

/-- A doorbell page accepts a write from a host driver of its domain (R369), and with IDE required only in a Secure stream (R412). -/
def State.pageTakes (s : State) (fn : Fn) (d : Nat) (ide : Bool) : Bool := s.isDriver fn d && !s.ideFilters fn ide

/-- SQ_TAIL_WRITE (R369, R370, R375). -/
def execSqTailWrite (fn : Fn) (d r : Nat) (v : Word) (ide : Bool) (s : State) : Out :=
  if !hasRing d r then .fault .noSuchUnit
  else if !s.fnAnswers fn then .next s
  else if !s.pageTakes fn d ide then .next s.filtered
  else if (s.ring d r).nM1 < v.toNat then .next (s.badDoorbell fn d)
  else .next (s.updRing d r fun x => { x with tail := v.toNat, stall := false, again := x.reading })

/-- EQ_HEAD_WRITE (R369, R370). -/
def execEqHeadWrite (fn : Fn) (d q : Nat) (v : Word) (ide : Bool) (s : State) : Out :=
  if !(decide (d < 16) && decide (q < 4)) then .fault .noSuchUnit
  else if !s.fnAnswers fn then .next s
  else if !s.pageTakes fn d ide then .next s.filtered
  else if (s.evq d q).nM1 < v.toNat then .next (s.badDoorbell fn d)
  else .next (s.updEvq d q fun x => { x with head := v.toNat })

/-- TALLY_ADD: a doorbell ADD (R369, R370, R233). A word whose upper bits are not 0 is discarded with an error record (log entry 103). -/
def execTallyAdd (fn : Fn) (d : Nat) (v : Word) (ide : Bool) (s : State) : Out :=
  if !(decide (d < 16)) then .fault .noSuchUnit
  else if !s.fnAnswers fn then .next s
  else if !s.pageTakes fn d ide then .next s.filtered
  else if natBits v.toNat 63 50 ≠ 0 then .next (s.badDoorbell fn d)
  else .next (s.tallyAdd d (natBits v.toNat 49 32) (natBits v.toNat 31 0))

/-! ### Interval messages (R382) -/

/-- EQ_ITIME_EXPIRY: the interval ends, with one message if entries were written within it (R382). -/
def execEqItimeExpiry (d q : Nat) (s : State) : Out :=
  if !(decide (d < 16) && decide (q < 4)) then .fault .noSuchUnit
  else match (s.evq d q).itEnd with
    | none => .next s
    | some t =>
      let e := s.evq d q
      if s.dt < t then .next s
      else if e.itPend then
        .next ((s.msix e.fn e.vec).updEvq d q fun x => { x with itEnd := some (s.dt + 1000 * e.itime), itPend := false })
      else .next (s.updEvq d q fun x => { x with itEnd := none })

/-! ### Tunnels, resets of a function, D3hot (R356, R367, R387, R388) -/

/-- The reset values of a function's configuration space (R387). The MSI-X table and PBA lie in BAR0, but an MSI-X mask and a pending
bit are part of the capability's state and take their reset values (log entry 104). -/
def FnSt.cfgReset (f : FnSt) : FnSt :=
  { f with bme := false, d3 := false, aerUnc := 0, aerCor := 0, aerLog := 0, cfg := {}, msixMask := 2 ^ 64 - 1, msixPend := 0
           spdmVer := none, spdmAlg := false }

/-- What its host then writes into a function's configuration space, once the function answers configuration requests (R469). -/
def FnSt.configure (f : FnSt) (bme : Bool) (cfg : CfgSpace) : FnSt :=
  { f with bme := bme && f.ready, cfg := if f.ready then cfg.oneEach else f.cfg }

/-- A loss counted in LINKDN (R368). -/
def State.countLinkDown (s : State) : State := { s with hif := { s.hif with linkdn := satAdd 16 s.hif.linkdn 1 } }

/-- All domains. -/
def allDomains : Nat := 0xFFFF

/-- Drop the SPDM sessions of a function (R406). -/
def State.dropSessions (s : State) (fn : Fn) : State :=
  { s with sec := { s.sec with sessions := s.sec.sessions.filter fun x => x.fn ≠ fn, streams := s.sec.streams.filter fun x => x.fn ≠ fn } }

end Sys2Proof.Machine
end

