-- ==== Sys2Proof/Machine/Leash.lean ====
section
/-!
DEFINITION. Leash (R426 to R434): credits, demands, floors, grants, the rail, and the commands that move them. A step is an
index: 0 for 0.4 GHz up to 6 for 1.6 GHz; a rail is an index: 0 for 0.55 V up to 4 for 0.75 V.
-/

namespace Sys2Proof.Machine

/-! ### Steps, rails, credits (R428 to R430) -/

/-- A step in units of 0.1 GHz. -/
def stepTenths (s : Nat) : Nat := 4 + 2 * s
/-- A rail in mV. -/
def railMv (r : Nat) : Nat := 550 + 50 * r
/-- The rail a step requires (R428). -/
def railOf (s : Nat) : Nat := s - 2
/-- The highest step a rail allows (R428). -/
def railStep (r : Nat) : Nat := r + 2
/-- The step of 1.2 GHz. -/
def floorStep : Nat := 4

/-- Credits of a demand in mA at a step and a rail (R430). -/
def credits (ma step mv : Nat) : Nat := (ma * stepTenths step * mv + 3899999) / 3900000

/-- Charge of an engine with a started command (R430). -/
def engineCharge : Engine → Nat
  | .se => 250
  | .dbe => 300
  | .ve => 150
  | .ru => 100
  | .lte => 400

/-- Whether an island holds an occupied slot or a draining command (R430). -/
def Core.busy (k : Core) : Bool :=
  (List.range 8).any (fun i => (k.slot i).uid.isSome) || engineAll.any fun e => (k.eng e).run.isSome

/-- The demand of a core in mA; `extra` is an engine about to start (R430). -/
def Core.demand (k : Core) (extra : Option Engine) : Nat :=
  if !k.busy then 0
  else 200 + ((engineAll.filter fun e => (k.eng e).run.isSome || extra == some e).map engineCharge).sum

/-- The full charge of a core (R431). -/
def fullCharge (v : Variant) (c : Nat) : Nat := if v.coreLte c then 1400 else 1000

/-- The rail at which credits are counted: the higher of two while it moves (R428). -/
def State.railNow (s : State) : Nat := max s.pwr.rail (s.pwr.railNext.getD 0)
def State.mv (s : State) : Nat := railMv s.railNow

/-- The rail that a step may count on: the lower of two while it moves, so that the rail rises before a step and falls after it (R428). -/
def State.railSure (s : State) : Nat := min s.pwr.rail (s.pwr.railNext.getD s.pwr.rail)

/-- The step Leash has decided for a core. -/
def Core.stepDecided (k : Core) : Nat := k.stepNext.getD k.step

/-- Present cores that are not fenced. -/
def State.liveCores (s : State) : List Nat := (List.range s.var.cores).filter fun c => !s.ras.fence.contains c

/-- The floor of a core at a rail in mV (R431). -/
def State.floorAt (s : State) (mv c : Nat) : Nat :=
  if (s.core c).isFloor then credits (fullCharge s.var c) floorStep mv else 0

/-- The least grant of a core at a rail in mV: its demand at the decided step, and its floor. -/
def State.needAt (s : State) (mv c : Nat) (extra : Option Engine) (step : Nat) : Nat :=
  max (credits ((s.core c).demand extra) step mv) (s.floorAt mv c)
/-- The least grant of a core at the rail in use. -/
def State.need (s : State) (c : Nat) (extra : Option Engine) (step : Nat) : Nat := s.needAt s.mv c extra step

/-- The sum of the grants and of the floors. -/
def State.gsum (s : State) : Nat := (s.cores.map fun p => p.2.grant).sum
def State.fsumAt (s : State) (mv : Nat) : Nat := (s.liveCores.map (s.floorAt mv)).sum

/-- C_tot at a rail in mV (R429). A budget below PFIX leaves no credit (log entry 139). -/
def State.ctotAt (s : State) (mv : Nat) : Nat :=
  let p := s.pwr
  let b := min (min p.budget 300) (min (p.tray - p.pto) p.tmccap)
  min 840 (20 * (b * p.der - 10 * s.sec.sensed.pfix) / mv)

/-- Whether an LC job is loaded, or is being loaded and its floors are being granted. -/
def State.lcLoaded (s : State) : Bool :=
  s.cores.any (·.2.isFloor) || s.sched.jobs.any fun p => !p.2.be && p.2.st ≠ .free && p.2.st ≠ .loading

/-- FMAX as Leash takes it (R431). -/
def State.fmaxEff (s : State) : Nat := if s.lcLoaded then max s.pwr.fmax floorStep else s.pwr.fmax

/-- The highest step an island may run at (R431, R434, R437). -/
def State.capStep (s : State) (c : Nat) : Nat :=
  if (s.pwr.floordef || s.pwr.hot) && !(s.core c).isFloor then 0
  else if s.pwr.lowv || s.pwr.hot then min s.fmaxEff floorStep else s.fmaxEff

/-! ### Moving grants, steps and the rail -/

/-- The credits by which ΣG may still rise or fall within the last 1 µs (R433). -/
def State.room (s : State) (up : Bool) : Nat :=
  let recent := s.pwr.moves.filter fun m => s.dt < m.1 + 1000
  let used := ((recent.filter fun m => if up then decide (0 < m.2) else decide (m.2 < 0)).map fun m => m.2.natAbs).sum
  80 - used

/-- Set a core's grant, noting the change of ΣG. -/
def State.setGrant (s : State) (c g : Nat) : State :=
  let old := (s.core c).grant
  if g = old then s
  else
    let s := s.updCore c fun k => { k with grant := g }
    { s with pwr := { s.pwr with moves := s.pwr.moves.filter (fun m => s.dt < m.1 + 1000) ++ [(s.dt, (g : Int) - old)] } }

/-- Decide a step for a core; a step-down of a non-floor island counts (R460). -/
def State.setStep (s : State) (c step : Nat) : State :=
  let k := s.core c
  if step = k.stepDecided then s
  else
    let s := if step < k.stepDecided ∧ !k.isFloor then
        { s with pwr := { s.pwr with stepdn := satAdd 32 s.pwr.stepdn 1 } } else s
    s.updCore c fun k => { k with stepNext := if step = k.step then none else some step }

/-- Note when a core's demand has fallen below its grant (R433). -/
def State.noteFall (s : State) (c : Nat) : State :=
  let k := s.core c
  if s.need c none k.stepDecided < k.grant then
    s.updCore c fun k => { k with fallAt := if k.fallAt.isSome then k.fallAt else some s.dt }
  else s.updCore c fun k => { k with fallAt := none }

/-- The rail Leash wants: what the highest step it allows requires (R428). Where it holds every island but the floor islands at 0.4 GHz and
there is no floor island, that is the lowest. -/
def State.railTarget (s : State) : Nat :=
  railOf (if (s.pwr.floordef || s.pwr.hot) && !s.liveCores.any (fun c => (s.core c).isFloor) then 0
    else if s.pwr.lowv || s.pwr.hot then min s.fmaxEff floorStep else s.fmaxEff)

/-- The credits that are free (R432). -/
def State.freeCredits (s : State) : Nat := s.pwr.ctot - s.gsum

/-- Raise a core's grant towards `g` by at most `lim` credits. -/
def State.raiseGrant (s : State) (c g lim : Nat) : State :=
  let old := (s.core c).grant
  s.setGrant c (max old (min g (old + lim)))

/-- Every floor island gets its floor as the room allows, free credits or not, and once it holds it goes up to 1.2 GHz (R431, R433,
R434). -/
def State.floorsUp (s : State) : State :=
  (s.liveCores.filter fun c => (s.core c).isFloor).foldl (fun s c =>
    let s := s.raiseGrant c (s.need c none (s.core c).stepDecided) (s.room true)
    if (s.core c).stepDecided < floorStep ∧ s.floorAt s.mv c ≤ (s.core c).grant then s.setStep c floorStep else s) s

/-- Every island whose occupied slot is not yet covered gets what is free (R430, log entry 182). -/
def State.othersUp (s : State) : State :=
  s.liveCores.foldl (fun s c =>
    s.raiseGrant c (s.need c none (s.core c).stepDecided) (min s.freeCredits (s.room true))) s

/-- Start a move of the rail: up once every grant covers its island at the higher voltage, down only when every island's step allows it
(R428, R433). -/
def State.startRail (s : State) : State :=
  let t := s.railTarget
  let mv := railMv t
  if s.pwr.railNext.isSome || t = s.pwr.rail then s
  else if s.pwr.rail < t then
    let need := fun (s : State) c => s.needAt mv c none (s.core c).stepDecided
    let s := s.liveCores.foldl (fun s c => s.raiseGrant c (need s c) (s.room true)) s
    if s.liveCores.all fun c => decide (need s c ≤ (s.core c).grant) then { s with pwr := { s.pwr with railNext := some t } } else s
  else if s.liveCores.all fun c => decide ((s.core c).step ≤ railStep t) && decide ((s.core c).stepDecided ≤ railStep t) then
    { s with pwr := { s.pwr with railNext := some t } }
  else s

/-- The credits by which ΣG would still be above C_tot if every grant fell to its island's need at the step decided. -/
def State.shortfall (s : State) : Nat :=
  (s.liveCores.map fun c => min (s.core c).grant (s.need c none (s.core c).stepDecided)).sum - s.pwr.ctot

/-- Reclaim from one island: it steps down, as far as `low`, only by what the steps already decided leave short, and gives back what it
no longer needs as the room for a fall allows (R433). -/
def State.reclaimOne (s : State) (c low : Nat) : State :=
  let k := s.core c
  let short := s.shortfall
  let now := min k.grant (s.need c none k.stepDecided)
  let steps := ((List.range (k.stepDecided + 1)).reverse).filter fun x => decide (low ≤ x)
  let st := if short = 0 then k.stepDecided
    else (steps.find? fun st => decide (s.need c none st + short ≤ now)).getD (min low k.stepDecided)
  let back := min (s.gsum - s.pwr.ctot) (s.room false)
  (s.setStep c st).setGrant c (max (min k.grant (s.need c none st)) (k.grant - back))

/-- Reclaim until ΣG is within C_tot: other islands first, from the highest core down to 0.4 GHz, then floor islands down to
1.2 GHz (R433). -/
def State.reclaim (s : State) : State :=
  let down := s.liveCores.reverse
  let s := (down.filter fun c => !(s.core c).isFloor).foldl (fun s c => s.reclaimOne c 0) s
  (down.filter fun c => (s.core c).isFloor).foldl (fun s c => s.reclaimOne c floorStep) s

/-- Since when each island's demand has been below its grant (R433). -/
def State.noteFalls (s : State) : State := s.liveCores.foldl (fun s c => s.noteFall c) s

/-- Leash brings the floors, the rail, C_tot and the grants to where the steps and the inputs of the moment put them, as far as the
window of 1 µs allows (R428, R429, R431, R433). -/
def State.settle (s : State) : State :=
  let s := s.floorsUp.startRail
  let s := ({ s with pwr := { s.pwr with ctot := s.ctotAt s.mv } }).othersUp
  (if s.pwr.ctot < s.gsum then s.reclaim else s).noteFalls

/-- Bring every island's step within what it may run at. -/
def State.capSteps (s : State) : State :=
  s.liveCores.foldl (fun s c =>
    if s.capStep c < (s.core c).stepDecided then (s.setStep c (s.capStep c)).noteFall c else s) s

/-- The recomputation of R429, with entry into LOWV and FLOORDEF (R434), reclaim (R433) and the rail (R428). -/
def State.leashRecompute (s : State) : State :=
  let vf := railMv (railOf s.fmaxEff)
  let enter := !s.pwr.lowv && decide (s.ctotAt vf < s.fsumAt vf)
  let s := if enter then ({ s with pwr := { s.pwr with lowv := true, fitSince := none } }).record 7 1 none skLeash 0 0 0 else s
  let def_ := s.pwr.lowv && decide (s.ctotAt 650 < s.fsumAt 650)
  let s := if def_ && !s.pwr.floordef then s.record 7 2 none skLeash 0 0 0 else s
  let fits := s.pwr.lowv && decide (s.fsumAt vf + 16 ≤ s.ctotAt vf)
  let s := { s with pwr := { s.pwr with
    floordef := def_, fitSince := if fits then some (s.pwr.fitSince.getD s.dt) else none } }
  s.capSteps.settle

/-! ### The commands of Leash -/

/-- LEASH_RECOMPUTE (R429, R433, R434). -/
def execLeashRecompute (s : State) : Out := .next s.leashRecompute

/-- LOWV_EXIT: ΣF at the voltage of FMAX has fitted with 16 credits to spare for 100 ms (R434). -/
def execLowvExit (s : State) : Out :=
  match s.pwr.fitSince with
  | some t =>
    if s.pwr.lowv && decide (t + 100000000 ≤ s.dt) then
      .next ({ s with pwr := { s.pwr with lowv := false, floordef := false, fitSince := none } }).leashRecompute
    else .next s
  | none => .next s

/-- Whether a core can be raised one step now: only while credits are free (R433). -/
def State.canRaise (s : State) (c : Nat) : Bool :=
  let k := s.core c
  let st := k.stepDecided + 1
  k.stepNext.isNone && decide (st ≤ s.capStep c) && decide (railOf st ≤ s.pwr.rail) && s.pwr.railNext.isNone
  && decide (0 < s.freeCredits) && decide (s.need c none st ≤ k.grant + min s.freeCredits (s.room true))

/-- The commands that still wait for credits: those of a task that has ended have left their queue. -/
def State.credWaits (s : State) : List CredWait :=
  s.pwr.waiting.filter fun w => ((s.core w.core).eng w.eng).queue.any fun m => m.uid == w.uid && m.cseq == w.cseq

/-- LEASH_RAISE: what is owed is granted; then, if no command waits, one island goes up one step: the lowest floor island that can, else
the lowest other that can (R433). -/
def execLeashRaise (s : State) : Out :=
  let s := s.settle
  if !s.credWaits.isEmpty then .next s
  else
    let order := s.liveCores.filter (fun c => (s.core c).isFloor) ++ s.liveCores.filter fun c => !(s.core c).isFloor
    match order.find? s.canRaise with
    | none => .next s
    | some c =>
      let st := (s.core c).stepDecided + 1
      .next ((s.setGrant c (max (s.core c).grant (s.need c none st))).setStep c st)

/-- GRANT_HYSTERESIS_EXPIRY: a grant above its demand for 1 µs falls to it (R433). -/
def execGrantHysteresisExpiry (c : Nat) (s : State) : Out :=
  if !(decide (c < s.var.cores)) then .fault .noSuchUnit
  else match (s.core c).fallAt with
    | none => .next s
    | some t =>
      if s.dt < t + 1000 then .next s
      else
        let k := s.core c
        let g := max (s.need c none k.stepDecided) (k.grant - s.room false)
        .next ((s.setGrant c (min g k.grant)).noteFall c)

/-- ISLAND_STEP_CHANGE: a decided step takes effect, once the rail that it requires is there to stay (R427, R428). -/
def execIslandStepChange (c : Nat) (s : State) : Out :=
  if !(decide (c < s.var.cores)) then .fault .noSuchUnit
  else match (s.core c).stepNext with
    | none => .next s
    | some st =>
      if s.railSure < railOf st then .next s
      else .next (s.updCore c fun k => { k with step := st, stepNext := none }).settle

/-- CORE_RAIL_MOVE_COMPLETE: the rail has reached its new voltage (R428). -/
def execCoreRailMoveComplete (s : State) : Out :=
  match s.pwr.railNext with
  | none => .next s
  | some r => .next ({ s with pwr := { s.pwr with rail := r, railNext := none } }).leashRecompute

/-! ### Credit requests (R432) -/

/-- Leash's answer to a command's request: it starts, it waits for a lower step to take effect, or it waits for credits. -/
inductive Credit where
  | start
  | stepFirst
  | wait
deriving DecidableEq, Repr

/-- Cover the demand of core `c`, with engine `extra` about to start where there is one, as R432 says: the answer, with the grant and the
step it leaves. A floor island does not go below 1.2 GHz. -/
def State.cover (s : State) (c : Nat) (extra : Option Engine) : Credit × State :=
  let k := s.core c
  let st := k.stepDecided
  let cred := fun x => credits (k.demand extra) x s.mv
  let lim := min s.freeCredits (s.room true)
  if cred st ≤ k.grant then (if k.stepNext.any (· < k.step) then .stepFirst else .start, s)
  else if cred st - k.grant ≤ lim then (if k.stepNext.any (· < k.step) then .stepFirst else .start, s.setGrant c (cred st))
  else
    let low := if k.isFloor then min st floorStep else 0
    let steps := ((List.range (st + 1)).reverse).filter fun x => decide (low ≤ x)
    match steps.find? fun x => decide (cred x ≤ k.grant + lim) with
    | some x => (.stepFirst, (s.setStep c x).setGrant c (max (max (s.floorAt s.mv c) (cred x)) (k.grant - s.room false)))
    | none => (.wait, s)

/-- The answer to a request for engine `e` of core `c` (R432). -/
def State.creditRequest (s : State) (c : Nat) (e : Engine) : Credit × State := s.cover c (some e)

/-- A slot of a core has been occupied: its charge is covered like a command's; where no step fits, the island gets it as soon as
credits are free (R430, log entry 182). -/
def State.slotCredits (s : State) (c : Nat) : State := ((s.cover c none).2).noteFall c

end Sys2Proof.Machine
end

