-- ==== Sys2Proof/Machine/Fence.lean ====
section
/-!
DEFINITION. The scrub queue, the units of an ASSIGN that finish, and the fencing of a core (R176 to R180, R206, R449, R450, R461).
-/

namespace Sys2Proof.Machine

/-! ### The scrub engine (R176 to R180) -/

/-- The scrub engine takes the oldest waiting unit when it is idle (R178, R180). -/
def State.scrubNext (s : State) : State :=
  match s.sec.scrubBusy, s.sec.scrubQ with
  | none, u :: rest => { s with sec := { s.sec with scrubBusy := some u, scrubQ := rest } }
  | _, _ => s

/-- Queue units for the scrub engine. -/
def State.scrubAdd (s : State) (l : List (Bool × Nat)) : State :=
  ({ s with sec := { s.sec with scrubQ := s.sec.scrubQ ++ l } }).scrubNext

/-- Whether an ASSIGN in progress names a unit: a granule or a core. -/
def AssignCmd.names (a : AssignCmd) (gran : Bool) (u : Nat) : Bool := (a.kind != 0) == gran && a.units.contains u

/-- A unit that an ASSIGN names has finished; the command completes when all have (R206 step 6). -/
def State.unitDone (s : State) (gran : Bool) (u : Nat) (failed : Bool) : State :=
  let upd := fun (a : AssignCmd) =>
    if a.names gran u then { a with units := a.units.filter (· ≠ u), failed := a.failed || failed } else a
  let l := s.sched.assigns.map upd
  let s := { s with sched := { s.sched with assigns := l.filter fun a => !a.units.isEmpty } }
  (l.filter fun a => a.units.isEmpty).foldl (fun s a => s.cmdDone a.ring (if a.failed then sresScrubFail else sresOk)) s

/-- Whether a granted burst of the Yarder reads or writes a core (R281). -/
def State.burstOn (s : State) (c : Nat) : Bool :=
  s.yrd.chans.any fun p => match p.2.burst with
    | some b => b.granted.isSome &&
        ((b.sspace == 0 && coreBase c ≤ b.src && b.src < coreBase c + 0x100000)
          || (b.dspace == 0 && coreBase c ≤ b.dst && b.dst < coreBase c + 0x100000))
    | none => false

/-- Whether no task is bound to a core, nothing of it is in progress and its windows are closed (R176, R281). -/
def State.coreIdle (s : State) (c : Nat) : Bool :=
  let k := s.core c
  (List.range 8).all (fun i => (k.slot i).uid.isNone) && k.parked.isEmpty
  && engineAll.all (fun e => (k.eng e).run.isNone && (k.eng e).queue.isEmpty)
  && k.wins.all (fun p => !natBit p.2 0) && s.mesh.all (fun w => w.src != c)
  && s.knl.touches.all (fun t => t.chan.isSome || t.core != c) && !s.burstOn c

/-! ### Fencing (R449, R450) -/

/-- A TCR with the FENCE bit of each listed core set (R466). -/
def tcrFenced (bytes : List Byte) (l : List Nat) : List Byte :=
  bytes.zipIdx.map fun p => p.1 ||| BitVec.ofNat 8 (((List.range 8).filter fun j => p.2 < 32 && l.contains (8 * p.2 + j)).map (2 ^ ·)).sum

/-- The last steps of fencing: windows closed, grant and floor released as the window of R433 allows, the island stopped, SCHED_CMAP zero,
RAS_FENCE set and the record written. Firmware on the TMC keeps the core in its fault log and in its TCR (R451, R466). An ASSIGN that names
the core fails for it (R461). A core that is fenced already stays as it is. -/
def State.fenceDone (s : State) (c code : Nat) : State :=
  if s.ras.fence.contains c then s
  else
    let s := s.setGrant c ((s.core c).grant - s.room false)
    let s := s.updCore c fun k => { k with
      wins := [], isFloor := false, halted := true, fallAt := if k.grant = 0 then none else some s.dt, stepNext := none }
    let s := s.updOwner c fun _ => {}
    let s := { s with
      boot := { s.boot with
        tmcFences := if s.boot.tmcFences.contains c then s.boot.tmcFences else s.boot.tmcFences ++ [c]
        tcrBytes := tcrFenced s.boot.tcrBytes [c] }
      ras := { s.ras with fence := s.ras.fence ++ [c], fencing := s.ras.fencing.filter fun p => p.1 ≠ c }
      sec := { s.sec with
        scrubQ := s.sec.scrubQ.filter (· ≠ (false, c))
        scrubBusy := if s.sec.scrubBusy = some (false, c) then none else s.sec.scrubBusy }
      pwr := { s.pwr with waiting := s.pwr.waiting.filter fun w => w.core ≠ c } }
    ((s.scrubNext).record 0x0A code none skCore c 0 0).unitDone false c true

/-- Fence every core that waits to be fenced and is empty. -/
def State.fenceProgress (s : State) : State :=
  s.ras.fencing.foldl (fun s p => if s.coreIdle p.1 then s.fenceDone p.1 p.2 else s) s

/-- A core is to be fenced (R450 step 1): it takes CLOSING, and is fenced once it is empty. -/
def State.fenceStart (s : State) (c code : Nat) : State :=
  if s.ras.fence.contains c || s.ras.fencing.any (fun p => p.1 = c) then s
  else
    let s := s.updOwner c fun o => { o with closing := true }
    ({ s with ras := { s.ras with fencing := s.ras.fencing ++ [(c, code)] } }).fenceProgress

/-! ### Corrected errors (R439, R441) -/

/-- The kinds of memory beside those that a source kind of R444 names, each with words of its own for R441: a core's instruction store,
and the operand buffer of each of its engines. -/
def wkSegment : Nat := 16
def wkBuffer (e : Engine) : Nat := 16 + engineNum e

/-- A correction is counted and recorded; the eighth within 1 s of one line or word is a hard error, which fences the core whose
memory, operand buffer or instruction store it is (R441). `kind` and `word` tell lines and words from each other. -/
def State.correctedIn (s : State) (kind word : Nat) (core : Option Nat) (sk ix a det : Nat) (dom : Option Nat) : State :=
  let key := word * 2 ^ 20 + ix
  let recent := s.ras.corrected.filter fun p => decide (s.dt < p.2.2 + 1000000000)
  let mine := (recent.filter fun p => p.1 = kind && p.2.1 = key).length
  let s := { s with ras := { s.ras with ce := satAdd 32 s.ras.ce 1, corrected := recent ++ [(kind, key, s.dt)] } }
  let s := s.record 1 0 dom sk ix a det
  if mine + 1 < 8 then s
  else
    let s := s.record 1 1 dom sk ix a det
    match core with
    | some c => s.fenceStart c 0
    | none => s

/-- A correction in a memory of a source kind, of the line or word at an address. -/
def State.corrected (s : State) (core : Option Nat) (sk ix a det : Nat) (dom : Option Nat) : State :=
  s.correctedIn sk a core sk ix a det dom

/-- A correction of the word of a core's memory, or of the unit of the Yard, that holds an offset (R150, R171). -/
def State.coreFix (s : State) (c b : Nat) (dom : Option Nat) : State :=
  s.correctedIn skCore (coreBase c + b / 4 * 4) (some c) skCore c (lineAddr (coreBase c + b)) 0 dom
def State.yardFix (s : State) (b : Nat) (dom : Option Nat) : State :=
  s.correctedIn skSlice (yardBase + b / 8 * 8) none skSlice (s.slice b) (lineAddr (yardBase + b)) 0 dom

/-- A reader corrects every word with a correctable error that it meets in a core's memory (R150, R439). -/
def State.coreRead (s : State) (c lo hi : Nat) (dom : Option Nat) : State :=
  ((s.core c).weakIn lo hi).foldl (fun s b => s.coreFix c b dom) s

/-- A reader corrects every unit with a correctable error that it meets in the Yard (R171, R439). -/
def State.yardRead (s : State) (lo hi : Nat) (dom : Option Nat) : State :=
  (s.yardWeakIn lo hi).foldl (fun s b => s.yardFix b dom) s

/-- A reader corrects what it meets in a range of core memory or the Yard. -/
def State.rangeRead (s : State) (a n : Nat) (dom : Option Nat) : State :=
  match s.place a with
  | .core c off => s.coreRead c off (off + n) dom
  | .yard off => s.yardRead off (off + n) dom
  | _ => s

end Sys2Proof.Machine
end

