-- ==== Sys2Proof/Machine/RegBits.lean ====
section
/-!
DEFINITION. How a write reaches the fields of a 64-bit register (R13, R14): the bits an access carries, and the merge of the
writable ones.
-/

namespace Sys2Proof.Machine

/-- The mask of the bits `[hi:lo]`. -/
def maskBits (hi lo : Nat) : Nat := 2 ^ (hi + 1) - 2 ^ lo

/-- The mask of several fields that do not overlap. -/
def rwMask (l : List (Nat × Nat)) : Nat := (l.map fun p => maskBits p.1 p.2).sum

/-- The bits an access carries (R13). -/
def partMask : Part → Nat
  | .full => maskBits 63 0
  | .lo => maskBits 31 0
  | .hi => maskBits 63 32

/-- A write of the bits `k` of a register whose writable bits are `rw` (R14). -/
def regMerge (old : Word) (k rw v : Nat) : Word :=
  BitVec.ofNat 64 (old.toNat - (old.toNat &&& (k &&& rw)) + (v &&& (k &&& rw)))

/-- Whether a write carries a 1 for a bit. -/
def writes1 (k v i : Nat) : Bool := natBit k i && natBit v i

end Sys2Proof.Machine
end

