-- ==== Sys2Proof/Machine/HostFn.lean ====
section
/-!
DEFINITION. The two functions and the HIF registers (R356, R362 to R368, R374, R377, R382 to R384, R387, R388): tunnels, resets of a
function's configuration space, set-up control, the ring and event-queue registers, and the MSI-X table.
-/

namespace Sys2Proof.Machine

/-! ### Tunnels and configuration space (R356, R387, R388) -/

/-- A function's memory can no longer be reached: its queues are disabled and its rings halt (R377, R388). -/
def State.fnSilent (s : State) (fn : Fn) : State := s.haltFn fn allDomains hrLink

/-- The configuration space of one function takes its reset values, and its SPDM sessions and IDE streams end (R387, R406, R425). -/
def State.cfgResetFn (s : State) (fn : Fn) : State := (s.updFn fn FnSt.cfgReset).dropSessions fn

/-- TUNNEL_UP: the tunnel of a function comes up at a link generation; `bme` and `cfg` are what its host then writes into its
configuration space, at once or when the function first answers configuration requests (R469). The ports train from step 4 on (R467). -/
def execTunnelUp (fn : Fn) (gen : Nat) (bme : Bool) (cfg : CfgSpace) (s : State) : Out :=
  if (s.fnSt fn).ls = 2 || s.boot.inReset || s.boot.step < 4 then .next s
  else
    let g := min (max gen 1) 3
    .next ((s.updFn fn fun f => { f.configure bme cfg with ls := 2, gen := g, bmeNext := bme, cfgNext := cfg.oneEach }).postDevice 8 2 0 (fnNum fn))

/-- TUNNEL_LOSS (R387, R388). Whether the USB4 link stays up without the tunnel is a free value. -/
def execTunnelLoss (fn : Fn) (s : State) : Out :=
  if (s.fnSt fn).ls ≠ 2 then .next s
  else
    let (v, s) := s.draw
    let ls := v % 2
    let s := s.updFn fn fun f => { f with ls := ls, gen := if ls = 0 then 0 else f.gen, downSince := s.dt }
    .next ((((s.cfgResetFn fn).countLinkDown).fnSilent fn).postDevice 8 ls 0 (fnNum fn))

/-- HOT_RESET: a Hot Reset received through the tunnel (R387 to R389). -/
def execHotReset (fn : Fn) (bme : Bool) (cfg : CfgSpace) (s : State) : Out :=
  if (s.fnSt fn).ls ≠ 2 then .next s
  else
    let s := (((s.cfgResetFn fn).countLinkDown).fnSilent fn).disarm fn
    .next (s.updFn fn fun f => f.configure bme cfg)

/-- A function enters D3hot (R368, R388). -/
def State.d3Enter (s : State) (fn : Fn) : State :=
  if (s.fnSt fn).ls ≠ 2 || !(s.fnSt fn).ready || (s.fnSt fn).d3 then s
  else ((s.updFn fn fun f => { f with d3 := true }).countLinkDown).fnSilent fn

/-- D3HOT_ENTRY, by a configuration request that the function answers (R469). -/
def execD3hotEntry (fn : Fn) (s : State) : Out := .next (s.d3Enter fn)

/-- D3HOT_EXIT: the return to D0 resets the configuration space (R387). -/
def execD3hotExit (fn : Fn) (bme : Bool) (cfg : CfgSpace) (s : State) : Out :=
  if !(s.fnSt fn).d3 then .next s
  else .next ((s.cfgResetFn fn).updFn fn fun f => f.configure bme cfg)

/-- Bus Master Enable is cleared (R377, R388). -/
def State.masterOff (s : State) (fn : Fn) : State :=
  if !(s.fnSt fn).bme then s else (s.updFn fn fun f => { f with bme := false }).fnSilent fn

/-- BUS_MASTER_CLEAR. -/
def execBusMasterClear (fn : Fn) (s : State) : Out := .next (s.masterOff fn)

/-! ### Accesses that do not decode (R13, R361, R362) -/

/-- Whether a BAR0 access has a size and an alignment of R13 and lies in the 16 MiB of the set-up registers. -/
def bar0Decodes (addr size : Nat) : Bool :=
  decide (addr + size ≤ 0x1000000) && ((size == 8 && addr % 8 == 0) || (size == 4 && addr % 4 == 0))

/-- Whether a BAR2 write goes to a word of a doorbell page (R369): its offset in the page and its size. -/
def bar2Decodes (off size : Nat) : Bool :=
  let o := off % 0x10000
  let queue := decide (o < 0x80) || (decide (0x100 ≤ o) && decide (o < 0x120))
  (size == 8 && (queue || o == 0x200) && o % 8 == 0) || (size == 4 && queue && o % 8 == 0)

/-- BAR0_UNDECODED_ACCESS (R362), and the same of BAR2 (R369): a write to a page that its function does not drive is filtered, any other
that no word takes is counted; a read of BAR2 answers 0. With IDE required an access outside a Secure stream is filtered (R412), and
a read that ends so answers 0. -/
def execBar0UndecodedAccess (fn : Fn) (bar2 : Bool) (addr size : Nat) (isWrite ide : Bool) (s : State) : Out :=
  if !s.fnAnswers fn then .next s
  else if bar2 then
    if !isWrite then .next ((if s.ideFilters fn ide then s.filtered else s).updFn fn fun f => { f with rdata := some 0 })
    else if bar2Decodes addr size then .next s
    else if !s.pageTakes fn (addr / 0x10000 % 16) ide then .next s.filtered
    else .next s.countUr
  else if bar0Decodes addr size then .next s
  else
    let give := fun (s : State) (v : Option Nat) => if isWrite then s else s.updFn fn fun f => { f with rdata := v }
    if s.ideFilters fn ide then .next (give s.filtered (some 0))
    else .next (give (s.unsupported fn addr size isWrite) none)

/-! ### Set-up control (R364, R365) -/

/-- Whether the holder's tunnel has been down for 100 ms without a break (R364, R390). -/
def State.holderLost (s : State) (h : Fn) : Bool :=
  (s.fnSt h).ls ≠ 2 && decide ((s.fnSt h).downSince + 100000000 ≤ s.dt)

/-- A write of HIF_CTL: CLAIM, RELEASE and TAKE in this order, then RSTANY (R364). -/
def State.hifCtl (s : State) (fn : Fn) (k v : Nat) : State :=
  let lock := s.sec.lock
  let h := s.hif.holder
  let h := if writes1 k v 0 && h.isNone && !lock then some fn else h
  let h := if writes1 k v 1 && h == some fn && !lock then none else h
  let h := if writes1 k v 2 then (match h with
      | some x => if x ≠ fn && s.holderLost x then some fn else h
      | none => h) else h
  let any := if natBit k 61 && h == some fn && !lock then natBit v 61 else s.hif.rstany
  { s with hif := { s.hif with holder := h, rstany := any } }

/-- A write of HIF_FNDOM by the holder (R365). -/
def State.fndomWrite (s : State) (k v : Nat) : State :=
  if s.sec.lock then s
  else
    let old := s.hif.doma + 65536 * s.hif.domb
    let new := (regMerge (BitVec.ofNat 64 old) k (maskBits 31 0) v).toNat
    let a := natBits new 15 0
    let b := natBits new 31 16
    let goneA := s.hif.doma - (s.hif.doma &&& a)
    let goneB := s.hif.domb - (s.hif.domb &&& b)
    let s := { s with hif := { s.hif with doma := a, domb := b } }
    (s.haltFn .a goneA hrMask).haltFn .b goneB hrMask

/-! ### Ring and event-queue registers (R374, R377, R383) -/

/-- HIF_SQCFG as it reads. -/
def Ring.cfgReg (x : Ring) : Nat :=
  fields [(63, bit x.en), (61, x.state), (60, fnNum x.fn), (58, x.eq), (56, x.evt), (48, x.hrsn), (0, x.nM1)]

/-- Whether the queue of function `fn` for domain `d` may be enabled (R374, R383). -/
def State.queueOk (s : State) (fn : Fn) (d base : Nat) : Bool := s.isDriver fn d && base % 64 == 0

/-- An enable that is ignored (R374, R383). -/
def State.enableRefused (s : State) (fn : Fn) (d off : Nat) : State := s.record 4 1 (some d) skFn (fnNum fn) (0x100000 + off) 0

/-- A ring is enabled (R374). -/
def Ring.enable (x : Ring) : Ring :=
  { x with en := true, state := 1, wb := x.head, tail := x.head, reading := false, again := false, stall := false }

/-- A ring is disabled: a descriptor already accepted completes first (R377). -/
def Ring.disable (x : Ring) : Ring :=
  { x with en := false, state := if x.cur.isSome && x.state == 1 then 1 else 0, reading := false, again := false, stall := false }

/-- A write of HIF_SQCFG (R374, R377). -/
def State.sqCfgWrite (s : State) (fn : Fn) (d r off k v : Nat) : State :=
  let x := s.ring d r
  let w := (regMerge (BitVec.ofNat 64 x.cfgReg) k (rwMask [(60, 56), (15, 0)]) v).toNat
  if x.en then (if natBit k 63 && !natBit v 63 then s.updRing d r Ring.disable else s)
  else
    let y := { x with fn := fnOfBool (natBit w 60), eq := natBits w 59 58, evt := natBits w 57 56, nM1 := natBits w 15 0 }
    let s := s.updRing d r fun _ => y
    if !writes1 k v 63 then s
    else if s.queueOk y.fn d y.base then s.updRing d r Ring.enable
    else s.enableRefused fn d off

/-- A write to the registers of a ring, by offset. -/
def State.sqWrite (s : State) (fn : Fn) (d r off k v : Nat) : State :=
  match off % 32 / 8 with
  | 0 => s.sqCfgWrite fn d r off k v
  | 1 => s.updRing d r fun x => if x.en then x else { x with base := (regMerge (BitVec.ofNat 64 x.base) k (maskBits 63 0) v).toNat }
  | 2 => s.updRing d r fun x =>
      if x.en then x else { x with head := natBits (regMerge (BitVec.ofNat 64 (x.head * 2 ^ 48)) k (maskBits 63 48) v).toNat 63 48 }
  | _ => s

/-- HIF_EQCFG as it reads. -/
def EvQ.cfgReg (x : EvQ) : Nat := fields [(63, bit x.en), (62, fnNum x.fn), (56, x.vec), (48, x.itime), (0, x.nM1)]

/-- An event queue is enabled (R383). -/
def EvQ.enable (x : EvQ) : EvQ := { x with en := true, tail := 0, head := 0, phase := true, itEnd := none, itPend := false }

/-- A write of HIF_EQCFG (R383). -/
def State.eqCfgWrite (s : State) (fn : Fn) (d q off k v : Nat) : State :=
  let x := s.evq d q
  let w := (regMerge (BitVec.ofNat 64 x.cfgReg) k (rwMask [(62, 48), (15, 0)]) v).toNat
  if x.en then
    (if natBit k 63 && !natBit v 63 then s.updEvq d q fun y => y.off else s)
  else
    let y := { x with fn := fnOfBool (natBit w 62), vec := natBits w 61 56, itime := natBits w 55 48, nM1 := natBits w 15 0 }
    let s := s.updEvq d q fun _ => y
    if !writes1 k v 63 then s
    else if s.queueOk y.fn d y.base && y.nM1 != 0 then s.updEvq d q EvQ.enable
    else s.enableRefused fn d off

/-- A write to the registers of an event queue, by offset. -/
def State.eqWrite (s : State) (fn : Fn) (d q off k v : Nat) : State :=
  match off % 32 / 8 with
  | 0 => s.eqCfgWrite fn d q off k v
  | 1 => s.updEvq d q fun x => if x.en then x else { x with base := (regMerge (BitVec.ofNat 64 x.base) k (maskBits 63 0) v).toNat }
  | _ => s

/-- A write of HIF_DOMEVTd: TEV of 3 is not taken (R384). -/
def State.domevtWrite (s : State) (d k v : Nat) : State :=
  let rw := if natBits v 63 62 = 3 then maskBits 61 56 else maskBits 63 56
  { s with hif := { s.hif with domevt := Tab.upd 0 s.hif.domevt d fun w => regMerge w k rw v } }

/-! ### The HIF block by offset -/

/-- The domain of a HIF register that belongs to one (R363): HIF_DOMEVT, the rings, the event queues. -/
def hifDom (off : Nat) : Option Nat :=
  if 0x100 ≤ off ∧ off < 0x180 then some ((off - 0x100) / 8)
  else if 0x2000 ≤ off ∧ off < 0x4000 then some ((off - 0x2000) / 0x200)
  else if 0x6000 ≤ off ∧ off < 0x7000 then some ((off - 0x6000) / 0x100)
  else none

/-- HIF_FNSTAT (R367). -/
def State.fnstatReg (s : State) : Nat :=
  let part := fun (f : FnSt) => fields [(30, f.ls), (28, f.gen), (27, bit f.bme), (26, bit f.d3)]
  part s.hif.a * 2 ^ 32 + part s.hif.b

/-- HIF_CTL (R364). -/
def State.hifCtlReg (s : State) : Nat :=
  let h := match s.hif.holder with
    | none => 0
    | some .a => 1
    | some .b => 2
  fields [(62, h), (61, bit s.hif.rstany)]

/-- HIF_BOOTSTAT (R479). -/
def State.bootstatReg (s : State) : Nat :=
  let b := s.boot
  fields [(60, if b.step < 4 then 0 else b.step), (56, b.cause), (48, b.tmcrsn), (47, bit b.store), (46, bit b.ptp), (44, b.twinres),
    (0, b.tStore)]

/-- A read of the HIF block. -/
def State.hifRead (s : State) (off : Nat) : Nat :=
  match hifDom off with
  | some d =>
    if off < 0x180 then s.domevt d
    else if off < 0x4000 then
      let x := s.ring d ((off - 0x2000) % 0x200 / 32)
      (match off % 32 / 8 with
      | 0 => x.cfgReg
      | 1 => x.base
      | 2 => fields [(48, x.head), (32, x.wb), (16, x.tail)]
      | _ => 0)
    else
      let q := (off - 0x6000) % 0x100 / 32
      let x := s.evq d q
      if 4 ≤ q then 0
      else (match off % 32 / 8 with
      | 0 => x.cfgReg
      | 1 => x.base
      | 2 => fields [(48, x.tail), (32, x.head), (0, x.lost)]
      | _ => 0)
  | none =>
    if off = 0 then s.hifCtlReg
    else if off = 8 then s.hif.doma + 65536 * s.hif.domb
    else if off = 0x18 then s.fnstatReg
    else if off = 0x20 then s.hif.devevt.toNat
    else if off = 0x28 then fields [(48, s.hif.filt), (32, s.hif.ur), (16, s.hif.linkdn)]
    else if off = 0x30 then s.bootstatReg
    else 0

/-- A write to the HIF block that has passed the filter, but for HIF_RST. -/
def State.hifWrite (s : State) (fn : Fn) (off k v : Nat) : State :=
  match hifDom off with
  | some d =>
    if off < 0x180 then s.domevtWrite d k v
    else if off < 0x4000 then s.sqWrite fn d ((off - 0x2000) % 0x200 / 32) off k v
    else if (off - 0x6000) % 0x100 < 0x80 then s.eqWrite fn d ((off - 0x6000) % 0x100 / 32) off k v
    else s
  | none =>
    if off = 0 then s.hifCtl fn k v
    else if off = 8 then s.fndomWrite k v
    else if off = 0x20 then
      { s with hif := { s.hif with devevt := regMerge s.hif.devevt k (maskBits 63 57) v } }
    else s

/-! ### Configuration space (R358 to R360, R391, R411) -/

/-- The Type 0 header by 32-bit register (R358): command with Bus Master Enable, the two BARs of 64 bits, and the identification. -/
def State.headerRead (s : State) (fn : Fn) (off : Nat) : Nat :=
  let f := s.fnSt fn
  match off with
  | 0x00 => Config.vendorId % 65536 + s.var.part * 65536
  | 0x04 => fields [(20, 1), (2, bit f.bme)]
  | 0x08 => s.id.step + 0x120000 * 256
  | 0x10 => f.cfg.bar0 / 0x1000000 * 0x1000000 % 2 ^ 32 + 4
  | 0x14 => f.cfg.bar0 / 2 ^ 32 % 2 ^ 32
  | 0x18 => f.cfg.bar2 / 0x100000 * 0x100000 % 2 ^ 32 + 4
  | 0x1C => f.cfg.bar2 / 2 ^ 32 % 2 ^ 32
  | 0x2C => Config.vendorId % 65536 + ((match fn with
      | .a => 0x0A00
      | .b => 0x0B00) + s.id.tray) * 65536
  | _ => 0

/-- A register of the capabilities by 32-bit register, without the pointers that link them (R359, R360, R391, R411). -/
def State.capRead (s : State) (fn : Fn) : CfgReg → Nat
  | .header off => s.headerRead fn off
  | .pm off => if off = 4 then fields [(3, 1), (0, if (s.fnSt fn).d3 then 3 else 0)] else if off = 0 then 1 else 0
  | .pcie off =>
    let c := (s.fnSt fn).cfg
    if off = 0 then 0x10
    else if off = 0xC then
      -- no ASPM support in bits [11:10] (R359)
      let w := Config.tunnelLink (s.fnSt fn).gen off
      w / 2 ^ 12 * 2 ^ 12 + w % 2 ^ 10
    else if off = 0x10 || off = 0x2C || off = 0x30 then Config.tunnelLink (s.fnSt fn).gen off
    else if off = 4 then fields [(5, 1), (0, 2)]
    else if off = 8 then fields [(12, c.mrrs), (8, bit c.extTag), (5, c.mps)]
    else if off = 0x24 then 3
    else if off = 0x28 then c.cto % 16
    else 0
  | .msix off =>
    let c := (s.fnSt fn).cfg
    if off = 0 then fields [(31, bit c.msixEn), (30, bit c.fnMask), (16, 63), (0, 0x11)]
    else if off = 4 then 0x00110000 else if off = 8 then 0x00110800 else 0
  | .aer off =>
    let f := s.fnSt fn
    if off = 0 then 1
    else if off = 4 then f.aerUnc
    else if off = 8 then f.cfg.aerMask
    else if off = 0xC then f.cfg.aerSev
    else if off = 0x10 then f.aerCor
    else if off = 0x14 then f.cfg.aerCorMask
    else if 0x1C ≤ off ∧ off < 0x2C then f.aerLog / 2 ^ (8 * (off - 0x1C)) % 2 ^ 32
    else 0
  | .dsn off => if off = 0 then 3 else if off = 4 then s.sec.sensed.dsn % 2 ^ 32 else if off = 8 then s.sec.sensed.dsn / 2 ^ 32 else 0
  | .doe off =>
    -- one mailbox: the object that waits to be read is the last answer (R359, R406; log entry 237)
    (match off, (s.sec.answers.filter fun x => x.fn == fn).getLast? with
    | 0, _ => 0x2E
    | 0xC, some _ => 2 ^ 31
    | 0x14, some x => Config.doeWord x.code x.body % 2 ^ 32
    | _, _ => 0)
  | .ideCap off =>
    -- selective streams only, IDE_KM, AES-GCM-256 with a 96-bit MAC, two streams (R411; log entry 237)
    if off = 0 then 0x30 else if off = 4 then fields [(16, 1), (6, 1), (1, 1)] else 0
  | .ide off =>
    match (s.fnSt fn).cfg.assoc.find? (fun r => r.stream == off / 32) with
    | some r => (match off % 32 / 4 with
      | 0 => r.ridHi
      | 1 => r.ridLo
      | 2 => r.lo % 2 ^ 32
      | 3 => r.hi % 2 ^ 32
      | 4 => r.hi / 2 ^ 32
      | 5 => r.lo / 2 ^ 32
      | _ => 0)
    | none => 0

/-! ### The MSI-X table of a function (R359, R361) -/

/-- The MSI-X table and PBA as they read, by 64-bit register (R361). -/
def State.msixRead (s : State) (fn : Fn) (off : Nat) : Nat :=
  let f := s.fnSt fn
  if off < 0x400 then
    (if off % 16 < 8 then Tab.get 0 f.msixAddr (off / 16)
     else Tab.get 0 f.msixData (off / 16) + (bit (natBit f.msixMask (off / 16))) * 2 ^ 32)
  else if off = 0x800 then f.msixPend
  else 0

/-- Clear a vector's mask; a pending message that need not wait any more is then sent (R359, R382). -/
def State.msixUnmask (s : State) (fn : Fn) (vec : Nat) : State :=
  let s := s.updFn fn fun f => { f with msixMask := if natBit f.msixMask vec then f.msixMask - 2 ^ vec else f.msixMask }
  if natBit (s.fnSt fn).msixPend vec && !(s.fnSt fn).msixHeld vec then
    (s.updFn fn fun f => { f with msixPend := f.msixPend - 2 ^ vec }).msix fn vec
  else s

/-- A write into the MSI-X table: address, data, and the mask bit of vector control. The PBA takes no write. -/
def State.msixWrite (s : State) (fn : Fn) (off k v : Nat) : State :=
  let vec := off / 16
  if 0x400 ≤ off then s
  else if off % 16 < 8 then
    let put := fun (a : Nat) => (regMerge (BitVec.ofNat 64 a) k (maskBits 63 2) v).toNat
    s.updFn fn fun f => { f with msixAddr := Tab.upd 0 f.msixAddr vec put }
  else
    let put := fun (a : Nat) => natBits (regMerge (BitVec.ofNat 64 a) k (maskBits 31 0) v).toNat 31 0
    let s := s.updFn fn fun f => { f with msixData := Tab.upd 0 f.msixData vec put }
    if !natBit k 32 then s
    else if natBit v 32 then s.updFn fn fun f => { f with msixMask := f.msixMask ||| 2 ^ vec }
    else s.msixUnmask fn vec

/-! ### Writes of configuration space (R358 to R361, R387, R411) -/

/-- A register of a stream's association as a host writes it (R411; log entry 237). -/
def assocPut (r : IdeAssoc) (w v : Nat) : IdeAssoc := match w with
  | 0 => { r with ridHi := v }
  | 1 => { r with ridLo := v }
  | 2 => { r with lo := r.lo / 2 ^ 32 * 2 ^ 32 + v }
  | 3 => { r with hi := r.hi / 2 ^ 32 * 2 ^ 32 + v }
  | 4 => { r with hi := v * 2 ^ 32 + r.hi % 2 ^ 32 }
  | 5 => { r with lo := v * 2 ^ 32 + r.lo % 2 ^ 32 }
  | _ => r

/-- A write into the association of a stream; a function has at most two streams (R411). -/
def assocWrite (c : CfgSpace) (stream w v : Nat) : CfgSpace :=
  if c.assoc.any (·.stream == stream) then { c with assoc := c.assoc.map fun r => if r.stream = stream then assocPut r w v else r }
  else if c.assoc.length < 2 then { c with assoc := c.assoc ++ [assocPut ⟨stream, 0, 0, 0, 0⟩ w v] }
  else c

/-- What a write of a register of configuration space sets (R358, R359, R360, R411). -/
def cfgSet (c : CfgSpace) (v : Nat) : CfgReg → CfgSpace
  | .header off => (match off with
    | 0x10 => { c with bar0 := c.bar0 / 2 ^ 32 * 2 ^ 32 + v }
    | 0x14 => { c with bar0 := v * 2 ^ 32 + c.bar0 % 2 ^ 32 }
    | 0x18 => { c with bar2 := c.bar2 / 2 ^ 32 * 2 ^ 32 + v }
    | 0x1C => { c with bar2 := v * 2 ^ 32 + c.bar2 % 2 ^ 32 }
    | _ => c)
  | .pcie off =>
    if off = 8 then { c with mps := natBits v 7 5, extTag := natBit v 8, mrrs := natBits v 14 12 }
    else if off = 0x28 then { c with cto := v % 16 } else c
  | .msix off => if off = 0 then { c with msixEn := natBit v 31, fnMask := natBit v 30 } else c
  | .aer off =>
    if off = 8 then { c with aerMask := v } else if off = 0xC then { c with aerSev := v }
    else if off = 0x14 then { c with aerCorMask := v } else c
  | .ide off => assocWrite c (off / 32) (off % 32 / 4) v
  | .pm _ | .dsn _ | .doe _ | .ideCap _ => c

/-- The messages that wait are sent where nothing holds them any more (R359, R382; log entry 209). -/
def State.msixFlush (s : State) (fn : Fn) : State :=
  ((List.range 64).filter fun n => !natBit (s.fnSt fn).msixMask n).foldl (fun s n => s.msixUnmask fn n) s

/-- A write into configuration space, once the function answers configuration requests (R469): Bus Master Enable, the power state, the
error statuses, which a 1 clears, and every other setting. -/
def State.cfgWrite (s : State) (fn : Fn) (r : CfgReg) (v : Nat) : State :=
  let f := s.fnSt fn
  if !f.ready || f.ls ≠ 2 then s
  else match r with
    | .header 4 => if natBit v 2 then s.updFn fn fun x => { x with bme := true } else s.masterOff fn
    | .pm 4 => if v % 4 = 3 then s.d3Enter fn else if v % 4 = 0 ∧ f.d3 then s.cfgResetFn fn else s
    | .aer 4 => s.updFn fn fun x => { x with aerUnc := x.aerUnc &&& (2 ^ 32 - 1 - v) }
    | .aer 0x10 => s.updFn fn fun x => { x with aerCor := x.aerCor &&& (2 ^ 32 - 1 - v) }
    | r => (s.updFn fn fun x => { x with cfg := cfgSet x.cfg v r }).msixFlush fn

end Sys2Proof.Machine
end

