-- ==== Sys2Proof/Machine/Operands.lean ====
section
/-!
DEFINITION. The words of an instruction (R253), the fetch check against the instruction store (R250, R252), and the operands
of short and long instructions (R253, R254, R498).
-/

namespace Sys2Proof.Machine

/-! ### Instruction words (R253) -/

/-- The 64 bits of a short instruction. -/
def shortWord (opc : Nat) (f : SFields) : Nat :=
  fields [(56, opc), (51, f.rd.toNat), (46, f.ra.toNat), (41, f.rb.toNat), (39, f.rnd.toNat), (38, bit f.i),
    (32, f.res.toNat), (0, f.imm.toNat)]

/-- Bits [127:64] of a long instruction, which stand at its own address. -/
def longWord0 (opc : Nat) (f : LFields) : Nat :=
  fields [(56, opc), (54, f.rnd.toNat), (44, f.scl.toNat), (39, f.preg.toNat), (32, f.res.toNat),
    (16, f.op0.toNat), (0, f.op1.toNat)]

/-- Bits [63:0] of a long instruction, which stand at the higher address. -/
def longWord1 (f : LFields) : Nat :=
  fields [(48, f.op2.toNat), (32, f.op3.toNat), (0, f.param.toNat)]

/-- Opcodes of long instructions: engine commands, COMMIT and SHIFT (R253, R255, R256). -/
def isLongOpc (o : Nat) : Bool :=
  o == 0x34 || o == 0x40 || o == 0x41 || (0x60 ≤ o && o ≤ 0x64) || (0x80 ≤ o && o ≤ 0x8B)
  || (0x90 ≤ o && o ≤ 0x92) || (0xA0 ≤ o && o ≤ 0xA2) || o == 0xC0

/-- Opcodes that R255 and R256 list, on a core with or without an LTE. -/
def isOpc (lte : Bool) (o : Nat) : Bool := o ≤ 0x36 || (isLongOpc o && (o ≠ 0xC0 || lte))

/-- A byte of a segment (R252): bytes past the code read as 0xFF. -/
def Job.segByte (j : Job) (i : Nat) : Nat := ((j.segBytes[i]?).map (·.toNat)).getD 255

/-- The 64-bit word of a segment at a byte offset. -/
def Job.segWord (j : Job) (i : Nat) : Nat := Rd.le j.segByte i 8

/-- What the Sequencer fetched, compared with the command that is to issue: the same instruction, an unknown opcode, another
instruction, or an uncorrectable unit of the instruction store. A job with no recorded segment fetches whatever the command says. -/
inductive Fetch where
  | same
  | unknown
  | other
  | bad (u : Nat)
deriving DecidableEq, Repr

def Job.fetch (j : Job) (lte : Bool) (pc : Nat) (w0 : Nat) (w1 : Option Nat) : Fetch :=
  if j.segBytes = [] then .same
  else if !isOpc lte (j.segWord pc / 2 ^ 56) then .unknown
  else if j.segWord pc = w0 && (match w1 with | none => true | some w => j.segWord (pc + 8) = w) then .same
  else .other

/-! ### Registers and the second source (R86, R253) -/

def Slot.reg (k : Slot) (r : Nat) : Word := Tab.get 0 k.g r
def Slot.setReg (k : Slot) (r : Nat) (w : Word) : Slot := { k with g := Tab.set 0 k.g r w }

/-- IMM sign-extended to 64 bits. -/
def immExt (f : SFields) : Word := f.imm.signExtend 64

/-- First source. -/
def srcA (k : Slot) (f : SFields) : Word := k.reg f.ra.toNat
/-- Second source: RB, or IMM sign-extended when I is 1. -/
def srcB (k : Slot) (f : SFields) : Word := if f.i then immExt f else k.reg f.rb.toNat

/-! ### Long operands (R254) -/

/-- The descriptor of index `i` in a job's segment (R48, R250). -/
def Job.desc (j : Job) (i : Nat) : TDesc := TDesc.ofNat (Rd.le j.segByte (32 * i) 32)

/-- Add a distance to BASE and, for a block format, to SCALE_BASE, modulo 2^48 (R254, R113). -/
def TDesc.moved (d : TDesc) (x : Nat) : TDesc :=
  { d with base := (d.base + x) % 2 ^ 48, sbase := if isBlock d.fmt then (d.sbase + x) % 2 ^ 48 else d.sbase }

/-- A descriptor's fields, with its addresses from the start of core `c`'s memory: two cores run one program alike (R28, R79). -/
def TDesc.key (c : Nat) (d : TDesc) : List Nat :=
  [d.fmt, bit d.nonneg, wrapN 8 d.rb, wrapN 8 d.cexp, d.frac, d.dim0, d.dim1, d.dim2, d.stride1, d.stride2, d.sbase - coreBase c,
    d.base - coreBase c]

/-- Resolve an operand field (R254). -/
def resolve (j : Job) (k : Slot) (o : BitVec 16) : Opnd :=
  let didx := natBits o.toNat 15 6
  let greg := natBits o.toNat 5 1
  if natBit o.toNat 0 then .wrong
  else if didx < j.ndesc then .tensor ((j.desc didx).moved (if greg = 0 then 0 else (k.reg greg).toNat))
  else if didx = 0x3FF then (if greg = 0 then .none else .scalar greg (k.reg greg).toNat)
  else .wrong

/-- The registers an operand field reads: its offset or its scalar. -/
def operandRegs (o : BitVec 16) : List Nat :=
  let greg := natBits o.toNat 5 1
  if greg = 0 then [] else [greg]

def Opnd.isNone : Opnd → Bool
  | .none => true
  | _ => false
def Opnd.tensor? : Opnd → Option TDesc
  | .tensor d => some d
  | _ => Option.none
def Opnd.isWrong : Opnd → Bool
  | .wrong => true
  | _ => false

/-- The signed SCL field. -/
def sclInt (f : LFields) : Int := f.scl.toInt

end Sys2Proof.Machine
end

