-- ==== Sys2Proof/Machine/Issue.lean ====
section
/-!
DEFINITION. The issue of a short Sequencer instruction, once for all of them: whether the slot can issue, what decode refuses
(R82, R253 to R255), what holds an instruction at issue (R254), and how it takes its CSEQ and enters the list of instructions
that wait to retire (R81).
-/

namespace Sys2Proof.Machine

/-- The task in a slot. -/
def State.slotTask (s : State) (c k : Nat) : Option Task := (s.slot c k).uid.bind s.task

/-- The job whose code a slot runs. -/
def State.slotJob (s : State) (c k : Nat) : Job := match s.slotTask c k with
  | some t => s.job t.job
  | none => {}

/-- The domain of the task in a slot. -/
def State.slotDom (s : State) (c k : Nat) : Nat := match s.slotTask c k with
  | some t => t.dom
  | none => 0

/-- Whether a core and a slot exist. -/
def State.hasSlot (s : State) (c k : Nat) : Bool := c < s.var.cores && k < 8

/-- Whether a slot can issue its next instruction now. -/
def State.ready (s : State) (c k : Nat) : Bool :=
  let x := s.slot c k
  x.uid.isSome && x.started && !x.stopIssue && x.wait.isNone && x.yield.isNone && x.term.isNone
  && (!(s.core c).halted || (s.core c).steps ≠ 0)

/-- Commands of a slot that are in flight. -/
def Core.inflight (x : Core) (k : Nat) : List ECmd :=
  (engineAll.flatMap fun e => (x.eng e).run.toList ++ (x.eng e).queue).filter fun m => m.slot == k

/-- Whether a register is the scalar destination of a command in flight, or waits for a remote load (R254, R162). -/
def State.regBusy (s : State) (c k r : Nat) : Bool :=
  ((s.core c).inflight k).any (fun m => m.reg == some r) || (s.slot c k).remote == some r

/-- Whether a register is a scalar source of a command in flight, which holds its writers (R498). -/
def State.regRead (s : State) (c k r : Nat) : Bool := ((s.core c).inflight k).any fun m => m.srcs.contains r

/-- Whether an instruction that reads and writes these registers is held at issue (R254, R498). -/
def State.held (s : State) (c k : Nat) (rd wr : List Nat) : Bool :=
  (rd ++ wr).any (s.regBusy c k) || wr.any (s.regRead c k)

/-- What a short instruction does at issue, beside taking its CSEQ. -/
structure Eff where
  s : State
  cycles : Nat := 1
  flags : List Nat := []
  fault : Option RFault := none
  act : RetAct := .none
  complete : Bool := true
  pc : Option Nat := none

/-- An instruction takes its CSEQ: its entry of the retire list, and a step of a core halted under debug (R81, R421). -/
def State.takeCseq (s : State) (c k : Nat) (r : Nat → RetEntry) (f : Slot → Slot) : State :=
  s.updCore c fun q =>
    let q := { q with steps := q.steps - 1 }
    q.updSlot k fun x => f { x with ret := x.ret ++ [r x.cseq], cseq := x.cseq + 1 }

/-- A fault found at decode (R82): the instruction takes its CSEQ, reaches no engine and stops issue. -/
def State.decodeFault (s : State) (c k opc : Nat) : State :=
  s.takeCseq c k (fun n => ⟨n, opc, 0, true, 1, [], some .malformed, .none⟩) fun x => { x with stopIssue := true }

/-! ### Fetch (R250 to R252) -/

/-- The 64-bit units of a segment that the fetch of an instruction reads: its words and the descriptors it names (R48, R250, R253). -/
def fetchUnits (ndesc pc : Nat) (w0 : Nat) (w1 : Option Nat) : List Nat :=
  match w1 with
  | none => [pc]
  | some w =>
    let desc := fun (o : Nat) => if o / 64 < ndesc then (List.range 4).map fun i => 32 * (o / 64) + 8 * i else []
    [pc, pc + 8] ++ desc (natBits w0 31 16) ++ desc (natBits w0 15 0) ++ desc (natBits w 63 48) ++ desc (natBits w 47 32)

/-- The segment a slot runs from, if its core holds it. -/
def State.slotSeg (s : State) (c k : Nat) : Option Seg := Tab.get none (s.core c).segs (s.slot c k).seg

/-- What the Sequencer of a slot fetches next, compared with the command that is to issue: also whether an uncorrectable unit is met. An
unknown opcode has no second word and names no descriptor: only its own unit is read (R252). -/
def State.fetch (s : State) (c k : Nat) (w0 : Nat) (w1 : Option Nat) : Fetch :=
  let j := s.slotJob c k
  let pc := (s.slot c k).pc
  let first := fun (g : Seg) (l : List Nat) (r : Fetch) => match l.find? g.bad.contains with
    | some u => .bad u
    | none => r
  match j.fetch (s.var.coreLte c) pc w0 w1, s.slotSeg c k with
  | .other, _ => .other
  | r, none => r
  | .unknown, some g => first g [pc] .unknown
  | r, some g => first g (fetchUnits j.ndesc pc w0 w1) r

/-- The units with a correctable error that a fetch reads are corrected (R439, R441). -/
def State.fetchRead (s : State) (c k : Nat) (w0 : Nat) (w1 : Option Nat) : State :=
  match s.slotSeg c k with
  | none => s
  | some g => ((fetchUnits (s.slotJob c k).ndesc (s.slot c k).pc w0 w1).filter g.weak.contains).foldl
      (fun s u => s.correctedIn wkSegment (2048 * (s.slot c k).seg + u / 8) (some c) skCore c 0 0 (some (s.slotDom c k))) s

/-- An uncorrectable error on a fetch or descriptor read (R252): DATA_ERROR with the unit's line in the code frame, and the segment is
refilled before any slot uses it again. The task's issue stops at once, as there is no instruction to issue (log entry 226). -/
def State.fetchFault (s : State) (c k opc u : Nat) : State :=
  let seg := (s.slot c k).seg
  let line := lineAddr (yardBase + 16384 * (s.slotJob c k).frame.getD 0 + u)
  let s := (s.ueMet 0 (some (s.slotDom c k)) skCore c line).takeCseq c k
    (fun n => ⟨n, opc, 0, true, 1, [], some (.dataError line), .none⟩) fun x => { x with stopIssue := true }
  let stop := fun (x : Slot) => if x.seg == seg then { x with started := false } else x
  s.updCore c fun q => { q with
    segs := Tab.upd none q.segs seg fun g => g.map fun g => { g with filling := true }
    slots := Tab.mapAll {} q.slots fun _ x => stop x
    parked := q.parked.map fun p => { p with slot := stop p.slot } }

/-- A short instruction that has issued: its CSEQ, its entry in the retire list and the next instruction's place. -/
def Eff.issued (e : Eff) (c k opc : Nat) : State :=
  e.s.takeCseq c k (fun n => ⟨n, opc, 0, e.complete, e.cycles, e.flags.map (fun f => ⟨f, 0⟩), e.fault, e.act⟩)
    fun x => { x with pc := e.pc.getD (x.pc + 8) }

/-- Whether RND may stand in an instruction (R53, R253): 0 or 1 for HF24 operations and conversions, 0 otherwise. -/
def rndOk (opc : Nat) (f : SFields) : Bool :=
  if 0x18 ≤ opc && opc ≤ 0x1F then f.rnd.toNat ≤ 1 else f.rnd.toNat == 0

/-- The issue of a short instruction. `bad` is a field outside its range (R254); `rd` and `wr` are the registers it reads and
writes; `eff` is its effect, or none while it is held at issue. -/
def issueShort (c k opc : Nat) (f : SFields) (bad : Bool) (rd wr : List Nat) (eff : State → Option Eff) (s : State) : Out :=
  if !s.hasSlot c k then .fault .noSuchUnit
  else if !s.ready c k then .next s
  else match s.fetch c k (shortWord opc f) none with
    | .other => .next s
    | .unknown => .next ((s.fetchRead c k 0 none).decodeFault c k ((s.slotJob c k).segWord (s.slot c k).pc / 2 ^ 56))
    | .bad u => .next (s.fetchFault c k opc u)
    | .same =>
      let s := s.fetchRead c k (shortWord opc f) none
      if 2 ^ 32 ≤ (s.slot c k).cseq || bad || f.res ≠ 0 || !rndOk opc f then .next (s.decodeFault c k opc)
      else if s.held c k rd wr then .next s
      else match eff s with
        | none => .next s
        | some e => .next (e.issued c k opc)

/-- A write of one register. -/
def State.setReg (s : State) (c k r : Nat) (w : Word) : State := s.updSlot c k fun x => x.setReg r w
/-- A write of CY. -/
def State.setCy (s : State) (c k : Nat) (b : Bool) : State := s.updSlot c k fun x => { x with cy := b }

end Sys2Proof.Machine
end

