-- ==== Sys2Proof/Machine/SeqMem.lean ====
section
/-!
DEFINITION. The Sequencer's loads and stores, block moves between cores, touches of model pages and windows (R155, R158, R161
to R168, R170, R173, R195 to R198), and the arrival of a remote word (R164).
-/

namespace Sys2Proof.Machine

/-! ### The scoreboard (R157 to R160) -/

/-- The 64-byte lines that a half-open byte range meets, as a half-open range of line numbers. -/
def lineRange (lo hi : Nat) : Nat × Nat := (lo / 64, (hi + 63) / 64)

/-- Whether an access to a half-open range of lines must wait for a command in flight (R158). -/
def Core.sbConflict (k : Core) (lo hi : Nat) (write : Bool) : Bool :=
  k.sb.any fun r => r.lo < hi && lo < r.hi && (r.write || write)

/-- Whether an access of `n` bytes at a device address is held (R158). -/
def Core.lsHeld (k : Core) (a n : Nat) (write : Bool) : Bool :=
  k.sbConflict (lineRange a (a + n)).1 (lineRange a (a + n)).2 write

/-! ### Refused accesses (R165, R173) -/

/-- A Sequencer access that reaches nothing: a record of class ACCESS, CODE 1 (R165). -/
def State.accessNowhere (s : State) (c k a count : Nat) : State :=
  s.recordN count 3 1 (some (s.slotDom c k)) skCore c (a % 2 ^ 48) 0

/-- A Yard access refused (R173). -/
def State.yardRefused (s : State) (c k a : Nat) : State :=
  ({ s with ras := { s.ras with yref := satAdd 16 s.ras.yref 1 } }).record 3 0 (some (s.slotDom c k)) skCore c (a % 2 ^ 48) 0

/-- An access that a failed link makes undeliverable: DATA_ERROR with the target's line (R442). -/
def lostWord (a : Nat) (s : State) : Eff := { s := s, fault := some (.dataError (lineAddr a)) }

/-! ### Loads and stores (R155, R162, R165, R170, R499) -/

/-- The address of a load or store: RA + IMM modulo 2^64 (R255). -/
def lsAddr (x : Slot) (f : SFields) : Nat := (srcA x f + immExt f).toNat

/-- A load of `w` bytes at issue. A 32-bit load leaves the upper half of RD zero (log entry 14). -/
def loadEff (c k : Nat) (f : SFields) (w : Nat) (s : State) : Option Eff :=
  let a := lsAddr (s.slot c k) f
  let refused := fun (s : State) => some { s := s.setReg c k f.rd.toNat 0 : Eff }
  if a % w ≠ 0 then refused (s.accessNowhere c k a 1)
  else match s.place a with
    | .core t off =>
      if t = c then
        if (s.core c).lsHeld a w false then none
        else if ((s.core c).badIn off (off + w)).isEmpty then
          some { s := (s.coreRead c off (off + w) (some (s.slotDom c k))).setReg c k f.rd.toNat (BitVec.ofNat 64 (Rd.le s.rd a w)), cycles := 6 }
        else some { s := s.ueMet 0 (some (s.slotDom c k)) skCore c (lineAddr a), cycles := 6,
                    fault := some (.dataError (lineAddr a)) }
      else if (s.slot c k).remote.isSome then none
      else
        let x := s.slot c k
        let word : RWord :=
          { src := c, slot := k, uid := x.uid.getD 0, cseq := x.cseq, tgt := t, addr := a, write := false, width := w,
            val := 0, reg := f.rd.toNat, left := 0, laddr := 0 }
        let s := { s with mesh := s.mesh ++ [word] }
        some { s := s.updSlot c k fun x => { x with remote := some f.rd.toNat }, complete := false }
    | .yard off =>
      if !s.yardOk (s.slotDom c k) off then refused (s.yardRefused c k a)
      else if s.yardCut c off then some (lostWord a s)
      else if (s.yardBadIn off (off + w)).isEmpty then
        some { s := (s.yardRead off (off + w) (some (s.slotDom c k))).setReg c k f.rd.toNat (BitVec.ofNat 64 (Rd.le s.rd a w)), cycles := 14 }
      else some { s := s.ueMet 0 (some (s.slotDom c k)) skSlice (s.slice off) (lineAddr a), cycles := 14,
                  fault := some (.dataError (lineAddr a)) }
    | _ => refused (s.accessNowhere c k a 1)

/-- A store of `w` bytes at issue. -/
def storeEff (c k : Nat) (f : SFields) (w : Nat) (s : State) : Option Eff :=
  let a := lsAddr (s.slot c k) f
  let v := ((s.slot c k).reg f.rd.toNat).toNat
  if a % w ≠ 0 then some { s := s.accessNowhere c k a 1 }
  else match s.place a with
    | .core t off =>
      if t = c then
        if (s.core c).lsHeld a w true then none
        else some { s := (s.coreWrite c (bytesAt off (toLE w v))).1 }
      else
        let x := s.slot c k
        let word : RWord :=
          { src := c, slot := k, uid := x.uid.getD 0, cseq := x.cseq, tgt := t, addr := a, write := true, width := w,
            val := v % 2 ^ (8 * w), reg := 0, left := 0, laddr := 0 }
        some { s := { s with mesh := s.mesh ++ [word] }, complete := false }
    | .yard off =>
      if !s.yardOk (s.slotDom c k) off then some { s := s.yardRefused c k a }
      else if s.yardCut c off then some (lostWord a s)
      else
        let r := s.yardWrite (bytesAt off (toLE w v))
        if r.2.isEmpty then some { s := r.1 }
        else some { s := r.1.ueMet 0 (some (s.slotDom c k)) skSlice (s.slice off) (lineAddr a),
                    fault := some (.dataError (lineAddr a)) }
    | _ => some { s := s.accessNowhere c k a 1 }

/-- LD32 (R255). -/
def execLd32 (c k : Nat) (f : SFields) (s : State) : Out :=
  issueShort c k 0x20 f false [f.ra.toNat] [f.rd.toNat] (loadEff c k f 4) s
/-- LD64 (R255). -/
def execLd64 (c k : Nat) (f : SFields) (s : State) : Out :=
  issueShort c k 0x21 f false [f.ra.toNat] [f.rd.toNat] (loadEff c k f 8) s
/-- ST32 (R255). -/
def execSt32 (c k : Nat) (f : SFields) (s : State) : Out :=
  issueShort c k 0x22 f false [f.ra.toNat, f.rd.toNat] [] (storeEff c k f 4) s
/-- ST64 (R255). -/
def execSt64 (c k : Nat) (f : SFields) (s : State) : Out :=
  issueShort c k 0x23 f false [f.ra.toNat, f.rd.toNat] [] (storeEff c k f 8) s

/-! ### XMOVE (R161, R162, R165) -/

/-- The first beat of an XMOVE that reaches another core, as that core's number, among `n` beats from address `a` (R161). -/
def State.beatCore (s : State) (c a : Nat) : (n : Nat) → Option Nat
  | 0 => none
  | n + 1 => match s.place a with
    | .core t _ => if t = c then s.beatCore c (a + 8) n else some t
    | _ => s.beatCore c (a + 8) n

/-- XMOVE at issue: its local side enters the scoreboard, and its beats cross the mesh one by one; one none of whose beats reaches
another core moves nothing (R165). -/
def xmoveEff (c k : Nat) (f : SFields) (s : State) : Option Eff :=
  let x := s.slot c k
  let n := f.imm.toNat % 512 + 1
  let toLocal := natBit f.imm.toNat 9
  let la := (srcA x f).toNat / 8 * 8
  let ra := (srcB x f).toNat / 8 * 8
  let b := coreBase c
  if !(b ≤ la && la + 8 * n ≤ b + coreBytes) then some { s := s.accessNowhere c k la 1 }
  else if (s.core c).lsHeld la (8 * n) toLocal then none
  else match s.beatCore c ra n with
    | some t =>
      if 256 ≤ (s.core c).sb.length then none
      else
        let r := lineRange la (la + 8 * n)
        let word : RWord :=
          { src := c, slot := k, uid := x.uid.getD 0, cseq := x.cseq, tgt := t, addr := ra, write := !toLocal, width := 8,
            val := 0, reg := 0, left := n, laddr := la }
        let s := s.updCore c fun q => { q with sb := q.sb ++ [⟨x.uid.getD 0, x.cseq, r.1, r.2, toLocal⟩] }
        some { s := { s with mesh := s.mesh ++ [word] }, complete := false }
    | none =>
      let s := if toLocal then (s.coreWrite c (bytesAt (la - b) (List.replicate (8 * n) 0))).1 else s
      some { s := s.accessNowhere c k ra n }

/-- XMOVE (R161, R255). -/
def execXmove (c k : Nat) (f : SFields) (s : State) : Out :=
  issueShort c k 0x24 f false ([f.ra.toNat] ++ if f.i then [] else [f.rb.toNat]) [] (xmoveEff c k f) s

/-! ### Remote words (R163 to R168, R442) -/

/-- Whether an open window of a core lets an initiator reach `n` bytes at an offset (R164). -/
def Core.windowOk (k : Core) (src off n : Nat) (write : Bool) : Bool :=
  (List.range 8).any fun i =>
    let w := Tab.get 0 k.wins i
    natBit w 0 && natBits w 55 48 ≤ src && src ≤ natBits w 63 56 && natBit w (if write then 2 else 1)
    && 64 * natBits w 29 16 ≤ off && off + n ≤ 64 * natBits w 45 32

/-- Whether the target accepts a remote word (R164, R176, R450). -/
def State.remoteOk (s : State) (src tgt off n : Nat) (write : Bool) : Bool :=
  let a := s.owner src
  let b := s.owner tgt
  a.valid && b.valid && a.dom == b.dom && !b.scrub && !s.ras.fence.contains tgt && (s.core tgt).windowOk src off n write

/-- Mark an instruction of a task complete in its slot's retire list, with a fault if there is one. -/
def State.complete (s : State) (c k uid cseq : Nat) (fault : Option RFault) : State :=
  s.updSlot c k fun x =>
    if x.uid = some uid then
      { x with ret := x.ret.map fun e => if e.cseq = cseq then { e with complete := true, fault := fault.orElse fun _ => e.fault } else e }
    else x

/-- A refused remote word or beat counts at its target (R165). -/
def State.winRefused (s : State) (tgt : Nat) : State :=
  s.updCore tgt fun q => { q with winRefused := satAdd 32 q.winRefused 1 }

/-- The record of a refusal, with the initiating core as its source (log entry 18). -/
def State.refusalRecord (s : State) (w : RWord) (a count : Nat) : State :=
  s.recordN count 3 0 (some (s.owner w.src).dom) skCore w.src (a % 2 ^ 48) 0

/-- The end of a single remote word. -/
def remoteDone (w : RWord) (v : Option Nat) (fault : Option RFault) (s : State) : State :=
  let live := (s.slot w.src w.slot).uid = some w.uid
  let s := match v with
    | some v => if live ∧ !w.write then
        (s.setReg w.src w.slot w.reg (BitVec.ofNat 64 v)) else s
    | none => s
  let s := if live ∧ !w.write then s.updSlot w.src w.slot fun x => { x with remote := none } else s
  s.complete w.src w.slot w.uid w.cseq fault

/-- A single remote load or store at its target. -/
def remoteWord (w : RWord) (s : State) : State :=
  let off := w.addr - coreBase w.tgt
  if !s.remoteOk w.src w.tgt off w.width w.write then
    remoteDone w (some 0) none ((s.winRefused w.tgt).refusalRecord w w.addr 1)
  else if w.write then remoteDone w none none (s.coreWrite w.tgt (bytesAt off (toLE w.width w.val))).1
  else if ((s.core w.tgt).badIn off (off + w.width)).isEmpty then
    remoteDone w (some (Rd.le s.rd w.addr w.width)) none (s.coreRead w.tgt off (off + w.width) (some (s.owner w.src).dom))
  else remoteDone w none (some (.dataError (lineAddr w.addr)))
    (s.ueMet 0 (some (s.owner w.src).dom) skCore w.tgt (lineAddr w.addr))

/-- How a beat of an XMOVE ends (R165, R140). -/
inductive Beat where
  | moved
  | refused (tgt : Nat)
  | nowhere
  | bad (line : Nat)
deriving DecidableEq, Repr

/-- A beat that moves nothing: its local side takes zero where the XMOVE writes it (R165). -/
def xmoveZero (w : RWord) (s : State) : State :=
  if w.write then s else (s.coreWrite w.src (bytesAt (w.laddr - coreBase w.src) (List.replicate 8 0))).1

/-- One beat of an XMOVE at the place its address decodes to: what it moves and how it ends. -/
def xmoveBeat (w : RWord) (s : State) : State × Beat :=
  let lo := w.laddr - coreBase w.src
  let dom := some (s.owner w.src).dom
  match s.place w.addr with
  | .core t off =>
    if t = w.src then (xmoveZero w s, .nowhere)
    else if !s.remoteOk w.src t off 8 w.write then (xmoveZero w s, .refused t)
    else
      let (from_, fo, fc) := if w.write then (w.laddr, lo, w.src) else (w.addr, off, t)
      if ((s.core fc).badIn fo (fo + 8)).isEmpty then
        let v := toLE 8 (Rd.le s.rd from_ 8)
        let s := s.coreRead fc fo (fo + 8) dom
        (if w.write then (s.coreWrite t (bytesAt off v)).1 else (s.coreWrite w.src (bytesAt lo v)).1, .moved)
      else (s.ueMet 0 dom skCore fc (lineAddr from_), .bad (lineAddr from_))
  | _ => (xmoveZero w s, .nowhere)

/-- An XMOVE after a beat: the next beat, with the beats refused and those that decode nowhere counted (R165). -/
def RWord.after (w : RWord) (s : State) (b : Beat) : RWord :=
  let w' := { w with addr := w.addr + 8, laddr := w.laddr + 8, left := w.left - 1
                     tgt := (s.beatCore w.src (w.addr + 8) (w.left - 1)).getD w.tgt }
  match b with
  | .refused _ => { w' with refused := w.refused + 1, firstBad := if w.refused = 0 then w.addr else w.firstBad }
  | .nowhere => { w' with nowhere := w.nowhere + 1, firstGone := if w.nowhere = 0 then w.addr else w.firstGone }
  | _ => w'

/-- The end of an XMOVE: it leaves the scoreboard, its refusals are recorded once and its undecoded beats once, and it can retire. -/
def xmoveDone (w : RWord) (fault : Option RFault) (s : State) : State :=
  let s := s.updCore w.src fun q => { q with sb := q.sb.filter fun r => !(r.uid == w.uid && r.cseq == w.cseq) }
  let s := if w.refused = 0 then s else s.refusalRecord w w.firstBad w.refused
  let s := if w.nowhere = 0 then s
    else s.recordN w.nowhere 3 1 (some (s.owner w.src).dom) skCore w.src (w.firstGone % 2 ^ 48) 0
  s.complete w.src w.slot w.uid w.cseq fault

/-- The arrival of the oldest remote word, or of the next beat of an XMOVE, from one core at another. -/
def remoteArrive (w : RWord) (rest : List RWord) (s : State) : State :=
  if w.left = 0 then remoteWord w { s with mesh := rest }
  else
    let (s, b) := xmoveBeat w s
    let s := match b with
      | .refused t => s.winRefused t
      | _ => s
    let w' := w.after s b
    match b with
    | .bad l => xmoveDone w' (some (.dataError l)) { s with mesh := rest }
    | _ => if w'.left = 0 then xmoveDone w' none { s with mesh := rest }
      else { s with mesh := s.mesh.map fun v => if v = w then w' else v }

/-- REMOTE_WORD_ARRIVAL (R164): words from one core to one other arrive in the order of issue (R168); one whose path is cut ends with
DATA_ERROR (R442), and an ADD that waits for it is dropped (R27, log entry 223). -/
def execRemoteWordArrival (tgt src : Nat) (s : State) : Out :=
  if !(tgt < s.var.cores && src < s.var.cores) then .fault .noSuchUnit
  else match s.mesh.find? fun w => w.src == src && w.tgt == tgt with
    | none => .next s
    | some w =>
      let rest := s.mesh.erase w
      if s.undeliverable src tgt then
        let lost := some (RFault.dataError (lineAddr w.addr))
        let s := { s with mesh := rest }
        let s := if w.write || w.left ≠ 0 then s.dropAdds w.uid [w.cseq] else s
        .next (if w.left = 0 then remoteDone w none lost s else xmoveDone w lost s)
      else .next (remoteArrive w rest s)

/-! ### Windows (R163, R166, R167) -/

/-- WOPEN takes effect when it retires (R166). -/
def execWopen (c k : Nat) (f : SFields) (s : State) : Out :=
  issueShort c k 0x26 f false [f.ra.toNat] []
    (fun s => some { s := s, act := .wopen (f.imm.toNat % 8) (srcA (s.slot c k) f).toNat }) s

/-- WCLOSE takes effect when it retires (R167). -/
def execWclose (c k : Nat) (f : SFields) (s : State) : Out :=
  issueShort c k 0x27 f false [] [] (fun s => some { s := s, act := .wclose (f.imm.toNat % 8) }) s

/-- The bits of a CORE_WIN register that WOPEN takes from RA: all but the reserved ones and SLOT (R163, R166). -/
def winBits (w slot : Nat) : Nat :=
  fields [(56, natBits w 63 56), (48, natBits w 55 48), (32, natBits w 45 32), (16, natBits w 29 16), (5, slot),
    (2, natBits w 2 2), (1, natBits w 1 1), (0, natBits w 0 0)]

/-- The effect of WOPEN as it retires (R166). -/
def State.wopen (s : State) (c k n w : Nat) : State :=
  if natBits w 29 16 < natBits w 45 32 && natBits w 45 32 ≤ 12288 then
    s.updCore c fun q => { q with wins := Tab.set 0 q.wins n (winBits w k) }
  else
    (s.updCore c fun q => { q with wins := Tab.upd 0 q.wins n fun v => v / 2 * 2 }).record 4 1 (some (s.slotDom c k)) skCore c 0 0

/-- The effect of WCLOSE as it retires (R167). -/
def State.wclose (s : State) (c n : Nat) : State :=
  s.updCore c fun q => { q with wins := Tab.upd 0 q.wins n fun v => v / 2 * 2 }

/-! ### Touches by KGET (R192, R195 to R198) -/

/-- Whether a frame serves touches of a page: it holds it or is filling with it, for a model that is still loaded; also where an EVICT
frees it once its reads reach zero (R192, R199, R201). -/
def Frame.serves (f : Frame) (pn : Nat) : Bool :=
  f.pn == pn && (match f.st with
    | .filling => !f.gone
    | .resident => !f.gone
    | .pinned => true
    | _ => false)

/-- The frame that holds or is being filled with a page. -/
def State.frameOf (s : State) (pn : Nat) : Option (Nat × Frame) := s.knl.frames.find? fun p => p.2.serves pn

/-- Whether a frame state is PINNED (R192, R248). -/
def FrSt.isPinned : FrSt → Bool
  | .pinned => true
  | .code _ => true
  | _ => false

/-- Change a frame. -/
def State.updFrame (s : State) (k : Nat) (f : Frame → Frame) : State :=
  { s with knl := { s.knl with frames := Tab.upd {} s.knl.frames k f } }

/-- A touch that found its page RESIDENT or PINNED counts in HITS (R203). -/
def State.countHit (s : State) (pn : Nat) : State :=
  match s.frameOf pn with
  | some (_, f) => if f.st = .filling then s else { s with knl := { s.knl with hits := satAdd 32 s.knl.hits 1 } }
  | none => s

/-- Start a touch: read a resident page, wait for a filling one, or ask for a fill (R192, R193, R195). -/
def State.touch (s : State) (t : Touch) : State :=
  let add := fun (s : State) (fr : Option Nat) => { s with knl := { s.knl with touches := s.knl.touches ++ [{ t with frame := fr }] } }
  match s.frameOf t.pn with
  | some (k, fr) =>
    if fr.st = .filling then add s none
    else
      let s := add s (some k)
      let s := s.updFrame k fun fr => { fr with ref := true, reads := fr.reads + 1 }
      { s with knl := { s.knl with hits := satAdd 32 s.knl.hits 1 } }
  | none =>
    let s := add s none
    if s.knl.waiting.contains (.page t.pn) then s
    else { s with knl := { s.knl with waiting := s.knl.waiting ++ [.page t.pn], misses := satAdd 32 s.knl.misses 1 } }

/-- The page number and model of a touch by a task of a job, if it names one (R196). -/
def State.touchPage (s : State) (j : Job) (model page : Nat) : Option Nat :=
  match j.models[model]? with
  | none => none
  | some id =>
    let m := Tab.get {} s.knl.models id
    if model < j.nmodels && page < m.npages then some (m.pnBase + page) else none

/-- A touch that is in range of its model is not, or goes nowhere: a record of class ACCESS, CODE 3 (R196, R445). -/
def State.touchRefused (s : State) (c k a : Nat) : State :=
  s.record 3 3 (some (s.slotDom c k)) skCore c (a % 2 ^ 48) 0

/-- Write into core memory for a unit that is no instruction of a task: bytes that cannot be merged stay, with a record (R499). -/
def State.coreWriteUe (s : State) (c : Nat) (w : List (Nat × Byte)) (dom : Option Nat) : State :=
  let r := s.coreWrite c w
  (r.2.map fun b => lineAddr (coreBase c + b)).dedup.foldl (fun s l => s.ueMet 0 dom skCore c l) r.1

/-- Zero written by a refused touch (R196). -/
def State.coreZero (s : State) (c dst n : Nat) : State :=
  s.coreWriteUe c (bytesAt dst (List.replicate n 0)) (some (s.owner c).dom)

/-- KGET at issue. A part of its destination that does not decode takes nothing (R196). -/
def kgetEff (c k : Nat) (f : SFields) (s : State) : Option Eff :=
  let x := s.slot c k
  let im := f.imm.toNat
  let off := natBits im 27 20 * 64
  let len := min (natBits im 19 12 * 64 + 64) (16384 - off)
  let dst := (srcA x f).toNat
  let page := (srcB x f).toNat
  let j := s.slotJob c k
  if coreBytes < dst + len then
    let here := min len (coreBytes - dst)
    if here ≠ 0 && (s.core c).lsHeld (coreBase c + dst) here true then none
    else some { s := (s.coreZero c dst here).touchRefused c k 0 }
  else if (s.core c).lsHeld (coreBase c + dst) len true then none
  else match s.touchPage j (natBits im 31 28) page with
    | none => some { s := (s.coreZero c dst len).touchRefused c k (coreBase c + dst) }
    | some pn =>
      let pinned := match s.frameOf pn with
        | some (_, fr) => fr.st.isPinned
        | none => false
      if !j.be && !pinned then some { s := s.countHit pn, fault := some .malformed }
      else if 256 ≤ (s.core c).sb.length then none
      else
        let r := lineRange (coreBase c + dst) (coreBase c + dst + len)
        let s := s.updCore c fun q => { q with sb := q.sb ++ [⟨x.uid.getD 0, x.cseq, r.1, r.2, true⟩] }
        some { s := s.touch ⟨c, k, x.uid.getD 0, x.cseq, none, pn, off, len, dst, none⟩, complete := false }

/-- KGET (R195, R198, R255). -/
def execKget (c k : Nat) (f : SFields) (s : State) : Out :=
  issueShort c k 0x25 f false ([f.ra.toNat] ++ if f.i then [] else [f.rb.toNat]) [] (kgetEff c k f) s

end Sys2Proof.Machine
end

