-- ==== Sys2Proof/Machine/PioOps.lean ====
section
/-!
DEFINITION. Plant I/O's shared operations (R319, R320, R338 to R346, R349, R352 to R354): who owns a unit, what a loop's source
reads, receive rings and fields, transmit frames and when they are due, and what a direct output drives.
-/

namespace Sys2Proof.Machine

/-! ### Units (R319, R320) -/

def uMac (m : Nat) : Nat := m
def uCan (n : Nat) : Nat := 4 + n
def uCap (n : Nat) : Nat := 12 + n
def uDin (i : Nat) : Nat := 28 + i
def uPwm (o : Nat) : Nat := 60 + o
def uDout (o : Nat) : Nat := 76 + o
def uRing (n : Nat) : Nat := 92 + n
def uRxf (f : Nat) : Nat := 156 + f
def uTxf (g : Nat) : Nat := 412 + g
def uMap (m : Nat) : Nat := 668 + m
def uQueue (q : Nat) : Nat := 732 + q

/-- The domain a unit belongs to (R320). -/
def State.pioDom (s : State) (u : Nat) : Option Nat :=
  let w := (Tab.get 0 s.pio.own u).toNat
  if natBit w 63 then some (natBits w 62 59) else none

def State.mac (s : State) (m : Nat) : MacSt := Tab.get {} s.pio.macs m
def State.updMac (s : State) (m : Nat) (f : MacSt → MacSt) : State :=
  { s with pio := { s.pio with macs := Tab.upd {} s.pio.macs m f } }
def State.can (s : State) (n : Nat) : CanSt := Tab.get {} s.pio.cans n
def State.updCan (s : State) (n : Nat) (f : CanSt → CanSt) : State :=
  { s with pio := { s.pio with cans := Tab.upd {} s.pio.cans n f } }
def State.rxRing (s : State) (n : Nat) : RxRing := Tab.get {} s.pio.rings n
def State.updRxRing (s : State) (n : Nat) (f : RxRing → RxRing) : State :=
  { s with pio := { s.pio with rings := Tab.upd {} s.pio.rings n f } }
def State.rxField (s : State) (n : Nat) : RxField := Tab.get {} s.pio.rxf n
def State.updRxField (s : State) (n : Nat) (f : RxField → RxField) : State :=
  { s with pio := { s.pio with rxf := Tab.upd {} s.pio.rxf n f } }
def State.txField (s : State) (n : Nat) : TxField := Tab.get {} s.pio.txf n
def State.updTxField (s : State) (n : Nat) (f : TxField → TxField) : State :=
  { s with pio := { s.pio with txf := Tab.upd {} s.pio.txf n f } }
def State.txMap (s : State) (n : Nat) : TxMap := Tab.get {} s.pio.maps n
def State.updTxMap (s : State) (n : Nat) (f : TxMap → TxMap) : State :=
  { s with pio := { s.pio with maps := Tab.upd {} s.pio.maps n f } }
def State.txQueue (s : State) (n : Nat) : TxQueue := Tab.get {} s.pio.queues n
def State.updTxQueue (s : State) (n : Nat) (f : TxQueue → TxQueue) : State :=
  { s with pio := { s.pio with queues := Tab.upd {} s.pio.queues n f } }
def State.cap (s : State) (n : Nat) : CapSt := Tab.get {} s.pio.caps n
def State.updCap (s : State) (n : Nat) (f : CapSt → CapSt) : State :=
  { s with pio := { s.pio with caps := Tab.upd {} s.pio.caps n f } }
def State.din (s : State) (n : Nat) : DinSt := Tab.get {} s.pio.dins n
def State.updDin (s : State) (n : Nat) (f : DinSt → DinSt) : State :=
  { s with pio := { s.pio with dins := Tab.upd {} s.pio.dins n f } }
def State.pwm (s : State) (n : Nat) : PwmSt := Tab.get {} s.pio.pwms n
def State.updPwm (s : State) (n : Nat) (f : PwmSt → PwmSt) : State :=
  { s with pio := { s.pio with pwms := Tab.upd {} s.pio.pwms n f } }
def State.dout (s : State) (n : Nat) : DoutSt := Tab.get {} s.pio.douts n
def State.updDout (s : State) (n : Nat) (f : DoutSt → DoutSt) : State :=
  { s with pio := { s.pio with douts := Tab.upd {} s.pio.douts n f } }

/-- The configuration register of a unit that carries its EN (or V) bit; a transmit queue has none (R319, R320). -/
def State.pioCfg (s : State) (u : Nat) : Nat :=
  if u < 4 then (s.mac u).cfg.toNat
  else if u < 12 then (s.can (u - 4)).cfg.toNat
  else if u < 28 then (s.cap (u - 12)).cfg.toNat
  else if u < 60 then (s.din (u - 28)).cfg.toNat
  else if u < 76 then (s.pwm (u - 60)).cfg.toNat
  else if u < 92 then (s.dout (u - 76)).cfg.toNat
  else if u < 156 then (s.rxRing (u - 92)).a.toNat
  else if u < 412 then (s.rxField (u - 156)).a.toNat
  else if u < 668 then (s.txField (u - 412)).cfg.toNat
  else if u < 732 then (s.txMap (u - 668)).cfg.toNat
  else 0

/-- Whether a unit works: its EN bit is 1 and it belongs to a domain (R320). -/
def State.pioOn (s : State) (u : Nat) : Bool := natBit (s.pioCfg u) 63 && (s.pioDom u).isSome

/-- An error record of a plant I/O unit. -/
def State.pioRecord (s : State) (cls code u addr : Nat) : State := s.record cls code (s.pioDom u) skPio u addr 0

/-- An ADD of a unit's tally, checked against the unit's domain (R320, R233). -/
def State.pioTally (s : State) (u tally : Nat) : State :=
  match s.pioDom u with
  | none => s
  | some d => s.tallyAdd d tally 1

/-! ### Sources of the loops (R292, R293, R349) -/

/-- Whether an encoder's count is valid at an instant (R349, R355). -/
def CapSt.posOk (x : CapSt) (t : Nat) : Bool :=
  let c := x.cfg.toNat
  natBit c 63 && natBits c 62 61 == 0 && !(x.ovs && match x.ovsAt with
    | some (_, first) => decide (first ≤ t)
    | none => true)

/-- Whether an encoder's speed is valid at an instant (R349). -/
def CapSt.speedOk (x : CapSt) (t : Nat) : Bool :=
  x.posOk t && !(match x.ovsAt with
    | some (last, _) => decide (t ≤ last + 5000 * natBits x.cfg.toNat 57 46) && decide (last ≤ t)
    | none => false)

/-- Whether a SENT channel is valid at an instant (R349). Channel 1 holds data bits always, channel 2 when N1 < DN. -/
def CapSt.sentOk (x : CapSt) (ch t : Nat) : Bool :=
  let c := x.cfg.toNat
  natBit c 63 && natBits c 62 61 == 1 && (ch == 0 || decide (natBits c 33 31 < natBits c 36 34))
  && match x.good with
    | none => false
    | some (_, _, at_) => decide (at_ ≤ t) && decide (x.errRun < natBits c 11 8)
        && (natBits c 27 12 == 0 || decide (t - at_ < natBits c 27 12 * 1000))

/-- COUNT over the transitions stamped at or before `t` (R324, R347). -/
def CapSt.countAt (x : CapSt) (t : Nat) : Nat := ((x.trans.find? fun p => decide (p.1 ≤ t)).map (·.2)).getD 0

/-- COUNT and SPEED as a loop reads them at `t` (R347, R349). -/
def CapSt.pos (x : CapSt) (t : Nat) : Int := sgn 32 (x.countAt t)
def CapSt.speed (x : CapSt) (t : Nat) : Int :=
  sgn 32 (wrapN 32 ((x.countAt t : Int) - (x.countAt (t - 5000 * natBits x.cfg.toNat 57 46) : Int)))

/-- The raw value of a source at a freeze, none when it is not valid (R293, R349). -/
def State.source (s : State) (code t : Nat) : Option Int :=
  let ix := code % 256
  let x := s.cap ix
  let capOn := (s.pioDom (uCap ix)).isSome && decide (ix < 16)
  match code / 256 with
  | 1 => if capOn && x.posOk t then some (x.pos t) else none
  | 2 => if capOn && x.speedOk t then some (x.speed t) else none
  | 3 => if capOn && x.sentOk 0 t then x.good.map fun g => (g.1 : Int) else none
  | 4 => if capOn && x.sentOk 1 t then x.good.map fun g => (g.2.1 : Int) else none
  | 5 =>
    let r := s.rxField ix
    if !s.pioOn (uRxf ix) then none
    else match r.val with
      | none => none
      | some (v, at_) => if at_ ≤ t && (natBits r.a.toNat 31 0 = 0 || t - at_ < natBits r.a.toNat 31 0) then some v else none
  | _ => none

/-- The instant at which a digital input's stuck-active time ends (R351). -/
def DinSt.stuckEnd (x : DinSt) : Option Nat :=
  if x.filt then x.filtAt.map (· + natBits x.cfg.toNat 41 26 * 1000000) else none

/-- Whether a digital input's raw level differs from its filtered level and has held for FILT ns at a DT. -/
def DinSt.runDone (x : DinSt) (t : Nat) : Bool :=
  (x.raw != natBit x.cfg.toNat 62) != x.filt && decide (x.rawAt + natBits x.cfg.toNat 61 42 ≤ t)

/-- A digital input with the filtered edge that a run complete at a DT makes (R350). -/
def DinSt.filtered (x : DinSt) (t : Nat) : DinSt :=
  if x.runDone t then { x with filt := x.raw != natBit x.cfg.toNat 62, filtAt := some x.rawAt } else x

/-- Whether a digital input is STUCK at an instant (R351). -/
def State.stuckAt (s : State) (i t : Nat) : Bool :=
  s.pioOn (uDin i) && (match ((s.din i).filtered t).stuckEnd with
    | some e => decide (e ≤ t)
    | none => false)

/-- Whether a source code names a unit of a domain (R292, R315). -/
def State.sourceOk (s : State) (code d : Nat) : Bool :=
  let ix := code % 256
  match code / 256 with
  | 1 => decide (ix < 16) && s.pioDom (uCap ix) == some d
  | 2 => decide (ix < 16) && s.pioDom (uCap ix) == some d
  | 3 => decide (ix < 16) && s.pioDom (uCap ix) == some d
  | 4 => decide (ix < 16) && s.pioDom (uCap ix) == some d
  | 5 => s.pioDom (uRxf ix) == some d
  | _ => false

/-- The unit of an output target (R294). -/
def targetUnit (code : Nat) : Option Nat :=
  let ix := code % 256
  match code / 256 with
  | 1 => if ix < 16 then some (uPwm ix) else none
  | 2 => if ix < 16 then some (uDout ix) else none
  | 3 => some (uTxf ix)
  | _ => none

/-- Whether a target is none, or a unit of a domain (R294, R315). -/
def State.targetOk (s : State) (code d : Nat) : Bool :=
  code == 0 || (match targetUnit code with
    | some u => s.pioDom u == some d
    | none => false)

/-- The unit of a source code. -/
def sourceUnit (code : Nat) : Option Nat :=
  let ix := code % 256
  match code / 256 with
  | 1 => some (uCap ix)
  | 2 => some (uCap ix)
  | 3 => some (uCap ix)
  | 4 => some (uCap ix)
  | 5 => some (uRxf ix)
  | _ => none

/-! ### Receive fields (R341) -/

/-- A big-endian number. -/
def beNat (l : List Byte) : Nat := l.foldl (fun a b => a * 256 + b.toNat) 0

/-- The raw value a receive field takes from the bytes after the key, none when they are too short. -/
def RxField.take (x : RxField) (bs : List Byte) : Option Int :=
  let c := x.a.toNat
  let n := 2 ^ natBits c 57 56
  let l := (bs.drop (natBits c 54 44)).take n
  if l.length < n then none
  else
    let v := if natBit c 55 then beNat l else leNat l
    some (if natBit c 58 then sgn (8 * n) v else sgn 32 v)

/-- One receive field looks at a valid frame of a port (R341). -/
def State.feedField (s : State) (f port key : Nat) (bs : List Byte) (tEnd : Nat) : State :=
  let x := s.rxField f
  let c := x.a.toNat
  let b := x.b.toNat
  let mask := if port < 4 then natBits b 15 0 else natBits b 28 0
  let want := if port < 4 then natBits b 47 32 else natBits b 60 32
  if !s.pioOn (uRxf f) || natBits c 62 59 ≠ port || natBits c 57 56 = 3 || (key &&& mask) ≠ (want &&& mask) then s
  else match x.take bs with
    | none => s.pioRecord 5 2 (uRxf f) 0
    | some v =>
      -- an instant that DT has passed and whose samples are not computed yet sees a frame stamped at or before it (R293, R324)
      let sees := fun (z : Frozen) =>
        if tEnd ≤ z.t then { z with rxf := Tab.upd {} z.rxf f fun x => { x with val := some (v, tEnd) } } else z
      let s := { s with loop := { s.loop with frozen := s.loop.frozen.map sees } }
      s.updRxField f fun x => { x with val := some (v, tEnd) }

/-- Every receive field looks at a valid frame. -/
def State.feedFields (s : State) (port key : Nat) (bs : List Byte) (tEnd : Nat) : State :=
  (List.range 256).foldl (fun s f => s.feedField f port key bs tEnd) s

/-! ### Receive rings (R338 to R340) -/

/-- The 64-byte receive record (R339). -/
def rxRecord (tStart tEnd w len flen srcu : Nat) (trunc secv : Bool) : List Byte :=
  toLE 64 (fields [(448, tStart % 2 ^ 64), (384, tEnd % 2 ^ 64), (352, w % 2 ^ 32), (338, len % 2 ^ 14), (324, flen % 2 ^ 14),
    (314, srcu), (313, bit trunc), (312, bit secv)])

/-- One frame is written to a ring: dropped when no slot is free or a byte would leave the domain's granules, else written with its
record, counted and announced (R338 to R340, R499). -/
def State.ringPut (s : State) (n : Nat) (f : RxFrame) : State :=
  let x := s.rxRing n
  let a := x.a.toNat
  let b := x.b.toNat
  match s.pioDom (uRing n) with
  | none => s
  | some d =>
    if !natBit a 63 then s
    else
      let slots := natBits a 55 48 + 1
      let w := x.frames
      let used := (w % 2 ^ 32 + 2 ^ 32 - s.tallyVal (natBits b 44 27) % 2 ^ 32) % 2 ^ 32
      if natBit b 45 && slots ≤ used then s.updRxRing n fun x => { x with full := satAdd 16 x.full 1 }
      else
        let size := 2 ^ natBits b 26 23
        let at_ := natBits a 47 0 + (w % slots) * size
        let off := 8 * natBits b 22 16
        let len := min f.bytes.length (size - off)
        let rec_ := rxRecord f.tStart f.tEnd w len f.flen f.srcu (decide (len < f.bytes.length)) f.secv
        let out := !(decide (yardBase ≤ at_) && s.yardRangeOk d (at_ - yardBase) 64
          && (len == 0 || s.yardRangeOk d (at_ - yardBase + off) len))
        if out then (s.updRxRing n fun x => { x with refused := satAdd 16 x.refused 1 }).pioRecord 3 0 (uRing n) (at_ % 2 ^ 48)
        else
          let y := at_ - yardBase
          let r := s.yardWrite (bytesAt y rec_ ++ bytesAt (y + off) (f.bytes.take len))
          let s := r.2.foldl (fun s u => s.ueMet 0 (some d) skSlice (s.slice u) (lineAddr (yardBase + u))) r.1
          (s.updRxRing n fun x => { x with frames := x.frames + 1 }).pioTally (uRing n) (natBits b 63 46)

/-- Whether one frame of a ring comes before another (R340): by T_END, then by SRCU. -/
def RxFrame.before (f g : RxFrame) : Bool := decide (f.tEnd < g.tEnd) || (f.tEnd == g.tEnd && decide (f.srcu < g.srcu))

/-- A frame takes its place among those that wait. -/
def RxFrame.insert (f : RxFrame) (l : List RxFrame) : List RxFrame := l.takeWhile (!f.before ·) ++ f :: l.dropWhile (!f.before ·)

/-- RXLAT of a MAC (R323, R334), and the largest of the MACs that work: a frame of another unit may still come with a T_END that lies
that far back. -/
def State.rxLat (s : State) (m : Nat) : Nat := natBits (s.mac m).cfg.toNat 43 32
def State.rxLatMax (s : State) : Nat := (List.range 4).foldl (fun a m => if s.pioOn (uMac m) then max a (s.rxLat m) else a) 0

/-- The frames of a ring whose T_END has passed, so that no frame can come before them, are written in order (R340). -/
def State.ringFlush (s : State) (n : Nat) : State :=
  let gone := fun (f : RxFrame) => decide (f.tEnd + s.rxLatMax < s.dt)
  let l := (s.rxRing n).waiting
  if l.isEmpty then s
  else (l.takeWhile gone).foldl (fun s f => s.ringPut n f) (s.updRxRing n fun x => { x with waiting := l.dropWhile gone })

/-- Every ring. -/
def State.ringsFlush (s : State) : State := (s.pio.rings.map (·.1)).foldl (fun s n => s.ringFlush n) s

/-- A frame arrives for a ring: an enabled ring of a domain takes it in its order (R340). -/
def State.ringFrame (s : State) (n : Nat) (f : RxFrame) : State :=
  if s.pioOn (uRing n) then (s.updRxRing n fun x => { x with waiting := f.insert x.waiting }).ringFlush n else s

/-! ### Transmit frames (R343 to R346) -/

/-- A field of a 64-byte frame header (R344). -/
def TxFrame.h (f : TxFrame) (hi lo : Nat) : Nat := natBits (leNat f.hdr) hi lo

/-- The frame that stands in a window: its header, and LEN bytes from offset 0x40. -/
def Mem.txFrame (m : Mem) (isMap : Bool) (idx : Nat) : TxFrame :=
  let hdr := m.read 0 64
  let v := leNat hdr
  ⟨isMap, idx, if isMap then 0 else natBits v 511 448, if isMap then 0 else natBits v 447 384, hdr, m.read 0x40 (natBits v 383 370)⟩

/-- The port of a transmit queue, numbered as units are (R345). -/
def queuePort (q : Nat) : Nat := if q < 16 then q / 4 else 4 + (q - 16) / 2

/-- Data lengths of CAN FD. -/
def canFdLen (n : Nat) : Bool := decide (n ≤ 8) || [12, 16, 20, 24, 32, 48, 64].contains n

/-- Largest frame of a MAC, DA through FCS: MAXLEN, at most 9,216 (R332). -/
def macMaxLen (c : Nat) : Nat := min (natBits c 59 46) 9216

/-- Whether a frame fits its port (R345). -/
def State.frameFits (s : State) (port : Nat) (f : TxFrame) : Bool :=
  let len := f.h 383 370
  let fmt := f.h 369 368
  if port < 4 then fmt == 0 && f.h 287 0 == 0 && decide (len + 4 ≤ macMaxLen (s.mac port).cfg.toNat)
  else
    let c := (s.can (port - 4)).cfg.toNat
    f.h 287 0 == 0 && (f.h 365 365 == 1 || decide (f.h 364 336 < 2048)) && match fmt with
      | 0 => decide (len ≤ 8) && f.h 367 366 == 0
      | 1 => natBit c 62 && canFdLen len && f.h 366 366 == 0
      | 2 => natBit c 61 && decide (1 ≤ len) && decide (len ≤ 2048) && f.h 365 365 == 0 && f.h 367 367 == 0
          && (f.h 366 366 == 0 || natBit c 60)
      | _ => false

/-- SEND: the acceptance of a SEND word (R345). -/
def State.sendWord (s : State) (q : Nat) (w : Nat) : State :=
  if (s.pioDom (uQueue q)).isNone then s
  else
    let x := s.txQueue q
    let f := x.staging.txFrame false q
    if w = 1 && s.frameFits (queuePort q) f && x.frames.length < 16 then
      s.updTxQueue q fun x => { x with frames := x.frames ++ [f] }
    else s.updTxQueue q fun x => { x with refused := satAdd 32 x.refused 1 }

/-- The value a transmit field puts into its frame (R342). -/
def TxField.value (x : TxField) : Nat :=
  let c := x.cfg.toNat
  let w := 8 * 2 ^ natBits c 45 44
  let v : Int := x.raw.getD (sgn 32 (natBits c 31 0))
  let lo : Int := if natBit c 42 then -((2 ^ (w - 1) : Nat) : Int) else 0
  let hi : Int := if natBit c 42 then ((2 ^ (w - 1) : Nat) : Int) - 1 else ((2 ^ w : Nat) : Int) - 1
  wrapN w (max lo (min hi v))

/-- The bytes of a frame with a transmit field written at its offset. -/
def TxField.place (x : TxField) (bs : List Byte) : List Byte :=
  let c := x.cfg.toNat
  let n := 2 ^ natBits c 45 44
  let v := toLE n x.value
  let v := if natBit c 43 then v.reverse else v
  let off := natBits c 56 46
  bs.zipIdx.map fun p => if off ≤ p.2 ∧ p.2 < off + n then v.getD (p.2 - off) p.1 else p.1

/-- The frame a map sends: its template with the fields of its own domain (R342, R343). -/
def State.mapFrame (s : State) (m t : Nat) : TxFrame :=
  let f := { (s.txMap m).tmpl.txFrame true m with due := t }
  let fs := (s.pio.txf.filter fun p => s.pioOn (uTxf p.1) && natBits p.2.cfg.toNat 62 57 == m && natBits p.2.cfg.toNat 45 44 != 3
    && s.pioDom (uTxf p.1) == s.pioDom (uMap m)).map (·.2)
  { f with data := fs.foldl (fun bs x => x.place bs) f.data }

/-- A map counts a frame replaced or discarded (R343, R336, R355). -/
def State.mapLost (s : State) (m : Nat) : State := s.updTxMap m fun x => { x with ovr := satAdd 16 x.ovr 1 }

/-- The port a map sends on. -/
def TxMap.port (x : TxMap) : Nat := natBits x.cfg.toNat 61 58

/-- Whether a port is a controller in bus-off (R336). -/
def State.busOff (s : State) (port : Nat) : Bool := decide (4 ≤ port) && (s.can (port - 4)).bstate == 2

/-- One map at the commit of grid instant `k` at DT `t` (R343, R336). -/
def State.mapDue (s : State) (k t m : Nat) : State :=
  let x := s.txMap m
  let c := x.cfg.toNat
  let per := natBits c 55 40
  if !s.pioOn (uMap m) || per = 0 || k % per ≠ natBits c 39 24 || (natBit c 62 && !s.loop.auth) then s
  else
    let s := if x.due.isSome then s.mapLost m else s
    if s.busOff x.port then (s.updTxMap m fun x => { x with due := none }).mapLost m
    else
      let f := s.mapFrame m t
      s.updTxMap m fun x => { x with due := some f }

/-- Every map at the commit of a grid instant. -/
def State.mapsDue (s : State) (k t : Nat) : State := (List.range 64).foldl (fun s m => s.mapDue k t m) s

/-! ### Direct outputs (R294, R352 to R354) -/

/-- Whether a PWM output's configuration is valid (R354). -/
def pwmCfgOk (c : Nat) : Bool :=
  decide (1000 ≤ natBits c 59 32) && decide (natBits c 59 32 ≤ 100000000) && decide (natBits c 31 4 < natBits c 59 32)

/-- Whether a PWM output drives its loop's value and not its safe level (R354). -/
def State.pwmLive (s : State) (o : Nat) : Bool :=
  s.pioOn (uPwm o) && pwmCfgOk (s.pwm o).cfg.toNat && s.loop.auth && !(s.pwm o).safe && !s.boot.inReset && s.var.acts
def State.doutLive (s : State) (o : Nat) : Bool :=
  s.pioOn (uDout o) && s.loop.auth && !(s.dout o).safe && !s.boot.inReset && s.var.acts

/-- Whether the driver of every Output-class pin is off: before the first fuse sensing after power good, and on an SN9620, whose contacts
are not connected or held low by their pull-downs (R490, R494). So is that of CANn_TXD, which a port then does not use. -/
def State.driversOff (s : State) : Bool := !s.var.acts || !s.sec.sensed.done

/-- What a pin does. -/
inductive Level where
  | low
  | high
  | off
deriving DecidableEq, Repr

/-- The drive of a safe-level code (R494). -/
def safeLevel (code : Nat) : Level := match code with
  | 1 => .high
  | 2 => .off
  | _ => .low

/-- The pins of the direct outputs (R353, R354, R476, R494). -/
def State.pwmPin (s : State) (o : Nat) : Level :=
  if s.driversOff then .off
  else if s.pwmLive o then (if (s.pwm o).active != natBit (s.pwm o).cfg.toNat 60 then .high else .low)
  else safeLevel (natBits s.sec.sensed.safe (33 + 2 * o) (32 + 2 * o))
def State.doutPin (s : State) (o : Nat) : Level :=
  if s.driversOff then .off
  else if s.doutLive o then (if (s.dout o).active != natBit (s.dout o).cfg.toNat 62 then .high else .low)
  else safeLevel (natBits s.sec.sensed.safe (2 * o + 1) (2 * o))

/-- AUTH_OUT (R295, R490, R494). -/
def State.authPin (s : State) : Level := if s.driversOff then .off else if s.loop.auth then .high else .low

/-- A committed raw value as a PWM output takes it, and its on-time (R352). -/
def pwmClamp (raw : Int) : Nat := (max 0 (min 65536 raw)).toNat
def pwmOn (cfg c : Nat) : Nat := natBits cfg 59 32 * c / 65536

/-- The time from a period's start to its rising edge (R352). Where a centred on-time leaves an odd number of ns, `r` says which side is
the longer (log entry 99). -/
def pwmLead (c on r : Nat) : Nat :=
  let slack := natBits c 59 32 - on
  if natBit c 62 then slack / 2 + (if slack % 2 = 1 then r % 2 else 0) else 0

/-- A commit to a PWM output (R352). An output that leaves its safe level has no edge pending in the current period. -/
def PwmSt.commit (x : PwmSt) (t : Nat) (raw : Int) (r : Nat) : PwmSt :=
  let v := pwmClamp raw
  let on := pwmOn x.cfg.toNat v
  if x.safe then { x with safe := false, c := v, pend := none, rise := none, fall := none, active := false }
  else if natBit x.cfg.toNat 61 then { x with pend := some v }
  else
    let p := x.start.getD 0
    let lead := pwmLead x.cfg.toNat on r
    let rise := x.rise.map fun _ => p + lead
    let fall := x.fall.map fun _ => p + lead + on
    let act := if rise.any (· ≤ t) then true else x.active
    let act := if fall.any (· ≤ t) then false else act
    { x with c := v, rise := rise.filter (t < ·), fall := fall.filter (t < ·), active := act }

/-- An output takes a raw value, or its safe level (R294, R309, R342, R353). -/
def State.commitTarget (s : State) (code : Nat) (v : LoopOut) : State :=
  let ix := code % 256
  match code / 256, v with
  | 1, .raw v => let (r, s) := s.draw; s.updPwm ix fun x => x.commit s.dt v r
  | 1, .safe => s.updPwm ix fun x => { x with safe := true, active := false, pend := none, rise := none, fall := none }
  | 2, .raw r => s.updDout ix fun x => { x with safe := false, active := decide (0 < r) }
  | 2, .safe => s.updDout ix fun x => { x with safe := true, active := false }
  | 3, .raw r => s.updTxField ix fun x => { x with raw := some r }
  | 3, .safe => s.updTxField ix fun x => { x with raw := none }
  | _, _ => s

/-- AUTH takes a value (R295, R354, R355): as it falls every direct output takes its safe level and AUTHONLY frames that have not
started are discarded. -/
def State.setAuth (s : State) (on : Bool) : State :=
  let s := { s with loop := { s.loop with auth := on } }
  if on then s
  else
    let safePwm := fun (_ : Nat) (x : PwmSt) =>
      ({ x with safe := true, active := false, pend := none, rise := none, fall := none } : PwmSt)
    let safeDo := fun (_ : Nat) (x : DoutSt) => ({ x with safe := true, active := false } : DoutSt)
    let dropMap := fun (m : Nat) (x : TxMap) =>
      if natBit x.cfg.toNat 62 && x.due.isSome then
        ({ x with due := none, ovr := if s.pioOn (uMap m) then satAdd 16 x.ovr 1 else x.ovr } : TxMap)
      else x
    { s with pio := { s.pio with pwms := Tab.mapAll {} s.pio.pwms safePwm, douts := Tab.mapAll {} s.pio.douts safeDo,
                                 maps := Tab.mapAll {} s.pio.maps dropMap } }

end Sys2Proof.Machine
end

