-- ==== Sys2Proof/Machine/LoopOps.lean ====
section
/-!
DEFINITION. The loop engine's own operations (R287 to R309): the fields of a slot, trajectory queues, one sample, what a loop's
output takes, and the checks of a CLOSE.
-/

namespace Sys2Proof.Machine

/-! ### Fields of a slot (R317) -/

def LoopSlot.dvalid (x : LoopSlot) : Bool := natBit x.cfg.toNat 63
def LoopSlot.dom (x : LoopSlot) : Nat := natBits x.cfg.toNat 62 59
def LoopSlot.law (x : LoopSlot) : Nat := natBits x.cfg.toNat 58 57
def LoopSlot.spsrc (x : LoopSlot) : Nat := natBits x.cfg.toNat 56 55
def LoopSlot.nx (x : LoopSlot) : Nat := natBits x.cfg.toNat 54 53
def LoopSlot.aw (x : LoopSlot) : Bool := natBit x.cfg.toNat 52
def LoopSlot.div (x : LoopSlot) : Nat := natBits x.cfg.toNat 51 42 + 1
def LoopSlot.period (x : LoopSlot) : Nat := natBits x.cfg.toNat 41 26
def LoopSlot.phase (x : LoopSlot) : Nat := natBits x.cfg.toNat 25 10
def LoopSlot.rampN (x : LoopSlot) : Nat := natBits x.cfg.toNat 9 0
/-- The code of source `i` (R292). -/
def LoopSlot.source (x : LoopSlot) (i : Nat) : Nat := natBits x.src.toNat (63 - 12 * i) (52 - 12 * i)
def LoopSlot.target (x : LoopSlot) : Nat := natBits x.src.toNat 27 16
def LoopSlot.parent (x : LoopSlot) : Nat := natBits x.src.toNat 15 4
/-- The HF24 bits of the upper and lower container of a register (R43). -/
def hfHi (w : Word) : Nat := natBits w.toNat 55 32
def hfLo (w : Word) : Nat := natBits w.toNat 23 0
def LoopSlot.msc (x : LoopSlot) : Nat → Word
  | 0 => x.msc0
  | 1 => x.msc1
  | _ => x.msc2
/-- The gains of the states of LAW 2 (R296). -/
def LoopSlot.gain (x : LoopSlot) : Nat → Nat
  | 0 => hfHi x.g0
  | 1 => hfHi x.g1
  | _ => hfLo x.g1
def LoopSlot.htime (x : LoopSlot) : Nat := natBits x.heel.toNat 31 16
def LoopSlot.safe (x : LoopSlot) : Nat := natBits x.heel.toNat 15 14
def LoopSlot.exhTrip (x : LoopSlot) : Bool := natBit x.heel.toNat 13
def LoopSlot.ifrac (x : LoopSlot) : Nat := natBits x.heel.toNat 12 7
def LoopSlot.ageLim (x : LoopSlot) : Nat := natBits x.heel.toNat 6 0
def LoopSlot.depmask (x : LoopSlot) : Nat := natBits x.qcfg.toNat 31 0
/-- Number of measured states (R296). -/
def LoopSlot.nm (x : LoopSlot) : Nat := if x.law = 2 then x.nx else 1
/-- ARMED, RAMP or CLOSED. -/
def LoopSlot.live (x : LoopSlot) : Bool := x.st == .armed || x.st == .ramp || x.st == .closed
/-- RAMP or CLOSED. -/
def LoopSlot.runs (x : LoopSlot) : Bool := x.st == .ramp || x.st == .closed

/-! ### The grid and occupancy (R287 to R289) -/

/-- Whether PERIOD and PHASE are allowed (R288). -/
def gridOk (period phase : Nat) : Bool :=
  ((decide (4 ≤ period) && 2000 % period == 0) || (decide (0 < period) && period % 2000 == 0 && decide (period ≤ 64000)))
  && decide (phase < period)

/-- What a slot adds to a residue of the occupancy table (R289). -/
def LoopSlot.adds (x : LoopSlot) (r : Nat) : Nat :=
  if 2000 % x.period = 0 then bit (r % x.period == x.phase) else bit (x.phase % 2000 == r)

/-- A counter of the occupancy table, over a list of slots. -/
def occAt (l : List LoopSlot) (r : Nat) : Nat := (l.map fun x => x.adds r).sum

/-- Slots in ARMED, RAMP or CLOSED. -/
def State.liveLoops (s : State) : List (Nat × LoopSlot) := s.loop.slots.filter fun p => p.2.live

/-- LOOP_GSTAT.PEAK. -/
def State.loopPeak (s : State) : Nat :=
  ((List.range 2000).map (occAt (s.liveLoops.map (·.2)))).foldl max 0

/-! ### Tallies of a loop (R306) -/

/-- An ADD on a slot's event tally. -/
def State.loopEvent (s : State) (n : Nat) : State :=
  let x := s.loopSlot n
  if natBit x.tly.toNat 44 then s.tallyAdd x.dom (natBits x.tly.toNat 43 26) 1 else s

/-- An ADD on a slot's outer-sample tally. -/
def State.loopOuter (s : State) (n : Nat) : State :=
  let x := s.loopSlot n
  if natBit x.tly.toNat 63 then s.tallyAdd x.dom (natBits x.tly.toNat 62 45) 1 else s

/-! ### Trajectory queues (R300 to R305) -/

/-- An entry of staging (R301). -/
def trajOf (v p : Nat) : Traj :=
  ⟨natBits v 63 0, natBits v 127 64, natBits v 151 128, natBits v 183 160, natBits v 215 192, natBits v 247 224, p, false⟩

/-- Whether an HF24 encoding is NaN or infinite. -/
def hfNotFinite (b : Nat) : Bool := natBits b 22 15 == 255

/-- The fields of an entry that the loop's LAW uses (R301, R302). -/
def LoopSlot.uses (x : LoopSlot) (t : Traj) : List Nat :=
  if x.law < 2 then [t.v0, t.v1, t.v2] else ([t.v0, t.v1, t.v2].take x.nx) ++ [t.v3]

/-- Whether each entry's CLOSE is the next one's OPEN. -/
def joined : List Traj → Bool
  | a :: b :: l => a.cl == b.op && joined (b :: l)
  | _ => true

/-- A push is refused (R302). -/
def LoopSlot.pushBad (x : LoopSlot) (word : Nat) (l : List Traj) : Bool :=
  let n := natBits word 6 0
  n == 0 || decide (64 < n) || natBits word 63 7 ≠ 0 || l.any (fun t => decide (t.cl ≤ t.op)) || !joined l
  || l.any (fun t => (x.uses t).any hfNotFinite) || x.st == .disabled

/-- An accepted push at a stamp (R303, R35). -/
def LoopSlot.push (x : LoopSlot) (l : List Traj) (stamp : Nat) : LoopSlot :=
  match l with
  | [] => x
  | h :: _ =>
    let kept := x.queue.filter fun t => decide (t.op < h.op)
    let fresh := l.filter fun t => decide (stamp < t.cl)
    let all := kept ++ fresh
    { x with
      queue := all.take 64
      skipCnt := satAdd 16 x.skipCnt ((x.queue.length - kept.length) + (all.length - 64))
      lateCnt := satAdd 16 x.lateCnt (l.length - fresh.length) }

/-- A QCLEAR: the queued entries are discarded and counted (R310). -/
def LoopSlot.clearQueue (x : LoopSlot) : LoopSlot := { x with queue := [], skipCnt := satAdd 16 x.skipCnt x.queue.length }

/-- A push or a QCLEAR at a stamp takes effect. -/
def LoopSlot.takes (x : LoopSlot) (p : Nat × Option (List Traj)) : LoopSlot := match p.2 with
  | some l => x.push l p.1
  | none => x.clearQueue

/-- The pushes and QCLEARs stamped at or before `bound` take effect in order of their stamps; without a bound all of them (R293, R316). -/
def LoopSlot.arrive (x : LoopSlot) (bound : Option Nat) : LoopSlot :=
  let now := fun (p : Nat × Option (List Traj)) => bound.all fun b => decide (p.1 ≤ b)
  let y := (x.arrived.filter now).foldl LoopSlot.takes x
  { y with arrived := x.arrived.filter (!now ·) }

/-- Every slot's pushes up to a bound. -/
def State.arrivals (s : State) (bound : Option Nat) : State :=
  let f := fun (_ : Nat) (x : LoopSlot) => x.arrive bound
  { s with loop := { s.loop with slots := Tab.mapAll {} s.loop.slots f } }

/-- The acceptance of a PUSH word by a slot (R300, R302, R303). While the samples of an earlier instant are not computed yet, the push
waits for them: it was not there at that instant (R293). -/
def State.pushWord (s : State) (n : Nat) (word : Nat) : State :=
  let x := s.loopSlot n
  let l := (List.range (natBits word 6 0)).map fun i => trajOf (leNat (x.staging.read (32 * i) 32)) i
  if x.pushBad word l then (s.updLoop n fun x => { x with pushRef := satAdd 16 x.pushRef 1 }).loopEvent n
  else if s.loop.frozen.isEmpty then s.updLoop n fun x => x.push l s.dt
  else s.updLoop n fun x => { x with arrived := x.arrived ++ [(s.dt, some l)] }

/-- What consume removes behind a head that it can read, and how many (R304): the head once its window or the next one says so, and an
entry with an uncorrectable error where it is read (R448). -/
def dropFrom (t : Nat) (h : Traj) : List Traj → List Traj × Nat
  | [] => if h.cl ≤ t then ([], 1) else ([h], 0)
  | n :: l =>
    if n.bad then ((dropFrom t h l).1, (dropFrom t h l).2 + 1)
    else if h.cl ≤ t || n.op ≤ t then ((dropFrom t n l).1, (dropFrom t n l).2 + 1)
    else (h :: n :: l, 0)

/-- The entries that consume removes before it looks at the head (R304, R448), and how many. -/
def dropStale (t : Nat) : List Traj → List Traj × Nat
  | [] => ([], 0)
  | h :: l => if h.bad then ((dropStale t l).1, (dropStale t l).2 + 1) else dropFrom t h l

/-- consume at an outer sample (R304, R305): the slot, whether an event rose, and whether the loop must trip with EXHAUSTED. -/
def LoopSlot.consume (x : LoopSlot) (t : Nat) : LoopSlot × Bool × Bool :=
  let r := dropStale t x.queue
  let y := { x with queue := r.1, skipCnt := satAdd 16 x.skipCnt r.2 }
  let exhausted : LoopSlot × Bool × Bool :=
    if x.exhTrip then (y, false, true)
    else
      let c := x.cur.getD ⟨0, 0, 0, 0, 0, 0, 0, false⟩
      let ref := fun i => x.rlast.getD i 0
      let held := if x.law < 2 then { c with v0 := ref 0, v1 := 0 } else { c with v0 := ref 0, v1 := ref 1, v2 := ref 2 }
      ({ y with exh := true, cur := some held }, !x.exh, false)
  match r.1 with
  | h :: l =>
    if h.op ≤ t then
      let late := x.ageLim ≠ 0 && decide (x.ageLim ≤ h.p)
      ({ y with queue := l, cur := some h, late := late, exh := false }, late && !x.late, false)
    else exhausted
  | [] => exhausted

/-! ### One sample (R296 to R299, R308) -/

def hAdd (a b : Nat) : Nat := (hfAdd .rne a b).1
def hSub (a b : Nat) : Nat := (hfSub .rne a b).1
def hMul (a b : Nat) : Nat := (hfMul .rne a b).1
def hDiv (a b : Nat) : Nat := (hfDiv .rne a b).1
/-- cvt() of R296. -/
def hCvt (v : Int) : Nat := (hfRound .rne ⟨v, 0⟩).1
/-- hf() and hq64() of R296, with fraction length `f`. -/
def hOfQ (f : Nat) (v : Int) : Nat := (hfRound .rne ⟨v, -(f : Int)⟩).1
def qOfH (f : Nat) (b : Nat) : Int := (storeInt .rne 64 (-(f : Int)) (-128) false (XV.ofHV (hfVal b))).1
def isNaN (b : Nat) : Bool := hfVal b == .nan
/-- A zero result is +0 (R44). -/
def hPosZero (b : Nat) : Nat := if b = 0x800000 then 0 else b

/-- A loop trips with a cause (R297). An OPEN that waits for a loop that trips is settled by the trip (R310). -/
def LoopSlot.trip (x : LoopSlot) (cause : Nat) : LoopSlot := { x with st := .tripped, cause := cause, openAt := none }

/-- The references and the feed-forward of a sample (R296). -/
def LoopSlot.refs (x : LoopSlot) (parentU j : Nat) : List Nat × Nat :=
  let c := x.cur.getD ⟨0, 0, 0, 0, 0, 0, 0, false⟩
  match x.spsrc with
  | 1 => ([parentU], 0)
  | 2 => ([hfLo x.osc], 0)
  | _ => if x.law < 2 then ([hAdd c.v0 (hMul (hCvt j) c.v1)], c.v2) else ([c.v0, c.v1, c.v2].take x.nm, c.v3)

/-- The control law once the measurements are read and the queue is served (R296, R298, R308): the slot after the sample. -/
def LoopSlot.compute (x : LoopSlot) (first : Bool) (raws : List Int) (parentU j : Nat) : LoopSlot :=
  let xs := raws.zipIdx.map fun p => hAdd (hMul (hCvt p.1) (hfLo (x.msc p.2))) (hfHi (x.msc p.2))
  let xi := fun i => xs.getD i 0
  let integ := if first then x.i0.toInt else x.integ
  let d := if first then 0 else x.d
  let yprev := if first then xi 0 else x.yprev
  let usat := if first then 0 else x.usat
  let m := if first then 0 else x.m
  let x0 := if first then xs else x.x0
  let rf := x.refs parentU j
  let r := if x.st = .ramp then
      let w := hDiv (hCvt m) (hCvt x.rampN)
      rf.1.zipIdx.map fun p => hAdd (x0.getD p.2 0) (hMul w (hSub p.1 (x0.getD p.2 0)))
    else rf.1
  let e := hSub (r.getD 0 0) (xi 0)
  let dI := qOfH x.ifrac (hMul (hfLo x.g0) e)
  let held := x.aw && ((decide (0 < usat) && decide (0 < dI)) || (decide (usat < 0) && decide (dI < 0)))
  let sum := integ + dI
  let clamped := max x.imin.toInt (min x.imax.toInt sum)
  let integ' := if held then integ else clamped
  let d' := if x.law = 1 then hAdd (hMul (hfHi x.g1) d) (hMul (hfLo x.g1) (hSub yprev (xi 0))) else d
  let yprev' := if x.law = 1 then xi 0 else yprev
  let s1 := if x.law < 2 then hAdd rf.2 (hMul (hfHi x.g0) e)
    else (r.zipIdx).foldl (fun s p => hAdd s (hMul (x.gain p.2) (hSub p.1 (xi p.2)))) rf.2
  let s2 := hAdd s1 (hOfQ x.ifrac integ')
  let s3 := if x.law = 1 then hAdd s2 d' else s2
  if isNaN e || isNaN s3 then x.trip 5
  else
    let umin := hfLo x.lim
    let umax := hfHi x.lim
    let low := hfCmp 0 s3 umin
    let high := hfCmp 4 s3 umax
    let hcnt := if hfCmp 1 (e % 2 ^ 23) (hfHi x.heel) then 0 else satAdd 16 x.hcnt 1
    if x.htime < hcnt then { x with hcnt := hcnt }.trip 1
    else
      let m' := if x.st = .ramp then m + 1 else m
      { x with
        u := if low then hPosZero umin else if high then hPosZero umax else s3
        usat := if low then -1 else if high then 1 else 0
        e := e
        integ := integ'
        d := d'
        yprev := yprev'
        x0 := x0
        rlast := r
        hcnt := hcnt
        ihold := held || decide (clamped ≠ sum)
        usatBit := low || high
        m := m'
        st := if x.st = .ramp ∧ m' = x.rampN then .closed else x.st }

/-- One sample of a loop (R296 to R299): the slot after it and the number of events to count. `raws` are the raw values of its
sources, none where one is not valid. -/
def LoopSlot.sample (x : LoopSlot) (raws : List (Option Int)) (stuck parentOk : Bool) (parentU j t : Nat) : LoopSlot × Nat :=
  let first := x.st == .armed
  let x := if first then { x with st := if x.rampN = 0 then .closed else .ramp } else x
  if x.bad then (x.trip 5, 1)
  else if x.spsrc = 1 && !parentOk then (x.trip 6, 1)
  else if raws.any (·.isNone) then (x.trip 3, 1)
  else if stuck then (x.trip 4, 1)
  else
    let c := if j = 0 && x.spsrc = 0 then x.consume t else (x, false, false)
    if c.2.2 then (c.1.trip 2, 1)
    else
      let y := c.1.compute first (raws.map (·.getD 0)) parentU j
      (y, bit c.2.1 + bit (y.st == .tripped))

/-! ### Outputs (R294, R295, R309) -/

/-- raw of R294 for an HF24 value. -/
def LoopSlot.rawOf (x : LoopSlot) (u : Nat) : Int :=
  (storeInt .rne 32 0 (-128) false (XV.ofHV (hfVal (hMul u (hfHi x.osc))))).1

/-- What a loop's output takes when it opens or trips (R309); none keeps the last raw value. -/
def LoopSlot.safeOut (x : LoopSlot) : Option LoopOut :=
  match x.safe with
  | 0 => none
  | 1 => some (.raw (x.rawOf (hfHi x.qcfg)))
  | _ => some .safe

/-- A slot's output at a commit, inhibited while AUTH is 0 (R295). -/
def State.loopCommit (s : State) (n : Nat) (v : LoopOut) : State :=
  let tg := (s.loopSlot n).target
  if tg = 0 then s
  else
    let s := s.updLoop n fun x => { x with inhib := !s.loop.auth }
    if s.loop.auth then s.commitTarget tg v else s

/-- A slot's output by SAFE at a commit. -/
def State.loopSafe (s : State) (n : Nat) : State :=
  match (s.loopSlot n).safeOut with
  | some v => s.loopCommit n v
  | none => s

/-! ### Snapshots (R454) -/

/-- A message put onto the Knago link. -/
def State.kmsg (s : State) (kind : Nat) (vals : List Nat) : State :=
  if s.twin.silent then s else { s with twin := { s.twin with out := s.twin.out ++ [⟨kind, vals⟩] } }

/-- Loop state numbers (R317). -/
def LoopSt.num : LoopSt → Nat
  | .disabled => 0
  | .open_ => 1
  | .armed => 2
  | .ramp => 3
  | .closed => 4
  | .tripped => 5

/-- The snapshot of a slot. -/
def LoopSlot.snap (x : LoopSlot) (n : Nat) : Snap :=
  ⟨n, x.st.num, wrapN 64 x.integ, x.d, x.yprev, x.usat, x.m, x.hcnt, (x.cur.map (·.p)).getD 0⟩

/-- A snapshot of a loop of an ACTIVE tray waits to be sent after the commit of its outer sample; it replaces one of its slot not yet sent
(R454). -/
def State.snapshot (s : State) (n : Nat) : State :=
  let x := s.loopSlot n
  let c := s.twin.cfg.toNat
  if s.twin.ast ≠ .active || !natBit c 35 || n < natBits c 59 48 || natBits c 47 36 < n || !x.runs then s
  else
    let old := s.twin.snapQ.any fun q => q.slot == n
    { s with twin := { s.twin with
        snapQ := (s.twin.snapQ.filter fun q => q.slot ≠ n) ++ [x.snap n]
        snapDrop := if old then satAdd 16 s.twin.snapDrop 1 else s.twin.snapDrop } }

/-! ### The checks of a CLOSE (R289, R294, R307, R315) -/

/-- The HF24 configuration values that a loop's LAW uses (R315). -/
def LoopSlot.hfUsed (x : LoopSlot) : List Nat :=
  [hfHi x.g0, hfLo x.g0, hfHi x.lim, hfLo x.lim, hfHi x.osc, hfHi x.heel]
  ++ (List.range x.nm).flatMap (fun i => [hfHi (x.msc i), hfLo (x.msc i)])
  ++ (if x.law = 1 then [hfHi x.g1, hfLo x.g1] else [])
  ++ (if x.law = 2 then (List.range x.nx).map x.gain else [])
  ++ (if x.spsrc = 2 then [hfLo x.osc] else [])
  ++ (if x.safe = 1 then [hfHi x.qcfg] else [])

/-- Whether a cascade child's parent meets R307. -/
def State.cascadeOk (s : State) (n : Nat) : Bool :=
  let x := s.loopSlot n
  let p := s.loopSlot x.parent
  x.spsrc ≠ 1 || (decide (x.parent < n) && p.dvalid && p.period == x.period * x.div && p.phase == x.phase && p.dom == x.dom
    && decide (x.law < 2))

/-- Whether a slot's target is named by no other loop that is live or named in the same CLOSE (R294). -/
def State.targetFree (s : State) (n : Nat) (named : List Nat) : Bool :=
  let tg := (s.loopSlot n).target
  tg == 0 || !s.loop.slots.any fun p => p.1 ≠ n && (p.2.live || named.contains p.1) && p.2.target == tg

/-- Whether a slot's configuration allows a CLOSE (R315). -/
def State.loopCfgOk (s : State) (n : Nat) (named : List Nat) : Bool :=
  let x := s.loopSlot n
  x.law ≠ 3 && x.spsrc ≠ 3 && x.safe ≠ 3
  && (if x.law = 2 then x.nx ≠ 0 else x.nx = 0) && (x.law ≠ 2 || x.spsrc = 0)
  && gridOk x.period x.phase
  && ((List.range 3).all fun i => if i < x.nm then s.sourceOk (x.source i) x.dom else x.source i = 0)
  && s.targetOk x.target x.dom && s.targetFree n named && s.cascadeOk n
  && !hfCmp 4 (hfLo x.lim) (hfHi x.lim)
  && decide (x.imin.toInt ≤ x.imax.toInt) && decide (x.imin.toInt ≤ x.i0.toInt) && decide (x.i0.toInt ≤ x.imax.toInt)
  && !(x.hfUsed.any hfNotFinite) && decide (x.ifrac ≤ 62)

end Sys2Proof.Machine
end

