-- ==== Sys2Proof/Machine/Pio.lean ====
section
/-!
DEFINITION. Plant I/O (chapter 12): frames received and sent, capture inputs, digital inputs, PWM periods, and the registers of
the PIO block.
-/

namespace Sys2Proof.Machine

/-! ### Ethernet (R332 to R334, R471) -/

/-- The receive keys installed on a unit by SC and AN, as unwrapped objects (R413, R414). -/
def State.rxKeys (s : State) (u : Nat) : List (Nat × Nat × List Byte) :=
  (s.sec.keys.filter fun k => k.unit == u && !k.tx).map fun k => (k.sc, k.an, k.obj)

/-- The transmit key that a secure channel of a unit uses: the newest one (R414). -/
def State.txKey (s : State) (u sc : Nat) : Option PioKey :=
  (s.sec.keys.filter fun k => k.unit == u && k.tx && k.sc == sc).getLast?

/-- The key at a place takes a packet or freshness number. -/
def State.setPn (s : State) (k : PioKey) (pn : Nat) : State :=
  { s with sec := { s.sec with keys := s.sec.keys.map fun x =>
      if x.unit = k.unit ∧ x.sc = k.sc ∧ x.an = k.an ∧ x.tx = k.tx then { x with pn := pn } else x } }

/-- A frame that MACsec or CANsec has opened (R332, R333, R335): the plain bytes, and the state with its key's packet or freshness number
counted on; none when it fails or its number lies outside the replay window of its secure channel. -/
def State.openSecured (s : State) (u : Nat) (r : Option (List Byte × Nat × Nat × Nat)) : Option (List Byte × State) :=
  match r with
  | none => none
  | some (bs, sc, an, pn) =>
    match s.sec.keys.find? fun k => k.unit == u && !k.tx && k.sc == sc && k.an == an with
    | none => none
    | some k => if k.pn ≤ pn + Config.replayWindow u sc then some (bs, s.setPn k (max k.pn (pn + 1))) else none

/-- EtherType, VID (none when untagged) and the bytes after the EtherType of a frame (R334). -/
def ethParse (bs : List Byte) : Nat × Option Nat × List Byte :=
  let e := beNat ((bs.drop 12).take 2)
  if e = 0x8100 then (beNat ((bs.drop 16).take 2), some (beNat ((bs.drop 14).take 2) % 4096), bs.drop 18) else (e, none, bs.drop 14)

/-- EtherTypes that never pass through the controlled port (R333). -/
def ethPlain (e : Nat) : Bool := e == 0x88F7 || e == 0x888E

/-- The first receive rule of a MAC that matches (R334). -/
def MacSt.rule (x : MacSt) (etype : Nat) (vid : Option Nat) : Option Nat :=
  ((List.range 8).find? fun r =>
    let c := (Tab.get 0 x.rules r).toNat
    natBit c 63 && (!natBit c 62 || vid == some (natBits c 61 50)) && (!natBit c 49 || etype == natBits c 48 33)).map fun r =>
      natBits (Tab.get 0 x.rules r).toNat 32 27

/-- Whether a MAC is a gPTP port whose PTP Instance runs (R331, R471). -/
def State.ptpPort (s : State) (m : Nat) : Bool :=
  s.boot.ptp && s.var.acts && s.pioOn (uMac m) && natBit (s.mac m).cfg.toNat 44 && (s.mac m).link

/-- A MAC that has become a gPTP port owes its first Announce and Sync from then on, within one Announce interval (R471). `old` is the
state before. -/
def State.gRestart (s old : State) (m : Nat) : State :=
  if s.ptpPort m && !old.ptpPort m then
    { s with time := { s.time with nextSync := Tab.set 0 s.time.nextSync m 0, nextAnn := Tab.set 0 s.time.nextAnn m 0 } }
  else s

/-- A frame past MACsec: fields and rules (R334), with the stamps at the connector (R323). FLEN counts from DA through FCS, as the frame
came (R332, R339). -/
def State.ethAccept (s : State) (m : Nat) (bs : List Byte) (fr : EthFrame) (secv : Bool) : State :=
  let p := ethParse bs
  let lat := s.rxLat m
  let s := s.feedFields m p.1 p.2.2 (fr.tEnd - lat)
  match (s.mac m).rule p.1 p.2.1 with
  | some r => s.ringFrame r ⟨bs, fr.tStart - lat, fr.tEnd - lat, fr.bytes.length + 4, uMac m, secv⟩
  | none => s.updMac m fun x => { x with noRule := satAdd 16 x.noRule 1 }

/-- ETHERNET_FRAME_RECEIVED (R332 to R334): from its corrected T_END on a frame can be told, so that the freeze of that instant sees it
(R293, R323, R324; log entry 193). Receive fields and rules see every valid frame, gPTP's own too; what the PTP Instance makes of one of
those is told by a row of gPTP's (R331; log entry 197). -/
def execEthernetFrameReceived (m : Nat) (fr : EthFrame) (s : State) : Out :=
  if 4 ≤ m then .fault .noSuchUnit
  else if !s.var.acts || !s.pioOn (uMac m) || !(s.mac m).link || s.dt < fr.tEnd - s.rxLat m then .next s
  else
    let c := (s.mac m).cfg.toNat
    let len := fr.bytes.length + 4
    if !fr.fcsOk || fr.pause || len < 64 || macMaxLen c < len then
      .next (s.updMac m fun x => { x with rxErr := satAdd 16 x.rxErr 1 })
    else if natBit c 45 && !ethPlain (ethParse fr.bytes).1 then
      match s.openSecured (uMac m) (Config.macsecOpen (s.rxKeys (uMac m)) fr.bytes) with
      | none => .next (s.updMac m fun x => { x with secDrop := satAdd 16 x.secDrop 1 })
      | some (bs, s) => .next (s.ethAccept m bs fr true)
    else .next (s.ethAccept m fr.bytes fr false)

/-- ETHERNET_LINK_CHANGE (R471, R496). -/
def execEthernetLinkChange (m : Nat) (up : Bool) (s : State) : Out :=
  if 4 ≤ m then .fault .noSuchUnit
  else if !s.var.acts then .next s
  else .next ((s.updMac m fun x => { x with link := up }).gRestart s m)

/-! ### CAN (R335 to R338) -/

/-- The 16-byte header of a CAN frame in a slot (R338). -/
def canHeader (fr : CanFrame) (secv : Bool) (len : Nat) : List Byte :=
  toLE 4 (fr.ident % 2 ^ 29 + (if fr.ide then 2 ^ 31 else 0) + if fr.rtr then 2 ^ 30 else 0)
  ++ toLE 1 fr.fmt ++ toLE 1 (bit fr.brs + 2 * bit fr.esi + 4 * bit secv) ++ toLE 1 fr.sdt ++ toLE 1 fr.vcid
  ++ toLE 4 fr.af ++ toLE 2 len ++ toLE 2 0

/-- The first filter of a controller that matches (R337). -/
def CanSt.filter (x : CanSt) (ide : Bool) (ident : Nat) : Option Nat :=
  ((List.range 8).find? fun r =>
    let a := (Tab.get 0 x.fltA r).toNat
    let mask := natBits (Tab.get 0 x.fltB r).toNat 28 0
    natBit a 63 && natBit a 62 == ide && (ident &&& mask) == (natBits a 61 33 &&& mask)).map fun r =>
      natBits (Tab.get 0 x.fltA r).toNat 32 27

/-- The error counters of a controller set its state (ISO 11898-1; R336): bus-off above 255, error-passive above 127. -/
def CanSt.confine (x : CanSt) (tec rec_ : Nat) : CanSt :=
  { x with tec := min tec 255, rec_ := min rec_ 255, bstate := if 255 < tec then 2 else if 127 < tec || 127 < rec_ then 1 else 0 }

/-- REC after a frame received without error (ISO 11898-1). -/
def recAfterGood (r : Nat) : Nat := if 127 < r then 120 else r - 1

/-- CAN_FRAME_RECEIVED (R335, R337, R338, R341). -/
def execCanFrameReceived (n : Nat) (fr : CanFrame) (s : State) : Out :=
  if 8 ≤ n then .fault .noSuchUnit
  else if !s.var.acts || !s.pioOn (uCan n) || (s.can n).bstate = 2 || s.dt < fr.tEnd then .next s
  else
    let c := (s.can n).cfg.toNat
    if (fr.fmt = 1 && !natBit c 62) || (fr.fmt = 2 && !natBit c 61) || 2 < fr.fmt then .next s
    else
      let s := s.updCan n fun x => x.confine x.tec (recAfterGood x.rec_)
      let secured := fr.fmt == 2 && natBit c 60
      let opened := if !secured then some (fr.data, s)
        else if !fr.secured then none
        else s.openSecured (uCan n) (Config.cansecOpen (s.rxKeys (uCan n)) (canHeader fr false fr.data.length) fr.data)
      match opened with
      | none => .next (s.updCan n fun x => { x with secDrop := satAdd 16 x.secDrop 1 })
      | some (data, s) =>
        let ident := if fr.fmt = 2 then fr.ident % 2048 else fr.ident
        let s := s.feedFields (uCan n) ident data fr.tEnd
        match (s.can n).filter (fr.ide && fr.fmt ≠ 2) ident with
        | some r => .next (s.ringFrame r
            ⟨canHeader fr secured data.length ++ data, fr.tStart, fr.tEnd, 16 + fr.data.length, uCan n, secured⟩)
        | none => .next (s.updCan n fun x => { x with noFlt := satAdd 16 x.noFlt 1 })

/-- The map frames and queue frames of a controller that has gone bus-off, so far as they are due, are discarded (R336). -/
def State.dropBusOff (s : State) (port : Nat) : State :=
  let ms := (s.pio.maps.filter fun p => s.pioOn (uMap p.1) && p.2.port == port && p.2.due.isSome).map (·.1)
  let s := ms.foldl (fun s m => (s.updTxMap m fun x => { x with due := none }).mapLost m) s
  let drop := fun (q : Nat) (x : TxQueue) =>
    if queuePort q = port && (s.pioDom (uQueue q)).isSome then
      let kept := x.frames.filter fun f => decide (s.dt < f.due)
      { x with frames := kept, late := satAdd 32 x.late (x.frames.length - kept.length) }
    else x
  { s with pio := { s.pio with queues := Tab.mapAll {} s.pio.queues drop } }

/-- CAN_BUS_ERROR: an error while receiving raises REC by `rec` (R336; ISO 11898-1). -/
def execCanBusError (n rec_ : Nat) (s : State) : Out :=
  if 8 ≤ n then .fault .noSuchUnit
  else if !s.var.acts || !s.pioOn (uCan n) || (s.can n).bstate = 2 then .next s
  else .next (s.updCan n fun x => x.confine x.tec (x.rec_ + rec_))

/-- CAN_BUS_OFF_RECOVERED: the frames that came due in bus-off are discarded, and the controller is error-active (R320, R336). -/
def execCanBusOffRecovered (n : Nat) (s : State) : Out :=
  if 8 ≤ n then .fault .noSuchUnit
  else if !(s.pioOn (uCan n) && (s.can n).recovering && (s.can n).bstate == 2) then .next s
  else .next ((s.dropBusOff (uCan n)).updCan n fun x => { x with recovering := false, bstate := 0, tec := 0, rec_ := 0 })

/-! ### Sending (R333, R342 to R346) -/

/-- SEND: a SEND word accepted at a queue (R345). -/
def execSend (q : Nat) (word : Word) (s : State) : Out :=
  if 32 ≤ q then .fault .noSuchUnit
  else if !s.var.acts then .next s
  else .next (s.sendWord q word.toNat)

/-- Order of arbitration of a CAN frame: base identifier, base before extended, the rest of the identifier, then Classical, FD, XL. -/
def TxFrame.arb (f : TxFrame) : Nat :=
  let id := f.h 364 336
  if f.h 365 365 = 1 then ((id / 2 ^ 18 % 2048 * 2 + 1) * 2 ^ 18 + id % 2 ^ 18) * 4 + f.h 369 368
  else (id % 2048 * 2) * 2 ^ 20 + f.h 369 368

/-- The map frames due on a port, as (order, index, frame), and its queue frames that may start: on Ethernet the heads, on CAN every frame
past its OPEN (R346). -/
def State.dueMaps (s : State) (port : Nat) : List (Nat × Nat × TxFrame) :=
  s.pio.maps.filterMap fun p => match p.2.due with
    | some f => if p.2.port = port && s.pioOn (uMap p.1) && s.frameFits port f then some (f.due, p.1, f) else none
    | none => none
def State.dueQueues (s : State) (port : Nat) : List (Nat × TxFrame) :=
  s.pio.queues.flatMap fun p =>
    if queuePort p.1 = port && (s.pioDom (uQueue p.1)).isSome then
      ((if port < 4 then p.2.frames.take 1 else p.2.frames).filter fun f => f.due ≤ s.dt && (f.close = 0 || s.dt < f.close)).map (p.1, ·)
    else []

/-- The earliest of a list by a key; the first of equal ones. -/
def leastBy {α : Type} (key : α → Nat) : List α → Option α
  | [] => none
  | x :: xs => match leastBy key xs with
    | none => some x
    | some y => if key x ≤ key y then some x else some y

/-- The frame a free port takes next (R346). -/
def State.nextFrame (s : State) (port : Nat) : Option TxFrame :=
  if port < 4 then
    match leastBy (fun p : Nat × Nat × TxFrame => p.1) (s.dueMaps port) with
    | some p => some p.2.2
    | none => (s.dueQueues port).head?.map (·.2)
  else leastBy TxFrame.arb ((s.dueMaps port).map (·.2.2) ++ (s.dueQueues port).map (·.2))

/-- Largest packet number of a MACsec cipher (R413). -/
def pnLimit (obj : List Byte) : Nat := if 2 ≤ (obj.getD 32 0).toNat then 2 ^ 64 else 2 ^ 32

/-- The secure channel that protects a frame (R333, R344, R414), as unit and SC; none where it is sent plain. -/
def State.txChannel (s : State) (port : Nat) (f : TxFrame) : Option (Nat × Nat) :=
  if port < 4 then if natBit (s.mac port).cfg.toNat 45 && !ethPlain (ethParse f.data).1 then some (uMac port, 0) else none
  else if f.h 369 368 = 2 && f.h 366 366 = 1 then some (uCan (port - 4), Config.cansecChannel f.hdr % 8) else none

/-- A frame as its port sends it: an Ethernet frame padded to 60 bytes, a CAN frame as its header and data field (R345). -/
def TxFrame.padded (f : TxFrame) : List Byte := f.data ++ List.replicate (60 - f.data.length) 0

/-- What goes onto the wire for a frame (R333, R345): padded, protected and with its FCS; none when its secure channel cannot send. -/
def State.wire (s : State) (port : Nat) (f : TxFrame) : Option (List Byte) :=
  match s.txChannel port f with
  | none => some (if port < 4 then f.padded ++ toLE 4 (Config.ethFcs f.padded).toNat else f.hdr ++ f.data)
  | some (u, sc) =>
    match s.txKey u sc with
    | none => none
    | some k =>
      if port < 4 then
        let bs := Config.macsecSeal k.obj k.pn f.padded
        if pnLimit k.obj ≤ k.pn then none else some (bs ++ toLE 4 (Config.ethFcs bs).toNat)
      else some (f.hdr ++ Config.cansecSeal k.obj k.pn f.hdr f.data)

/-- A protected frame counts its key's packet or freshness number on. -/
def State.countTx (s : State) (port : Nat) (f : TxFrame) : State :=
  match s.txChannel port f with
  | none => s
  | some (u, sc) => match s.txKey u sc with
    | none => s
    | some k => s.setPn k (k.pn + 1)

/-- A port free to start a frame. -/
def State.portFree (s : State) (port : Nat) : Bool :=
  !s.driversOff && !s.pio.txOff && (Tab.get none s.pio.txing port).isNone
  && (if port < 4 then s.pioOn (uMac port) && (s.mac port).link else s.pioOn (uCan (port - 4)))

/-- Take a frame out of its map or queue. -/
def State.takeTx (s : State) (f : TxFrame) : State :=
  if f.isMap then s.updTxMap f.idx fun x => { x with due := none }
  else s.updTxQueue f.idx fun x => { x with frames := x.frames.erase f }

/-- PORT_TRANSMIT_START (R333, R336, R346). -/
def execPortTransmitStart (port : Nat) (s : State) : Out :=
  if 12 ≤ port then .fault .noSuchUnit
  else if !s.portFree port then .next s
  else if s.busOff port then .next (s.dropBusOff port)
  else match s.nextFrame port with
    | none => .next s
    | some f =>
      match s.wire port f with
      | none =>
        -- R333: the transmit SA has reached its limit
        let limit := match s.txKey (uMac port) 0 with
          | some k => decide (pnLimit k.obj ≤ k.pn)
          | none => false
        if limit && !(s.mac port).txBlocked then
          .next ((s.updMac port fun x => { x with txBlocked := true }).pioRecord 5 3 (uMac port) 0)
        else .next s
      | some bs =>
        let s := (s.takeTx f).countTx port f
        .next { s with pio := { s.pio with txing := Tab.set none s.pio.txing port (some f), lastSent := Tab.set [] s.pio.lastSent port bs } }

/-- A frame that lost arbitration or met an error waits again, while it may (R346); a map or queue that has lost its domain does nothing
(R320). -/
def State.retryTx (s : State) (f : TxFrame) : State :=
  if (s.pioDom (if f.isMap then uMap f.idx else uQueue f.idx)).isNone then s
  else if f.isMap then
    let x := s.txMap f.idx
    if x.due.isSome || s.busOff x.port || (natBit x.cfg.toNat 62 && !s.loop.auth) then s.mapLost f.idx
    else s.updTxMap f.idx fun x => { x with due := some f }
  else if (f.close ≠ 0 && f.close ≤ s.dt) || s.busOff (queuePort f.idx) then
    s.updTxQueue f.idx fun x => { x with late := satAdd 32 x.late 1 }
  else s.updTxQueue f.idx fun x => { x with frames := f :: x.frames }

/-- PORT_TRANSMIT_END (R336, R346). A controller that has lost its domain does nothing: it neither counts nor retries (R320). -/
def execPortTransmitEnd (port : Nat) (e : TxEnd) (s : State) : Out :=
  if 12 ≤ port then .fault .noSuchUnit
  else match Tab.get none s.pio.txing port with
    | none => .next s
    | some f =>
      let s := { s with pio := { s.pio with txing := Tab.set none s.pio.txing port none } }
      let done := fun (s : State) => { s with pio := { s.pio with sentFrames := Tab.upd 0 s.pio.sentFrames port (· + 1) } }
      if port < 4 then .next (done s)
      else if (s.pioDom (uCan (port - 4))).isNone then .next (if e = .sent then done s else s)
      else match e with
        | .sent => .next (done (s.updCan (port - 4) fun x => x.confine (x.tec - 1) x.rec_))
        | .arbLost => .next (s.retryTx f)
        | .error =>
          let s := s.updCan (port - 4) fun x => x.confine (x.tec + 8) x.rec_
          let s := if s.busOff port then s.dropBusOff port else s
          .next (s.retryTx f)

/-- QUEUE_FRAME_LATE (R346). -/
def execQueueFrameLate (q : Nat) (s : State) : Out :=
  if 32 ≤ q then .fault .noSuchUnit
  else if (s.pioDom (uQueue q)).isNone then .next s
  else
    let late := fun (f : TxFrame) => f.close ≠ 0 && decide (f.close ≤ s.dt + 1)
    .next (s.updTxQueue q fun x => { x with frames := x.frames.filter (!late ·), late := satAdd 32 x.late (x.frames.filter late).length })

/-! ### Capture inputs (R347 to R349) -/

/-- The part of a history back to `from_`: the entries after it, and the newest one at or before it. -/
def sinceStamp (from_ : Nat) : List (Nat × Nat) → List (Nat × Nat)
  | [] => []
  | p :: l => if p.1 ≤ from_ then [p] else p :: sinceStamp from_ l

/-- COUNT takes a value at a stamp. What lies before every window of SPEED (R347, R349) is dropped. -/
def CapSt.setCount (x : CapSt) (v t : Nat) : CapSt :=
  { x with count := v, trans := sinceStamp (t - 5000 * 4095) ((t, v) :: x.trans) }

/-- EFILT in ns (R347). -/
def CapSt.filterNs (x : CapSt) : Nat := match natBits x.cfg.toNat 60 59 with
  | 0 => 0
  | 1 => 2
  | 2 => 4
  | _ => 8

/-- When a level at a pin passes the filter, if it has by `t` (R347). -/
def EncPin.due (p : EncPin) (f t : Nat) : Option Nat := if p.raw ≠ p.level ∧ p.since + f ≤ t then some (p.since + f) else none

/-- The filtered pins take levels at a stamp (R347): COUNT goes up where A leads B and down where B leads A; the second component tells
that OVERSPEED is raised. -/
def CapSt.edge (x : CapSt) (a b : Bool) (t : Nat) : CapSt × Bool :=
  let da := a != x.pinA.level
  let db := b != x.pinB.level
  let forward := if da then a != x.pinB.level else b == x.pinA.level
  let fast := (da && db) || x.lastEdge.any fun l => decide (t < l + 10)
  let y := if da && db then x else x.setCount (wrapN 32 ((x.count : Int) + if forward then 1 else -1)) t
  let y := { y with pinA := { y.pinA with level := a }, pinB := { y.pinB with level := b }, lastEdge := some t }
  (if fast then { y with ovs := true, ovsAt := some (t, if x.ovs then (x.ovsAt.map (·.2)).getD t else t) } else y, fast)

/-- The levels that have passed the filter by `t` are taken, in order (R347), and how often OVERSPEED is raised. -/
def CapSt.settle (x : CapSt) (t : Nat) : CapSt × Nat :=
  let f := x.filterNs
  match x.pinA.due f t, x.pinB.due f t with
  | none, none => (x, 0)
  | some a, none => let r := x.edge x.pinA.raw x.pinB.level a; (r.1, bit r.2)
  | none, some b => let r := x.edge x.pinA.level x.pinB.raw b; (r.1, bit r.2)
  | some a, some b =>
    if a = b then let r := x.edge x.pinA.raw x.pinB.raw a; (r.1, bit r.2)
    else
      let q := if a < b then x.edge x.pinA.raw x.pinB.level a else x.edge x.pinA.level x.pinB.raw b
      let r := q.1.edge x.pinA.raw x.pinB.raw (max a b)
      (r.1, bit q.2 + bit r.2)

/-- Whether a capture input works as an encoder (R320, R349). -/
def State.encoderOn (s : State) (n : Nat) : Bool := s.var.acts && s.pioOn (uCap n) && natBits (s.cap n).cfg.toNat 62 61 == 0

/-- An encoder's pins up to `t`, with an error record for each OVERSPEED. -/
def State.encSettle (s : State) (n t : Nat) : State :=
  if s.encoderOn n then
    let r := (s.cap n).settle t
    (List.range r.2).foldl (fun s _ => s.pioRecord 5 0 (uCap n) 0) (s.updCap n fun _ => r.1)
  else s

/-- A level at a pin from a stamp on. -/
def EncPin.set (p : EncPin) (v : Bool) (t : Nat) : EncPin := if p.raw = v then p else { p with raw := v, since := t }

/-- The pins of a capture input that does not count: their levels are followed without a filter. -/
def CapSt.follow (x : CapSt) : CapSt :=
  { x with pinA := { x.pinA with level := x.pinA.raw }, pinB := { x.pinB with level := x.pinB.raw } }

/-- ENCODER_TRANSITION: pins A and B show levels from a stamp on (R347). -/
def execEncoderTransition (n : Nat) (a b : Bool) (t : Nat) (s : State) : Out :=
  if 16 ≤ n then .fault .noSuchUnit
  else if !s.var.acts || s.dt < t then .next s
  else
    let s := (s.encSettle n t).updCap n fun x => { x with pinA := x.pinA.set a t, pinB := x.pinB.set b t }
    if s.encoderOn n then .next (s.encSettle n t) else .next (s.updCap n CapSt.follow)

/-- ENCODER_INDEX_EDGE: an active edge of pin Z at a stamp (R347). -/
def execEncoderIndexEdge (n t : Nat) (s : State) : Out :=
  if 16 ≤ n then .fault .noSuchUnit
  else if !s.encoderOn n || !natBit (s.cap n).cfg.toNat 58 || s.dt < t then .next s
  else .next ((s.encSettle n t).updCap n fun x => x.setCount 0 t)

/-- A nibble's value from its duration (R348): the ticks rounded to the nearest integer, minus 12; `up` settles an exact half. -/
def sentNibble (cal d : Nat) (up : Bool) : Option Nat :=
  if cal = 0 then none
  else
    let q := 56 * d / cal
    let r := 56 * d % cal
    let ticks := if 2 * r < cal then q else if cal < 2 * r then q + 1 else if up then q + 1 else q
    if 12 ≤ ticks ∧ ticks ≤ 27 then some (ticks - 12) else none

/-- A number from nibbles, most significant first. -/
def nibNat (l : List Nat) : Nat := l.foldl (fun a x => 16 * a + x) 0

/-- The two channels of a good SENT message (R348): none when it breaks a rule. `ties` settles exact halves. -/
def CapSt.sentDecode (x : CapSt) (msg : SentMsg) (ties : Nat) : Option (Nat × Nat) :=
  let c := x.cfg.toNat
  let nominal := 56 * natBits c 45 37 * 125
  let dn := natBits c 36 34
  let n1 := natBits c 33 31
  let vals := msg.nibbles.zipIdx.map fun p => sentNibble msg.cal p.1 (natBit ties p.2)
  let far := fun (a b : Nat) => (a - b) + (b - a)
  if nominal < 5 * far msg.cal nominal then none
  else if x.prevCal.any fun p => decide (p < 64 * far msg.cal p) then none
  else if msg.nibbles.length ≠ dn + 2 || msg.pause != natBit c 29 || !vals.all (·.isSome) then none
  else
    let v := vals.map (·.getD 0)
    let data := (v.drop 1).take dn
    if Config.sentCrc (natBit c 28) data ≠ v.getD (dn + 1) 0 then none
    else
      let c2 := data.drop n1
      some (nibNat (data.take n1), nibNat (if natBit c 30 then c2.reverse else c2))

/-- SENT_MESSAGE_END (R348). The free value settles a duration exactly between two tick counts. -/
def execSentMessageEnd (n : Nat) (msg : SentMsg) (s : State) : Out :=
  if 16 ≤ n then .fault .noSuchUnit
  else
    let x := s.cap n
    if !s.var.acts || !s.pioOn (uCap n) || natBits x.cfg.toNat 62 61 ≠ 1 || s.dt < msg.tEnd then .next s
    else
      let (ties, s) := s.draw
      let s := s.updCap n fun x => { x with prevCal := some msg.cal }
      match x.sentDecode msg ties with
      | some (a, b) =>
        let st := (sentNibble msg.cal (msg.nibbles.headD 0) (natBit ties 0)).getD 0
        .next (s.updCap n fun x =>
          let l := (st :: x.status).take 18
          { x with good := some (a, b, msg.tEnd), errRun := 0, status := l, slow := (Config.sentSlow l).orElse fun _ => x.slow })
      | none => .next (s.updCap n fun x => { x with serr := satAdd 16 x.serr 1, errRun := x.errRun + 1, status := [] })

/-- A capture input at a grid instant: what PIO_CAPV shows (R347, R349). -/
def CapSt.latch (x : CapSt) (t : Nat) : CapSt :=
  if natBits x.cfg.toNat 62 61 = 1 then
    match x.good with
    | some (a, b, _) => { x with v1 := a, v2 := b }
    | none => x
  else { x with v1 := x.countAt t, v2 := wrapN 32 (x.speed t) }

/-- Every capture input that works, at a grid instant. -/
def State.latchCaps (s : State) (t : Nat) : State :=
  (List.range 16).foldl (fun s n => if s.pioOn (uCap n) then (s.encSettle n t).updCap n (CapSt.latch · t) else s) s

/-! ### Digital inputs (R350, R351) -/

/-- The filter of a digital input takes a level whose run began at a stamp (R350, R351). -/
def State.dinFilter (s : State) (i : Nat) (active : Bool) (at_ : Nat) : State :=
  let c := (s.din i).cfg.toNat
  let s := s.updDin i fun x => { x with filt := active, filtAt := some at_, stuck := x.stuck && active }
  if natBit c 24 && natBit (natBits c 5 4) (if active then 0 else 1) then s.pioTally (uDin i) (natBits c 23 6) else s

/-- DIN_RAW_EDGE (R350). -/
def execDinRawEdge (i : Nat) (level : Bool) (t : Nat) (s : State) : Out :=
  if 32 ≤ i then .fault .noSuchUnit
  else if !s.var.acts || (s.din i).raw = level || s.dt < t then .next s
  else if !s.pioOn (uDin i) then .next (s.updDin i fun x => { x with raw := level, rawAt := t })
  else
    let x := s.din i
    let act := x.raw != natBit x.cfg.toNat 62
    let s := if x.runDone t then s.dinFilter i act x.rawAt
      else if act != x.filt then s.updDin i fun x => { x with glitch := satAdd 32 x.glitch 1 } else s
    .next (s.updDin i fun x => { x with raw := level, rawAt := t })

/-- DIN_FILTER_EXPIRY (R350). -/
def execDinFilterExpiry (i : Nat) (s : State) : Out :=
  if 32 ≤ i then .fault .noSuchUnit
  else if !s.var.acts || !s.pioOn (uDin i) || !(s.din i).runDone s.dt then .next s
  else .next (s.dinFilter i ((s.din i).raw != natBit (s.din i).cfg.toNat 62) (s.din i).rawAt)

/-- DIN_STUCK_EXPIRY (R351). -/
def execDinStuckExpiry (i : Nat) (s : State) : Out :=
  if 32 ≤ i then .fault .noSuchUnit
  else if !s.var.acts || !s.stuckAt i s.dt || (s.din i).stuck then .next s
  else
    let c := (s.din i).cfg.toNat
    let s := (s.updDin i fun x => { x with stuck := true }).pioRecord 5 1 (uDin i) 0
    .next (if natBit c 24 then s.pioTally (uDin i) (natBits c 23 6) else s)

/-! ### PWM periods (R352) -/

/-- The start of the period that holds a DT, counted from LOOP_BASE and PHASE. -/
def State.pwmStart (s : State) (o : Nat) : Nat :=
  let c := (s.pwm o).cfg.toNat
  let from_ : Int := (s.loop.base.toNat : Int) + (natBits c 31 4 : Nat)
  ((s.dt : Int) - ((s.dt : Int) - from_) % (natBits c 59 32 : Nat)).toNat

/-- PWM_PERIOD_START (R352). Where a centred on-time leaves an odd number of ns, which side is the longer is a free value. -/
def execPwmPeriodStart (o : Nat) (s : State) : Out :=
  if 16 ≤ o then .fault .noSuchUnit
  else if !s.pwmLive o || (s.pwm o).start = some (s.pwmStart o) then .next s
  else
    let (r, s) := s.draw
    let p := s.pwmStart o
    let c := (s.pwm o).cfg.toNat
    let per := natBits c 59 32
    let f := fun (x : PwmSt) =>
      let v := x.pend.getD x.c
      let on := pwmOn c v
      let lead := pwmLead c on r
      ({ x with c := v, pend := none, start := some p
                active := decide (0 < on) && decide (lead = 0)
                rise := if 0 < on ∧ 0 < lead then some (p + lead) else none
                fall := if 0 < on ∧ lead + on < per then some (p + lead + on) else none } : PwmSt)
    .next (s.updPwm o f)

/-- PWM_ON_TIME_END: the pending edges whose time has come (R352). -/
def execPwmOnTimeEnd (o : Nat) (s : State) : Out :=
  if 16 ≤ o then .fault .noSuchUnit
  else if !s.pwmLive o then .next s
  else .next (s.updPwm o fun x =>
    let act := if x.rise.any (· ≤ s.dt) then true else x.active
    let act := if x.fall.any (· ≤ s.dt) then false else act
    { x with rise := x.rise.filter (s.dt < ·), fall := x.fall.filter (s.dt < ·), active := act })

/-! ### Registers of the PIO block (R320, R334, R337, R340 to R345, R349, R351, R354) -/

/-- The unit whose registers a PIO offset belongs to (R320). -/
def pioUnitOf (off : Nat) : Option Nat :=
  let pick := fun (base step n : Nat) (u : Nat → Nat) =>
    if base ≤ off ∧ off < base + step * n then some (u ((off - base) / step)) else none
  match pick 0 8 764 id with
  | some u => some u
  | none => match pick 0x10000 0x100 4 uMac with
  | some u => some u
  | none => match pick 0x20000 0x20 64 uRing with
  | some u => some u
  | none => match pick 0x30000 0x100 8 uCan with
  | some u => some u
  | none => match pick 0x40000 0x10 256 uRxf with
  | some u => some u
  | none => match pick 0x42000 8 256 uTxf with
  | some u => some u
  | none => match pick 0x43000 8 64 uMap with
  | some u => some u
  | none => match pick 0x44000 8 32 uQueue with
  | some u => some u
  | none => match pick 0x50000 0x20 16 uCap with
  | some u => some u
  | none => match pick 0x60000 0x10 32 uDin with
  | some u => some u
  | none => match pick 0x70000 8 16 uPwm with
  | some u => some u
  | none => pick 0x71000 8 16 uDout

/-- A read of a PIO register at a block offset. -/
def State.pioRead (s : State) (off : Nat) : Nat :=
  match pioUnitOf off with
  | none => if off = 0x2000 then s.sec.sensed.safe else 0
  | some u =>
    let r := off % 0x100
    if off < 8 * 764 then (Tab.get 0 s.pio.own u).toNat
    else if u < 4 then
      let x := s.mac u
      if r = 0 then x.cfg.toNat else if r = 8 then x.addr.toNat
      else if r = 0x10 then fields [(48, x.rxErr), (32, x.secDrop), (16, x.noRule)]
      else if 0x40 ≤ r ∧ r < 0x80 then (Tab.get 0 x.rules ((r - 0x40) / 8)).toNat else 0
    else if u < 12 then
      let x := s.can (u - 4)
      if r = 0 then x.cfg.toNat
      else if r = 0x10 then fields [(62, x.bstate), (40, x.tec), (32, x.rec_), (16, x.secDrop), (0, x.noFlt)]
      else if 0x40 ≤ r ∧ r < 0xC0 then
        (if r % 16 = 0 then (Tab.get 0 x.fltA ((r - 0x40) / 16)).toNat else (Tab.get 0 x.fltB ((r - 0x40) / 16)).toNat)
      else 0
    else if u < 28 then
      let x := s.cap (u - 12)
      let r := off % 0x20
      if r = 0 then x.cfg.toNat else if r = 8 then fields [(32, x.v1 % 2 ^ 32), (0, x.v2 % 2 ^ 32)]
      else if r = 0x10 then fields [(63, bit x.ovs), (16, x.serr)] else 0
    else if u < 60 then
      let x := s.din (u - 28)
      if off % 0x10 = 0 then x.cfg.toNat
      else fields [(63, bit (if x.stuck then natBit x.cfg.toNat 25 else x.filt)), (62, bit x.stuck), (0, x.glitch)]
    else if u < 76 then (s.pwm (u - 60)).cfg.toNat
    else if u < 92 then (s.dout (u - 76)).cfg.toNat
    else if u < 156 then
      let x := s.rxRing (u - 92)
      let r := off % 0x20
      if r = 0 then x.a.toNat else if r = 8 then x.b.toNat
      else if r = 0x10 then fields [(32, min x.frames (2 ^ 32 - 1)), (16, x.full), (0, x.refused)] else 0
    else if u < 412 then (if off % 0x10 = 0 then (s.rxField (u - 156)).a.toNat else (s.rxField (u - 156)).b.toNat)
    else if u < 668 then (s.txField (u - 412)).cfg.toNat
    else if u < 732 then (s.txMap (u - 668)).cfg.toNat + (s.txMap (u - 668)).ovr
    else fields [(32, (s.txQueue (u - 732)).refused), (0, (s.txQueue (u - 732)).late)]

/-- Whether a loop in ARMED, RAMP or CLOSED names a unit (R320). -/
def State.unitNamed (s : State) (u : Nat) : Bool :=
  s.loop.slots.any fun p =>
    let x := p.2
    (x.st == .armed || x.st == .ramp || x.st == .closed)
    && (sourceUnit (natBits x.src.toNat 63 52) == some u || sourceUnit (natBits x.src.toNat 51 40) == some u
      || sourceUnit (natBits x.src.toNat 39 28) == some u || targetUnit (natBits x.src.toNat 27 16) == some u
      || (decide (28 ≤ u) && decide (u < 60) && natBit x.qcfg.toNat (u - 28)))

/-- A write of PIO_OWNu (R320, R414). -/
def State.pioOwnWrite (s : State) (holder : Bool) (u k v : Nat) : State :=
  if !holder then s
  else if natBit (s.pioCfg u) 63 || s.unitNamed u then s.pioRecord 4 0 u (0xC00000 + 8 * u)
  else
    let old := s.pioDom u
    let s := { s with pio := { s.pio with own := Tab.upd 0 s.pio.own u fun w => regMerge w k (maskBits 63 59) v } }
    if s.pioDom u = old then s else { s with sec := { s.sec with keys := s.sec.keys.filter fun x => x.unit ≠ u } }

/-- A write of a register whose other fields are frozen while EN is 1; only EN then takes it. -/
def enMerge (old : Word) (k rw v : Nat) : Word :=
  regMerge old k (if natBit old.toNat 63 then maskBits 63 63 else rw) v

/-- Writable bits (R334, R337, R340 to R343, R349, R351, R354). -/
def rwMacCfg : Nat := maskBits 63 20
def rwCanCfg : Nat := maskBits 63 37
def rwMap : Nat := maskBits 63 58 + maskBits 55 24
def rwRxfA : Nat := maskBits 63 44 + maskBits 31 0
def rwRxfB : Nat := maskBits 60 32 + maskBits 28 0
def rwTxf : Nat := maskBits 63 42 + maskBits 31 0
def rwRingA : Nat := maskBits 63 63 + maskBits 55 0
def rwRingB : Nat := maskBits 63 16
def rwCap : Nat := maskBits 63 8
def rwDin : Nat := maskBits 63 4
def rwPwm : Nat := maskBits 63 4
def rwDout : Nat := maskBits 63 62
def rwMacRule : Nat := maskBits 63 27
def rwCanFltA : Nat := maskBits 63 27
def rwCanFltB : Nat := maskBits 28 0

/-- A capture input's enable is refused (R349). -/
def capEnableBad (c : Nat) : Bool :=
  decide (1 < natBits c 62 61) || (natBits c 62 61 == 1 &&
    (natBits c 36 34 == 0 || decide (6 < natBits c 36 34) || natBits c 33 31 == 0 || decide (natBits c 36 34 < natBits c 33 31)
      || decide (natBits c 45 37 < 4)))

/-- A digital input's enable is refused (R351). -/
def dinEnableBad (c : Nat) : Bool :=
  decide (natBits c 61 42 < 40) || decide (1000000 < natBits c 61 42) || natBits c 41 26 == 0 || decide (60000 < natBits c 41 26)

/-- The word without its EN bit. -/
def enOff (w : Word) : Word := BitVec.ofNat 64 (w.toNat % 2 ^ 63)

/-- A write of PIO_RINGA (R340): an enable starts at frame 0 with counters at 0, or is refused. -/
def State.ringAWrite (s : State) (n k v : Nat) : State :=
  let x := s.rxRing n
  let new := enMerge x.a k rwRingA v
  let b := x.b.toNat
  if natBit new.toNat 63 && !natBit x.a.toNat 63 then
    if natBits b 26 23 < 10 || 14 < natBits b 26 23 || natBits b 22 16 < 8 then
      (s.updRxRing n fun x => { x with a := enOff new }).pioRecord 4 1 (uRing n) (0xC20000 + 0x20 * n)
    else s.updRxRing n fun x => { x with a := new, frames := 0, full := 0, refused := 0, waiting := [] }
  else s.updRxRing n fun x => { x with a := new }

/-- A write of PIO_CAPC (R349). -/
def State.capCWrite (s : State) (n k v : Nat) : State :=
  let x := s.cap n
  let new := enMerge x.cfg k rwCap v
  if natBit new.toNat 63 && !natBit x.cfg.toNat 63 && capEnableBad new.toNat then
    (s.updCap n fun x => { x with cfg := enOff new }).pioRecord 4 1 (uCap n) (0xC50000 + 0x20 * n)
  else if natBit new.toNat 63 && !natBit x.cfg.toNat 63 then
    s.updCap n fun x =>
      { x with cfg := new, lastEdge := none, prevCal := none, good := none, errRun := 0, status := [] }.follow
  else s.updCap n fun x => { x with cfg := new }

/-- A write of PIO_DINC (R351). An enabled input starts inactive, and its raw level's run starts at the enable (log entry 97). -/
def State.dinCWrite (s : State) (i k v : Nat) : State :=
  let x := s.din i
  let new := regMerge x.cfg k rwDin v
  if natBit new.toNat 63 && !natBit x.cfg.toNat 63 then
    if dinEnableBad new.toNat then
      (s.updDin i fun x => { x with cfg := enOff new }).pioRecord 4 1 (uDin i) (0xC60000 + 0x10 * i)
    else s.updDin i fun x => { x with cfg := new, rawAt := s.dt, filt := false, filtAt := none, stuck := false }
  else s.updDin i fun x => { x with cfg := new }

/-- A write of PIO_CANCTL.RECOVER (R336). -/
def State.canRecover (s : State) (n : Nat) : State :=
  if (s.can n).bstate = 2 then s.updCan n fun x => { x with recovering := true } else s

/-- A W1C write of PIO_CAPS.OVS (R347, R16): an OVERSPEED raised in the same cycle stays. -/
def State.ovsClear (s : State) (n : Nat) (same : Bool) : State :=
  if same then s else s.updCap n fun x => { x with ovs := false }

/-- A write of a PIO register at a block offset: `k` are the bits the access carries. -/
def State.pioWrite (s : State) (holder : Bool) (off k v : Nat) : State :=
  match pioUnitOf off with
  | none => s
  | some u =>
    let r := off % 0x100
    if off < 8 * 764 then s.pioOwnWrite holder u k v
    else if u < 4 then
      let x := s.mac u
      if r = 0 then (s.updMac u fun x => { x with cfg := enMerge x.cfg k rwMacCfg v }).gRestart s u
      else if r = 8 then (if natBit x.cfg.toNat 63 then s else s.updMac u fun x => { x with addr := regMerge x.addr k (maskBits 47 0) v })
      else if 0x40 ≤ r ∧ r < 0x80 then
        s.updMac u fun x => { x with rules := Tab.upd 0 x.rules ((r - 0x40) / 8) fun w => regMerge w k rwMacRule v }
      else s
    else if u < 12 then
      let n := u - 4
      if r = 0 then s.updCan n fun x => { x with cfg := enMerge x.cfg k rwCanCfg v }
      else if r = 8 then (if writes1 k v 0 then s.canRecover n else s)
      else if 0x40 ≤ r ∧ r < 0xC0 then
        (if r % 16 = 0 then s.updCan n fun x => { x with fltA := Tab.upd 0 x.fltA ((r - 0x40) / 16) fun w => regMerge w k rwCanFltA v }
         else s.updCan n fun x => { x with fltB := Tab.upd 0 x.fltB ((r - 0x40) / 16) fun w => regMerge w k rwCanFltB v })
      else s
    else if u < 28 then
      let n := u - 12
      if off % 0x20 = 0 then s.capCWrite n k v
      else if off % 0x20 = 0x10 then (if writes1 k v 63 then s.ovsClear n false else s)
      else s
    else if u < 60 then (if off % 0x10 = 0 then s.dinCWrite (u - 28) k v else s)
    else if u < 76 then s.updPwm (u - 60) fun x => { x with cfg := regMerge x.cfg k rwPwm v, start := none, rise := none, fall := none }
    else if u < 92 then s.updDout (u - 76) fun x => { x with cfg := regMerge x.cfg k rwDout v }
    else if u < 156 then
      let n := u - 92
      if off % 0x20 = 0 then s.ringAWrite n k v
      else if off % 0x20 = 8 then
        (if natBit (s.rxRing n).a.toNat 63 then s else s.updRxRing n fun x => { x with b := regMerge x.b k rwRingB v })
      else s
    else if u < 412 then
      (if off % 0x10 = 0 then s.updRxField (u - 156) fun x => { x with a := regMerge x.a k rwRxfA v }
       else s.updRxField (u - 156) fun x => { x with b := regMerge x.b k rwRxfB v })
    else if u < 668 then s.updTxField (u - 412) fun x => { x with cfg := regMerge x.cfg k rwTxf v }
    else if u < 732 then s.updTxMap (u - 668) fun x => { x with cfg := regMerge x.cfg k rwMap v }
    else s

end Sys2Proof.Machine
end

