-- ==== Sys2Proof/Machine/Timebase.lean ====
section
/-!
DEFINITION. Device time (R321 to R331): the timebase cycle, the discipline from PPS, the timing outputs, the gPTP grandmaster and
the registers of the TIME block.
-/

namespace Sys2Proof.Machine

/-! ### The timebase (R321, R322) -/

/-- One timebase cycle (R321): the fraction takes RATE, and DT increases by 1 plus its signed carry. On the SN9620 RATE is 0 (R330). -/
def Time.tick (x : Time) : Time :=
  let sum : Int := (x.frac : Int) + x.rate
  let carry : Int := sum / ((2 ^ 40 : Nat) : Int)
  { x with frac := (sum % ((2 ^ 40 : Nat) : Int)).toNat, dt := (((x.dt : Int) + 1 + carry).toNat) % 2 ^ 64 }

/-- The clamp of R322. -/
def rateClamp (x : Int) : Int := max (-109951162) (min 109951162 x)

/-- A quotient rounded to nearest even (R326). -/
def roundDiv (n : Int) (d : Nat) : Int :=
  let q := n / (d : Int)
  let r := n % (d : Int)
  if 2 * r < d then q else if (d : Int) < 2 * r then q + 1 else if q % 2 = 0 then q else q + 1

/-- PTP time: DT + EPOCH, in ns (R321). -/
def Time.ptp (x : Time) : Int := (x.dt : Int) + x.epoch.toInt

/-! ### The discipline (R326, R327) -/

/-- The servo step of an accepted edge with its stamp (R326), and the state change it makes (R327). -/
def Time.servo (x : Time) (s : Nat) : Time :=
  let p : Int := ((s : Int) - x.dly + x.epoch.toInt) % 1000000000
  let phi : Int := if p < 500000000 then p else p - 1000000000
  let x := { x with phi := phi }
  if x.disc = .acquire then
    { x with epoch := BitVec.ofInt 64 (x.epoch.toInt - phi), lastStep := -phi, tbi := (x.tbi + 1) % 65536, nok := 0, disc := .track }
  else
    let freq := rateClamp (x.freq - roundDiv (phi * 2 ^ 40) 16000000000)
    let rate := rateClamp (freq - roundDiv (phi * 2 ^ 40) 2000000000)
    let nok := if phi.natAbs ≤ 100 then x.nok + 1 else 0
    let x := { x with freq := freq, rate := rate, nok := nok }
    match x.disc with
    | .track => if 16 ≤ nok then { x with disc := .locked } else x
    | .locked => if 1000 < phi.natAbs then { x with disc := .track, nok := 0 } else x
    | .holdover => { x with disc := .track }
    | _ => x

/-- An accepted edge whose ns has passed takes its servo step, after an EPOCH write at that ns (R355). -/
def Time.settle (x : Time) : Time :=
  match x.edge with
  | some t => if t < x.dt then { x with edge := none }.servo t else x
  | none => x

/-- PPS_IN_EDGE: an edge at PPS in, with its stamp and whether it rises. PPS_POL says which edge is the active one (R325, R326). -/
def execPpsInEdge (e : Nat × Bool) (s : State) : Out :=
  let t := e.1
  if !s.var.acts || !s.time.en || s.dt < t || e.2 = s.time.pol then .next s
  else if s.time.lastEdge.all fun l => decide (l + 900000000 ≤ t) then
    .next { s with time := { s.time with acc := satAdd 32 s.time.acc 1, lastEdge := some t, edge := some t }.settle }
  else .next { s with time := { s.time with rej := satAdd 16 s.time.rej 1 } }

/-- HOLDOVER_TIMEOUT (R327): once DT has passed the ns that ends TRACK or LOCKED, so that an edge at that ns is taken first (R355). -/
def execHoldoverTimeout (s : State) : Out :=
  let x := s.time
  let late := x.lastEdge.all fun l => decide (l + 1500000000 < x.dt)
  if (x.disc = .track ∨ x.disc = .locked) ∧ late then
    .next { s with time := { x with disc := .holdover, rate := rateClamp x.freq, hold := satAdd 16 x.hold 1 } }
  else .next s

/-! ### Timing outputs (R329) -/

/-- PPS_OUT_EDGE: the edges of PPS out and of 10 MHz out that fall at this DT (R329). A pulse once begun keeps its length. -/
def execPpsOutEdge (s : State) : Out :=
  if !s.var.acts then .next s
  else
    let x := s.time
    let q := (x.ptp % 1000000000).toNat
    let r := (x.ptp % 100).toNat
    let x := if x.ppsHigh then (if x.ppsFall ≤ x.dt then { x with ppsHigh := false } else x)
      else if x.pen && decide (q ≤ 1) then { x with ppsHigh := true, ppsFall := x.dt + x.pw - q } else x
    let x := if x.clkHigh then (if x.clkFall ≤ x.dt then { x with clkHigh := false } else x)
      else if x.ten && decide (r ≤ 1) then { x with clkHigh := true, clkFall := x.dt + 50 - r } else x
    .next { s with time := x }

/-! ### gPTP (R331) -/

/-- Message types (IEEE 802.1AS). -/
def gSync : Nat := 0
def gPdelayReq : Nat := 2
def gPdelayResp : Nat := 3
def gFollowUp : Nat := 8
def gPdelayRespFollowUp : Nat := 10
def gAnnounce : Nat := 11

/-- The length of an interval of 2^l s in ns, l a signed 4-bit field. -/
def logInterval (l : Nat) : Nat :=
  let v := sgn 4 l
  if 0 ≤ v then 1000000000 * 2 ^ v.toNat else 1000000000 / 2 ^ (-v).toNat

/-- The clockIdentity: the EUI-64 of MAC 0's address (R331). -/
def State.clockIdentity (s : State) : Nat :=
  let a := (s.mac 0).addr.toNat
  (a / 2 ^ 24) % 2 ^ 24 * 2 ^ 40 + 0xFFFE * 2 ^ 24 + a % 2 ^ 24

/-- clockClass and timeSource of an Announce (R331). -/
def Disc.clock : Disc → Nat × Nat
  | .locked => (6, 0x20)
  | .holdover => (7, 0x20)
  | _ => (248, 0xA0)

/-- The frame of a message (R331): destination 01-80-C2-00-00-0E, the MAC's address, EtherType 0x88F7 and the message, untagged. -/
def State.gFrame (s : State) (m kind : Nat) (vals : List Nat) : List Byte :=
  (toLE 6 0x0180C200000E).reverse ++ (toLE 6 (s.mac m).addr.toNat).reverse ++ [0x88, 0xF7]
  ++ Config.gptpBody kind m s.clockIdentity vals

/-- Messages sent on a port, by what they are and their fields: as they are, past no MACsec (R331, R333). -/
def State.gSend (s : State) (m : Nat) (l : List (Nat × List Nat)) : State :=
  { s with time := { s.time with sent := s.time.sent ++ l.map fun p => ⟨m, p.1, p.2, s.gFrame m p.1 p.2⟩ } }

/-- The PTP time at which a message leaves the connector of a MAC (R323). -/
def State.txPtp (s : State) (m : Nat) : Nat := wrapN 80 (s.time.ptp + (natBits (s.mac m).cfg.toNat 31 20 : Nat))

/-- GPTP_SYNC_TIMER: Sync, then Follow_Up with the time, TBI and the last EPOCH step (R331). -/
def execGptpSyncTimer (m : Nat) (s : State) : Out :=
  if 4 ≤ m then .fault .noSuchUnit
  else if !s.ptpPort m || s.dt < Tab.get 0 s.time.nextSync m then .next s
  else
    let next := s.dt + logInterval s.time.lsync
    let s := s.gSend m [(gSync, []), (gFollowUp, [s.txPtp m, s.time.tbi, wrapN 96 s.time.lastStep])]
    .next { s with time := { s.time with nextSync := Tab.set 0 s.time.nextSync m next } }

/-- GPTP_ANNOUNCE_TIMER (R331). -/
def execGptpAnnounceTimer (m : Nat) (s : State) : Out :=
  if 4 ≤ m then .fault .noSuchUnit
  else if !s.ptpPort m || s.dt < Tab.get 0 s.time.nextAnn m then .next s
  else
    let next := s.dt + logInterval s.time.lann
    let c := s.time.disc.clock
    let s := s.gSend m [(gAnnounce, [s.time.prio1, s.time.prio2, c.1, c.2, s.clockIdentity])]
    .next { s with time := { s.time with nextAnn := Tab.set 0 s.time.nextAnn m next } }

/-- GPTP_PDELAY_REQ_TIMER (R331). -/
def execGptpPdelayReqTimer (m : Nat) (s : State) : Out :=
  if 4 ≤ m then .fault .noSuchUnit
  else if !s.ptpPort m || s.dt < Tab.get 0 s.time.nextPdelay m then .next s
  else
    let next := s.dt + 1000000000
    let s := s.gSend m [(gPdelayReq, [s.txPtp m])]
    .next { s with time := { s.time with nextPdelay := Tab.set 0 s.time.nextPdelay m next } }

/-- GPTP_PDELAY_REQ_RECEIVED: answered with the stamps of the request's arrival and the answer's departure (R323, R331). -/
def execGptpPdelayReqReceived (m seq t : Nat) (s : State) : Out :=
  if 4 ≤ m then .fault .noSuchUnit
  else if !s.ptpPort m || s.dt < t then .next s
  else
    let arrived := wrapN 80 (((t - s.rxLat m : Nat) : Int) + s.time.epoch.toInt)
    .next (s.gSend m [(gPdelayResp, [seq, arrived]), (gPdelayRespFollowUp, [seq, s.txPtp m])])

/-- GPTP_PDELAY_RESP_RECEIVED: the answer to the tray's own request, with its stamp (R331). -/
def execGptpPdelayRespReceived (m seq t : Nat) (s : State) : Out :=
  if 4 ≤ m then .fault .noSuchUnit
  else if !s.ptpPort m || s.dt < t then .next s
  else .next { s with time := { s.time with pdelay := Tab.set [] s.time.pdelay m [seq, t - s.rxLat m] } }

/-- GPTP_FOREIGN_RECEIVED: a Sync, Follow_Up or Announce of another station is counted and discarded (R331). -/
def execGptpForeignReceived (m kind : Nat) (s : State) : Out :=
  if 4 ≤ m then .fault .noSuchUnit
  else if !s.ptpPort m || !(kind = gSync || kind = gFollowUp || kind = gAnnounce) then .next s
  else .next { s with time := { s.time with foreign := satAdd 16 s.time.foreign 1 } }

/-! ### Registers of the TIME block (R325, R327, R330) -/

def Disc.num : Disc → Nat
  | .free => 0
  | .acquire => 1
  | .track => 2
  | .locked => 3
  | .holdover => 4

/-- TIME_EPOCH takes a value (R327). -/
def Time.setEpoch (x : Time) (w : Word) : Time :=
  let x := { x with epoch := w, lastStep := w.toInt - x.epoch.toInt, tbi := (x.tbi + 1) % 65536 }
  if x.disc = .free ∨ x.disc = .acquire then x else { x with disc := .track, nok := 0 }

/-- TIME_FREQ.FREQ takes a value (R322, R327): in state FREE only. -/
def Time.setFreq (x : Time) (v : Int) : Time :=
  if x.disc = .free then { x with freq := v, rate := rateClamp v } else x

/-- The value of TIME_FREQ, TIME_DISC, TIME_PPSO, TIME_CNT and TIME_GPTP. -/
def Time.freqReg (x : Time) : Nat := fields [(32, wrapN 32 x.rate), (0, wrapN 32 x.freq)]
def Time.discReg (x : Time) : Nat :=
  fields [(63, bit x.en), (60, x.disc.num), (59, bit x.pol), (32, x.dly), (0, wrapN 32 x.phi)]
def Time.ppsoReg (x : Time) : Nat := fields [(63, bit x.pen), (62, bit x.ten), (0, x.pw)]
def Time.cntReg (x : Time) : Nat := fields [(48, x.rej), (32, x.hold), (0, x.acc)]
def Time.gptpReg (x : Time) : Nat :=
  fields [(56, x.prio1), (48, x.prio2), (44, x.lsync), (40, x.lann), (16, x.tbi), (0, x.foreign)]

/-- TIME_DISC.EN takes a value (R327). -/
def Time.setEn (x : Time) (on : Bool) : Time :=
  if on then (if x.disc = .free then { x with en := true, disc := .acquire, lastEdge := none, nok := 0 } else { x with en := true })
  else { x with en := false, disc := .free, rate := rateClamp x.freq, edge := none }

/-- A read of a TIME register at a block offset. -/
def State.timeRead (s : State) (off : Nat) : Nat :=
  match off with
  | 0x00 => s.time.dt
  | 0x08 => s.time.epoch.toNat
  | 0x10 => s.time.freqReg
  | 0x18 => if s.var.acts then s.time.discReg else 0
  | 0x20 => if s.var.acts then s.time.ppsoReg else 0
  | 0x28 => if s.var.acts then s.time.cntReg else 0
  | 0x30 => if s.var.acts then s.time.gptpReg else 0
  | _ => 0

/-- A write of a TIME register at a block offset. -/
def State.timeWrite (s : State) (off k v : Nat) : State :=
  let x := s.time
  let new := fun (old rw : Nat) => (regMerge (BitVec.ofNat 64 old) k rw v).toNat
  match off with
  | 0x08 => { s with time := x.setEpoch (regMerge x.epoch k (maskBits 63 0) v) }
  | 0x10 => if s.var.acts && natBit k 0 then { s with time := x.setFreq (sgn 32 (natBits v 31 0)) } else s
  | 0x18 =>
    if !s.var.acts then s
    else
      let w := new x.discReg (maskBits 63 63 + maskBits 59 59 + maskBits 47 32)
      let x := { x with pol := natBit w 59, dly := natBits w 47 32 }
      { s with time := if natBit k 63 then x.setEn (natBit w 63) else x }
  | 0x20 =>
    if !s.var.acts then s
    else
      let w := new x.ppsoReg (maskBits 63 62 + maskBits 28 0)
      { s with time := { x with pen := natBit w 63, ten := natBit w 62, pw := natBits w 28 0 } }
  | 0x30 =>
    if !s.var.acts then s
    else
      let w := new x.gptpReg (maskBits 63 40)
      { s with time := { x with prio1 := natBits w 63 56, prio2 := natBits w 55 48, lsync := natBits w 47 44, lann := natBits w 43 40 } }
  | _ => s

end Sys2Proof.Machine
end

