-- ==== Sys2Proof/Machine/Loop.lean ====
section
/-!
DEFINITION. The loop engine's commands and events (chapter 11): loop commands of the rings, pushes, the sweep of a grid instant
and its commit, and the registers of the LOOP block.
-/

namespace Sys2Proof.Machine

/-! ### Loop commands (R310, R313, R314) -/

def lresOk : Nat := 0
def lresBadState : Nat := 1
def lresBadConfig : Nat := 2
def lresCapacity : Nat := 3
def lresParent : Nat := 4
def lresNotDomain : Nat := 5
def lresBadCommand : Nat := 6

/-- A loop command: the checks common to all, then the effect on its slots (R313, R314). The effect answers a result, or none
where the command stays in progress. -/
def loopRow (d r op : Nat) (s : State) (f : List Nat → State → State × Option Nat) : Out :=
  hostRow d r 4 (some op) s fun h s =>
    let b := h.body
    let first := natBits b 311 300
    let n := natBits b 299 288 + 1
    let slots := (List.range n).map (first + ·)
    let key := ringKey d r
    if natBits b 287 0 ≠ 0 || 4096 < first + n then s.cmdDone key lresBadCommand
    else if slots.any fun i => (s.loopSlot i).st == .disabled || (s.loopSlot i).dom ≠ d then s.cmdDone key lresNotDomain
    else
      let p := f slots s
      match p.2 with
      | some res => p.1.cmdDone key res
      | none =>
        { (p.1.setCmd key (.busy op)) with loop := { p.1.loop with cmds := p.1.loop.cmds ++ [⟨key, op, slots⟩] } }

/-- LOOP_CLOSE (R289, R310, R314, R315). It completes when every named loop has taken its first sample. -/
def execLoopClose (d r : Nat) (s : State) : Out :=
  loopRow d r 0x30 s fun slots s =>
    if slots.any fun i => (s.loopSlot i).st ≠ .open_ then (s, some lresBadState)
    else if slots.any fun i => !s.loopCfgOk i slots then (s, some lresBadConfig)
    else if (List.range 2000).any fun k => 256 < occAt (s.liveLoops.map (·.2) ++ slots.map s.loopSlot) k then (s, some lresCapacity)
    else if slots.any fun i =>
        let x := s.loopSlot i
        x.spsrc = 1 && !(s.loopSlot x.parent).runs && !slots.contains x.parent then (s, some lresParent)
    else
      (slots.foldl (fun s i => s.updLoop i fun x => { x with st := .armed, tAcc := s.dt, hcnt := 0, openAt := none }) s, none)

/-- LOOP_OPEN (R310): the loops open at the commit of the first grid instant at least 5,000 ns later. -/
def execLoopOpen (d r : Nat) (s : State) : Out :=
  loopRow d r 0x31 s fun slots s =>
    if slots.any fun i => !(s.loopSlot i).live then (s, some lresBadState)
    else (slots.foldl (fun s i => s.updLoop i fun x => { x with openAt := some (x.openAt.getD s.dt) }) s, none)

/-- LOOP_RESUME (R310). -/
def execLoopResume (d r : Nat) (s : State) : Out :=
  loopRow d r 0x32 s fun slots s =>
    if slots.any fun i => (s.loopSlot i).st ≠ .tripped then (s, some lresBadState)
    else (slots.foldl (fun s i => s.updLoop i fun x => { x with st := .open_, cause := 0 }) s, some lresOk)

/-- LOOP_QCLEAR (R310). The samples of an instant before it do not see it (R291, R293). -/
def execLoopQclear (d r : Nat) (s : State) : Out :=
  loopRow d r 0x33 s fun slots s =>
    let clear := fun (x : LoopSlot) =>
      if s.loop.frozen.isEmpty then x.clearQueue else { x with arrived := x.arrived ++ [(s.dt, none)] }
    (slots.foldl (fun s i => s.updLoop i clear) s, some lresOk)

/-- The loop commands in progress that have become complete: a CLOSE once no named loop is ARMED, an OPEN once none waits (R314). -/
def State.loopProgress (s : State) : State :=
  let isDone := fun (c : LoopCmd) =>
    c.slots.all fun i => if c.lop = 0x30 then (s.loopSlot i).st ≠ .armed else (s.loopSlot i).openAt.isNone
  let fin := s.loop.cmds.filter isDone
  let s' := { s with loop := { s.loop with cmds := s.loop.cmds.filter (!isDone ·) } }
  fin.foldl (fun s c => s.cmdDone c.ring lresOk) s'

/-- TRAJECTORY_PUSH: a PUSH word reaches a slot's window (R300 to R303). -/
def execTrajectoryPush (slot : Nat) (word : Word) (s : State) : Out :=
  if 4096 ≤ slot then .fault .noSuchUnit
  else if !s.var.acts then .next s
  else .next (s.pushWord slot word.toNat)

/-! ### The sweep (R290, R293, R296) -/

/-- The number of inner samples since the outer sample (R287, R296). -/
def LoopSlot.inner (x : LoopSlot) (k : Nat) : Nat := (k % (x.period * x.div) - x.phase) / x.period

/-- Whether a slot takes a sample at grid instant `k` at DT `t` (R287, R296). -/
def LoopSlot.due (x : LoopSlot) (k t : Nat) : Bool :=
  x.live && decide (0 < x.period) && k % x.period == x.phase && (x.st ≠ .armed || decide (x.tAcc + 5000 ≤ t))

/-- The uncorrectable words that a sample of a loop has met (R447, R448): its own state's, or those of the entries it removed. -/
def LoopSlot.met (x y : LoopSlot) : Nat :=
  if x.bad then 1 else (x.queue.filter (·.bad)).length - (y.queue.filter (·.bad)).length

/-- One slot of a sweep: `fz` holds the frozen inputs. -/
def sweepOne (fz : State) (k t : Nat) (p : State × Sweep) (n : Nat) : State × Sweep :=
  let s := p.1
  let w := p.2
  let x := s.loopSlot n
  let raws := (List.range x.nm).map fun i => fz.source (x.source i) t
  let stuck := (List.range 32).any fun i => natBit x.depmask i && fz.stuckAt i t
  let pa := s.loopSlot x.parent
  let j := x.inner k
  let r := x.sample raws stuck pa.runs pa.u j t
  let s := (List.range (x.met r.1)).foldl (fun s _ => s.ueMet 0 (some x.dom) skLoop n 0) (s.updLoop n fun _ => r.1)
  let trip := r.1.st == .tripped
  (s, { w with
    n := w.n + 1
    outs := if trip then w.outs else w.outs ++ [(n, .raw (r.1.rawOf r.1.u))]
    outerSlots := if j = 0 && !trip then w.outerSlots ++ [n] else w.outerSlots
    evSlots := w.evSlots ++ List.replicate r.2 n
    trips := if trip then w.trips ++ [(n, r.1.cause)] else w.trips })

/-- The freeze of a grid instant (R290, R293, R324): every capture input latches, and what the loops can read is kept. -/
def State.freezeAt (s : State) (k t : Nat) : State :=
  let s := s.latchCaps t
  { s with loop := { s.loop with
      frozen := s.loop.frozen ++ [⟨t, k, s.pio.own, s.pio.caps, s.pio.rxf, s.pio.dins⟩] } }

/-- The last grid instant that DT has passed since it was `old`, if any, with its number (R287). -/
def State.gridPassed (s : State) (old : Nat) : Option (Nat × Nat) :=
  let base := s.loop.base.toNat
  let k := (s.dt - 1 - base) / 5000
  if base < s.dt ∧ old ≤ base + 5000 * k ∧ s.var.acts then some (k, base + 5000 * k) else none

/-- A nanosecond passes on the die: on the watchdog's clock, which stands only while the die is held or dark (R477), and what comes now is
no longer in the cycle in which a full reset began (R480). -/
def State.tickDie (s : State) : State :=
  { s with boot := { s.boot with
    justReset := false, wdNow := if s.boot.inReset || s.boot.step < 3 then s.boot.wdNow else s.boot.wdNow + 1 } }

/-- What one timebase cycle brings about (log entry 6): DT advances (R321), a PPS edge whose ns has passed takes its servo step (R355),
a grid instant that DT passes is frozen (R290), and the frames of the receive rings whose T_END has passed are written (R340). -/
def State.cycle (s : State) : State :=
  let t := { s with time := s.time.tick.settle }
  let t := match t.gridPassed s.dt with
    | some p => t.freezeAt p.1 p.2
    | none => t
  t.ringsFlush

/-- The state in which the samples of an instant read their inputs. -/
def State.seen (s : State) (f : Frozen) : State :=
  { s with pio := { s.pio with own := f.own, caps := f.caps, rxf := f.rxf, dins := f.dins } }

/-- The samples of a frozen instant (R290, R296), in increasing slot number. -/
def State.sweepOf (s : State) (f : Frozen) : State :=
  let due := (s.loop.slots.filter fun p => p.2.due f.k f.t).map (·.1)
  let p := due.foldl (sweepOne (s.seen f) f.k f.t) (s, ⟨f.t, f.k, 0, [], [], [], []⟩)
  { p.1 with loop := { p.1.loop with sweep := some p.2 } }

/-- GRID_INSTANT: the samples of the oldest frozen grid instant are computed, once the commit of the instant before has come (R290,
R293); then the pushes that it could not see are applied, up to the next frozen instant. -/
def execGridInstant (s : State) : Out :=
  match s.loop.frozen with
  | [] => .next s
  | f :: rest =>
    if s.loop.sweep.isSome then .next s
    else
      let t := s.sweepOf f
      let t := { t with loop := { t.loop with frozen := rest } }
      .next ((t.arrivals (rest.head?.map (·.t))).loopProgress)

/-- The DT of a sweep's commit: 1,000 ns and 19.531 25 ns for each sample after the instant, rounded up to a whole ns (R290). -/
def Sweep.commitAt (w : Sweep) : Nat := w.t + 1000 + (w.n * 1953125 + 99999) / 100000

/-- AUTH takes the value that waits for a commit, with its device event (R380, R457). -/
def State.authTake (s : State) (on : Bool) : State :=
  if s.loop.auth = on then s else (s.setAuth on).postDevice 7 (bit on) 0 0

/-- The changes of authority that wait for a commit (R457). -/
def State.authAtCommit (s : State) : State :=
  match s.twin.authNext with
  | some on => { s.authTake on with twin := { s.twin with authNext := none } }
  | none => s

/-- LOOP_COMMIT: outputs, map frames, openings, tallies and events of the sweep (R290, R295, R306, R310, R343). -/
def execLoopCommit (s : State) : Out :=
  match s.loop.sweep with
  | none => .next s
  | some w =>
    if s.dt < w.commitAt then .next s
    else
      let s := { s with loop := { s.loop with sweep := none } }
      let s := s.authAtCommit
      let opens := (s.loop.slots.filter fun p => p.2.live && p.2.openAt.any (fun a => decide (a + 5000 ≤ w.t))).map (·.1)
      let safes := (s.loop.slots.filter fun p => p.2.safeDue).map (·.1)
      -- outputs
      let s := safes.foldl (fun s n => (s.loopSafe n).updLoop n fun x => { x with safeDue := false }) s
      let s := w.outs.foldl (fun s p => if opens.contains p.1 then s else s.loopCommit p.1 p.2) s
      let s := w.trips.foldl (fun s p => s.loopSafe p.1) s
      let s := opens.foldl (fun s n => (s.loopSafe n).updLoop n fun x => { x with st := .open_, openAt := none }) s
      let s := s.mapsDue w.k s.dt
      -- tallies and events
      let s := w.outerSlots.foldl (fun s n => (s.loopOuter n).snapshot n) s
      let s := w.evSlots.foldl (fun s n => s.loopEvent n) s
      let s := w.trips.foldl (fun s p =>
        let x := s.loopSlot p.1
        s.post x.dom (natBits (s.domevt x.dom) 57 56) 4 p.2 0 p.1) s
      .next s.loopProgress

/-! ### Registers of the LOOP block (R311, R312, R317, R318) -/

/-- The configuration register of a slot at an offset (R311). -/
def LoopSlot.cfgReg (x : LoopSlot) : Nat → Word
  | 0x00 => x.cfg
  | 0x08 => x.src
  | 0x10 => x.msc0
  | 0x18 => x.msc1
  | 0x20 => x.msc2
  | 0x28 => x.g0
  | 0x30 => x.g1
  | 0x38 => x.lim
  | 0x40 => x.imin
  | 0x48 => x.imax
  | 0x50 => x.i0
  | 0x58 => x.osc
  | 0x60 => x.heel
  | 0x68 => x.qcfg
  | _ => x.tly

def LoopSlot.setCfgReg (x : LoopSlot) (off : Nat) (w : Word) : LoopSlot :=
  match off with
  | 0x00 => { x with cfg := w }
  | 0x08 => { x with src := w }
  | 0x10 => { x with msc0 := w }
  | 0x18 => { x with msc1 := w }
  | 0x20 => { x with msc2 := w }
  | 0x28 => { x with g0 := w }
  | 0x30 => { x with g1 := w }
  | 0x38 => { x with lim := w }
  | 0x40 => { x with imin := w }
  | 0x48 => { x with imax := w }
  | 0x50 => { x with i0 := w }
  | 0x58 => { x with osc := w }
  | 0x60 => { x with heel := w }
  | 0x68 => { x with qcfg := w }
  | _ => { x with tly := w }

/-- Writable bits of a configuration register (R317). -/
def loopRw : Nat → Nat
  | 0x08 => maskBits 63 4
  | 0x70 => maskBits 63 26
  | _ => maskBits 63 0

/-- A read of a LOOP register at a block offset. -/
def State.loopRead (s : State) (off : Nat) : Nat :=
  if off < 0x100000 then
    let x := s.loopSlot (off / 0x100)
    let r := off % 0x100
    if r ≤ 0x70 then (x.cfgReg r).toNat
    else if r = 0x78 then
      fields [(61, x.st.num), (57, x.cause), (50, x.queue.length), (49, bit x.late), (48, bit x.exh), (47, bit x.ihold),
        (46, bit x.usatBit), (45, bit x.inhib), (32, (x.cur.map (·.p)).getD 0), (0, x.hcnt)]
    else if r = 0x80 then fields [(48, x.lateCnt), (32, x.skipCnt), (16, x.pushRef), (0, x.wign)]
    else if r = 0x88 then fields [(32, x.u), (0, x.e)]
    else if r = 0x90 then wrapN 64 x.integ
    else 0
  else if off = 0x100000 then s.loop.base.toNat
  else if off = 0x100008 then fields [(63, bit s.loop.auth), (32, s.loopPeak), (0, s.liveLoops.length)]
  else 0

/-- A write of LOOP_BASE (R17, R316, R355): ignored with a record while loops are active; otherwise the grid and the PWM periods
realign at once. -/
def State.loopBaseWrite (s : State) (k v : Nat) : State :=
  if s.liveLoops ≠ [] then s.record 4 0 none skLoop 0 0xB00000 0
  else if s.sec.lock then s
  else
    let cut := fun (_ : Nat) (x : PwmSt) => ({ x with start := none, rise := none, fall := none, active := false } : PwmSt)
    let s := s.arrivals none
    { s with
      loop := { s.loop with base := regMerge s.loop.base k (maskBits 63 0) v, frozen := [] }
      pio := { s.pio with pwms := Tab.mapAll {} s.pio.pwms cut } }

/-- A write of a configuration register of a slot (R310 to R312). -/
def State.loopCfgWrite (s : State) (holder : Bool) (n r k v : Nat) : State :=
  let x := s.loopSlot n
  if x.live then
    (s.updLoop n fun x => { x with wign := satAdd 16 x.wign 1 }).record 4 0 (some x.dom) skLoop n (0xA00000 + 0x100 * n + r) 0
  else
    let rw := if r = 0 && !holder then maskBits 58 0 else loopRw r
    let y := x.setCfgReg r (regMerge (x.cfgReg r) k rw v)
    if r ≠ 0 then s.updLoop n fun _ => y
    else if y.dvalid && x.st = .disabled then s.updLoop n fun _ => { y with st := .open_, safeDue := true }
    else if !y.dvalid && x.st ≠ .disabled then
      s.updLoop n fun _ => { y with st := .disabled, queue := [], arrived := [], safeDue := false }
    else s.updLoop n fun _ => y

/-- A write of LOOP_CTL.CLR (R318). -/
def State.loopClr (s : State) : State :=
  let f := fun (_ : Nat) (x : LoopSlot) => ({ x with lateCnt := 0, skipCnt := 0, pushRef := 0, wign := 0 } : LoopSlot)
  { s with loop := { s.loop with slots := Tab.mapAll {} s.loop.slots f } }

/-- A write of a LOOP register at a block offset. -/
def State.loopWrite (s : State) (holder : Bool) (off k v : Nat) : State :=
  if off < 0x100000 then
    if off % 0x100 ≤ 0x70 then s.loopCfgWrite holder (off / 0x100) (off % 0x100) k v else s
  else if off = 0x100000 then s.loopBaseWrite k v
  else if off = 0x100010 && writes1 k v 0 then s.loopClr
  else s

end Sys2Proof.Machine
end

