-- ==== Sys2Proof/Machine/SecOps.lean ====
section
/-!
DEFINITION. The fuses as sensed, the life-cycle state, the signer slots and signature blocks (R391, R398 to R400, R420).
-/

namespace Sys2Proof.Machine

/-! ### Life-cycle states (R419, R420, R424) -/

def lcBlank : Nat := 0
def lcMaker : Nat := 1
def lcOwned : Nat := 2
def lcField : Nat := 3
def lcReturn : Nat := 4
def lcScrapped : Nat := 5

/-- The state that three copies of the five transition bits spell: majority, then the highest bit set (R420). -/
def lcStateOf (a b c : Nat) : Nat :=
  let m := (a &&& b) ||| (a &&& c) ||| (b &&& c)
  ((List.range 5).filter (natBit m)).foldl (fun _ i => i + 1) 0

/-- The state that the fuses hold now, which takes effect at the next full reset. -/
def Fuses.lcNow (f : Fuses) : Nat := lcStateOf f.lc0 f.lc1 f.lc2

/-- The number of 1 bits of a `w`-bit value. -/
def ones (w x : Nat) : Nat := ((List.range w).filter (natBit x)).length

/-- The fuses as the security block senses them at the start of a full reset (R391). -/
def Fuses.sense (f : Fuses) : Sensed :=
  { lc := f.lcNow, dsn := f.dsn, mrev := f.mrev, oset := f.oset, orev := f.orev, svn := ones 64 f.svn, safe := f.safe
    pfix := f.pfix, done := true }

/-- The life-cycle state in force. -/
def State.lc (s : State) : Nat := s.sec.sensed.lc

/-! ### Signer slots (R399) -/

def isMakerSlot (k : Nat) : Bool := decide (k < 4)
def isProdSlot (k : Nat) : Bool := decide (0x10 ≤ k) && decide (k ≤ 0x15)
def isDevSlot (k : Nat) : Bool := k == 0x16 || k == 0x17

/-- The digest of a slot that is programmed and not revoked. -/
def State.slotDigest (s : State) (k : Nat) : Option (List Byte) :=
  let x := s.sec.sensed
  if isMakerSlot k then (if natBit x.mrev k then none else some (Config.makerDigest k))
  else if isProdSlot k || isDevSlot k then
    (if natBit x.oset (k - 16) && !natBit x.orev (k - 16) then some (Tab.get [] s.fuses.okey (k - 16)) else none)
  else none

/-- Whether a slot may sign job images in a state (R399). -/
def jobSlotOk (lc k : Nat) : Bool :=
  if lc = lcBlank || lc = lcMaker || lc = lcReturn then isMakerSlot k
  else if lc = lcOwned then isProdSlot k || isDevSlot k
  else if lc = lcField then isProdSlot k
  else false

/-! ### Signature blocks (R398) -/

/-- `n` bytes of a list from offset `o`; bytes beyond its end are 0. -/
def cut (l : List Byte) (o n : Nat) : List Byte := (List.range n).map fun i => l.getD (o + i) 0

/-- A little-endian field of a byte list. -/
def fieldAt (l : List Byte) (o n : Nat) : Nat := leNat (cut l o n)

/-- SIGKEY of a signature block. -/
def sigSlot (blk : List Byte) : Nat := fieldAt blk 4 1

/-- The layout of a signature block. -/
def sigLayout (blk : List Byte) : Bool :=
  fieldAt blk 0 4 == 0x47534E53 && fieldAt blk 5 3 == 0 && fieldAt blk 65 7 == 0 && fieldAt blk 186 6 == 0

/-- Whether a block's public key matches a digest and its signature verifies over a message. -/
def sigVerifies (ctx : String) (digest msg blk : List Byte) : Bool :=
  let pub := cut blk 8 57
  Config.shake256 32 pub == digest && Config.ed448phVerify pub (ascii ctx) msg (cut blk 72 114)

/-- Whether a block is laid out right and verifies against its slot. -/
def State.sigOk (s : State) (ctx : String) (msg blk : List Byte) : Bool :=
  sigLayout blk && match s.slotDigest (sigSlot blk) with
    | some dg => sigVerifies ctx dg msg blk
    | none => false

end Sys2Proof.Machine
end

