-- ==== Sys2Proof/Machine/ResetOps.lean ====
section
/-!
DEFINITION. What a thermal trip and a full reset do at once (R438, R473), and the state of the die after a full reset (R474).
-/

namespace Sys2Proof.Machine

/-- Authority is OFF at once: AUTH_OUT is inactive and nothing waits for a commit (R457). -/
def State.authOff (s : State) : State :=
  { s.authTake false with twin := { s.twin with
      ast := .off, authNext := none, handing := false, claimAt := none, handoverAt := none, fallAt := none } }

/-- The hardware actions of R438 and of R473's first 7 µs: outputs safe, transmitters stopped with a frame in transmission cut, Knago
lanes silent. -/
def State.goSafe (s : State) : State :=
  let s := s.authOff
  { s with
    pio := { s.pio with txing := [], txOff := true }
    twin := { s.twin with silent := true, out := [], snapQ := [] } }

/-- The newest 64 error records, oldest first (R473). -/
def State.newestRecords (s : State) : List ErrRec :=
  let n := s.ras.next
  (List.range (min n 64)).filterMap fun i => Tab.get none s.ras.log ((n - min n 64 + i) % 1024)

/-- Whether the mesh island can still send the log to the TMC (R473). -/
def State.meshAlive (s : State) : Bool := !s.ras.asks.contains (0x0B, 2)

/-- Whether the watchdog expires now. It counts by a clock of its own, which runs before the timebase does (R477, log entry 163). -/
def State.watchdogDue (s : State) : Bool :=
  decide (4 ≤ s.boot.step) && (decide (s.boot.wdRestart + 250000000 ≤ s.boot.wdNow) || decide (3 ≤ s.boot.wdFails)
    || decide (3 ≤ s.boot.wdFailsK) || decide (3 ≤ s.boot.wdFailsL)
    || (!s.ras.asks.isEmpty && decide (s.ras.askAt + 50000000 ≤ s.boot.wdNow)))

/-- What host memory holds survives every reset of the tray. -/
def FnSt.hostOnly (f : FnSt) : FnSt := { mem := f.mem }

/-- The fuses at a full reset: programming in progress leaves the old values or the new ones (R420). -/
def State.fusesAtReset (s : State) : State :=
  match s.sec.fuseJob with
  | none => s
  | some j =>
    let (v, s) := s.draw
    if v % 2 = 1 then { s with fuses := j.f } else s

/-- The die with every unit as R474 lays down; the fuses, what was last sensed of them, the bytes in the external store's channels, which are
not zeroed (R468), host memory and the TMC stay. -/
def State.dieReset (s : State) : State :=
  { ({} : State) with
    pending := s.pending
    freeCtr := s.freeCtr
    id := s.id
    fuses := s.fuses
    hif := { a := s.hif.a.hostOnly, b := s.hif.b.hostOnly }
    sec := { sensed := s.sec.sensed, dbgp := s.sec.dbgp }
    knl := { store := s.knl.store }
    boot := s.boot }

/-- CAUSE values (R479). -/
def causePowerOn : Nat := 0
def causePin : Nat := 1
def causeFnA : Nat := 2
def causeTmc : Nat := 4
def causeWatchdog : Nat := 5

/-- The order in which CAUSE is taken among sources of one cycle: RESET_N, TMC, watchdog, function A, function B (R480). -/
def causeRank (cause : Nat) : Nat := [6, 0, 3, 4, 1, 2].getD cause 6

/-- TMCRSN as it is latched: 0 unless CAUSE is 4 (R479). -/
def rsnOf (cause tmcrsn : Nat) : Nat := if cause = causeTmc then tmcrsn else 0

/-- Another source starts the reset that has just begun, in the same cycle: the reset is one, and CAUSE is that of the first in the order
of R480 (log entry 241). -/
def Boot.sameCycle (b : Boot) (cause tmcrsn : Nat) : Boot :=
  if b.justReset && decide (causeRank cause < causeRank b.cause) then { b with cause := cause, tmcrsn := rsnOf cause tmcrsn } else b

/-- Whether bring-up is over: its step 9 has ended, and its step 10 where there is a search (R467, R471). -/
def State.broughtUp (s : State) : Bool := s.boot.step == 10 || (s.boot.step == 9 && s.twin.link != .search)

/-- The bring-ups in a row that ended FATAL, counted when a full reset starts: by firmware on the TMC, or by the watchdog in its place
(R470, R477, log entry 239). -/
def State.fatalRunsAt (s : State) (cause tmcrsn : Nat) : Nat :=
  let fatal := (cause == causeTmc && tmcrsn == 2) || (cause == causeWatchdog && s.ras.asks.any (·.1 == 0x0B))
  if fatal && !s.broughtUp then s.boot.fatalRuns + 1 else 0

/-- A further reason for which firmware on the TMC holds a full reset. -/
def Boot.hold (b : Boot) (h : Nat) : Boot := { b with holds := if b.holds.contains h then b.holds else b.holds ++ [h] }

/-- The TCR that the next bring-up takes (R466). -/
def Boot.takeTcr (b : Boot) : Boot := { b with tcr := b.tcrBytes }

/-- A full reset starts (R473, R474, R480): CAUSE is latched, the outputs are made safe, the log goes to the TMC, and the die is held:
after three bring-ups in a row that ended FATAL until the next PG (R470). During the hold of an earlier one, and before the die is released,
there is no new reset. -/
def State.fullReset (s : State) (cause tmcrsn : Nat) : State :=
  if s.boot.inReset then { s with boot := s.boot.sameCycle cause tmcrsn }
  else if s.boot.step < 3 then s
  else
    let keep := s.meshAlive
    let recs := s.newestRecords
    let runs := s.fatalRunsAt cause tmcrsn
    let s := s.fusesAtReset
    let b : Boot := { s.boot with
      step := 3, stands := 0, cause := cause, tmcrsn := rsnOf cause tmcrsn
      store := false, ptp := false, twinres := 0, tStore := 0, inReset := true, justReset := true, wdDue := s.watchdogDue, coolOk := false
      holds := if 3 ≤ runs then [3] else [], tmcEvents := if 3 ≤ runs then s.boot.tmcEvents ++ [2] else s.boot.tmcEvents
      fatalRuns := runs, wdNow := 0, wdRestart := 0, wdFails := 0, wdFailsK := 0, wdFailsL := 0, debugOut := [] }
    let b := if keep then { b with
        tmcLog := b.tmcLog ++ recs
        tmcStats := b.tmcStats ++ [({ s with boot := { s.boot with cause := b.cause, tmcrsn := b.tmcrsn } } : State).bootstatReg] } else b
    let s := s.dieReset
    { s with boot := b, pio := { s.pio with txOff := true }, twin := { s.twin with silent := true }, pwr := { s.pwr with der := 60 } }

/-- The rails are off: the die has lost everything but its fuses, and the external store what it held (R463, R464). -/
def State.railsOff (s : State) : State :=
  let s := s.fusesAtReset
  let d := s.dieReset
  { d with
    sec := { dbgp := s.sec.dbgp }
    knl := {}
    boot := { s.boot with
      rails := 0, step := 0, stands := 0, store := false, ptp := false, twinres := 0, tStore := 0, inReset := false, justReset := false
      holds := [], coolOk := false, wdDue := false, wdNow := 0, wdRestart := 0, wdFails := 0, wdFailsK := 0, wdFailsL := 0, debugOut := [] } }

end Sys2Proof.Machine
end

