-- ==== Sys2Proof/Machine/Power.lean ====
section
/-!
DEFINITION. Cooling, junction temperature and the PWR registers (R429, R436 to R438, R460).
-/

namespace Sys2Proof.Machine

/-! ### Coolant reports (R436) -/

/-- Whether a report calls for DER 60. -/
def coolLow (tin : Int) (flow : Nat) : Bool := decide (65 < tin) || decide (flow < 25)

/-- DER of a report: the inlet in °C, which may lie below 0 (R483), the flow in 0.1 L/min (R436). -/
def derOf (tin : Int) (flow : Nat) : Nat :=
  if coolLow tin flow then 60
  else if tin ≤ 60 then 100
  else 100 - 4 * (tin - 60).toNat

/-- TMC_REPORT (R436): the report is shown, DER is set, a POWER record marks the entry into DER 60, and Leash recomputes (R429). -/
def execTmcReport (tin tout : Int) (flow pto : Nat) (s : State) : Out :=
  if s.boot.inReset || s.boot.step < 4 then .next s
  else
    let low := coolLow tin flow
    let s := if low && !s.pwr.derLow then s.record 7 0 none skLeash 0 0 0 else s
    let p : Pwr := { s.pwr with
      tin := wrapN 8 tin, tout := wrapN 8 tout, flow := flow % 256, pto := pto % 256, der := derOf tin flow, derLow := low
      lastReport := s.dt }
    .next ({ s with pwr := p }).leashRecompute

/-- TMC_REPORT_TIMEOUT: 50 ms without a report (R436). -/
def execTmcReportTimeout (s : State) : Out :=
  if s.dt < s.pwr.lastReport + 50000000 then .next s
  else .next ({ s with pwr := { s.pwr with der := 60 } }).leashRecompute

/-- TMCCAP_WRITE: firmware on the TMC sets its limit, 60 to 300 W (R460, R466). -/
def execTmccapWrite (w : Nat) (s : State) : Out :=
  if w < 60 || 300 < w || s.boot.inReset || s.boot.step < 4 then .next s
  else .next ({ s with pwr := { s.pwr with tmccap := w } }).leashRecompute

/-! ### Junction temperature (R437, R438) -/

/-- The highest of the readings. -/
def highest (l : List Int) : Option Int :=
  l.foldl (fun a x => match a with
    | none => some x
    | some y => some (max x y)) none

/-- JUNCTION_SENSOR_READ: TJ, HOT at 105 °C, and since when TJ has been at or below 100 °C (R437). Under a full reset that a thermal
trip required, a reading at or below 95 °C ends the TMC's hold (R438). -/
def execJunctionSensorRead (readings : List Int) (s : State) : Out :=
  match highest readings with
  | none => .next s
  | some tj =>
    if s.boot.inReset then
      .next (if tj ≤ 95 then { s with boot := { s.boot with holds := s.boot.holds.filter (· ≠ 1) } } else s)
    else
      let cool := if tj ≤ 100 then some (s.pwr.coolSince.getD s.dt) else none
      let s := { s with pwr := { s.pwr with tj := tj, coolSince := cool } }
      if 105 ≤ tj && !s.pwr.hot then
        .next (({ s with pwr := { s.pwr with hot := true } }).record 8 0 none skLeash 0 0 0).leashRecompute
      else .next s

/-- HOT_CLEAR: TJ has been at or below 100 °C for 10 ms (R437). -/
def execHotClear (s : State) : Out :=
  match s.pwr.coolSince with
  | none => .next s
  | some t =>
    if !s.pwr.hot || s.dt < t + 10000000 then .next s
    else .next ({ s with pwr := { s.pwr with hot := false } }).leashRecompute

/-- THERMAL_TRIP: the comparator makes the outputs safe, silences transmitters and lanes and signals the TMC (R438). -/
def execThermalTrip (s : State) : Out :=
  if s.pwr.tripped || s.boot.inReset || s.boot.step < 3 then .next s
  else
    let s := { s with pwr := { s.pwr with tripped := true } }
    .next ((s.goSafe.record 8 1 none skLeash 0 0 0).askTmc 8 1)

/-! ### Registers (R460) -/

/-- A read of the PWR block. PWR_STAT.RAIL keeps its reset value until Leash starts with the timebase (R460, R467, log entry 165). -/
def State.pwrRead (s : State) (off : Nat) : Nat :=
  let p := s.pwr
  if off = 0 then fields [(61, p.fmax)]
  else if off = 8 then fields [(55, p.budget), (46, p.tray), (37, p.tmccap)]
  else if off = 0x10 then fields [(48, s.sec.sensed.pfix)]
  else if off = 0x18 then
    fields [(54, p.ctot), (44, s.gsum), (34, s.fsumAt s.mv), (31, if s.boot.step < 6 then 0 else p.rail),
      (30, bit p.lowv), (29, bit p.floordef), (28, bit p.hot)]
  else if off = 0x20 then
    fields [(56, p.tin), (48, p.tout), (40, p.flow), (32, wrapN 8 p.tj), (24, p.der), (16, p.pto)]
  else if off = 0x28 then fields [(32, p.stepdn), (0, p.waits)]
  else 0

/-- A write of PWR_CFG: FMAX of 7 is ignored. -/
def Pwr.cfgWrite (p : Pwr) (k v : Nat) : Pwr :=
  let f := natBits (regMerge (BitVec.ofNat 64 (p.fmax * 2 ^ 61)) k (maskBits 63 61) v).toNat 63 61
  if f = 7 then p else { p with fmax := f }

/-- A write of PWR_LIMIT: a TRAY outside 60 to 360 W is not taken (log entry 142); BUDGET counts as at most 300 W where it is used (R429). -/
def Pwr.limitWrite (p : Pwr) (k v : Nat) : Pwr :=
  let w := (regMerge (BitVec.ofNat 64 (fields [(55, p.budget), (46, p.tray)])) k (maskBits 63 46) v).toNat
  let tray := natBits w 54 46
  { p with budget := natBits w 63 55, tray := if 60 ≤ tray && tray ≤ 360 then tray else p.tray }

/-- A write to the PWR block. -/
def State.pwrWrite (s : State) (off k v : Nat) : State :=
  if off = 0 then ({ s with pwr := s.pwr.cfgWrite k v }).leashRecompute
  else if off = 8 then ({ s with pwr := s.pwr.limitWrite k v }).leashRecompute
  else s

end Sys2Proof.Machine
end

