-- ==== Sys2Proof/Machine/Twin.lean ====
section
/-!
DEFINITION. The Knago link, snapshots, digest comparison, authority and the TWIN registers (R452 to R459, R461).
-/

namespace Sys2Proof.Machine

/-! ### TWIN_CFG (R459) -/

def Twin.mode (x : Twin) : Nat := natBits x.cfg.toNat 63 62
def Twin.side (x : Twin) : Bool := natBit x.cfg.toNat 61
def Twin.takeover (x : Twin) : Bool := natBit x.cfg.toNat 60
def Twin.pairid (x : Twin) : Nat := natBits x.cfg.toNat 31 0

def modeSolo : Nat := 1
def modePair : Nat := 2

/-- A TWIN record of class 0x09. -/
def State.twinRecord (s : State) (code : Nat) : State := s.record 9 code none skKnago 0 0 0

/-! ### The link (R453) -/

/-- The link takes a state; hand-overs and claims end with the pairing. -/
def State.linkTo (s : State) (l : Link) : State :=
  { s with twin := { s.twin with link := l, linkAt := s.dt, handing := s.twin.handing && l == .paired } }

/-- The result of step 10 of bring-up, the first time (R467, R471, R479): 1 PAIRED, 2 LOST, 3 MISMATCH. -/
def State.twinResult (s : State) (r : Nat) : State :=
  if s.boot.step = 9 then { s with boot := { s.boot with step := 10, twinres := r } } else s

/-- The link takes SEARCH: the lanes train and HELLO is sent (R453). -/
def State.search (s : State) : State :=
  let h := [s.sec.sensed.dsn, bit s.twin.side, s.twin.pairid, fields [(0, 1), (1, s.var.units), (8, s.var.stands), (16, s.var.slices),
    (24, s.var.channels)]]
  (s.linkTo .search).kmsg 0 h

/-- Any frame of the partner keeps the link PAIRED (R453). -/
def State.frameSeen (s : State) : State := { s with twin := { s.twin with lastFrame := s.dt } }

/-- KNAGO_HELLO_RECEIVED (R453). -/
def execKnagoHelloReceived (dsn : Word) (side : Bool) (pairid : BitVec 32) (s : State) : Out :=
  if s.twin.link = .paired then .next s.frameSeen
  else if s.twin.link ≠ .search || s.twin.silent then .next s
  else if pairid.toNat = s.twin.pairid ∧ side ≠ s.twin.side then
    let s := (s.linkTo .paired).twinResult 1
    .next { s with twin := { s.twin with pdsn := dsn, lastFrame := s.dt } }
  else .next (((s.linkTo .mismatch).twinRecord 0).twinResult 3)

/-- A standby tray takes authority (R457, R458). -/
def State.takeAuthority (s : State) : State :=
  { s.authTake true with twin := { s.twin with ast := .active, fallAt := none, handoverAt := none, lostAt := none } }

/-- Whether a HANDOVER or a loss of signal lies within the window of a fall at `t` (R458), which is half-open as every window is (R20, log
entry 218). -/
def Twin.windowMet (x : Twin) (t : Nat) : Bool :=
  x.handoverAt.any (fun h => decide (t ≤ h + 100000) && decide (h < t + 20000))
  || x.lostAt.any (fun h => decide (t ≤ h + 100000) && decide (h < t + 20000))

/-- The takeover condition is tested after each of its parts (R458). -/
def State.tryTakeover (s : State) : State :=
  match s.twin.fallAt with
  | none => s
  | some t =>
    if s.twin.ast ≠ .standby || !s.twin.windowMet t then s
    else if s.twin.takeover then s.takeAuthority
    else { s with twin := { s.twin with fallAt := none } }

/-- KNAGO_LOSS_OF_SIGNAL (R452, R453, R458). -/
def execKnagoLossOfSignal (s : State) : Out :=
  if s.twin.link ≠ .paired then .next s
  else
    let s := s.linkTo .lost
    .next ({ s with twin := { s.twin with lostAt := some s.dt } }).tryTakeover

/-- KNAGO_FRAME_TIMEOUT: 50 µs without a frame (R453). -/
def execKnagoFrameTimeout (s : State) : Out :=
  if s.twin.link ≠ .paired || s.dt < s.twin.lastFrame + 50000 then .next s else .next (s.linkTo .lost)

/-- KNAGO_SEARCH_TIMEOUT: 1 s without pairing (R453). -/
def execKnagoSearchTimeout (s : State) : Out :=
  if s.twin.link ≠ .search || s.dt < s.twin.linkAt + 1000000000 then .next s else .next ((s.linkTo .lost).twinResult 2)

/-- KNAGO_SEARCH_RETRY: every 100 ms (R453). -/
def execKnagoSearchRetry (s : State) : Out :=
  if (s.twin.link ≠ .lost && s.twin.link ≠ .mismatch) || s.dt < s.twin.linkAt + 100000000 then .next s else .next s.search

/-- The lanes retrain after 8 failed sends of one frame, with a LINK record; a third retrain in a row that has not got it through is a
failed link, which is LOST (R442, R452, log entry 227). -/
def State.knagoRetrain (s : State) : State :=
  let n := s.twin.retrains + 1
  let s := { s with twin := { s.twin with frameErrs := 0, retrains := if n < 4 then n else 0 } }
  if n < 4 then s.record 6 0 none skKnago 0 0 0 else s.linkTo .lost

/-- KNAGO_FRAME_ERROR: the frame last sent is resent, by the scheme of R442 (R452). -/
def execKnagoFrameError (s : State) : Out :=
  if s.twin.link ≠ .paired then .next s
  else
    let x := s.twin
    let same := x.frameOf == x.out.length
    let n := (if same then x.frameErrs else 0) + 1
    let s := { s with twin := { x with
      resend := satAdd 16 x.resend 1, frameErrs := n, frameOf := x.out.length, retrains := if same then x.retrains else 0 } }
    .next (if n < 8 then s else s.knagoRetrain)

/-! ### Heartbeats and snapshots (R452, R454) -/

def Auth.num : Auth → Nat
  | .off => 0
  | .standby => 1
  | .active => 2

/-- The numbers of a snapshot message. -/
def snapVals (x : Snap) : List Nat := [x.slot, x.state, x.i, x.d, x.yprev, wrapN 64 x.usat, x.m, x.hcnt, x.curp]

/-- KNAGO_HEARTBEAT_SEND: every 10 µs a paired tray sends its state, and at most 40 snapshots pass (R452, R454). -/
def execKnagoHeartbeatSend (s : State) : Out :=
  if s.twin.link ≠ .paired || s.dt < s.twin.lastBeat + 10000 then .next s
  else
    let s := s.kmsg 1 [s.twin.ast.num]
    let s := (s.twin.snapQ.take 40).foldl (fun s q => s.kmsg 2 (snapVals q)) s
    .next { s with twin := { s.twin with lastBeat := s.dt, snapQ := s.twin.snapQ.drop 40 } }

/-- KNAGO_HEARTBEAT_RECEIVED (R452, R459 PAST). -/
def execKnagoHeartbeatReceived (ast : Nat) (s : State) : Out :=
  if s.twin.link ≠ .paired then .next s
  else .next { s.frameSeen with twin := { s.frameSeen.twin with past := min ast 2 } }

/-- A loop with the values of a snapshot (R454). -/
def LoopSlot.adopt (x : LoopSlot) (q : Snap) : LoopSlot :=
  { x with
    st := if q.state = 4 then .closed else x.st
    integ := sgn 64 q.i
    d := q.d
    yprev := q.yprev
    usat := q.usat
    m := q.m
    hcnt := q.hcnt
    cur := match x.cur with
      | some t => some { t with p := q.curp }
      | none => if q.curp = 0 then none else some ⟨0, 0, 0, 0, 0, 0, q.curp, false⟩ }

/-- SNAPSHOT_RECEIVED (R454, R461). -/
def execSnapshotReceived (q : Snap) (s : State) : Out :=
  if s.twin.link ≠ .paired then .next s
  else
    let s := { s with twin := { s.twin with lastFrame := s.dt } }
    let x := s.loopSlot q.slot
    if s.twin.ast ≠ .standby || !x.runs || 4096 ≤ q.slot then .next s
    else
      let y := x.adopt q
      let s := s.updLoop q.slot fun _ => y
      .next (if y = x then s else { s with twin := { s.twin with snapAdopt := satAdd 16 s.twin.snapAdopt 1 } })

/-! ### Authority (R457, R458) -/

/-- CLAIM: granted at once in MODE SOLO, asked of the partner in MODE PAIR; a claim that nothing grants ends after 100 µs (R457). -/
def State.twinClaim (s : State) : State :=
  let x := s.twin
  if x.ast ≠ .off || s.pwr.tripped then s
  else if x.mode = modeSolo ∧ !x.pin then { s with twin := { x with ast := .active, authNext := some true, claimAt := none } }
  else
    let s := { s with twin := { x with claimAt := some s.dt } }
    if x.mode = modePair ∧ x.link = .paired ∧ !x.pin then s.kmsg 4 [bit x.side] else s

/-- RELEASE (R457). -/
def State.twinRelease (s : State) : State :=
  if s.twin.ast = .off then s
  else { s with twin := { s.twin with
    ast := .off, authNext := if s.loop.auth || s.twin.authNext = some true then some false else none
    handing := false, fallAt := none } }

/-- STANDBY (R457). -/
def State.twinStandby (s : State) : State :=
  if s.twin.ast = .off ∧ s.twin.mode = modePair ∧ s.twin.link = .paired then
    { s with twin := { s.twin with ast := .standby, claimAt := none } }
  else s

/-- HANDOVER: the message is sent. The tray stays ACTIVE until the acknowledgement (R457, R461, log entry 228). -/
def State.twinHandover (s : State) : State :=
  if s.twin.ast = .active ∧ s.twin.link = .paired ∧ s.twin.past = 1 then
    ({ s with twin := { s.twin with handing := true } }).kmsg 6 []
  else s

/-- CLAIM_MESSAGE_RECEIVED: the partner's claim is answered with GRANT or not (R457). -/
def execClaimMessageReceived (side : Bool) (s : State) : Out :=
  let x := s.twin
  if x.link ≠ .paired then .next s
  else
    let s := { s with twin := { x with lastFrame := s.dt } }
    if (x.ast = .off ∨ x.ast = .standby) ∧ (x.claimAt.isNone ∨ (x.side ∧ !side)) then .next (s.kmsg 5 []) else .next s

/-- GRANT_RECEIVED: a claim pending for less than 100 µs makes the tray ACTIVE (R457). -/
def execGrantReceived (s : State) : Out :=
  if s.twin.link ≠ .paired then .next s
  else
    let s := s.frameSeen
    let x := s.twin
    match x.claimAt with
    | none => .next s
    | some t =>
      if x.ast = .off ∧ x.mode = modePair ∧ !x.pin ∧ s.dt < t + 100000 then
        .next { s with twin := { x with ast := .active, authNext := some true, claimAt := none } }
      else .next s

/-- CLAIM_TIMEOUT (R457). -/
def execClaimTimeout (s : State) : Out :=
  match s.twin.claimAt with
  | none => .next s
  | some t =>
    if s.dt < t + 100000 then .next s
    else .next (({ s with twin := { s.twin with claimAt := none } }).twinRecord 1)

/-- HANDOVER_RECEIVED: acknowledged by a standby tray, and part of the takeover condition (R457, R458). -/
def execHandoverReceived (s : State) : Out :=
  if s.twin.link ≠ .paired then .next s
  else
    let s := { s with twin := { s.twin with lastFrame := s.dt } }
    if s.twin.ast ≠ .standby then .next s
    else .next (({ s with twin := { s.twin with handoverAt := some s.dt } }).kmsg 7 []).tryTakeover

/-- HANDOVER_ACK_RECEIVED: the tray is STANDBY and AUTH falls at the next commit (R457, log entry 228). -/
def execHandoverAckReceived (s : State) : Out :=
  if s.twin.link ≠ .paired then .next s
  else
    let s := s.frameSeen
    if !s.twin.handing || s.twin.ast ≠ .active then .next s
    else .next { s with twin := { s.twin with handing := false, ast := .standby, authNext := some false } }

/-- TWIN_AUTH_IN_FALL: the filtered pin falls (R457, R458). -/
def execTwinAuthInFall (s : State) : Out :=
  if !s.var.acts then .next s
  else
    let s := { s with twin := { s.twin with pin := false } }
    if s.twin.ast ≠ .standby then .next s
    else .next ({ s with twin := { s.twin with fallAt := some s.dt } }).tryTakeover

/-- TAKEOVER_WINDOW_END: a fall with neither leaves a TWIN record (R458). -/
def execTakeoverWindowEnd (s : State) : Out :=
  match s.twin.fallAt with
  | none => .next s
  | some t =>
    if s.dt < t + 20000 || s.twin.ast ≠ .standby then .next s
    else .next (({ s with twin := { s.twin with fallAt := none } }).twinRecord 2)

/-- TWIN_AUTH_IN_CONTENTION is taken twice: as the pin's rise passes its filter of 200 ns, and once the pin has been active for 1 µs, when
an active tray of SIDE 1 gives way at once (R457, log entry 151). -/
def execTwinAuthInContention (s : State) : Out :=
  if !s.var.acts then .next s
  else if !s.twin.pin then .next { s with twin := { s.twin with pin := true, pinAt := s.dt } }
  else if s.dt < s.twin.pinAt + 800 then .next s
  else if s.twin.ast = .active ∧ s.twin.side then .next (s.authOff.twinRecord 3)
  else .next s

/-! ### Digest comparison (R455, R456) -/

def State.cmp (s : State) (n : Nat) : CmpSt := Tab.get {} s.twin.cmps n
def State.updCmp (s : State) (n : Nat) (f : CmpSt → CmpSt) : State :=
  { s with twin := { s.twin with cmps := Tab.upd {} s.twin.cmps n f } }

def CmpSt.dvalid (x : CmpSt) : Bool := natBit x.a.toNat 63
def CmpSt.dom (x : CmpSt) : Nat := natBits x.a.toNat 62 59
def CmpSt.trig (x : CmpSt) : Nat := natBits x.a.toNat 58 41
def CmpSt.okt (x : CmpSt) : Nat := natBits x.a.toNat 40 23
def CmpSt.misst (x : CmpSt) : Nat := natBits x.a.toNat 22 5
def CmpSt.len (x : CmpSt) : Nat := natBits x.b.toNat 57 48
def CmpSt.addr (x : CmpSt) : Nat := natBits x.b.toNat 47 0
def CmpSt.timeout (x : CmpSt) : Nat := natBits x.c.toNat 63 48
def CmpSt.res (x : CmpSt) : Nat := natBits x.c.toNat 47 0

/-- Results of a comparison (R456). -/
def cmpMatch : Nat := 0
def cmpDiffer : Nat := 1
def cmpTimeout : Nat := 2
def cmpNoPair : Nat := 3
def cmpRefused : Nat := 4
def cmpOverrun : Nat := 5

/-- A result: its record, then its tally, and LASTRES (R455, R456). A record that would not lie in Yard granules of the domain is not
written, with an ACCESS record (log entry 155). -/
def State.cmpResult (s : State) (n seq res : Nat) (own other : List Byte) : State :=
  let x := s.cmp n
  let rec_ := cut own 0 32 ++ cut other 0 32 ++ toLE 4 seq ++ toLE 4 res ++ toLE 8 s.dt ++ List.replicate 16 0
  let off := x.res - yardBase
  let s := if yardBase ≤ x.res && x.res % 32 == 0 && s.yardRangeOk x.dom off 96 then (s.yardWrite (bytesAt off rec_)).1
    else s.record 3 0 (some x.dom) skKnago 0 x.res 0
  let s := s.updCmp n fun y => { y with lastres := res }
  if res = cmpMatch then s.tallyAdd x.dom x.okt 1
  else ({ s with twin := { s.twin with miss := satAdd 16 s.twin.miss 1 } }).tallyAdd x.dom x.misst 1

/-- Whether a slot's region lies wholly in Yard granules of its domain (R455 step 2). -/
def State.cmpRegionOk (s : State) (x : CmpSt) : Bool :=
  x.addr % 64 == 0 && x.len != 0 && decide (yardBase ≤ x.addr) && s.yardRangeOk x.dom (x.addr - yardBase) (64 * x.len)

/-- A slot waits for its next trigger: a TRIG that its domain does not hold, or a failed one, refuses the wait (R233, R448, R455, log entry
229). -/
def State.cmpArm (s : State) (n : Nat) : State :=
  let x := s.cmp n
  if s.waitRefused x.dom x.trig then (s.updCmp n fun y => { y with refused := true }).tallyRefuse x.dom x.trig
  else s.updCmp n fun y => { y with refused := false }

/-- Start a trigger: the region is checked and the digest is to be formed; triggers whose region fails end at once (R455). `l` are the
triggers that wait. -/
def State.cmpStart (s : State) (n : Nat) : List Nat → State
  | [] => s.updCmp n fun x => { x with stage := 0, pend := [] }
  | q :: l =>
    let x := s.cmp n
    let drop := match x.partner with
      | some (k, _) => decide (k < q)
      | none => false
    let s := s.updCmp n fun x => { x with seq := q, pend := l, own := [], partner := if drop then none else x.partner }
    if s.cmpRegionOk x then s.updCmp n fun x => { x with stage := 1 }
    else (s.cmpResult n q cmpRefused [] []).cmpStart n l

/-- A comparison ends and the next pending trigger starts. -/
def State.cmpEnd (s : State) (n res : Nat) (other : List Byte) : State :=
  let x := s.cmp n
  let s := s.cmpResult n x.seq res x.own other
  s.cmpStart n x.pend

/-- COMPARE_TRIGGER: the trigger tally has reached EXP + 1 (R455, R233). -/
def execCompareTrigger (n : Nat) (s : State) : Out :=
  if !(decide (n < 64)) then .fault .noSuchUnit
  else
    let x := s.cmp n
    let e := x.exp + 1
    if !s.var.acts || !x.dvalid || x.refused || !s.waitMet x.trig e || 2 ^ 32 ≤ e then .next s
    else
      let s := (s.updCmp n fun y => { y with exp := e }).cmpArm n
      if x.stage = 0 then .next (s.cmpStart n [e])
      else if 4 ≤ x.pend.length then .next (s.cmpResult n e cmpOverrun [] [])
      else .next (s.updCmp n fun y => { y with pend := y.pend ++ [e] })

/-- Compare with the partner's digest, if that of the same SEQ is held within TIMEOUT of forming D: a half-open window (R20, R455 step 5). -/
def State.cmpMeet (s : State) (n : Nat) : State :=
  let x := s.cmp n
  match x.partner with
  | some (q, d) =>
    if x.stage = 2 ∧ q = x.seq ∧ s.dt < x.at_ + 1000 * x.timeout then
      (s.updCmp n fun y => { y with partner := none }).cmpEnd n (if d = x.own then cmpMatch else cmpDiffer) d
    else s
  | none => s

/-- What a slot reads of its region to form D: none where a granule of it has left the domain or is being scrubbed since the check (R178),
or where a unit is uncorrectable, which is logged (R171); what is read is corrected (R439). -/
def State.cmpRead (s : State) (x : CmpSt) : Option (List Byte) × State :=
  let o := x.addr - yardBase
  let n := 64 * x.len
  if !s.cmpRegionOk x then (none, s)
  else match s.yardBadIn o (o + n) with
    | [] => (some (s.yard.mem.read o n), s.yardRead o (o + n) (some x.dom))
    | b :: _ => (none, s.ueMet 0 (some x.dom) skSlice (s.slice b) (lineAddr (yardBase + b)))

/-- COMPARE_DIGEST_FORMED: D is formed over the slot, SEQ and the region, and sent (R455 steps 3 and 4). A region that cannot be read ends the
comparison with REFUSED (log entry 230). -/
def execCompareDigestFormed (n : Nat) (s : State) : Out :=
  if !(decide (n < 64)) then .fault .noSuchUnit
  else
    let x := s.cmp n
    if x.stage ≠ 1 then .next s
    else
      match s.cmpRead x with
      | (none, s) => .next (s.cmpEnd n cmpRefused [])
      | (some region, s) =>
        let d := Config.shake256 32 (toLE 1 n ++ toLE 4 x.seq ++ region)
        let s := s.updCmp n fun y => { y with own := d, stage := 2, at_ := s.dt }
        if s.twin.link ≠ .paired then .next (s.cmpEnd n cmpNoPair [])
        else .next ((s.kmsg 3 ([n, x.seq] ++ d.map (·.toNat))).cmpMeet n)

/-- PARTNER_DIGEST_RECEIVED: one is held for each slot, the newest (R455). -/
def execPartnerDigestReceived (n : Nat) (seq : BitVec 32) (dig : List Byte) (s : State) : Out :=
  if !(decide (n < 64)) then .fault .noSuchUnit
  else if s.twin.link ≠ .paired then .next s
  else
    let s := { s with twin := { s.twin with lastFrame := s.dt } }
    let x := s.cmp n
    let q := seq.toNat
    let old := (decide (q < x.seq)) || x.partner.any fun p => decide (q < p.1)
    if !x.dvalid || old then .next s
    else .next ((s.updCmp n fun y => { y with partner := some (q, cut dig 0 32) }).cmpMeet n)

/-- COMPARE_TIMEOUT (R455). -/
def execCompareTimeout (n : Nat) (s : State) : Out :=
  if !(decide (n < 64)) then .fault .noSuchUnit
  else
    let x := s.cmp n
    if x.stage ≠ 2 || s.dt < x.at_ + 1000 * x.timeout then .next s
    else .next (s.cmpEnd n cmpTimeout [])

/-! ### Registers (R459) -/

def Link.num : Link → Nat
  | .down => 0
  | .search => 1
  | .paired => 2
  | .lost => 3
  | .mismatch => 4

/-- A read of the TWIN block; it is absent on the SN9620 (R7). -/
def State.twinRead (s : State) (off : Nat) : Nat :=
  let x := s.twin
  if !s.var.acts then 0
  else if off = 0 then x.cfg.toNat
  else if off = 0x10 then fields [(61, x.link.num), (59, x.ast.num), (57, x.past), (56, bit x.pin)]
  else if off = 0x18 then x.pdsn.toNat
  else if off = 0x20 then fields [(48, x.snapAdopt), (32, x.snapDrop), (16, x.resend), (0, x.miss)]
  else if 0x1000 ≤ off ∧ off < 0x1800 then
    let y := s.cmp ((off - 0x1000) / 32)
    match off % 32 / 8 with
    | 0 => y.a.toNat
    | 1 => y.b.toNat
    | 2 => y.c.toNat
    | _ => fields [(32, y.exp), (0, y.lastres)]
  else 0

/-- Writable bits of TWIN_CFG. -/
def rwTwinCfg : Nat := rwMask [(63, 35), (31, 0)]

/-- A write of TWIN_CFG: taken while authority is OFF and LOCK is 0. MODE written takes the link DOWN, and a write that leaves MODE at PAIR
starts discovery at once (R453, R459, R471). A write whose MODE is 3 is ignored (log entry 152). -/
def State.twinCfgWrite (s : State) (k v : Nat) : State :=
  let w := regMerge s.twin.cfg k rwTwinCfg v
  if s.sec.lock || s.twin.ast ≠ .off || natBits w.toNat 63 62 = 3 then s
  else
    let s := { s with twin := { s.twin with cfg := w } }
    let s := if k &&& maskBits 63 62 ≠ 0 then s.linkTo .down else s
    if s.twin.mode = modePair ∧ s.boot.ptp then s.search else s

/-- A write of TWIN_CTL: its command bits in increasing order. -/
def State.twinCtlWrite (s : State) (k v : Nat) : State :=
  let s := if writes1 k v 0 then s.twinClaim else s
  let s := if writes1 k v 1 then s.twinRelease else s
  let s := if writes1 k v 2 then s.twinStandby else s
  if writes1 k v 3 then s.twinHandover else s

/-- A write to a compare slot: DVALID always, the other fields while DVALID is 0. EXP is the SEQ from which the slot goes on (R455). -/
def State.cmpWrite (s : State) (n r k v : Nat) : State :=
  let x := s.cmp n
  match r with
  | 0 =>
    if x.dvalid then
      (if natBit k 63 && !natBit v 63 then
        s.updCmp n fun y => { y with a := regMerge y.a k (maskBits 63 63) v, stage := 0, pend := [], partner := none }
      else s)
    else
      let s := s.updCmp n fun y => { y with a := regMerge y.a k (maskBits 63 5) v }
      if (s.cmp n).dvalid then s.cmpArm n else s
  | 1 => if x.dvalid then s else s.updCmp n fun y => { y with b := regMerge y.b k (maskBits 57 0) v }
  | 2 => if x.dvalid then s else s.updCmp n fun y => { y with c := regMerge y.c k (maskBits 63 0) v }
  | _ =>
    if x.dvalid then s
    else
      let e := natBits (regMerge (BitVec.ofNat 64 (x.exp * 2 ^ 32)) k (maskBits 63 32) v).toNat 63 32
      s.updCmp n fun y => { y with exp := e, seq := e }

/-- A write to the TWIN block. -/
def State.twinWrite (s : State) (off k v : Nat) : State :=
  if !s.var.acts then s
  else if off = 0 then s.twinCfgWrite k v
  else if off = 8 then s.twinCtlWrite k v
  else if 0x1000 ≤ off ∧ off < 0x1800 then s.cmpWrite ((off - 0x1000) / 32) (off % 32 / 8) k v
  else s

end Sys2Proof.Machine
end

