-- ==== Sys2Proof/Machine/Boot.lean ====
section
/-!
DEFINITION. Power good, rails and coolant, the order of bring-up, the reset sources and the watchdog (R391 to R396, R462 to R480).
-/

namespace Sys2Proof.Machine

/-! ### Power good, rails, coolant (R463 to R466) -/

/-- POWER_GOOD: the whole tray is reset, bring-up begins, and step 1 (the TMC runs, the TCR is read) ends (R462, R463, R467). CAUSE is
what the TMC has latched of a low input or of a rail fault; where the TMC has seen neither, its own supply was lost, and CAUSE is 0 (R463,
R496, log entry 240). -/
def execPowerGood (s : State) : Out :=
  let seen := !s.boot.pg
  let s := s.railsOff
  .next { s with boot := { s.boot.takeTcr with
    pg := true, railFaults := 0, railWait := false, step := 1, fatalRuns := 0
    cause := if seen then s.boot.cause else causePowerOn, tmcrsn := if seen then s.boot.tmcrsn else 0 } }

/-- INPUT_UNDERVOLTAGE: firmware on the TMC asserts full reset and holds it until the next PG (R463). -/
def execInputUndervoltage (s : State) : Out :=
  if !s.boot.pg then .next s
  else
    let s := s.fullReset causeTmc 4
    .next { s with boot := { s.boot.hold 2 with pg := false } }

/-- INPUT_BROWNOUT: the rails are switched off; the next bring-up reports CAUSE 4 with TMCRSN 4. An input that falls on once they are off
takes the TMC's own supply, after which CAUSE is 0 (R463, R487, R496, log entry 240). -/
def execInputBrownout (s : State) : Out :=
  if !s.boot.pg && s.boot.rails = 0 then .next { s with boot := { s.boot with cause := causePowerOn, tmcrsn := 0 } }
  else
    let s := s.railsOff
    .next { s with boot := { s.boot with pg := false, railWait := false, cause := causeTmc, tmcrsn := 4 } }

/-- RAIL_IN_RANGE: the next rail of R464 is within 3 % of its value; the fourth ends step 2 (R464, R467). -/
def execRailInRange (s : State) : Out :=
  if !s.boot.pg || s.boot.step ≠ 1 || 4 ≤ s.boot.rails then .next s
  else
    let n := s.boot.rails + 1
    .next { s with boot := { s.boot with rails := n, step := if n = 4 then 2 else 1 } }

/-- RAIL_FAULT: every rail off and the fault logged; one more try after the first (R464), where the input is good. -/
def execRailFault (s : State) : Out :=
  if s.boot.rails = 0 && (!s.boot.pg || s.boot.step = 0) then .next s
  else
    let s := s.railsOff
    .next { s with boot := { s.boot with
      railFaults := s.boot.railFaults + 1, railWait := s.boot.railFaults == 0 && s.boot.pg, cause := causeTmc, tmcrsn := 5
      tmcEvents := s.boot.tmcEvents ++ [5] } }

/-- RAIL_RETRY: the whole sequence once more, 1 s after the first fault (R464); the bring-up takes the TCR as it then stands (R466). -/
def execRailRetry (s : State) : Out :=
  if !s.boot.railWait then .next s
  else .next { s with boot := { s.boot.takeTcr with railWait := false, step := 1 } }

/-- What a coolant check finds: passed at DER 100, passed at DER 60, or not passed (R465). Flow in 0.1 L/min. -/
def coolCheck (tin : Int) (flow : Nat) : Option Nat :=
  if tin ≤ 65 ∧ 25 ≤ flow then some 100
  else if tin ≤ 75 ∧ 10 ≤ flow then some 60
  else none

/-- COOLANT_CHECK: at step 3 of a power-on it releases the die; in the hold of a full reset it lets the release go on (R465, R473). -/
def execCoolantCheck (tin : Int) (flow : Nat) (s : State) : Out :=
  match coolCheck tin flow with
  | some der =>
    if s.boot.inReset then .next { s with boot := { s.boot with coolOk := true } }
    else if s.boot.step = 2 && s.boot.pg then
      .next { s with
        boot := { s.boot with step := 3, coolOk := true }
        pwr := { s.pwr with der := der } }
    else .next s
  | none => if s.boot.inReset then .next { s with boot := { s.boot with coolOk := false } } else .next s

/-- TCR_WRITE: the integrator writes the record, which is exactly 48 bytes; it takes effect at the next bring-up. Firmware on the TMC sets
the bits of the cores in its fault log (R451, R466). -/
def execTcrWrite (bytes : List Byte) (s : State) : Out :=
  if bytes.length ≠ 48 then .next s
  else .next { s with boot := { s.boot with tcrBytes := tcrFenced bytes s.boot.tmcFences } }

/-- The parts of the TCR of this bring-up (R466). -/
def Boot.tcrFence (b : Boot) (c : Nat) : Bool := natBit (leNat (cut b.tcr 0 32)) c
def Boot.tcrTwin (b : Boot) : Nat := fieldAt b.tcr 32 8
def Boot.tcrCap (b : Boot) : Nat := fieldAt b.tcr 40 2
/-- A TCR whose TWIN and TMCCAP are taken as stored. -/
def Boot.tcrOk (b : Boot) : Bool := decide (60 ≤ b.tcrCap) && decide (b.tcrCap ≤ 300) && natBits b.tcrTwin 63 62 != 3

/-! ### The boot ROM (R391 to R396) -/

/-- BODY_LEN of a firmware image. -/
def fwBody (img : List Byte) : Nat := fieldAt img 8 4
/-- The bytes that are signed, and the signature block. -/
def fwSigned (img : List Byte) : List Byte := img.take (64 + fwBody img)
def fwBlock (img : List Byte) : List Byte := cut img (64 + fwBody img) 192
/-- The accepted image: header, body and signature block. -/
def fwImage (img : List Byte) : List Byte := img.take (64 + fwBody img + 192)
def fwSvn (img : List Byte) : Nat := fieldAt img 4 2
def fwAdv (img : List Byte) : Bool := natBit (fieldAt img 6 1) 0

/-- Whether the ROM accepts a copy (R395). -/
def State.fwOk (s : State) (img : List Byte) : Bool :=
  decide (64 + fwBody img + 192 ≤ img.length)
  && fieldAt img 0 4 == 0x57464E53 && fieldAt img 6 2 / 2 == 0 && fieldAt img 12 52 == 0
  && decide (s.sec.sensed.svn ≤ fwSvn img) && isMakerSlot (sigSlot (fwBlock img))
  && s.sigOk "SN-FW" (fwSigned img) (fwBlock img)

/-- The largest debug level a DEBUG token gives in a state (R421). -/
def debugLimit (lc : Nat) : Nat :=
  if lc = lcMaker || lc = lcReturn then 2 else if lc = lcOwned then 1 else 0

/-- The debug level in force in the boot that begins (R421, R422). -/
def debugAtBoot (lc dbgp : Nat) : Nat := if lc = lcBlank then 2 else min dbgp (debugLimit lc)

/-- M5 (R408). -/
def State.m5 (s : State) : List Byte :=
  [BitVec.ofNat 8 s.lc, BitVec.ofNat 8 s.sec.dbg, if s.sec.statusMode then 1 else 0, 0, 0, 0, 0, 0]

/-- The fuses with the SVN count of a firmware that advances it (R395): a thermometer code (R391). -/
def Fuses.advance (f : Fuses) (svn : Nat) : Fuses := { f with svn := f.svn ||| (2 ^ min svn 64 - 1) }

/-- Step 4 ends, and the watchdog starts (R467, R477). -/
def State.step4 (s : State) : State :=
  { s with boot := { s.boot with step := 4, wdRestart := s.boot.wdNow, wdFails := 0, wdFailsK := 0, wdFailsL := 0 } }

/-- The fuses are sensed and the debug level takes force (R391, R422). -/
def State.senseFuses (s : State) : State :=
  let x := s.fuses.sense
  { s with sec := { s.sec with sensed := x, pend := x.lc, dbg := debugAtBoot x.lc s.sec.dbgp, dbgp := 0 } }

/-- LCSTATE as fused (R391, R408): the three copies of the five transition bits. -/
def Fuses.lcFused (f : Fuses) : Nat := f.lc0 + 2 ^ 5 * f.lc1 + 2 ^ 10 * f.lc2

/-- The firmware of an accepted copy starts: measurements, seeds and the SVN fuses (R392, R394, R395, R408). -/
def State.startFirmware (s : State) (which : Nat) (img : List Byte) : State :=
  let m2 := Config.sha3_384 (fwImage img)
  let f := s.fuses
  let okeys := (List.range 8).map fun i => Tab.get [] f.okey i
  let m3 := Config.sha3_384 (Config.m3Bytes f.dsn f.lcFused f.mrev f.orev f.svn f.safe okeys)
  let c : Byte := if s.lc = lcReturn then 1 else 0
  let id := if s.lc = lcBlank then [] else Config.kdf f.uds (ascii "ID" ++ [c]) 57
  let al := if s.lc = lcBlank then [] else
    Config.kdf id (ascii "ALIAS" ++ Config.romDigest ++ m2 ++ m3 ++ s.m5) 57
  let up := fwAdv img && decide (s.sec.sensed.svn < fwSvn img)
  { s with
    fuses := if up then f.advance (fwSvn img) else f
    sec := { s.sec with
      result := which, fwsvn := fwSvn img, statusMode := false, m2 := m2, m3 := m3, idSeed := id
      aliasSeed := al } }

/-- BOOT_ROM_RUN: step 4 of bring-up (R391, R394 to R396, R467). A TRNG that fails its health test leaves the step open
(log entry 117). -/
def execBootRomRun (copy0 copy1 : FlashCopy) (trng : List Byte) (trngOk : Bool) (s : State) : Out :=
  if s.boot.step ≠ 3 || s.boot.inReset || !s.boot.pg then .next s
  else
    let s := s.senseFuses
    if s.lc = lcScrapped then .next ({ s with sec := { s.sec with result := 2, statusMode := true } }).step4
    else if !trngOk then .next s
    else
      let nb := cut trng 0 32
      let ks := if s.lc = lcBlank then nb else Config.kdf s.fuses.uds (ascii "SES" ++ nb) 32
      let s := { s with sec := { s.sec with
        nboot := nb, kses := ks, kxts := Config.kdf ks (ascii "XTS") 64, ktag := Config.kdf ks (ascii "TAG") 32 } }
      if s.fwOk copy0 then .next (s.startFirmware 0 copy0).step4
      else if s.fwOk copy1 then .next (s.startFirmware 1 copy1).step4
      else .next ({ s with sec := { s.sec with result := 2, statusMode := true } }).step4

/-! ### Steps 5 to 10 (R467 to R471) -/

/-- A core is fenced at bring-up: by its self-test, its read-back or the TCR (R449, R468). -/
def State.fenceAtBoot (s : State) (c : Nat) : State :=
  if s.ras.fence.contains c then s else s.fenceDone c 3

/-- STAND_START: the next stand starts; its failing cores and those of the TCR are fenced; the last stand ends step 5 (R468). -/
def execStandStart (failed : List Nat) (s : State) : Out :=
  if s.boot.step ≠ 4 || s.boot.inReset then .next s
  else
    let cs := (List.range 16).map (16 * s.boot.stands + ·)
    let s := (cs.filter fun c => failed.contains c || s.boot.tcrFence c).foldl State.fenceAtBoot s
    let n := s.boot.stands + 1
    .next { s with boot := { s.boot with stands := n, step := if n = s.var.stands then 5 else 4 } }

/-- TIMEBASE_START: DT runs from 0, and the TCR's TMCCAP and TWIN take force (R321, R466, R467). -/
def execTimebaseStart (s : State) : Out :=
  if s.boot.step ≠ 5 || s.boot.inReset then .next s
  else
    let ok := s.boot.tcrOk
    let cfg : Word := regMerge 0 (maskBits 63 0) rwTwinCfg (if ok then s.boot.tcrTwin else 0)
    let s := { s with
      time := { s.time with running := true, dt := 0, frac := 0 }
      pwr := { s.pwr with tmccap := if ok then s.boot.tcrCap else 300, lastReport := 0 }
      twin := { s.twin with cfg := cfg }
      boot := { s.boot with step := 6 } }
    let s := if ok then s else s.record 4 1 none skSec 0 0 0
    .next s.leashRecompute

/-- FUNCTION_CONFIG_READY: a function whose tunnel is up ends step 7 (R469). -/
def execFunctionConfigReady (fn : Fn) (s : State) : Out :=
  if s.boot.step < 6 || s.boot.inReset || (s.fnSt fn).ls ≠ 2 || (s.fnSt fn).ready then .next s
  else
    let s := s.updFn fn fun f => { f with ready := true, bme := f.bmeNext, cfg := f.cfgNext }
    let both := s.hif.a.ready && s.hif.b.ready
    .next { s with boot := { s.boot with step := if both then max 7 s.boot.step else s.boot.step } }

/-- STORE_READY: the channels have trained and the Kennel's tables are zero, and what waited for the store goes on (R204, R467, R469). -/
def execStoreReady (s : State) : Out :=
  if s.boot.step < 6 || s.boot.inReset || s.boot.store then .next s
  else .next ({ s with boot := { s.boot with store := true, tStore := s.dt / 1000 % 2 ^ 32, step := max 8 s.boot.step } }).beginAgain

/-- PTP_INSTANCE_START: step 9, after which a tray of a pair searches its partner (R471). -/
def execPtpInstanceStart (s : State) : Out :=
  if !s.boot.store || s.boot.ptp || s.boot.inReset then .next s
  else
    let s := { s with boot := { s.boot with ptp := true, step := max 9 s.boot.step } }
    if s.var.acts && s.twin.mode = modePair && s.twin.link = .down then .next s.search else .next s

/-! ### Reset sources (R473, R480) -/

/-- RESET_N_PULSE: at least 1 µs is recognised, less than 900 ns is not, and between them the pulse itself decides (R473). -/
def execResetNPulse (lowNs : Nat) (recognised : Bool) (s : State) : Out :=
  if 1000 ≤ lowNs || (900 ≤ lowNs && recognised) then .next (s.fullReset causePin 0) else .next s

/-- TMC_FULL_RESET: firmware on the TMC resets the die, or asserts during a hold, which then lasts until it has ended too. After a thermal
trip it holds the reset until the die has cooled (R438, R473, R479, R480). -/
def execTmcFullReset (reason : Nat) (s : State) : Out :=
  if 6 < reason || s.boot.step < 3 then .next s
  else
    let s := s.fullReset causeTmc reason
    if reason = 1 then .next { s with boot := s.boot.hold 1 } else .next s

/-- FULL_RESET_RELEASE: every source has ended and the coolant is in range; bring-up continues at step 4, with the TCR as it then stands
(R466, R473). -/
def execFullResetRelease (s : State) : Out :=
  if !s.boot.inReset || s.boot.holds ≠ [] || !s.boot.coolOk then .next s
  else .next { s with
    boot := { s.boot.takeTcr with inReset := false }
    pio := { s.pio with txOff := false }
    twin := { s.twin with silent := false } }

/-! ### Watchdog (R477) -/

/-- WATCHDOG_RESTART: the device firmware restarts it. -/
def execWatchdogRestart (s : State) : Out :=
  if s.boot.step < 4 || s.boot.inReset then .next s
  else .next { s with boot := { s.boot with wdRestart := s.boot.wdNow } }

/-- WATCHDOG_PROBE: which of the scheduler, the Kennel and Leash answered. -/
def execWatchdogProbe (sched kennel leash : Bool) (s : State) : Out :=
  if s.boot.step < 4 || s.boot.inReset then .next s
  else
    let upd := fun (ok : Bool) (n : Nat) => if ok then 0 else n + 1
    .next { s with boot := { s.boot with
      wdFails := upd sched s.boot.wdFails, wdFailsK := upd kennel s.boot.wdFailsK, wdFailsL := upd leash s.boot.wdFailsL } }

/-- WATCHDOG_EXPIRY: a full reset with CAUSE 5. Where another source has started the reset in the same cycle, the watchdog's state is that of
its start (R480). -/
def execWatchdogExpiry (s : State) : Out :=
  if s.boot.inReset then .next (if s.boot.wdDue then s.fullReset causeWatchdog 0 else s)
  else if !s.watchdogDue then .next s else .next (s.fullReset causeWatchdog 0)

/-- TMC_RESTART: nothing on the die changes (R478). -/
def execTmcRestart (s : State) : Out := .next s

end Sys2Proof.Machine
end

