-- ==== Sys2Proof/Machine/EngineOps.lean ====
section
/-!
DEFINITION. What all engine commands share: the checks at decode and before any element is touched, the scoreboard, staging
time and duration, accumulators, pattern programs, and the issue of a command into its engine's queue (R51 to R53, R65, R66,
R99 to R103, R113, R153, R157 to R159, R254, R256).
-/

namespace Sys2Proof.Machine

/-! ### A command with its operands resolved -/

/-- A command as an engine receives it: its fields, its operands after relocation, the address in its PREG register, its slot's
registers and the solve control; what it reads, `m`, and the bits of the elements of it that the command reads, `data`. -/
structure Cmd where
  c : Nat
  opc : Nat
  f : LFields
  o0 : Opnd
  o1 : Opnd
  o2 : Opnd
  o3 : Opnd
  preg : Nat
  g : Tab Word
  sc : SolveCtl
  m : Rd
  data : List Nat := []

/-- `n` elements of one row of a tensor from a linear index on. -/
structure Run where
  d : TDesc
  i : Nat
  n : Nat
deriving DecidableEq, Repr

/-- The byte ranges of a run's elements and scale bytes. -/
def Run.bytes (r : Run) : List (Nat × Nat) :=
  (r.d.addr r.i, r.d.base + ((r.d.off r.i + r.n) * elemBits r.d.fmt + 7) / 8)
    :: (if isBlock r.d.fmt then [(r.d.sbase + r.d.nib r.i / 2, r.d.sbase + r.d.nib (r.i + r.n - 1) / 2 + 1)] else [])

/-- The bits of a run's elements, each with its fine exponent in a block format. -/
def Run.bits (r : Run) (m : Rd) : List Nat :=
  (List.range r.n).flatMap fun q => r.d.raw m (r.i + q) :: (if isBlock r.d.fmt then [r.d.fine m (r.i + q)] else [])

/-- What an engine makes of a command. `refuse`: a check fails before any element is touched. `fault`: it faults during
execution. `writes` are its writes in order. `rd` and `wr` are the elements that it reads and writes, and `prog` the byte ranges of a
pattern program's records, by which R153 sets its staging time; `aux` are a pattern program's header and row-index lists, which it reads
too (log entry 44), and `bits` the values of its scalar sources. -/
structure ERes where
  refuse : Bool := false
  fault : Bool := false
  dur : Nat := 0
  writes : List Wr := []
  reg : Option Word := none
  evs : List Ev := []
  pivots : List Pivot := []
  rd : List Run := []
  prog : List (Nat × Nat) := []
  aux : List (Nat × Nat) := []
  wr : List Run := []
  bits : List Nat := []

/-- The bits that a command reads: of its elements, its pattern program and row-index lists, and its scalar sources (R79). -/
def ERes.data (r : ERes) (m : Rd) : List Nat :=
  r.rd.flatMap (·.bits m) ++ (r.prog ++ r.aux).flatMap (fun p => (List.range (p.2 - p.1)).map fun i => m (p.1 + i)) ++ r.bits

/-- The result of a command refused before it touches any element (R65). -/
def refusedCmd : ERes := { refuse := true, dur := 2 }

/-- The words and the descriptors of a command, on which with the bits it reads its open values depend (R79, log entry 169). -/
def Cmd.key (x : Cmd) : List Nat :=
  [longWord0 x.opc x.f, longWord1 x.f] ++ [x.o0, x.o1, x.o2, x.o3].flatMap fun o => match o with
    | .tensor d => d.key x.c
    | _ => []

def Cmd.rnd (x : Cmd) : Rnd := (Rnd.ofField x.f.rnd.toNat).getD .rne
def Cmd.param (x : Cmd) (hi lo : Nat) : Nat := natBits x.f.param.toNat hi lo
def Cmd.scl (x : Cmd) : Int := sclInt x.f

/-- Whether a half-open range of device addresses lies in a core's memory. -/
def inCore (c lo hi : Nat) : Bool := coreBase c ≤ lo && hi ≤ coreBase c + coreBytes

/-- The checks of R51 for a tensor operand of a command on core `c`, with the formats its unit accepts. -/
def TDesc.ok (c : Nat) (fmts : List Nat) (d : TDesc) : Bool :=
  d.shapeOk && inCore c d.range.1 d.range.2 && (!isBlock d.fmt || inCore c d.srange.1 d.srange.2) && fmts.contains d.fmt

/-- A tensor operand that passes R51. -/
def Opnd.tens (c : Nat) (fmts : List Nat) (o : Opnd) : Option TDesc := o.tensor?.filter (TDesc.ok c fmts)

/-! ### Elements that an operand does not have (log entry 30) -/

/-- The element of operand `op` at a place outside its shape: no rule gives it a value, and each of its bits is open. -/
def TDesc.open_ (d : TDesc) (x : Cmd) (op : Nat) (at_ : List Nat) : XV :=
  decodeElem d.fmt d.frac d.cexp (Config.cmdFree x.key x.data (1 :: op :: at_) % 16)
    (Config.cmdFree x.key x.data (0 :: op :: at_) % 2 ^ elemBits d.fmt)

/-- Whether linear index `i` of an operand of one row names a tail element of its last block, which every unit reads as +0 (R40). -/
def TDesc.tail (d : TDesc) (i : Nat) : Bool :=
  isBlock d.fmt && d.n == d.dim0 && decide (d.dim0 ≤ i) && decide (i < (d.dim0 + 15) / 16 * 16)

/-- The value of element `i` of operand `op`. -/
def TDesc.valIn (d : TDesc) (x : Cmd) (op i : Nat) : XV :=
  if i < d.n then d.val x.m i else if d.tail i then .num Dy.zero else d.open_ x op [i]

/-- The first `n` values of operand `op`, in linear order. -/
def TDesc.valsIn (d : TDesc) (x : Cmd) (op n : Nat) : List XV := (List.range n).map (d.valIn x op)

/-- The bits of a scalar of a format (R498). -/
def scalarBits (fmt w : Nat) : Nat := if fmt = fmtHF24 then w % 2 ^ 24 else w % 2 ^ elemBits fmt

/-- The value a scalar source reads, in a format. -/
def Opnd.scalarIn (fmt : Nat) : Opnd → List Nat
  | .scalar _ w => [scalarBits fmt w]
  | _ => []

/-! ### Touched bytes, staging and durations (R153, R256) -/

/-- Every row of a tensor. -/
def TDesc.rows (d : TDesc) : List Run := (List.range (d.dim1 * d.dim2)).map fun r => ⟨d, r * d.dim0, d.dim0⟩

/-- The byte ranges that an engine stages and writes. -/
def ERes.touched (r : ERes) : List (Nat × Nat) := r.rd.flatMap Run.bytes ++ r.prog ++ r.wr.flatMap Run.bytes

/-- The distinct 64-byte lines of byte ranges. -/
def linesOf (l : List (Nat × Nat)) : List Nat :=
  (l.flatMap fun p => (List.range ((lineRange p.1 p.2).2 - (lineRange p.1 p.2).1)).map ((lineRange p.1 p.2).1 + ·)).dedup

/-- The largest number of distinct lines in one bank (R149, R153). -/
def kmax (lines : List Nat) : Nat := (lines.map fun l => (lines.filter fun m => m % 64 = l % 64).length).foldl max 0

/-- Staging time (R153). -/
def staging (e : Engine) (r : ERes) : Nat := engineRound e * kmax (linesOf r.touched)

/-- `x / y` rounded up. -/
def ceilDiv (x y : Nat) : Nat := (x + y - 1) / y

/-! ### Accumulators (R66, R71) -/

/-- A 64-bit accumulator or lane register: a number on its grid, or saturated and staying so (R66, R70). -/
inductive Acc where
  | num (x : Int)
  | sat (neg : Bool)
deriving DecidableEq, Repr

/-- Adding an integer with saturation (R66 step 4). -/
def Acc.add (a : Acc) (x : Int) : Acc :=
  match a with
  | .sat n => .sat n
  | .num y =>
    let z := y + x
    if z < -pow2 63 then .sat true else if pow2 63 - 1 < z then .sat false else .num z

/-- Adding two lane registers in a tree step (R70). -/
def Acc.join (a b : Acc) : Acc :=
  match a, b with
  | .sat n, _ => .sat n
  | .num _, .sat n => .sat n
  | .num _, .num y => a.add y

/-- The accumulator's content as an exact result on the grid `2^b`. -/
def Acc.val (b : Int) : Acc → XV
  | .num x => .num ⟨x, b⟩
  | .sat n => .sat n

/-- The exact sum of a list. -/
def dySum (l : List Dy) : Dy := l.foldl Dy.add Dy.zero

/-- One output element of the SE or DBE (R66): each group summed exactly, placed on `2^b` by round to odd, and added. -/
def accumulate (b : Int) (groups : List (List Dy)) : XV :=
  (groups.foldl (fun (a : Acc) g => a.add ((dySum g).round .rto b).1) (.num 0)).val b

/-- Split a list into groups of `k` (R69). -/
def groupsOf (k : Nat) (l : List Dy) : List (List Dy) :=
  (List.range (ceilDiv l.length k)).map fun i => (l.drop (i * k)).take k

/-- A fixed-point or block element as a number. -/
def XV.dy : XV → Dy
  | .num x => x
  | _ => Dy.zero

/-- The element values of a fixed-point or block tensor. -/
def TDesc.dys (d : TDesc) (m : Rd) : List Dy := (d.vals m).map XV.dy

/-- The first `n` element values of operand `op`, a fixed-point or block tensor. -/
def TDesc.dysIn (d : TDesc) (x : Cmd) (op n : Nat) : List Dy := (d.valsIn x op n).map XV.dy

/-- Element `i` of a list of values. -/
def at_ (l : List Dy) (i : Nat) : Dy := l.getD i Dy.zero

/-! ### Pattern programs (R99 to R103) -/

/-- A pattern program's header (R100). -/
structure PHead where
  nrec : Nat
  nrows : Nat
  ncols : Nat
  nnz : Nat
  res : Nat
deriving DecidableEq, Repr

def patHead (m : Rd) (a : Nat) : PHead :=
  let h := Rd.le m a 32
  ⟨natBits h 255 240, natBits h 239 224, natBits h 223 208, natBits h 191 160, natBits h 207 192 + natBits h 159 0⟩

/-- The checks of R103 on the program itself, before any element is touched. -/
def patOk (c : Nat) (m : Rd) (a : Nat) : Bool :=
  let h := patHead m a
  a % 8 == 0 && inCore c a (a + 32) && h.res == 0 && 1 ≤ h.nrec && 1 ≤ h.nrows && h.nrows ≤ 16384 && 1 ≤ h.ncols
  && h.ncols ≤ 16384 && inCore c a (a + 32 + 136 * h.nrec)

/-- A segment: its output row, its (value index, column) products, in listing order, and the number of the record that starts its row. -/
structure PSeg where
  row : Nat
  prods : List (Nat × Nat)
  start : Nat := 0
deriving DecidableEq, Repr

/-- The lanes of one record, folded: segments so far (newest first), the next value index, whether a rule is broken. -/
structure PLanes where
  segs : List PSeg
  next : Nat
  valid : Nat
  bad : Bool

/-- One lane (R101, R102, R103). COL is held to NCOLS on every lane, valid or not. -/
def patLane (h : PHead) (row0 : Nat) (p : PLanes) (l e : Nat) : PLanes :=
  let v := natBit e 15
  let sg := natBit e 14
  let col := natBits e 13 0
  let segs := if sg && l ≠ 0 then { row := row0 + p.segs.length, prods := [] } :: p.segs else p.segs
  if (sg && !v) || h.ncols ≤ col then { p with bad := true }
  else if v then
    if h.nnz ≤ p.next then { p with bad := true }
    else
      let segs := match segs with
        | [] => []
        | s :: t => { s with prods := s.prods ++ [(p.next, col)] } :: t
      { p with segs := segs, next := p.next + 1, valid := p.valid + 1 }
  else { p with segs := segs }

/-- One record: its segments in order and the next value index, or none where it breaks a rule of R102 or R103. `last` is the last
row of the previous record. -/
def patRecord (h : PHead) (m : Rd) (a : Nat) (last : Option Nat) (next : Nat) : Option (List PSeg × Nat) :=
  let cw := Rd.le m a 8
  let row0 := natBits cw 63 50
  let lane := fun l => Rd.le m (a + 8 + 2 * l) 2
  let startOk := match last with
    | none => true
    | some r => if natBit (lane 0) 14 then decide (r < row0) else row0 == r
  let p := (List.range 64).foldl (fun p l => patLane h row0 p l (lane l)) (PLanes.mk [{ row := row0, prods := [] }] next 0 false)
  if natBits cw 49 0 ≠ 0 || !startOk || p.bad || p.valid == 0 || 16 < p.segs.length || h.nrows ≤ row0 + p.segs.length - 1
  then none else some (p.segs.reverse, p.next)

/-- The records of a program from number `i` on: the segments of the records before the first broken rule, and the number of that
record (or the number of records, when the lanes number fewer than NNZ at the end), none for a clean program (R103). `last` is the last
segment of the previous record, whose row the first segment of a record may continue (R102). -/
def patWalk (h : PHead) (m : Rd) (a : Nat) : (fuel i : Nat) → (last : Option PSeg) → (next : Nat) → List PSeg × Option Nat
  | 0, i, _, next => ([], if next = h.nnz then none else some i)
  | fuel + 1, i, last, next =>
    match patRecord h m (a + 32 + 136 * i) (last.map (·.row)) next with
    | none => ([], some i)
    | some (segs, next') =>
      let segs := segs.map fun s => { s with start := ((last.filter (·.row == s.row)).map (·.start)).getD i }
      let r := patWalk h m a fuel (i + 1) segs.getLast? next'
      (segs ++ r.1, r.2)

/-- The groups of an output row, in listing order (R99, R102). -/
def rowGroups (segs : List PSeg) (r : Nat) : List (List (Nat × Nat)) := (segs.filter fun s => s.row == r).map (·.prods)

/-- The number of rows written: all of them unless a record broke a rule, and then those up to the last complete row (R103): a row is
complete once a record after the one that started it starts a higher row (log entry 170). -/
def rowsWritten (h : PHead) (segs : List PSeg) (bad : Option Nat) : Nat :=
  match bad with
  | none => h.nrows
  | some b =>
    if b = h.nrec then h.nrows
    else
      let last := ((segs.getLast?).map (·.start)).getD 0
      (segs.filter fun s => s.start < last).foldl (fun a s => max a (s.row + 1)) 0

/-- The bytes of a program's header, where it has a place in the core's memory. -/
def patHeadBytes (c a : Nat) : List (Nat × Nat) := if a % 8 == 0 && inCore c a (a + 32) then [(a, a + 32)] else []

/-- The bytes of a program's records. -/
def patBytes (h : PHead) (a : Nat) : List (Nat × Nat) := [(a + 32, a + 32 + 136 * h.nrec)]

/-- The result of a command whose pattern program or shapes fail the checks of R103: it has read the header. -/
def Cmd.refusedPat (x : Cmd) : ERes := { refusedCmd with aux := patHeadBytes x.c x.preg }

/-- Cycles until a fault found at record `b` of `h.nrec`, at `per` cycles a record; the whole program when none is found (R65). -/
def patCycles (h : PHead) (per : Nat) (bad : Option Nat) : Nat :=
  match bad with
  | none => per * h.nrec
  | some b => per * min (b + 1) h.nrec

/-! ### Decode (R82, R253, R254) -/

/-- PARAM bits that a command uses (R256). -/
def paramMask : Nat → Nat
  | 0x60 => 0x00000001
  | 0x61 => 0x40003FFF
  | 0x62 => 0x7FFFFFFF
  | 0x63 => 0x4FFFFFFF
  | 0x64 => 0x4FFFFFFF
  | 0x87 => 0x000003FF
  | 0x8B => 0x01FFFFFF
  | 0x90 => 0xFC000000
  | 0x91 => 0xFC000000
  | 0xA0 => 0xFC000001
  | 0xA1 => 0xFC000001
  | 0xA2 => 0xFC000001
  | _ => 0

/-- Whether PARAM has no bit set beyond those the command uses. -/
def paramOk (opc p : Nat) : Bool := p &&& paramMask opc == p

/-- Commands that name a pattern program or row-index lists by PREG. -/
def usesPreg (opc : Nat) : Bool := opc == 0x40 || opc == 0x41 || opc == 0xA1 || opc == 0x62

/-- Whether SCL lies in the range its unit accepts (R66, R72, R253). -/
def sclOk (e : Engine) (x : Int) : Bool :=
  match e with
  | .se => decide (-256 ≤ x) && decide (x ≤ 255)
  | .dbe => decide (-256 ≤ x) && decide (x ≤ 255)
  | .ru => decide (-320 ≤ x) && decide (x ≤ 96)
  | _ => decide (x = 0)

/-- The SFRAC rule of R501: at most 62, and 0 for a tensor OP0 or an HF24 VMAXABS. -/
def sfracOk (opc : Nat) (x : Cmd) : Bool :=
  if opc == 0x90 || opc == 0x91 || (0xA0 ≤ opc && opc ≤ 0xA2) then
    let sf := x.param 31 26
    sf ≤ 62 && (sf == 0 || (x.o0.tensor?.isNone && !(opc == 0x91 && (x.o1.tensor?.map (·.fmt)) == some fmtHF24)))
  else true

/-- The kinds of operand a command takes. -/
inductive Kind where
  | none
  | tens
  | scal
  | src
  | opt
  | any
deriving DecidableEq, Repr

/-- Whether an operand is of a kind: no operand, a tensor, a scalar, a tensor or scalar source, an optional one, a tensor or
scalar destination. -/
def Kind.ok : Kind → Opnd → Bool
  | .none, .none => true
  | .tens, .tensor _ => true
  | .scal, .scalar _ _ => true
  | .src, .tensor _ => true
  | .src, .scalar _ _ => true
  | .any, .tensor _ => true
  | .any, .scalar _ _ => true
  | .opt, .none => true
  | .opt, .tensor _ => true
  | .opt, .scalar _ _ => true
  | _, _ => false

/-- The four operand kinds of a command (R256). -/
structure Kinds where
  k0 : Kind
  k1 : Kind
  k2 : Kind
  k3 : Kind

def Kinds.ok (k : Kinds) (x : Cmd) : Bool := k.k0.ok x.o0 && k.k1.ok x.o1 && k.k2.ok x.o2 && k.k3.ok x.o3

/-- What decode refuses in an engine command (R82, R254): reserved bits, an operand that names nothing, a reserved RND, an SCL
outside its unit's range, a PARAM bit the command does not use, PREG where it is not used, or missing where it is, and an
operand of a kind the command does not take. -/
def decodeBad (e : Engine) (kinds : Kinds) (x : Cmd) : Bool :=
  x.f.res ≠ 0 || 1 < x.f.rnd.toNat || x.o0.isWrong || x.o1.isWrong || x.o2.isWrong || x.o3.isWrong
  || !sclOk e x.scl || !paramOk x.opc x.f.param.toNat || (!usesPreg x.opc && x.f.preg ≠ 0) || !sfracOk x.opc x
  || !kinds.ok x

/-! ### Relocation (R113) -/

/-- Which operands a command with PARAM[30] = 1 has relocated, and into which half: staged or active. -/
inductive Reloc where
  | none
  | staged0
  | staged01
  | active1
deriving DecidableEq, Repr

/-- The distance of a half from half 0: PREB_OFF for half 1. -/
def SolveCtl.half (sc : SolveCtl) (one : Bool) : Nat := if one then sc.prebOff else 0

def Opnd.moved (x : Nat) : Opnd → Opnd
  | .tensor d => .tensor (d.moved x)
  | o => o

/-- The command with its operands relocated. -/
def relocate (r : Reloc) (x : Cmd) : Cmd :=
  if !natBit x.f.param.toNat 30 then x
  else match r with
    | .none => x
    | .staged0 => { x with o0 := x.o0.moved (x.sc.half !x.sc.psel) }
    | .staged01 => { x with o0 := x.o0.moved (x.sc.half !x.sc.psel), o1 := x.o1.moved (x.sc.half !x.sc.psel) }
    | .active1 => { x with o1 := x.o1.moved (x.sc.half x.sc.psel) }

/-- The faults of the solve control for a preconditioner command (R113). -/
def solveBad (opc : Nat) (r : Reloc) (x : Cmd) : Bool :=
  (opc == 0x63 && !x.sc.solved)
  || (r ≠ .none && natBit x.f.param.toNat 30
      && (!x.sc.solved || 2 ≤ x.sc.method || (r == .active1 && !x.sc.swapped)))

/-! ### The issue of an engine command -/

/-- Scoreboard ranges of an operand (R157), for descriptors that pass R51. -/
def sbOf (c : Nat) (uid cseq : Nat) (write : Bool) (o : Opnd) : List SbRange :=
  match o with
  | .tensor d =>
    if d.shapeOk && inCore c d.range.1 d.range.2 then
      let r := lineRange d.range.1 d.range.2
      let sr := lineRange d.srange.1 d.srange.2
      ⟨uid, cseq, r.1, r.2, write⟩ :: (if isBlock d.fmt then [⟨uid, cseq, sr.1, sr.2, write⟩] else [])
    else []
  | _ => []

/-- Which operands a command reads and writes (R157, R500). -/
structure Roles where
  rd : List Nat := [1, 2, 3]
  wr : List Nat := [0]

def Cmd.op (x : Cmd) : Nat → Opnd
  | 0 => x.o0
  | 1 => x.o1
  | 2 => x.o2
  | _ => x.o3

/-- The scoreboard ranges of a command (R157). -/
def Cmd.ranges (x : Cmd) (ro : Roles) (uid cseq : Nat) : List SbRange :=
  ro.rd.flatMap (fun i => sbOf x.c uid cseq false (x.op i)) ++ ro.wr.flatMap (fun i => sbOf x.c uid cseq true (x.op i))

def Opnd.scalarReg : Opnd → List Nat
  | .scalar r _ => [r]
  | _ => []

/-- A command's description: its engine, opcode, operand kinds, roles and relocation, further scalar sources, and what its engine
computes. -/
structure CmdSpec where
  e : Engine
  opc : Nat
  kinds : Kinds
  roles : Roles := {}
  reloc : Reloc := .none
  srcs : Cmd → List Nat := fun _ => []
  run : Cmd → ERes

/-- The command with its operands resolved and relocated (R113, R254), over the core's memory as it stands. PREG 0 names no register:
the address is then 0, which lies in no core's memory (R100, R253). -/
def State.mkCmd (s : State) (c k : Nat) (sp : CmdSpec) (f : LFields) : Cmd :=
  let j := s.slotJob c k
  let x := s.slot c k
  relocate sp.reloc {
    c := c, opc := sp.opc, f := f, o0 := resolve j x f.op0, o1 := resolve j x f.op1, o2 := resolve j x f.op2,
    o3 := resolve j x f.op3, preg := if f.preg = 0 then 0 else (x.reg f.preg.toNat).toNat, g := x.g, sc := x.sc,
    m := s.coreRd c }

/-- Registers a long instruction reads at issue. -/
def longReads (sp : CmdSpec) (f : LFields) (x : Cmd) : List Nat :=
  operandRegs f.op0 ++ operandRegs f.op1 ++ operandRegs f.op2 ++ operandRegs f.op3
  ++ (if usesPreg sp.opc then [f.preg.toNat] else []) ++ sp.srcs x

/-- The solve control after the issue of a preconditioner command (R113), taken in program order (log entry 41). -/
def stgAfter (opc : Nat) (relocated : Bool) (sc : SolveCtl) : SolveCtl :=
  if !relocated then sc
  else if opc == 0x62 || opc == 0x63 then { sc with stgDone := false }
  else if opc == 0x64 then { sc with stgDone := true }
  else sc

/-- The command that an issue fixed, over what it reads. -/
def ECmd.cmd (m : ECmd) (c : Nat) (rd : Rd) (data : List Nat) : Cmd :=
  { c := c, opc := m.opc, f := m.f, o0 := m.o0, o1 := m.o1, o2 := m.o2, o3 := m.o3, preg := m.preg, g := m.g, sc := m.sc,
    m := rd, data := data }

/-- What the engine makes of an issued command (R65, R113). -/
def ECmd.result (m : ECmd) (sp : CmdSpec) (x : Cmd) : ERes := if m.refuse then refusedCmd else sp.run x

/-- A command as its issue fixes it. -/
def mkECmd (sp : CmdSpec) (s : State) (c k : Nat) (x : Cmd) : ECmd :=
  let sl := s.slot c k
  { uid := sl.uid.getD 0, slot := k, cseq := sl.cseq, opc := sp.opc, order := (s.core c).orders, f := x.f
    o0 := x.o0, o1 := x.o1, o2 := x.o2, o3 := x.o3, preg := x.preg, g := x.g, sc := x.sc
    refuse := solveBad sp.opc sp.reloc x
    reg := x.o0.scalarReg.head?
    srcs := x.o1.scalarReg ++ x.o2.scalarReg ++ x.o3.scalarReg ++ sp.srcs x }

/-- Put a command into its engine's queue with its scoreboard ranges, and take its CSEQ (R81, R157, R223). -/
def State.enqueue (s : State) (c k : Nat) (sp : CmdSpec) (m : ECmd) (sb : List SbRange) : State :=
  let s := s.updCore c fun q =>
    let q := { q with sb := q.sb ++ sb, orders := q.orders + 1 }
    q.setEng sp.e { q.eng sp.e with queue := (q.eng sp.e).queue ++ [m] }
  s.takeCseq c k (fun n => ⟨n, sp.opc, engineNum sp.e, false, 0, [], none, .none⟩) fun x => { x with pc := x.pc + 16 }

/-- Commands a slot may have queued and not started on an engine: 8, and 1 for a BE task on a pack core (R222, R223). -/
def State.queueShare (s : State) (c k : Nat) : Nat := if (s.slotTask c k).any (·.be) && (s.owner c).pack then 1 else 8

/-- Whether a slot's share of an engine's queue, and the queue itself, have room (R223). -/
def State.queueRoom (s : State) (c : Nat) (e : Engine) (k : Nat) : Bool :=
  let q := ((s.core c).eng e).queue
  q.length < 64 && (q.filter fun m => m.slot == k).length < s.queueShare c k

/-- The issue of an engine command: its operands resolve, and it enters its engine's queue and the scoreboard. Its engine reads them
when it runs (R147). -/
def issueCmd (c k : Nat) (sp : CmdSpec) (f : LFields) (s : State) : Out :=
  if !s.hasSlot c k then .fault .noSuchUnit
  else if !s.ready c k then .next s
  else match s.fetch c k (longWord0 sp.opc f) (some (longWord1 f)) with
    | .other => .next s
    | .unknown => .next ((s.fetchRead c k 0 none).decodeFault c k ((s.slotJob c k).segWord (s.slot c k).pc / 2 ^ 56))
    | .bad u => .next (s.fetchFault c k sp.opc u)
    | .same =>
      let s := s.fetchRead c k (longWord0 sp.opc f) (some (longWord1 f))
      let x := s.mkCmd c k sp f
      let sl := s.slot c k
      let sb := x.ranges sp.roles (sl.uid.getD 0) sl.cseq
      if 2 ^ 32 ≤ sl.cseq || (sp.e == .lte && !s.var.coreLte c) || decodeBad sp.e sp.kinds x || 8 < sb.length then
        .next (s.decodeFault c k sp.opc)
      else if s.held c k (longReads sp f x) x.o0.scalarReg || !s.queueRoom c sp.e k
          || sb.any (fun r => (s.core c).sbConflict r.lo r.hi r.write) || 256 < (s.core c).sb.length + sb.length then .next s
      else
        let m := mkECmd sp s c k x
        .next ((s.enqueue c k sp m sb).updSlot c k fun y =>
          { y with sc := stgAfter sp.opc (natBit f.param.toNat 30 && sp.reloc ≠ .none) y.sc })

end Sys2Proof.Machine
end

