-- ==== Sys2Proof/Machine/EngDbe.lean ====
section
/-!
DEFINITION. The DBE's commands: DGEMM, BDAPPLY and the factorisation FORMK, FACT and INVBLK with the pivot rule (R66, R69, R112
to R114, R131, R500), and the LTE's LMATV (R71).
-/

namespace Sys2Proof.Machine

/-- The operand formats of the DBE and those of its results (R52). -/
def dbeIn : List Nat := [fmtHB16, fmtHQ16, fmtHB8]
def dbeOut : List Nat := [fmtHQ32, fmtHQ16, fmtHB16]

/-- Inner step of the DBE (R69). -/
def dbeStep (fmt : Nat) : Nat := if fmt = fmtHB8 then 64 else 16

/-- Values of a matrix by row and column in plane `k`. -/
def matAt (d : TDesc) (l : List Dy) (k i j : Nat) : Dy := at_ l (d.ix j i k)

/-- The same for operand `op` of a command: a tail element of a block is +0 (R40), and any other element outside the matrix's shape is
open (log entry 30). -/
def matIn (x : Cmd) (op : Nat) (d : TDesc) (l : List Dy) (k i j : Nat) : Dy :=
  if i < d.dim1 ∧ k < d.dim2 then
    if j < d.dim0 then matAt d l k i j
    else if isBlock d.fmt ∧ j < (d.dim0 + 15) / 16 * 16 then Dy.zero
    else (d.open_ x op [k, i, j]).dy
  else (d.open_ x op [k, i, j]).dy

/-- The elements of a matrix among the first `n` planes, rows `i` and columns `j` that its shape has. -/
def TDesc.part (d : TDesc) (n i j : Nat) : List Run :=
  (List.range (min n d.dim2)).flatMap fun k => (List.range (min i d.dim1)).map fun r => ⟨d, d.ix 0 r k, min j d.dim0⟩

/-- DGEMM (R69): plane 0 of C, M by N, is plane 0 of A, M by K, times plane 0 of B, K by N, rows along DIM1 and columns along DIM0; M and N
are C's and K is A's. -/
def runDgemm (x : Cmd) : ERes :=
  match x.o0.tens x.c dbeOut, x.o1.tens x.c dbeIn, x.o2.tens x.c dbeIn with
  | some cd, some ad, some bd =>
    let mirror := x.param 0 0 == 1
    if ad.fmt ≠ bd.fmt then refusedCmd
    else
      let av := ad.dys x.m
      let bv := bd.dys x.m
      let el := fun i j => accumulate x.scl (groupsOf (dbeStep ad.fmt)
        ((List.range ad.dim0).map fun q => (matIn x 1 ad av 0 i q).mul (matIn x 2 bd bv 0 q j)))
      let out := fun ix =>
        let i := ix / cd.dim0
        let j := ix % cd.dim0
        if i < cd.dim1 then some (if mirror && i < j then el j i else el i j) else none
      let w := storeTensor cd x.rnd (if mirror then some (List.range (cd.dim0 * cd.dim1)) else none) out
      { dur := ceilDiv cd.dim1 16 * ceilDiv cd.dim0 16 * ceilDiv ad.dim0 (dbeStep ad.fmt) + 8, writes := w.1, evs := w.2,
        rd := ad.part 1 cd.dim1 ad.dim0 ++ bd.part 1 ad.dim0 cd.dim0, wr := cd.part 1 cd.dim1 cd.dim0 }
  | _, _, _ => refusedCmd

/-- BDAPPLY (R114): stage by stage, each one product under R69; it writes the elements of its S stages that the destination has. -/
def runBdapply (x : Cmd) : ERes :=
  let n := x.param 7 0
  let b := x.param 13 8
  match x.o0.tens x.c [fmtHQ32], x.o1.tens x.c dbeIn, x.o2.tens x.c dbeIn with
  | some sd, some md, some rd =>
    if md.fmt ≠ rd.fmt then refusedCmd
    else
      let mv := md.dys x.m
      let rv := rd.dysIn x 2 (n * b)
      let out := fun ix => if ix < n * b then
          some (accumulate x.scl (groupsOf (dbeStep md.fmt)
            ((List.range b).map fun q => (matIn x 1 md mv (ix / b) (ix % b) q).mul (at_ rv (ix / b * b + q)))))
        else none
      let w := storeTensor sd x.rnd none out
      { dur := n * ceilDiv b 16 * ceilDiv b 16 + 8, writes := w.1, evs := w.2,
        rd := md.part n b b ++ rd.rows, wr := sd.rows }
  | _, _, _ => refusedCmd

/-! ### Factorisation (R112, R500) -/

/-- First stage, stage count and stage size of FORMK, FACT and INVBLK (R256). -/
def stage0 (x : Cmd) : Nat := x.param 7 0
def stageN (x : Cmd) : Nat := x.param 15 8
def stageB (x : Cmd) : Nat := x.param 21 16

/-- The layout of a per-stage tensor (R500). -/
def perStage (x : Cmd) (d : TDesc) : Bool :=
  d.dim0 == stageB x && d.dim1 == stageB x && decide (stage0 x + stageN x ≤ d.dim2) && stageB x ≠ 0

/-- An intermediate in HQ32 with fraction length `f` (R112): its value, and its flags at an index. -/
def rtoHq32 (f : Nat) (ix : Nat) (v : XV) : Dy × List Ev :=
  let r := storeInt .rto 32 (-(f : Int)) (-128) false v
  (⟨r.1, -(f : Int)⟩, r.2.map fun g => (g, ix))

/-- A row of intermediates in HB16 with a coarse exponent, its fine exponents chosen by block (R59, R112). -/
def rtoHb16 (cexp : Int) (ix : Nat) (row : List Dy) : List Dy × List Ev :=
  let blocks := (List.range (ceilDiv row.length 16)).map fun i => (row.drop (16 * i)).take 16
  let rs := blocks.flatMap fun b =>
    let e := chooseFine .rto fmtHB16 cexp (b.map XV.num)
    b.map fun v =>
      let r := storeBlock .rto fmtHB16 cexp e (-128) false (.num v)
      ((decodeElem fmtHB16 0 cexp e r.1).dy, r.2.map fun g => (g, ix))
  (rs.map (·.1), rs.flatMap (·.2))

/-- A lower-triangular matrix under construction, as a function of row and column. -/
abbrev Mat := Nat → Nat → Dy

def Mat.put (m : Mat) (i j : Nat) (v : Dy) : Mat := fun a b => if a = i ∧ b = j then v else m a b

/-- The rows of the diagonal and lower triangle of the stages a command names. -/
def triRows (x : Cmd) (d : TDesc) : List Run :=
  (List.range (stageN x)).flatMap fun s => (List.range (stageB x)).map fun i => ⟨d, d.ix 0 i (stage0 x + s), i + 1⟩

/-- Rows of every element of the stages a command names. -/
def stageRows (x : Cmd) (d : TDesc) (rows : Nat) : List Run :=
  (List.range (stageN x)).flatMap fun s => (List.range rows).map fun i => ⟨d, d.ix 0 i (stage0 x + s), d.dim0⟩

/-- FORMK of one stage: the values of the diagonal and lower triangle before the store, and the flags of its intermediates. No row of R83
gives those an index: an element of Wt has that of element (0, 0) of its stage, one of G its own (log entry 176). -/
def formStage (x : Cmd) (st sl ph : TDesc) (sv rv pv : List Dy) (idx : List Nat) (k : Nat) : Mat × List Ev :=
  let b := stageB x
  let base := st.ix 0 0 k
  let rows := idx.zipIdx.map fun p => (List.range b).map fun j => matAt sl sv k p.2 j
  let wt := (idx.zip rows).map fun p => rtoHb16 sl.cexp base (p.2.map fun v => (at_ rv p.1).mul v)
  let el := fun i j =>
    let ix := st.ix j i k
    let g := accumulate x.scl (groupsOf 16 ((rows.zip wt).map fun p => (at_ p.1 i).mul (at_ p.2.1 j)))
    let r := rtoHq32 st.frac ix g
    let p := if ph.dim1 = b && ph.dim0 = b && stage0 x + stageN x ≤ ph.dim2 then matAt ph pv k i j
      else if i = j then at_ pv (k * b + i) else Dy.zero
    (r.1.add p, r.2)
  (fun i j => (el i j).1,
   wt.flatMap (·.2) ++ (List.range b).flatMap fun i => (List.range (i + 1)).flatMap fun j => (el i j).2)

/-- The bytes of the row-index lists of the stages that a FORMK names (R500). -/
def Cmd.rowLists (x : Cmd) : Nat × Nat :=
  (x.preg + 2 * x.param 29 22 * stage0 x, x.preg + 2 * x.param 29 22 * (stage0 x + stageN x))

/-- FORMK (R112, R500). -/
def runFormk (x : Cmd) : ERes :=
  let b := stageB x
  let n := stageN x
  let k0 := stage0 x
  let r := x.param 29 22
  match x.o0.tens x.c [fmtHQ32], x.o1.tens x.c [fmtHB16], x.o2.tens x.c [fmtHQ32], x.o3.tens x.c [fmtHQ32] with
  | some st, some sl, some rho, some ph =>
    let phOk := (ph.dim0 == b && ph.dim1 == b && decide (k0 + n ≤ ph.dim2))
      || (ph.dim1 == 1 && ph.dim2 == 1 && (if x.sc.solved then ph.dim0 == x.sc.nVar else true) && decide ((k0 + n) * b ≤ ph.dim0))
    let rhoOk := rho.dim1 == 1 && rho.dim2 == 1 && (if x.sc.solved then rho.dim0 == x.sc.mCon else true)
    if !perStage x st || sl.dim0 ≠ b || sl.dim1 ≠ r || sl.dim2 < k0 + n || r < 16 || 128 < r || r % 16 ≠ 0 || !rhoOk || !phOk
        || x.f.preg = 0 || !inCore x.c x.rowLists.1 x.rowLists.2 then refusedCmd
    else
      let sv := sl.dys x.m
      let rv := rho.dys x.m
      let pv := ph.dys x.m
      let lists := (List.range n).map fun s => (List.range r).map fun q => Rd.le x.m (x.preg + 2 * (r * (k0 + s) + q)) 2
      let good := (lists.takeWhile fun l => l.all fun i => decide (i < rho.dim0)).length
      let stages := ((lists.take good).zipIdx).map fun p => formStage x st sl ph sv rv pv p.1 (k0 + p.2)
      let out := fun ix =>
        let k := ix / (b * b)
        let i := ix / b % b
        let j := ix % b
        if k0 ≤ k && j ≤ i then (stages[k - k0]?).map fun m => XV.num (m.1 i j) else none
      let w := storeTensor st x.rnd none out
      let per := 4 + 2 * ceilDiv r 16 * ceilDiv b 16 * ceilDiv b 16
      { fault := good ≠ n, dur := if good = n then n * per else good * per + 1, writes := w.1,
        evs := (stages.flatMap (·.2)) ++ w.2,
        rd := stageRows x sl r ++ rho.rows ++ ph.rows, aux := [x.rowLists], wr := triRows x st }
  | _, _, _, _ => refusedCmd

/-- The pivot rule (R131): the pivot to use, and the kind of a replacement. -/
def pivotRule (tau delta : Dy) (fB fI ix : Nat) (d : Dy) : Dy × Nat × List Ev :=
  let kind : Nat :=
    if Dy.le d.abs tau then (if d.m = 0 then 1 else 2)
    else if Dy.le d.abs ⟨1, (fI : Int) - 31⟩ then 3 else 0
  if kind = 0 then (d, 0, [])
  else
    let r := rtoHq32 fB ix (.num (if d.m < 0 then delta.neg else delta))
    (r.1, kind, r.2)

/-- The state of FACT in one stage: the working matrix, the strict lower triangle L, the diagonal dinv, events and pivots. -/
structure FactSt where
  b : Mat
  l : Mat
  dinv : Nat → Dy
  evs : List Ev
  piv : List Pivot

/-- One column of FACT (R112). -/
def factCol (st : TDesc) (tau delta : Dy) (fI k n : Nat) (s : FactSt) (j : Nat) : FactSt :=
  let fB := st.frac
  let p := pivotRule tau delta fB fI (st.ix j j k) (s.b j j)
  let piv := if p.2.1 = 0 then s.piv else s.piv ++ [⟨k, j, p.2.1⟩]
  let di := rtoHq32 fI (st.ix j j k) (if p.1.m = 0 then .sat false else .num (Dy.div 128 ⟨1, 0⟩ p.1))
  let below := (List.range n).filter fun i => j < i
  let ls := below.map fun i => (i, rtoHq32 fB (st.ix j i k) (.num ((s.b i j).mul di.1)))
  let l := ls.foldl (fun (l : Mat) q => l.put q.1 j q.2.1) s.l
  let us := below.flatMap fun i => (below.filter fun c => c ≤ i).map fun c =>
    (i, c, rtoHq32 fB (st.ix c i k) (.num ((s.b i c).sub ((l i j).mul (s.b c j)))))
  { b := us.foldl (fun (m : Mat) q => m.put q.1 q.2.1 q.2.2.1) s.b
    l := l
    dinv := fun q => if q = j then di.1 else s.dinv q
    evs := s.evs ++ p.2.2 ++ di.2 ++ ls.flatMap (fun q => q.2.2) ++ us.flatMap fun q => q.2.2.2
    piv := piv }

/-- FACT of one stage (R112, R131). -/
def factStage (st : TDesc) (tau delta : Dy) (fI : Nat) (vs : List Dy) (n k : Nat) : FactSt :=
  (List.range n).foldl (factCol st tau delta fI k n)
    ⟨fun i j => matAt st vs k i j, fun _ _ => Dy.zero, fun _ => Dy.zero, [], []⟩

/-- FACT (R112, R131, R500). The strict lower triangle takes L in fraction length fB, the diagonal dinv in fI. -/
def runFact (x : Cmd) : ERes :=
  let b := stageB x
  let n := stageN x
  let k0 := stage0 x
  let fI := x.param 27 22
  match x.o0.tens x.c [fmtHQ32] with
  | some st =>
    if !perStage x st || 62 < fI then refusedCmd
    else
      let vs := st.dys x.m
      let tau : Dy := ⟨sgn 32 x.sc.tau, -30⟩
      let delta : Dy := ⟨sgn 32 x.sc.delta, -30⟩
      let stages := (List.range n).map fun s => factStage st tau delta fI vs b (k0 + s)
      let get := fun ix => stages[ix / (b * b) - k0]?
      let low := fun ix =>
        if k0 ≤ ix / (b * b) && ix % b < ix / b % b then (get ix).map fun t => XV.num (t.l (ix / b % b) (ix % b)) else none
      let dia := fun ix =>
        if k0 ≤ ix / (b * b) && ix % b = ix / b % b then (get ix).map fun t => XV.num (t.dinv (ix % b)) else none
      let w1 := storeTensor st .rto none low
      let w2 := storeTensor { st with frac := fI } .rto none dia
      { dur := n * b * (2 + 4 * ceilDiv b 16), writes := w1.1 ++ w2.1, evs := stages.flatMap (·.evs) ++ w1.2 ++ w2.2,
        pivots := stages.flatMap (·.piv), rd := triRows x st, wr := triRows x st }
  | none => refusedCmd

/-- The negation of an accumulator's content. -/
def XV.negate : XV → XV
  | .num v => .num v.neg
  | .sat n => .sat (!n)
  | .inf n => .inf (!n)
  | .nan => .nan

/-- W of INVBLK in one stage (R112): column by column. W[j][j] is 1 exactly, also where fB is 31 and HQ32 could not hold it, as W never
leaves the engine (log entry 177). The groups of 16 of each sum begin at its first term, c = j (log entry 220). -/
def invW (x : Cmd) (st mv : TDesc) (vs : List Dy) (b k : Nat) : Mat × List Ev :=
  let cells := (List.range b).flatMap fun j => ((List.range b).filter fun i => j < i).map fun i => (i, j)
  cells.foldl (fun (p : Mat × List Ev) q =>
    let i := q.1
    let j := q.2
    let cs := (List.range i).filter fun c => j ≤ c
    let a := accumulate x.scl (groupsOf 16 (cs.map fun c => (matAt st vs k i c).mul (p.1 c j)))
    let r := rtoHq32 st.frac (mv.ix j i k) a.negate
    (p.1.put i j r.1, p.2 ++ r.2)) (fun i j => if i = j then ⟨1, 0⟩ else Dy.zero, [])

/-- INVBLK of one stage: the lower triangle of Minv before the store, and the flags of its intermediates, each at the index of the element of
Minv in its place (log entry 176). The groups of 16 of each sum begin at its first term, k = i (log entry 220). -/
def invStage (x : Cmd) (st mv : TDesc) (vs : List Dy) (fI b k : Nat) : (Nat → Nat → XV) × List Ev :=
  let w := invW x st mv vs b k
  let v := fun r c => rtoHq32 st.frac (mv.ix c r k)
    (.num ((Dy.mk (matAt st vs k r r).m (-(fI : Int))).mul (w.1 r c)))
  let el := fun i c => accumulate x.scl (groupsOf 16
    (((List.range b).filter fun r => i ≤ r).map fun r => (w.1 r i).mul (v r c).1))
  (fun i c => if i < c then el c i else el i c,
   w.2 ++ (List.range b).flatMap fun r => (List.range (r + 1)).flatMap fun c => (v r c).2)

/-- INVBLK (R112, R500): Minv in full, rounded with RNE, one fine exponent for each stage (R59). -/
def runInvblk (x : Cmd) : ERes :=
  let b := stageB x
  let n := stageN x
  let k0 := stage0 x
  let fI := x.param 27 22
  match x.o0.tens x.c [fmtHQ32], x.o1.tens x.c [fmtHB16] with
  | some st, some mv =>
    if !perStage x st || !perStage x mv || 62 < fI then refusedCmd
    else
      let vs := st.dys x.m
      let stages := (List.range n).map fun s => invStage x st mv vs fI b (k0 + s)
      let w := (stages.zipIdx).map fun q =>
        let k := k0 + q.2
        let ixs := (List.range (b * b)).map fun i => k * (b * b) + i
        let r := storeTensor mv .rne (some ixs) fun ix =>
          if ix / (b * b) = k then some (q.1.1 (ix / b % b) (ix % b)) else none
        (r.1, q.1.2 ++ r.2)
      { dur := n * (4 * b * ceilDiv b 16 + 6), writes := w.flatMap (·.1), evs := w.flatMap (·.2), rd := triRows x st, wr := stageRows x mv b }
  | _, _ => refusedCmd

/-! ### The LTE (R47, R71) -/

/-- One output row of LMATV (R71): each cycle's exact sum added with saturation, which is not sticky; whether it saturated. -/
def lteRow (k : Nat) (ps : List Int) : Int × Bool :=
  ((List.range (ceilDiv ps.length k)).map fun i => ((ps.drop (i * k)).take k).foldl (· + ·) 0).foldl
    (fun (a : Int × Bool) x =>
      let z := a.1 + x
      if z < -pow2 31 then (-pow2 31, true) else if pow2 31 - 1 < z then (pow2 31 - 1, true) else (z, a.2)) (0, false)

/-- LMATV (R71): as many results as the destination has elements, each a row of the weights' plane 0 times the activations, both INT8 or
both INT4. -/
def runLmatv (x : Cmd) : ERes :=
  match x.o0.tens x.c [fmtHQ16, fmtHQ32], x.o1.tens x.c [fmtINT8, fmtINT4], x.o2.tens x.c [fmtINT8, fmtINT4] with
  | some d, some wd, some ad =>
    if wd.fmt ≠ ad.fmt then refusedCmd
    else
      let k := if wd.fmt = fmtINT8 then 64 else 128
      let wv := wd.dys x.m
      let av := (ad.dysIn x 2 wd.dim0).map (·.m)
      let rows := (List.range d.n).map fun i => lteRow k ((List.range wd.dim0).map fun q =>
        (matIn x 1 wd wv 0 i q).m * av.getD q 0)
      let g : Int := -((wd.frac + ad.frac : Nat) : Int)
      let w := storeTensor d x.rnd none fun i => (rows[i]?).map fun r => XV.num ⟨r.1, g⟩
      { dur := ceilDiv d.n 32 * ceilDiv wd.dim0 k + 4, writes := w.1,
        evs := (rows.zipIdx).flatMap (fun p => if p.1.2 then [(fSat, p.2), (fRange, p.2)] else []) ++ w.2,
        rd := wd.part 1 d.n wd.dim0 ++ ad.rows, wr := d.rows }
  | _, _, _ => refusedCmd

def specDgemm : CmdSpec := { e := .dbe, opc := 0x60, kinds := ⟨.tens, .tens, .tens, .none⟩, run := runDgemm }
def specBdapply : CmdSpec :=
  { e := .dbe, opc := 0x61, kinds := ⟨.tens, .tens, .tens, .none⟩, reloc := .active1, run := runBdapply }
def specFormk : CmdSpec :=
  { e := .dbe, opc := 0x62, kinds := ⟨.tens, .tens, .tens, .tens⟩, reloc := .staged0, run := runFormk }
def specFact : CmdSpec :=
  { e := .dbe, opc := 0x63, kinds := ⟨.tens, .none, .none, .none⟩, roles := ⟨[0], [0]⟩, reloc := .staged0, run := runFact }
def specInvblk : CmdSpec :=
  { e := .dbe, opc := 0x64, kinds := ⟨.tens, .tens, .none, .none⟩, roles := ⟨[0], [1]⟩, reloc := .staged01, run := runInvblk }
def specLmatv : CmdSpec := { e := .lte, opc := 0xC0, kinds := ⟨.tens, .tens, .tens, .none⟩, run := runLmatv }

/-- DGEMM (R256). -/
def execDgemm (c k : Nat) (f : LFields) (s : State) : Out := issueCmd c k specDgemm f s
/-- BDAPPLY (R114, R256). -/
def execBdapply (c k : Nat) (f : LFields) (s : State) : Out := issueCmd c k specBdapply f s
/-- FORMK (R112, R256). -/
def execFormk (c k : Nat) (f : LFields) (s : State) : Out := issueCmd c k specFormk f s
/-- FACT (R112, R256). -/
def execFact (c k : Nat) (f : LFields) (s : State) : Out := issueCmd c k specFact f s
/-- INVBLK (R112, R256). -/
def execInvblk (c k : Nat) (f : LFields) (s : State) : Out := issueCmd c k specInvblk f s
/-- LMATV (R71, R256); an unknown opcode on a core without an LTE (R255). -/
def execLmatv (c k : Nat) (f : LFields) (s : State) : Out := issueCmd c k specLmatv f s

end Sys2Proof.Machine
end

