-- ==== Sys2Proof/Machine/EngRu.lean ====
section
/-!
DEFINITION. The RU's exact accumulator and its commands RDOT, RSPMV and RMUL (R72 to R78, R92, R105, R501).
-/

namespace Sys2Proof.Machine

/-- An operand of an RU product (R74): its value, the weight exponent of its least significant bit, its magnitude width, and
whether it is of a block format. -/
structure RuTerm where
  v : XV
  lam : Int
  w : Nat
  blk : Bool
deriving DecidableEq, Repr

/-- The width and weight of an HF24 operand (R74). -/
def hfTerm (b : Nat) : RuTerm :=
  let x := natBits b 22 15
  if x = 0 then ⟨XV.ofHV (hfVal b), -141, 15, false⟩ else ⟨XV.ofHV (hfVal b), (x : Int) - 142, 16, false⟩

/-- An element with these bits and fine exponent as an RU operand (R74). -/
def rawTerm (d : TDesc) (e raw : Nat) : RuTerm :=
  match d.fmt with
  | 5 => hfTerm (raw % 0x1000000)
  | 3 => ⟨decodeElem 3 d.frac d.cexp e raw, lsbExp 3 0 d.cexp e, 7, true⟩
  | 4 => ⟨decodeElem 4 d.frac d.cexp e raw, lsbExp 4 0 d.cexp e, 15, true⟩
  | f => ⟨decodeElem f d.frac d.cexp e raw, -(d.frac : Int), elemBits f, false⟩

/-- Element `i` of operand `op` as an RU operand; a tail element is +0 (R40), and one outside its shape is open (log entry 30). -/
def TDesc.term (d : TDesc) (x : Cmd) (op i : Nat) : RuTerm :=
  if i < d.n then rawTerm d (if isBlock d.fmt then d.fine x.m i else 0) (d.raw x.m i)
  else if d.tail i then rawTerm d (d.fine x.m i) 0
  else rawTerm d (Config.cmdFree x.key x.data [1, op, i] % 16) (Config.cmdFree x.key x.data [0, op, i] % 2 ^ elemBits d.fmt)

/-- The first `n` elements of operand `op` as RU operands. -/
def TDesc.terms (d : TDesc) (x : Cmd) (op n : Nat) : List RuTerm := (List.range n).map (d.term x op)

/-- The operand 1 by which an initial term is multiplied (R76). R74 has no row for it: its span is that of the integer 1, weight 0 and
width 1 (log entry 172). -/
def oneTerm : RuTerm := ⟨.num ⟨1, 0⟩, 0, 1, false⟩

/-- A product: its exact value, an infinity, with whether both operands are infinite, or a special of R45. -/
inductive PVal where
  | nan
  | invalid
  | inf (neg both : Bool)
  | num (x : Dy)
deriving DecidableEq, Repr

def XV.neg? : XV → Bool
  | .num x => decide (x.m < 0)
  | .inf n => n
  | .sat n => n
  | .nan => false

/-- The exact product of two operands, negated when NEG is 1 (R73, R76). -/
def termMul (neg : Bool) (a b : RuTerm) : PVal :=
  match a.v, b.v with
  | .nan, _ => .nan
  | _, .nan => .nan
  | .num x, .num y => .num (if neg then (x.mul y).neg else x.mul y)
  | .num x, y => if x.m = 0 then .invalid else .inf ((decide (x.m < 0) != y.neg?) != neg) false
  | x, .num y => if y.m = 0 then .invalid else .inf ((x.neg? != decide (y.m < 0)) != neg) false
  | x, y => .inf ((x.neg? != y.neg?) != neg) true

/-- States of the accumulator (R76). -/
inductive RuSt where
  | num (a : Int)
  | sat (neg : Bool)
  | inf (neg : Bool)
  | nan
deriving DecidableEq, Repr

/-- The flags of R73 and R74 for a product and the state after it (R76). The anchor is `a`. R75 keeps the sum exact, without a flag, while
`exact` holds (log entry 43). A product of two infinities is not in the row of R76 that leads to INFP or INFN, and leaves the state
with its flags; one of the other sign in INFP or INFN leads to NAN with INVALID alone (log entry 173). -/
def ruStep (a : Int) (st : RuSt) (p : PVal) (lo hi : Int) (blk exact : Bool) : RuSt × List Nat :=
  let scale := fun (fl : List Nat) =>
    if blk && (fl.contains fLoss || fl.contains fOvf) && (decide (hi < a) || decide (a + 176 ≤ lo)) then fl ++ [fScale] else fl
  match p with
  | .nan => (.nan, [])
  | .invalid => (.nan, [fInvalid])
  | .inf neg both =>
    match st with
    | .num y => (if both then .num y else .inf neg, scale [fOvf])
    | .sat m => (if both then .sat m else .inf neg, scale [fOvf])
    | .inf m => if m = neg then (.inf m, scale [fOvf]) else (.nan, [fInvalid])
    | .nan => (.nan, scale [fOvf])
  | .num x =>
    if x.m = 0 then (st, [])
    else if !(Dy.lt x.abs ⟨1, a + 176⟩) then
      (match st with
        | .num _ => .sat (decide (x.m < 0))
        | t => t, scale [fOvf])
    else if Dy.lt x.abs ⟨1, a⟩ then (st, scale [fLoss])
    else
      let q : Int := if a ≤ x.e then x.abs.mant a else x.abs.m / pow2 (a - x.e).toNat
      let whole := decide (a ≤ x.e) || decide (x.abs.m % pow2 (a - x.e).toNat = 0)
      let fl := if whole then [] else [fLoss]
      match st with
      | .num y =>
        let z := if x.m < 0 then y - q else y + q
        if exact && whole then (.num z, [])
        else if z < -pow2 191 then (.sat true, scale (fl ++ [fOvf]))
        else if pow2 191 - 1 < z then (.sat false, scale (fl ++ [fOvf]))
        else (.num z, scale fl)
      | t => (t, scale fl)

/-- A dot product's progress: its state, whether R75 keeps it exact, and the flag events by term index (R83), which run on across the
command. -/
structure RuAcc where
  st : RuSt
  exact : Bool
  idx : Nat
  evs : List Ev
deriving DecidableEq, Repr

/-- One term of a dot product; a term that raises LOSS or OVF ends the exact sum of R75. -/
def ruTerm (a : Int) (neg : Bool) (r : RuAcc) (x y : RuTerm) : RuAcc :=
  let p := ruStep a r.st (termMul neg x y) (x.lam + y.lam) (x.lam + y.lam + x.w + y.w - 1) (x.blk || y.blk) r.exact
  { st := p.1, exact := r.exact && p.2 = [], idx := r.idx + 1, evs := r.evs ++ p.2.map (fun f => (f, r.idx)) }

/-- One dot product (R76): the initial term, if any, then the products. R75 keeps the sum of at most 32,768 products exact. -/
def ruDot (a : Int) (neg : Bool) (r : RuAcc) (init : Option RuTerm) (ps : List (RuTerm × RuTerm)) : RuAcc :=
  let r : RuAcc := { r with st := .num 0, exact := ps.length ≤ 32768 }
  ps.foldl (fun r p => ruTerm a neg r p.1 p.2) (match init with
    | some t => ruTerm a false r t oneTerm
    | none => r)

/-- What a dot product writes (R77). -/
def RuSt.val (a : Int) : RuSt → XV
  | .num x => .num ⟨x, a⟩
  | .sat n => .sat n
  | .inf n => .inf n
  | .nan => .nan

/-- The formats of RU operands, initial terms and results (R52, R64). -/
def ruRead : List Nat := [fmtHQ32, fmtHQ64, fmtHB16, fmtHB8, fmtHF24]
def ruOut : List Nat := [fmtHQ32, fmtHQ64, fmtHF24]

/-- The pairs the RU multiplies (R64): HQ64 only as the first operand of an HQ64 by HQ32 product; the others in either order. -/
def ruPair (a b : Nat) : Bool :=
  (a == b && a ≠ fmtHQ64) || (a == fmtHB16 && b == fmtHQ32) || (a == fmtHQ32 && b == fmtHB16)
  || (a == fmtHB8 && b == fmtHQ32) || (a == fmtHQ32 && b == fmtHB8) || (a == fmtHQ64 && b == fmtHQ32)

/-- The events of an RU command: INVALID of a write counts only when no product raised it (R83). -/
def ruEvents (prod write : List Ev) : List Ev :=
  if prod.any fun e => e.1 == fInvalid then prod ++ write.filter fun e => e.1 ≠ fInvalid else prod ++ write

/-- Put the results of an RU command into its destination (R77, R501). A flag of the write of a scalar has index 0 (log entry 174). -/
def ruFinish (x : Cmd) (o : Opnd) (d : Option TDesc) (r : RuAcc) (val : Nat → Option XV) (base : ERes) : ERes :=
  match o, d with
  | .scalar _ _, _ =>
    match val 0 with
    | some v =>
      let w := storeScalar fmtHQ64 (x.param 31 26) x.rnd v
      { base with reg := some w.1, evs := ruEvents r.evs (w.2.map fun f => (f, 0)) }
    | none => { base with evs := r.evs }
  | _, some d =>
    let w := storeTensor d x.rnd none val
    { base with writes := w.1, evs := ruEvents r.evs w.2, wr := d.rows }
  | _, none => base

def ruStart : RuAcc := ⟨.num 0, false, 0, []⟩

/-- The destination of an RU command: a tensor, or a scalar (R501). -/
def ruDest (x : Cmd) : Option (Option TDesc) :=
  match x.o0 with
  | .tensor d => if d.ok x.c ruOut then some (some d) else none
  | .scalar _ _ => some none
  | _ => none

/-- The initial term of RDOT, with the element it reads: a scalar is HQ64, and its fraction length is not stated (R64, R498, log entry 40);
of a tensor it is element 0. -/
def rdotInit (x : Cmd) : Option (Option (RuTerm × List Run)) :=
  match x.o3 with
  | .none => some none
  | .scalar _ w =>
    let q := Config.cmdFree x.key [] [2] % 63
    some (some (⟨decodeElem fmtHQ64 q 0 0 w, -(q : Int), 64, false⟩, []))
  | .tensor d => if d.ok x.c ruRead then some (some (d.term x 3 0, [⟨d, 0, 1⟩])) else none
  | .wrong => none

/-- RDOT: one dot product of as many terms as OP1 has elements; it is element 0 of a tensor destination. -/
def runRdot (x : Cmd) : ERes :=
  match x.o1.tens x.c ruRead, x.o2.tens x.c ruRead, ruDest x, rdotInit x with
  | some a, some b, some dst, some init =>
    if !ruPair a.fmt b.fmt then refusedCmd
    else
      let r := ruDot x.scl (x.param 0 0 == 1) ruStart (init.map (·.1)) ((a.terms x 1 a.n).zip (b.terms x 2 a.n))
      ruFinish x x.o0 dst r (fun i => if i = 0 then some (r.st.val x.scl) else none)
        { dur := ceilDiv a.n 16, rd := a.rows ++ b.rows ++ (init.map (·.2)).getD [], bits := x.o3.scalarIn fmtHQ64 }
  | _, _, _, _ => refusedCmd

/-- RMUL: element-wise exact products, each one dot product, one for each element of the destination. -/
def runRmul (x : Cmd) : ERes :=
  match x.o1.tens x.c ruRead, x.o2.tens x.c ruRead, ruDest x with
  | some a, some b, some dst =>
    if !ruPair a.fmt b.fmt then refusedCmd
    else
      let n := (dst.map TDesc.n).getD 1
      let r := ((a.terms x 1 n).zip (b.terms x 2 n)).foldl (fun (p : RuAcc × List XV) t =>
        let r := ruDot x.scl (x.param 0 0 == 1) p.1 none [t]
        (r, p.2 ++ [r.st.val x.scl])) (ruStart, [])
      ruFinish x x.o0 dst r.1 (fun i => r.2[i]?) { dur := ceilDiv n 16, rd := a.rows ++ b.rows }
  | _, _, _ => refusedCmd

/-- RSPMV (R105): each output row one dot product, its initial term first. R103 compares a destination's DIM0 with NROWS; a scalar
destination counts as DIM0 = 1 (log entry 219). -/
def runRspmv (x : Cmd) : ERes :=
  let h := patHead x.m x.preg
  let dst : Option (Option TDesc) := match x.o0 with
    | .tensor d => if d.ok x.c ruOut then some (some d) else none
    | .scalar _ _ => some none
    | _ => none
  let init : Option (Option TDesc) := match x.o3 with
    | .tensor d => if d.ok x.c ruRead then some (some d) else none
    | _ => some none
  match x.o1.tens x.c ruRead, x.o2.tens x.c ruRead, dst, init with
  | some v, some xv, some dst, some init =>
    if !ruPair v.fmt xv.fmt then refusedCmd
    else if !patOk x.c x.m x.preg || (match dst with | some d => d.dim0 | none => 1) ≠ h.nrows || xv.dim0 ≠ h.ncols
        || v.dim0 ≠ h.nnz || v.dim1 ≠ 1 || v.dim2 ≠ 1 || !x.o3.scalarReg.isEmpty
        || init.any (fun d => d.dim0 ≠ h.nrows || d.dim1 ≠ 1 || d.dim2 ≠ 1) then x.refusedPat
    else
      let (segs, bad) := patWalk h x.m x.preg h.nrec 0 none 0
      let n := rowsWritten h segs bad
      let r := (List.range n).foldl (fun (p : RuAcc × List XV) i =>
        let r := ruDot x.scl (x.param 0 0 == 1) p.1 (init.map fun d => d.term x 3 i)
          (((rowGroups segs i).flatten).map fun q => (v.term x 1 q.1, xv.term x 2 q.2))
        (r, p.2 ++ [r.st.val x.scl])) (ruStart, [])
      ruFinish x x.o0 dst r.1 (fun i => r.2[i]?)
        { fault := bad.isSome, dur := patCycles h 4 bad,
          rd := v.rows ++ xv.rows ++ (init.map TDesc.rows).getD [], prog := patBytes h x.preg,
          aux := patHeadBytes x.c x.preg }
  | _, _, _, _ => refusedCmd

def specRdot : CmdSpec :=
  { e := .ru, opc := 0xA0, kinds := ⟨.any, .tens, .tens, .opt⟩, run := runRdot }
def specRspmv : CmdSpec := { e := .ru, opc := 0xA1, kinds := ⟨.any, .tens, .tens, .opt⟩, run := runRspmv }
def specRmul : CmdSpec := { e := .ru, opc := 0xA2, kinds := ⟨.any, .tens, .tens, .none⟩, run := runRmul }

/-- RDOT (R256). -/
def execRdot (c k : Nat) (f : LFields) (s : State) : Out := issueCmd c k specRdot f s
/-- RSPMV (R105, R256). -/
def execRspmv (c k : Nat) (f : LFields) (s : State) : Out := issueCmd c k specRspmv f s
/-- RMUL (R256). -/
def execRmul (c k : Nat) (f : LFields) (s : State) : Out := issueCmd c k specRmul f s

end Sys2Proof.Machine
end

