-- ==== Sys2Proof/Machine/EngSe.lean ====
section
/-!
DEFINITION. The SE's commands: SPMV and VSCALE (R66 to R68, R99 to R104).
-/

namespace Sys2Proof.Machine

/-- The formats an SE vector operand may have, and those of an SE result (R52). -/
def seVec : List Nat := [fmtHB16, fmtHQ32]
def seOut : List Nat := [fmtHQ32, fmtHB16]

/-- The products of a listing as numbers. -/
def prodsOf (vs xs : List Dy) (l : List (Nat × Nat)) : List Dy := l.map fun p => (at_ vs p.1).mul (at_ xs p.2)

/-- SPMV on the SE. -/
def runSpmv (x : Cmd) : ERes :=
  match x.o0.tens x.c seOut, x.o1.tens x.c [fmtHB16], x.o2.tens x.c seVec with
  | some d, some v, some xv =>
    let h := patHead x.m x.preg
    if !patOk x.c x.m x.preg || d.dim0 ≠ h.nrows || xv.dim0 ≠ h.ncols || v.dim0 ≠ h.nnz || v.dim1 ≠ 1 || v.dim2 ≠ 1 then x.refusedPat
    else
      let (segs, bad) := patWalk h x.m x.preg h.nrec 0 none 0
      let vs := v.dys x.m
      let xs := xv.dys x.m
      let n := rowsWritten h segs bad
      let row := fun i => if i < n then some (accumulate x.scl ((rowGroups segs i).map (prodsOf vs xs))) else none
      let w := storeTensor d x.rnd none row
      { fault := bad.isSome, dur := patCycles h 1 bad, writes := w.1, evs := w.2,
        rd := v.rows ++ xv.rows, prog := patBytes h x.preg, aux := patHeadBytes x.c x.preg, wr := d.rows }
  | _, _, _ => refusedCmd

/-- VSCALE on the SE (R104): element `n` of the destination is value `n` times its gathered element. It has no rows, so one that faults
during execution has written every whole block of 16 values that the records before the fault took (R103, log entry 171). -/
def runVscale (x : Cmd) : ERes :=
  match x.o0.tens x.c [fmtHB16], x.o1.tens x.c [fmtHB16], x.o2.tens x.c seVec with
  | some d, some v, some xv =>
    let h := patHead x.m x.preg
    if !patOk x.c x.m x.preg || d.dim0 ≠ h.nnz || d.dim1 ≠ 1 || d.dim2 ≠ 1 || xv.dim0 ≠ h.ncols
        || v.dim0 ≠ h.nnz || v.dim1 ≠ 1 || v.dim2 ≠ 1 then x.refusedPat
    else
      let (segs, bad) := patWalk h x.m x.preg h.nrec 0 none 0
      let vs := v.dys x.m
      let xs := xv.dys x.m
      let ps := segs.flatMap (·.prods)
      let el := fun i => (ps.find? fun p => p.1 == i).map fun p => XV.num ((at_ vs p.1).mul (at_ xs p.2))
      let w := storeTensor d x.rnd none el
      { fault := bad.isSome, dur := patCycles h 1 bad, writes := w.1, evs := w.2,
        rd := v.rows ++ xv.rows, prog := patBytes h x.preg, aux := patHeadBytes x.c x.preg, wr := d.rows }
  | _, _, _ => refusedCmd

def specSpmv : CmdSpec := { e := .se, opc := 0x40, kinds := ⟨.tens, .tens, .tens, .none⟩, run := runSpmv }
def specVscale : CmdSpec := { e := .se, opc := 0x41, kinds := ⟨.tens, .tens, .tens, .none⟩, run := runVscale }

/-- SPMV (R256). -/
def execSpmv (c k : Nat) (f : LFields) (s : State) : Out := issueCmd c k specSpmv f s
/-- VSCALE (R104, R256). -/
def execVscale (c k : Nat) (f : LFields) (s : State) : Out := issueCmd c k specVscale f s

end Sys2Proof.Machine
end

