-- ==== Sys2Proof/Machine/EngVe.lean ====
section
/-!
DEFINITION. The VE's commands: element-wise operations, conversions, SHIFT and the reductions (R60, R70, R116, R501, R502).
-/

namespace Sys2Proof.Machine

/-- The formats the VE reads and writes (R52). -/
def veFmts : List Nat := [fmtHQ16, fmtHQ32, fmtHQ64, fmtHB8, fmtHB16, fmtHF24]

/-- The HF24 bits of an exact HF24 value. -/
def hfOfXV : XV → Nat
  | .num x => (hfRound .rne x).1
  | .inf n => hfInf n
  | .sat n => hfInf n
  | .nan => hfNaN

/-- The finest grid of a destination, onto which VMADD rounds its product (R70). -/
def fineGrid (d : TDesc) : Int :=
  match d.fmt with
  | 3 => d.cexp - 21
  | 4 => d.cexp - 29
  | _ => -(d.frac : Int)

/-- One element of an element-wise command, before the store: the sources' values, the destination and the rounding mode. -/
abbrev ElemOp := TDesc → Rnd → List XV → XV × List Nat

/-- Source `i` of an element. -/
def arg (l : List XV) (i : Nat) : XV := l.getD i (.num Dy.zero)

/-- The exact sum of two values, with the specials of R45. -/
def XV.plus : XV → XV → XV × List Nat
  | .nan, _ => (.nan, [])
  | _, .nan => (.nan, [])
  | .num x, .num y => (.num (x.add y), [])
  | .num _, y => (y, [])
  | x, .num _ => (x, [])
  | x, y => if x == y then (x, []) else (.nan, [fInvalid])

/-- The exact product of two values, with the specials of R45. -/
def XV.times : XV → XV → XV × List Nat
  | .nan, _ => (.nan, [])
  | _, .nan => (.nan, [])
  | .num x, .num y => (.num (x.mul y), [])
  | .num x, .inf s => if x.m = 0 then (.nan, [fInvalid]) else (.inf (s != decide (x.m < 0)), [])
  | .num x, .sat s => if x.m = 0 then (.nan, [fInvalid]) else (.inf (s != decide (x.m < 0)), [])
  | .inf s, .num x => if x.m = 0 then (.nan, [fInvalid]) else (.inf (s != decide (x.m < 0)), [])
  | .sat s, .num x => if x.m = 0 then (.nan, [fInvalid]) else (.inf (s != decide (x.m < 0)), [])
  | .inf s, .inf t => (.inf (s != t), [])
  | .inf s, .sat t => (.inf (s != t), [])
  | .sat s, .inf t => (.inf (s != t), [])
  | .sat s, .sat t => (.inf (s != t), [])

/-- A value with its sign changed; a zero has none (R44). -/
def negXV : XV → XV
  | .num x => .num x.neg
  | .inf n => .inf (!n)
  | .sat n => .sat (!n)
  | .nan => .nan

/-- A value's magnitude. -/
def absXV : XV → XV
  | .num x => .num x.abs
  | .inf _ => .inf false
  | .sat _ => .sat false
  | .nan => .nan

/-- An operation on two sources by its exact form; the store rounds it once (R45, R57, R70). -/
def binOp (f : XV → XV → XV × List Nat) : ElemOp := fun _ _ l => f (arg l 0) (arg l 1)

/-- The product of VMADD, rounded for the destination (R70): by R45 for HF24, otherwise onto the finest grid with no limit and
no flag. -/
def maddProduct (d : TDesc) (r : Rnd) (x y : XV) : XV × List Nat :=
  let p := x.times y
  if d.fmt = fmtHF24 then
    let h := storeHF r p.1
    (XV.ofHV (hfVal h.1), p.2 ++ h.2)
  else match p.1 with
    | .num v => (.num ⟨(v.round r (fineGrid d)).1, fineGrid d⟩, p.2)
    | v => (v, p.2)

/-- VMADD: the product rounded, then the sum (R70). -/
def maddOp : ElemOp := fun d r l =>
  let p := maddProduct d r (arg l 1) (arg l 2)
  let q := (arg l 0).plus p.1
  (q.1, p.2 ++ q.2)

/-- Exact order of values, false with a NaN (R46). -/
def XV.lt : XV → XV → Bool
  | .num x, .num y => x.lt y
  | .inf s, .inf t => s && !t
  | .inf s, .num _ => s
  | .num _, .inf t => !t
  | _, _ => false

/-- Equality of values, false with a NaN (R46, R502). -/
def XV.eqv : XV → XV → Bool
  | .num x, .num y => x.eqv y
  | .inf s, .inf t => s == t
  | _, _ => false

/-- VCLAMP (R502). -/
def clampOp : ElemOp := fun _ _ l =>
  if (arg l 0).lt (arg l 1) then (arg l 1, [])
  else if (arg l 2).lt (arg l 0) then (arg l 2, [])
  else (arg l 0, [])

/-- Whether the formats of two sources agree (R64): one format, or two HQ formats, which R108 mixes (log entry 27). -/
def fmtsAgree (a b : Nat) : Bool := a == b || (isHQ a && isHQ b)

/-- The values of source operand `op`, one for each element of the destination; one that a tensor does not have is open (log entry 30). -/
def srcVals (x : Cmd) (d : TDesc) (op : Nat) : Option (List XV) :=
  match x.op op with
  | .tensor t => if t.ok x.c veFmts then some (t.valsIn x op d.n) else none
  | .scalar _ w => some (List.replicate d.n (scalarVal d.fmt d.frac w))
  | _ => none

/-- The format of a tensor source, if it is one. -/
def Opnd.fmt? (o : Opnd) : Option Nat := o.tensor?.map (·.fmt)

/-- The elements a source reads. -/
def Opnd.readRows : Opnd → List Run
  | .tensor t => t.rows
  | _ => []

/-- The formats that the sources of a command must agree in (R52, R64, R502): those of its tensors, and the format of OP0 where a scalar
source is read in it (log entry 28). -/
def srcFmts (x : Cmd) (fmt : Nat) (srcs : List Nat) : List Nat :=
  (srcs.map x.op).filterMap Opnd.fmt? ++ if srcs.any (fun i => !(x.op i).scalarReg.isEmpty) then [fmt] else []

/-- L of R256: 32 when a tensor operand or destination is HQ64. -/
def lanesOf (x : Cmd) : Nat :=
  if [x.o0, x.o1, x.o2, x.o3].any fun o => o.fmt? == some fmtHQ64 then 32 else 64

/-- Combine the lists of source values into one list of arguments for each element. -/
def zipArgs (n : Nat) (ls : List (List XV)) : List (List XV) := (List.range n).map fun i => ls.map fun l => l.getD i (.num Dy.zero)

/-- An element-wise command with its sources among OP1 to OP3, by number (R70). -/
def runElem (srcs : List Nat) (agree : List Nat → Bool) (op : ElemOp) (x : Cmd) : ERes :=
  match x.o0.tens x.c veFmts with
  | none => refusedCmd
  | some d =>
    match (srcs.map (srcVals x d)).foldr (fun a b => a.bind fun a => b.map fun b => a :: b) (some []) with
    | none => refusedCmd
    | some ls =>
      if !agree (srcFmts x d.fmt srcs) then refusedCmd
      else
        let rs := (zipArgs d.n ls).map (op d x.rnd)
        let w := storeTensor d x.rnd none fun i => (rs[i]?).map (·.1)
        { dur := ceilDiv d.n (lanesOf x), writes := w.1,
          evs := ((rs.zipIdx).flatMap fun p => p.1.2.map fun f => (f, p.2)) ++ w.2,
          rd := (srcs.map x.op).flatMap Opnd.readRows, wr := d.rows
          bits := (srcs.map x.op).flatMap (Opnd.scalarIn d.fmt) }

/-- The sources agree with each other (R64). -/
def agreeAll (l : List Nat) : Bool := match l with
  | [] => true
  | a :: t => t.all (fmtsAgree a)
/-- The operands of VSEL and of VCLAMP have one format (R502). -/
def agreeOne (l : List Nat) : Bool := match l with
  | [] => true
  | a :: t => t.all (· == a)

def runBin (op : ElemOp) (x : Cmd) : ERes := runElem [1, 2] agreeAll op x
def runUn (op : ElemOp) (x : Cmd) : ERes := runElem [1] agreeAll op x

/-- VSEL: the register values are read in the format of OP0 (R502). -/
def selOp (x : Cmd) : ElemOp := fun d _ l =>
  let r := if (arg l 0).eqv (arg l 1) then x.param 9 5 else x.param 4 0
  (scalarVal d.fmt d.frac (Tab.get 0 x.g r).toNat, [])

/-- VSEL, whose two registers are sources too. -/
def runVsel (x : Cmd) : ERes :=
  let r := runElem [1, 2] agreeOne (selOp x) x
  let fmt := (x.o0.fmt?).getD 0
  { r with bits := r.bits ++ [x.param 9 5, x.param 4 0].map fun q => scalarBits fmt (Tab.get 0 x.g q).toNat }

/-! ### SHIFT (R116) -/

/-- Whether two half-open ranges meet. -/
def meets (a b : Nat × Nat) : Bool := a.1 < b.2 && b.1 < a.2

/-- The bytes of the elements of each row of a tensor. -/
def TDesc.elemRuns (d : TDesc) : List (Nat × Nat) :=
  (List.range (d.dim1 * d.dim2)).map fun r => (d.addr (r * d.dim0), d.addr (r * d.dim0) + d.dim0 * elemBits d.fmt / 8)

/-- The scale nibbles of each row of a block tensor, counted from address 0 (R39). -/
def TDesc.nibRuns (d : TDesc) : List (Nat × Nat) :=
  (List.range (d.dim1 * d.dim2)).map fun r => (2 * d.sbase + d.nib (r * d.dim0), 2 * d.sbase + d.nib (r * d.dim0) + (d.dim0 + 15) / 16)

/-- Whether a range of one list meets a range of another. -/
def anyMeet (a b : List (Nat × Nat)) : Bool := a.any fun p => b.any (meets p)

/-- SHIFT: bits copied unchanged, every element read before it is written. Of no stages it writes nothing (log entry 175). -/
def runShift (x : Cmd) : ERes :=
  let len := x.param 15 0
  let n := x.param 23 16
  let tail := x.param 24 24 == 1
  match x.o0.tens x.c veFmts, x.o1.tens x.c veFmts with
  | some d, some t =>
    let blk := isBlock d.fmt
    if { d with base := 0, sbase := 0 } ≠ { t with base := 0, sbase := 0 } || (blk && len % 16 ≠ 0)
        || (blk && d.dim0 % 16 ≠ 0 && (1 < d.dim1 || 1 < d.dim2)) || d.n < n * len
        || (d.base ≠ t.base && anyMeet d.elemRuns t.elemRuns)
        || (blk && d.sbase ≠ t.sbase && anyMeet d.nibRuns t.nibRuns) then refusedCmd
    else
      let nb := elemBits d.fmt / 8
      let src := fun i => if i < (n - 1) * len then some (i + len) else if tail then none else some i
      let ix := List.range (n * len)
      let el := fun i => bytesAt (d.addr i) (toLE nb (((src i).map (t.raw x.m)).getD 0))
      let w : List Wr := if blk then
          (ix.filter fun i => i % d.dim0 % 16 = 0).map fun i =>
            ⟨(List.range 16).flatMap fun q => el (i + q), some (d.nibAt (d.nib i), ((src i).map (t.fine x.m)).getD 15)⟩
        else ix.map fun i => ⟨el i, none⟩
      { dur := ceilDiv d.n (lanesOf x), writes := w, rd := t.rows, wr := d.rows }
  | _, _ => refusedCmd

/-! ### Reductions (R70, R501) -/

/-- The 64 lanes of a reduction in the order of R70, with the flags of every step: terms `ts` added in turn, then the halving
tree. `add` gets the index of R83. -/
def reduce64 {α : Type} (zero : α) (add : α → α → Nat → α × List Ev) (ts : List α) : α × List Ev :=
  let p0 : List α × List Ev := (List.replicate 64 zero, [])
  let p1 := (ts.zipIdx).foldl (fun (p : List α × List Ev) t =>
    let r := add (p.1.getD (t.2 % 64) zero) t.1 t.2
    (p.1.set (t.2 % 64) r.1, p.2 ++ r.2)) p0
  let p2 := [32, 16, 8, 4, 2, 1].foldl (fun (p : List α × List Ev) w =>
    (List.range w).foldl (fun (p : List α × List Ev) l =>
      let r := add (p.1.getD l zero) (p.1.getD (l + w) zero) (l + w)
      (p.1.set l r.1, p.2 ++ r.2)) p) p1
  (p2.1.getD 0 zero, p2.2)

/-- A scalar destination's register value (R498, R501). A flag of the write has index 0 (log entry 174). -/
def scalarResult (x : Cmd) (fmt : Nat) (v : XV) (evs : List Ev) (base : ERes) : ERes :=
  let w := storeScalar fmt (x.param 31 26) x.rnd v
  { base with reg := some w.1, evs := evs ++ w.2.map fun f => (f, 0) }

/-- VDOT (R501). -/
def runVdot (x : Cmd) : ERes :=
  let hq := [fmtHQ16, fmtHQ32, fmtHQ64]
  match x.o1.tens x.c hq, x.o2.tens x.c hq with
  | some a, some b =>
    if a.fmt ≠ b.fmt then refusedCmd
    else
      let ps := ((a.dysIn x 1 a.n).zip (b.dysIn x 2 a.n)).map fun p => (Acc.num 0).add (p.1.m * p.2.m)
      let r := reduce64 (Acc.num 0) (fun p t _ => (p.join t, [])) ps
      scalarResult x fmtHQ64 (r.1.val (-((a.frac + b.frac : Nat) : Int))) []
        { dur := ceilDiv a.n (lanesOf x) + 5, rd := a.rows ++ b.rows }
  | _, _ => refusedCmd

/-- VMAXABS (R501). -/
def runVmaxabs (x : Cmd) : ERes :=
  match x.o1.tens x.c veFmts with
  | some a =>
    let vs := a.vals x.m
    let base : ERes := { dur := ceilDiv a.n (lanesOf x) + (if lanesOf x = 32 then 5 else 6), rd := a.rows }
    if a.fmt = fmtHF24 then
      let v : XV :=
        if vs.any fun v => v == .nan then .nan
        else if vs.any fun v => v == .inf true || v == .inf false then .inf false
        else .num (vs.foldl (fun m v => if m.lt v.dy.abs then v.dy.abs else m) Dy.zero)
      { base with reg := some (storeScalar fmtHF24 0 x.rnd v).1 }
    else scalarResult x fmtHQ64 (.num (vs.foldl (fun m v => if m.lt v.dy.abs then v.dy.abs else m) Dy.zero)) [] base
  | none => refusedCmd

/-- VSUMH (R70): the sum of HF24 terms, or with OP2 their dot product. -/
def runVsumh (x : Cmd) : ERes :=
  match x.o1.tens x.c [fmtHF24] with
  | some a =>
    let other : Option (Option TDesc) := match x.o2 with
      | .none => some none
      | .tensor d => if d.ok x.c [fmtHF24] then some (some d) else none
      | _ => none
    match other with
    | none => refusedCmd
    | some o =>
      let xs := (a.vals x.m).map hfOfXV
      let ts : List (Nat × List Nat) := match o with
        | none => xs.map fun t => (t, [])
        | some d => (xs.zip ((d.valsIn x 2 a.n).map hfOfXV)).map fun p => hfMul x.rnd p.1 p.2
      let r := reduce64 0 (fun p t i => let q := hfAdd x.rnd p t; (q.1, q.2.map fun f => (f, i))) (ts.map (·.1))
      { dur := 3 * ceilDiv a.n 64 + 18, reg := some (BitVec.ofNat 64 r.1),
        evs := ((ts.zipIdx).flatMap fun p => p.1.2.map fun f => (f, p.2)) ++ r.2,
        rd := a.rows ++ x.o2.readRows }
  | none => refusedCmd

def specVe (opc : Nat) (kinds : Kinds) (run : Cmd → ERes) : CmdSpec := { e := .ve, opc, kinds, run }
def specVsel : CmdSpec :=
  { e := .ve, opc := 0x87, kinds := ⟨.tens, .tens, .tens, .none⟩, srcs := fun x => [x.param 9 5, x.param 4 0]
    run := runVsel }

def specVadd : CmdSpec :=
  specVe 0x80 ⟨.tens, .src, .src, .none⟩ (runBin (binOp XV.plus))
def specVsub : CmdSpec :=
  specVe 0x81 ⟨.tens, .src, .src, .none⟩ (runBin (binOp fun x y => x.plus (negXV y)))
def specVmul : CmdSpec :=
  specVe 0x82 ⟨.tens, .src, .src, .none⟩ (runBin (binOp XV.times))
def specVmadd : CmdSpec :=
  specVe 0x83 ⟨.tens, .src, .src, .src⟩ (fun x => runElem [1, 2, 3] agreeAll maddOp x)
def specVclr : CmdSpec :=
  specVe 0x84 ⟨.tens, .none, .none, .none⟩ (runElem [] agreeAll fun _ _ _ => (.num Dy.zero, []))
def specVcopy : CmdSpec :=
  specVe 0x85 ⟨.tens, .src, .none, .none⟩ (runUn fun _ _ l => (arg l 0, []))
def specVcvt : CmdSpec :=
  specVe 0x86 ⟨.tens, .src, .none, .none⟩ (runUn fun _ _ l => (arg l 0, []))
def specVclamp : CmdSpec :=
  specVe 0x88 ⟨.tens, .src, .src, .src⟩ (fun x => runElem [1, 2, 3] agreeOne clampOp x)
def specVneg : CmdSpec :=
  specVe 0x89 ⟨.tens, .src, .none, .none⟩ (runUn fun _ _ l => (negXV (arg l 0), []))
def specVabs : CmdSpec :=
  specVe 0x8A ⟨.tens, .src, .none, .none⟩ (runUn fun _ _ l => (absXV (arg l 0), []))
def specShift : CmdSpec :=
  specVe 0x8B ⟨.tens, .tens, .none, .none⟩ runShift
def specVdot : CmdSpec :=
  specVe 0x90 ⟨.scal, .tens, .tens, .none⟩ runVdot
def specVmaxabs : CmdSpec :=
  specVe 0x91 ⟨.scal, .tens, .none, .none⟩ runVmaxabs
def specVsumh : CmdSpec :=
  specVe 0x92 ⟨.scal, .tens, .opt, .none⟩ runVsumh

/-- VADD (R256). -/
def execVadd (c k : Nat) (f : LFields) (s : State) : Out := issueCmd c k specVadd f s
/-- VSUB (R256). -/
def execVsub (c k : Nat) (f : LFields) (s : State) : Out := issueCmd c k specVsub f s
/-- VMUL (R256). -/
def execVmul (c k : Nat) (f : LFields) (s : State) : Out := issueCmd c k specVmul f s
/-- VMADD (R70, R256). -/
def execVmadd (c k : Nat) (f : LFields) (s : State) : Out := issueCmd c k specVmadd f s
/-- VCLR (R256). -/
def execVclr (c k : Nat) (f : LFields) (s : State) : Out := issueCmd c k specVclr f s
/-- VCOPY (R256). -/
def execVcopy (c k : Nat) (f : LFields) (s : State) : Out := issueCmd c k specVcopy f s
/-- VCVT (R60, R256). -/
def execVcvt (c k : Nat) (f : LFields) (s : State) : Out := issueCmd c k specVcvt f s
/-- VSEL (R502). -/
def execVsel (c k : Nat) (f : LFields) (s : State) : Out := issueCmd c k specVsel f s
/-- VCLAMP (R502). -/
def execVclamp (c k : Nat) (f : LFields) (s : State) : Out := issueCmd c k specVclamp f s
/-- VNEG (R37, R256). -/
def execVneg (c k : Nat) (f : LFields) (s : State) : Out := issueCmd c k specVneg f s
/-- VABS (R37, R256). -/
def execVabs (c k : Nat) (f : LFields) (s : State) : Out := issueCmd c k specVabs f s
/-- SHIFT (R116). -/
def execShift (c k : Nat) (f : LFields) (s : State) : Out := issueCmd c k specShift f s
/-- VDOT (R501). -/
def execVdot (c k : Nat) (f : LFields) (s : State) : Out := issueCmd c k specVdot f s
/-- VMAXABS (R501). -/
def execVmaxabs (c k : Nat) (f : LFields) (s : State) : Out := issueCmd c k specVmaxabs f s
/-- VSUMH (R70). -/
def execVsumh (c k : Nat) (f : LFields) (s : State) : Out := issueCmd c k specVsumh f s

end Sys2Proof.Machine
end

