-- ==== Sys2Proof/Machine/Store.lean ====
section
/-!
DEFINITION. The external store as it leaves the die (R183 to R189, R401 to R405): the places of its lines and of their metadata, the
encryption and the tag of a line, and the lines of the directory and of the frame version array with their versions.
-/

namespace Sys2Proof.Machine

/-! ### The layout (R183, R184) -/

/-- Store offsets of the directory, the frame version array and the device area. -/
def Variant.dirOff : Variant → Nat
  | .sn9610 => 0x150000000
  | _ => 0x2A0000000
def Variant.verOff (v : Variant) : Nat := v.dirOff + 0x800000
def Variant.devOff : Variant → Nat
  | .sn9610 => 0x150950000
  | _ => 0x2A0AA0000

/-- The region of a store offset: a store frame, a line of the directory or the frame version array by its LVT index, or the device
area. -/
inductive Region where
  | frame (f : Nat)
  | table (i : Nat)
  | device
deriving DecidableEq, Repr

def Variant.region (v : Variant) (o : Nat) : Region :=
  if o < v.dirOff then .frame (o / 16384)
  else if o < v.verOff then .table ((o - v.dirOff) / 64)
  else if o < v.devOff then .table (131072 + (o - v.verOff) / 64)
  else .device

/-- Store offset of the line with an LVT index. -/
def Variant.tableOff (v : Variant) (i : Nat) : Nat := if i < 131072 then v.dirOff + 64 * i else v.verOff + 64 * (i - 131072)

/-- Bytes of a channel, and where a channel's metadata starts. -/
def channelBytes : Nat := 134217728
def metaStart : Nat := 119275520

/-- Where the data of the line at a store offset stands, and where its metadata: channel × 128 MiB + channel byte (R183). -/
def Variant.channelOf (v : Variant) (o : Nat) : Nat := o / 64 % v.channels
def Variant.dataAt (v : Variant) (o : Nat) : Nat := v.channelOf o * channelBytes + 64 * (o / 64 / v.channels)
def Variant.metaAt (v : Variant) (o : Nat) : Nat := v.channelOf o * channelBytes + metaStart + 8 * (o / 64 / v.channels)

/-! ### One line (R186, R401, R402) -/

/-- The tweak of R401. -/
def xtsTweak (a ver : Nat) : Nat := fields [(64, ver % 2 ^ 64), (0, a % 2 ^ 48)]

/-- The ciphertext of a line and the plain line of a ciphertext. -/
def xtsSeal (key : List Byte) (a ver : Nat) (l : List Byte) : List Byte :=
  toLE 64 (Config.xts key (xtsTweak a ver) (BitVec.ofNat 512 (leNat l))).toNat
def xtsOpen (key : List Byte) (a ver : Nat) (c : List Byte) : List Byte :=
  toLE 64 ((Config.xts key (xtsTweak a ver)).symm (BitVec.ofNat 512 (leNat c))).toNat

/-- The tag of a ciphertext (R402). -/
def lineTag (key : List Byte) (a ver : Nat) (c : List Byte) : List Byte :=
  (List.range 4).map fun i => (Config.kmac256 key (toLE 8 a ++ toLE 8 ver ++ c) 256 (ascii "SN-LINE")).getD i 0

/-- The metadata of a ciphertext: its tag, then the check symbols over ciphertext and tag (R186, R402). -/
def lineMeta (key : List Byte) (a ver : Nat) (c : List Byte) : List Byte :=
  let t := lineTag key a ver c
  t ++ (List.range 4).map fun i => (Config.rsCheck (c ++ t)).getD i 0

/-- Write a line of the store with its metadata. An uncorrectable line that is written is good again. -/
def State.putLine (s : State) (o ver : Nat) (l : List Byte) : State :=
  let c := xtsSeal s.sec.kxts (storeBase + o) ver l
  { s with knl := { s.knl with
      store := (s.knl.store.write (s.var.dataAt o) c).write (s.var.metaAt o) (lineMeta s.sec.ktag (storeBase + o) ver c)
      badLines := s.knl.badLines.filter (· ≠ o / 64) } }

/-! ### The line version table (R403, R404) -/

/-- LVT index of the directory line of a page, and of the frame-version line of a store frame (R404). -/
def dirLine (pn : Nat) : Nat := pn / 8
def verLine (f : Nat) : Nat := 131072 + f / 16

/-- An LVT counter: bring-up zeroing wrote every line once (R204). -/
def State.lvtOf (s : State) (i : Nat) : Nat := bit s.boot.store + Tab.get 0 s.knl.lvt i

/-- Whether every listed line can be written once more, and its counter stays in range (R404). -/
def State.lvtCan (s : State) (l : List Nat) : Bool := l.all fun i => decide (s.lvtOf i + 1 < 2 ^ 48)

/-- The version of the line at a store offset (R403). -/
def State.lineVer (s : State) (o : Nat) : Nat :=
  match s.var.region o with
  | .frame f => ((s.knl.dir.find? fun p => p.2.sframe == f && p.2.version != 0).map fun p => p.2.version).getD 0
  | .table i => s.lvtOf i
  | .device => 0

/-! ### The directory and the frame version array (R187, R189) -/

/-- The 64 bits of a directory entry. -/
def DirEnt.word (e : DirEnt) : Nat :=
  fields [(63, bit e.valid), (59, e.dom % 16), (58, bit e.pin), (32, e.version % 2 ^ 24), (20, e.model % 4096), (0, e.sframe % 2 ^ 20)]
/-- The 32 bits of a frame-version word. -/
def SFrame.word (f : SFrame) : Nat := fields [(31, bit f.retired), (0, f.lastver % 2 ^ 24)]

/-- The 64 bytes of the line with an LVT index. -/
def State.tableBytes (s : State) (i : Nat) : List Byte :=
  if i < 131072 then (List.range 8).flatMap fun j => toLE 8 (Tab.get {} s.knl.dir (8 * i + j)).word
  else (List.range 16).flatMap fun j => toLE 4 (Tab.get {} s.knl.sframes (16 * (i - 131072) + j)).word

/-- Write lines of the directory and the frame version array as their tables now read, each under its next version (R404). -/
def State.lvtBump (s : State) (l : List Nat) : State :=
  l.dedup.foldl (fun s i =>
    let s := { s with knl := { s.knl with lvt := Tab.upd 0 s.knl.lvt i (· + 1) } }
    s.putLine (s.var.tableOff i) (s.lvtOf i) (s.tableBytes i)) s

/-! ### Reading (R186, R204, R405) -/

/-- The ciphertext and the metadata that stand at a line. A line of the two tables that nothing has written since bring-up is the zero
line of R204, under version 1. -/
def State.storedLine (s : State) (o : Nat) : List Byte × List Byte :=
  let fresh := match s.var.region o with
    | .table i => s.boot.store && Tab.get 0 s.knl.lvt i == 0
    | _ => false
  if fresh then
    let c := xtsSeal s.sec.kxts (storeBase + o) 1 (List.replicate 64 0)
    (c, lineMeta s.sec.ktag (storeBase + o) 1 c)
  else (s.knl.store.read (s.var.dataAt o) 64, s.knl.store.read (s.var.metaAt o) 8)

/-- The plain bytes of a line under a version. -/
def State.openLine (s : State) (o ver : Nat) : List Byte := xtsOpen s.sec.kxts (storeBase + o) ver (s.storedLine o).1

/-- What reading a line shows (R186, R405): it is good; or it is not, with whether the failure is of forgery type, a tag that does not
match in a codeword without an error. A line that the patrol found uncorrectable is not good (R440). -/
def State.lineFault (s : State) (o ver : Nat) : Option Bool :=
  let (c, m) := s.storedLine o
  if s.knl.badLines.contains (o / 64) then some false
  else if m.take 4 = lineTag s.sec.ktag (storeBase + o) ver c then none
  else some (decide (m = m.take 4 ++ (List.range 4).map fun i => (Config.rsCheck (c ++ m.take 4)).getD i 0))

/-- Whether the line at a store offset has been written under the version that holds for it: not in a frame whose LOAD is still copying
its page (R188, R201), and not in the device area. -/
def State.lineStands (s : State) (o : Nat) : Bool :=
  match s.var.region o with
  | .frame f => s.knl.dir.any fun p => p.2.sframe == f && p.2.valid
  | .table _ => true
  | .device => false

/-- A page's bytes in the store, by its directory entry. -/
def State.pageBytes (s : State) (e : DirEnt) : List Byte :=
  (List.range 256).flatMap fun i => s.openLine (e.sframe * 16384 + 64 * i) e.version

/-- How the reading of a line ends: good as it was read, good after correction, or not good, with whether the failure is of forgery type
(R186, R405). -/
inductive LineEnd where
  | good
  | fixed
  | bad (forge : Bool)
deriving DecidableEq, Repr

/-- The number of erroneous bytes of a codeword. -/
def byteErrs (l : List Nat) : Nat := ((l.filter (· < 72)).dedup).length

/-- What the check symbols make of errors in a line that stands good: up to 2 erroneous bytes are corrected, and more make its tag not
match (log entry 185), so that it is read a second time (R186, R405). -/
def codewordEnd (e : LineErr) : LineEnd :=
  if byteErrs e.first = 0 then .good
  else if byteErrs e.first ≤ 2 then .fixed
  else if byteErrs e.second = 0 then .good
  else if byteErrs e.second ≤ 2 then .fixed
  else .bad e.clean

/-- How the reading of a line ends that stands with a fault or without one. -/
def lineEnd (fault : Option Bool) (errs : List LineErr) (i : Nat) : LineEnd :=
  match fault with
  | some f => .bad f
  | none => match errs.find? fun e => e.line == i with
    | some e => codewordEnd e
    | none => .good

/-- How the reading of lines one after another ends: those that were corrected, and the first that is not good, if one is, with whether
its failure is of forgery type. -/
structure LineRun where
  fixed : List Nat
  bad : Option (Nat × Bool)
deriving DecidableEq, Repr

/-- Lines are read in order up to the first that is not good. -/
def readLines (f : Nat → LineEnd) : List Nat → LineRun
  | [] => ⟨[], none⟩
  | i :: l => match f i with
    | .bad g => ⟨[], some (i, g)⟩
    | .fixed => ⟨i :: (readLines f l).fixed, (readLines f l).bad⟩
    | .good => readLines f l

/-- The store offset of a line that a fill reads: the directory's, numbered 256, or one of the page's. -/
def State.fillOff (s : State) (pn : Nat) (e : DirEnt) (i : Nat) : Nat :=
  if i = 256 then s.var.tableOff (dirLine pn) else e.sframe * 16384 + 64 * i

/-- How the reading of a line by a fill ends. Where the page's binding has changed since the fill read its directory entry, the lines count
as they stood then, good; the PIN bit is no part of the binding. -/
def State.fillLine (s : State) (pn : Nat) (e : DirEnt) (errs : List LineErr) (i : Nat) : LineEnd :=
  lineEnd (if { Tab.get {} s.knl.dir pn with pin := e.pin } ≠ e then none
    else s.lineFault (s.fillOff pn e i) (if i = 256 then s.lvtOf (dirLine pn) else e.version)) errs i

/-- How a fill ends: the directory line is read first, then the page's 256 lines in order (R192). -/
def State.fillEnd (s : State) (pn : Nat) (e : DirEnt) (errs : List LineErr) : LineRun :=
  readLines (s.fillLine pn e errs) (256 :: List.range 256)

/-- Whether a line of the two tables holds an error that its reader meets. -/
def State.tableBad (s : State) (i : Nat) : Bool := s.knl.badLines.contains (s.var.tableOff i / 64)

/-- How the Kennel's reading of lines of the two tables ends (R404, R405). -/
def State.tableRun (s : State) (errs : List LineErr) (l : List Nat) : LineRun :=
  readLines (fun i => lineEnd (if s.tableBad i then some false else none) errs i) l.dedup

end Sys2Proof.Machine
end

