-- ==== Sys2Proof/Machine/KennelOps.lean ====
section
/-!
DEFINITION. The Kennel's shared operations (R181 to R199, R404): models, pins and their limits, frames, the search for a frame,
the release of frames and of granules, and the commands that wait for pages.
-/

namespace Sys2Proof.Machine

/-! ### Models and pins (R182, R194) -/

def State.model (s : State) (id : Nat) : Model := Tab.get {} s.knl.models id
def State.updModel (s : State) (id : Nat) (f : Model → Model) : State :=
  { s with knl := { s.knl with models := Tab.upd {} s.knl.models id f } }

/-- A model is pinned while its job pin count is above zero or its host pin bit is 1 (R182). -/
def Model.pinned (m : Model) : Bool := m.valid && (m.hpin || decide (0 < m.jpins))

/-- Whether a page belongs to a model. -/
def Model.has (m : Model) (pn : Nat) : Bool := m.valid && decide (m.pnBase ≤ pn) && decide (pn < m.pnBase + m.npages)

/-- The pages of a model. -/
def Model.pages (m : Model) : List Nat := (List.range m.npages).map (m.pnBase + ·)

/-- A model whose LOAD is complete (R201): another command or a job can name it. -/
def State.modelReady (s : State) (id : Nat) : Bool :=
  (s.model id).valid && !(s.model id).loading && !s.knl.cmds.any fun w => w.isLoad && w.id == id

/-- The model that holds a page. -/
def State.modelOf (s : State) (pn : Nat) : Option (Nat × Model) := s.knl.models.find? fun p => p.2.has pn

/-- Frames in Kennel granules (R191). -/
def State.kgranules (s : State) : List Nat := (s.sched.ymap.filter fun p => p.2.knl).map (·.1)
def State.kframes (s : State) : Nat := 4 * s.kgranules.length

/-- Kennel frames of granules that no ASSIGN is taking out of the Kennel: a pin that only the leaving ones allow would break R194 when
they have left. -/
def State.stayFrames (s : State) : Nat := 4 * (s.sched.ymap.filter fun p => p.2.knl && !p.2.leaving && !p.2.scrub).length

/-- PIN_MAX (R194). -/
def Variant.pinMax (v : Variant) : Nat := match v with
  | .sn9610 => 4608
  | _ => 9216

/-- Pages pinned, each once, with the code frames of jobs (R194, R248); in all, and of one domain. -/
def State.pinCount (s : State) (d : Option Nat) : Nat :=
  ((s.knl.models.filter fun p => p.2.pinned && d.all (· == p.2.dom)).map fun p => p.2.npages).sum
  + (s.sched.jobs.filter fun p => p.2.counted && d.all (· == p.2.dom)).length

/-- PIN_QUOTA of a domain (R190). -/
def State.pinQuota (s : State) (d : Nat) : Nat := natBits (Tab.get 0 s.knl.drange d).toNat 61 48

/-- Whether `n` more pinned pages of a domain keep both limits of R194. -/
def State.pinRoom (s : State) (d n : Nat) : Bool :=
  decide (s.pinCount none + n ≤ min s.var.pinMax (s.stayFrames - 256)) && decide (s.pinCount (some d) + n ≤ s.pinQuota d)

/-! ### The directory's PIN bits (R189, R404) -/

/-- The pages of a model whose directory entry does not show whether the model is pinned. -/
def State.pinStale (s : State) (id : Nat) (pinned : Bool) : List Nat :=
  (s.model id).pages.filter fun pn => (Tab.get {} s.knl.dir pn).valid && (Tab.get {} s.knl.dir pn).pin != pinned

/-- Whether lines of the two tables can be written: their counters can go on, and no line holds an error that its reader would meet
(R404, R405). -/
def State.linesOk (s : State) (l : List Nat) : Bool := s.lvtCan l && l.all fun i => !s.tableBad i

/-- Firmware on the TMC is asked for a full reset once 256 forgeries have been counted and no fuse programming is in progress (R405,
R425). -/
def State.forgeAsk (s : State) : State := if 256 ≤ s.sec.forge && s.sec.fuseJob.isNone then s.askTmc 3 0 else s

/-- A line of the store that is not good after its second read (R405): counted, and at 256 forgeries firmware on the TMC is asked
for a full reset. -/
def State.lineNotGood (s : State) (forge : Bool) : State :=
  ({ s with sec := { s.sec with
      tagfail := satAdd 16 s.sec.tagfail 1
      forge := if forge then satAdd 16 s.sec.forge 1 else s.sec.forge } }).forgeAsk

/-- A line of the store that was corrected as it was read (R439, R441). -/
def State.storeFixed (s : State) (o : Nat) (dom : Option Nat) : State :=
  s.corrected none skStore (s.var.channelOf o) (storeBase + o) 0 dom

/-- A line of the store that is not good fails its reader: it is counted, and recorded as an uncorrectable line (R405, R445). -/
def State.lineFails (s : State) (o : Nat) (dom : Option Nat) (forge : Bool) : State :=
  (s.lineNotGood forge).ueMet 0 dom skStore (s.var.channelOf o) (storeBase + o)

/-- What the reading of lines of the two tables leaves behind: corrections, and a line that is not good. -/
def State.tableRead (s : State) (r : LineRun) : State :=
  let s := r.fixed.foldl (fun s i => s.storeFixed (s.var.tableOff i) none) s
  match r.bad with
  | some (i, forge) => s.lineFails (s.var.tableOff i) none forge
  | none => s

/-- Set the directory's PIN bit of a model's pages to whether the model is pinned (R189). A line that cannot be written stays as it is
(R404), and one that is not good is counted (R405). -/
def State.dirPins (s : State) (id : Nat) : State :=
  let p := (s.model id).pinned
  let bad := (((s.pinStale id p).map dirLine).dedup.filter s.tableBad).map s.var.tableOff
  let cur := (s.pinStale id p).filter fun pn => s.linesOk [dirLine pn]
  let s := bad.foldl (fun s o => s.lineFails o none false) s
  let s := { s with knl := { s.knl with dir := cur.foldl (fun t pn => Tab.upd {} t pn fun e => { e with pin := p }) s.knl.dir } }
  s.lvtBump (cur.map dirLine)

/-! ### Frames becoming FREE, and granules leaving (R192, R193, R199) -/

/-- Granules that leave the Kennel and whose frames are all FREE, and these others with them, go to the scrub engine in increasing number
(R178, R194). -/
def State.leaveWith (s : State) (others : List Nat) : State :=
  let out := (s.sched.ymap.filter fun p => p.2.leaving && (List.range 4).all fun i =>
    (Tab.get {} s.knl.frames (4 * p.1 + i)).st == .free).map (·.1)
  let all := (out ++ others).insertionSort (· ≤ ·)
  let s := all.foldl (fun s g => s.updGran g fun x => { x with leaving := false, scrub := true }) s
  s.scrubAdd (all.map fun g => (true, g))

/-- Granules that leave the Kennel and whose frames are all FREE go to the scrub engine. -/
def State.leaveGranules (s : State) : State := s.leaveWith []

/-- Free a frame. -/
def State.freeFrame (s : State) (k : Nat) : State := s.updFrame k fun _ => {}

/-- The model that holds a page is pinned. -/
def State.pagePinned (s : State) (pn : Nat) : Bool := ((s.modelOf pn).map fun p => p.2.pinned).getD false

/-- Ask for fills of the pages that no frame serves and that wait for none (R193). -/
def State.wantPages (s : State) (pages : List Nat) : State :=
  let new := pages.filter fun pn => (s.frameOf pn).isNone && !s.knl.waiting.contains (.page pn)
  { s with knl := { s.knl with waiting := s.knl.waiting ++ new.map .page } }

/-- A doomed frame without a read in progress is FREE; a page that must be pinned is then asked for again (R192, R199). -/
def State.frameGoes (s : State) (k : Nat) : State :=
  let f := Tab.get {} s.knl.frames k
  if !f.doomed || f.reads ≠ 0 then s
  else
    let t := (s.freeFrame k).leaveGranules
    if !f.gone && s.pagePinned f.pn then t.wantPages [f.pn] else t

/-- A read of a frame in progress ends. -/
def State.readEnds (s : State) (k : Nat) : State := (s.updFrame k fun f => { f with reads := f.reads - 1 }).frameGoes k

/-- Doom the RESIDENT and FILLING frames of a list of pages: each is FREE once no read is in progress (R199, R201). -/
def State.doomPages (s : State) (pick : Frame → Bool) : State :=
  let f := fun (x : Frame) =>
    if !pick x then x
    else match x.st with
      | .resident => if x.reads = 0 then ({} : Frame) else { x with doomed := true }
      | .filling => { x with doomed := true }
      | _ => x
  ({ s with knl := { s.knl with frames := Tab.mapAll {} s.knl.frames fun _ x => f x } }).leaveGranules

/-- Doom the frames of granules that leave the Kennel (R199); those that can go at once are scrubbed together with these others. -/
def State.doomGranules (s : State) (gs others : List Nat) : State :=
  let f := fun (k : Nat) (x : Frame) =>
    if !gs.contains (k / 4) then x
    else match x.st with
      | .resident => if x.reads = 0 then ({} : Frame) else { x with doomed := true }
      | .filling => { x with doomed := true }
      | _ => x
  ({ s with knl := { s.knl with frames := Tab.mapAll {} s.knl.frames f } }).leaveWith others

/-- Frames take the state their model's pins give them (R192): RESIDENT and PINNED change into each other, also where an EVICT was to free
the frame, and a FILLING frame that an EVICT was to free becomes PINNED when its fill ends (R201). A frame whose granule leaves the Kennel
becomes FREE all the same (R199). -/
def State.restate (s : State) (id : Nat) : State :=
  let m := s.model id
  let f := fun (k : Nat) (x : Frame) =>
    let goes := x.doomed && (x.gone || (s.gran (k / 4)).leaving)
    if !m.has x.pn then x
    else match x.st with
      | .resident => if m.pinned && !x.gone && !goes then { x with st := .pinned, doomed := false } else x
      | .pinned => if m.pinned then x else { x with st := .resident, ref := true }
      | .filling => if m.pinned then { x with doomed := goes } else x
      | _ => x
  ({ s with knl := { s.knl with frames := Tab.mapAll {} s.knl.frames f } }).dirPins id

/-! ### Jobs that stop naming models (R182, R209, R248, R251) -/

/-- The models a job names, each once. -/
def Job.named (j : Job) : List Nat := (j.models.filter (· ≠ 0xFFF)).dedup

/-- A job becomes FREE: its counts are undone, its code frame and its pack are released, its segments and floors end. -/
def State.jobDrop (s : State) (j : Nat) : State :=
  let job := s.job j
  let pinned := job.counted && !job.be
  let s := job.named.foldl (fun s id =>
    (s.updModel id fun m => { m with refs := m.refs - 1, jpins := if pinned then m.jpins - 1 else m.jpins }).restate id) s
  let s := match job.frame with
    | some k => (s.freeFrame k).leaveGranules
    | none => s
  let own := fun (_ : Nat) (o : CoreOwn) => if o.pack && o.job = j then { o with pack := false, job := 0 } else o
  let core := fun (c : Nat) (k : Core) =>
    { k with
      segs := Tab.mapAll none k.segs fun _ g => if g.any (·.job = j) then none else g
      isFloor := k.isFloor && (job.be || decide (c < job.packLo) || decide (job.packHi < c)) }
  { s with
    sched := { s.sched with jobs := Tab.set {} s.sched.jobs j {}, cmap := Tab.mapAll {} s.sched.cmap own }
    knl := { s.knl with waiting := s.knl.waiting.filter (· ≠ .code j) }
    cores := Tab.mapAll {} s.cores core }

/-- A load is refused: the job is FREE again before the completion is written (R209, R210). -/
def State.jobRefuse (s : State) (j result : Nat) : State := (s.jobDrop j).cmdDone (s.job j).ring result

/-! ### The search for a frame (R193) -/

/-- Frames a fill may take, in increasing number: of Kennel granules that are not leaving. -/
def State.usableFrames (s : State) : List Nat :=
  (s.sched.ymap.filter fun p => p.2.knl && !p.2.leaving && !p.2.scrub).flatMap fun p => (List.range 4).map (4 * p.1 + ·)

/-- Whether the clock hand may stop at or pass over a frame. -/
def Frame.evictable (f : Frame) : Bool := f.st == .resident && f.reads == 0

/-- One pass of the clock hand: the frames whose REF it clears, and the victim. -/
def clockPass (fr : Nat → Frame) : List Nat → List Nat × Option Nat
  | [] => ([], none)
  | k :: ks =>
    if !(fr k).evictable then clockPass fr ks
    else if (fr k).ref then let r := clockPass fr ks; (k :: r.1, r.2)
    else ([], some k)

/-- Take a frame for a fill or a code frame: the lowest FREE one, or the clock hand's victim (R193). -/
def State.takeFrame (s : State) : Option (Nat × State) :=
  let us := s.usableFrames
  let fr := fun k => Tab.get {} s.knl.frames k
  match us.find? fun k => (fr k).st == .free with
  | some k => some (k, s)
  | none =>
    let order := us.filter (fun k => decide (s.knl.hand ≤ k)) ++ us.filter fun k => decide (k < s.knl.hand)
    let p := clockPass fr order
    let victim := match p.2 with
      | some k => some k
      | none => order.find? fun k => (fr k).evictable
    let cleared := p.1.filter fun k => victim ≠ some k
    match victim with
    | none => none
    | some k =>
      let s := cleared.foldl (fun s i => s.updFrame i fun f => { f with ref := false }) s
      some (k, { s with knl := { s.knl with hand := k + 1, victims := satAdd 32 s.knl.victims 1 } })

/-- Whether a page is in the hot set (R192). -/
def State.isFilled (s : State) (pn : Nat) : Bool :=
  match s.frameOf pn with
  | some (_, f) => f.st != .filling
  | none => false

/-- Whether every page of a model is PINNED. -/
def State.allPinned (s : State) (id : Nat) : Bool :=
  (s.model id).pages.all fun pn => match s.frameOf pn with
    | some (_, f) => f.st == .pinned
    | none => false

/-- The frame that holds the code of a job (R248): taken at once if nothing waits before it, else in the order of arrival (R193). -/
def State.takeCode (s : State) (j : Nat) : Option State :=
  (s.takeFrame).map fun (k, s) =>
    let s := s.updFrame k fun _ => { st := .code j }
    let s := (s.yardWrite (bytesAt (16384 * k) (s.job j).segBytes)).1
    s.updJob j fun x => { x with frame := some k }

/-! ### Kennel commands that wait for pages (R201, R202) -/

/-- KRES with its model as the result of a descriptor (R202). -/
def kresult (kres id : Nat) : Nat := kres + 256 * id

/-- The commands of the list end with a KRES. -/
def State.knlEnd (s : State) (kres : Nat) (l : List KnlWait) : State :=
  l.foldl (fun s w => s.cmdDone w.ring (kresult kres w.id)) s

/-- A PIN, or a LOAD with PIN = 1 whose copy has ended, fills every page of its model that is not resident, and completes when that is
done (R201). -/
def State.knlAwait (s : State) (key : Nat) (isLoad : Bool) (id : Nat) : State :=
  let pages := (s.model id).pages
  let s := s.wantPages pages
  let w : KnlWait := ⟨key, isLoad, id, pages.filter fun pn => !s.isFilled pn⟩
  if w.left.isEmpty then s.knlEnd 0 [w] else { s with knl := { s.knl with cmds := s.knl.cmds ++ [w] } }

/-- A page is filled: the commands that waited for no other complete. -/
def State.knlFilled (s : State) (pn : Nat) : State :=
  let l := s.knl.cmds.map fun w => { w with left := w.left.filter (· ≠ pn) }
  ({ s with knl := { s.knl with cmds := l.filter fun w => !w.left.isEmpty } }).knlEnd 0 (l.filter fun w => w.left.isEmpty)

/-! ### Unloading a model (R201, R202) -/

/-- The FILLING frames of an unloaded model: the touches that wait for one read it when its fill ends, and no other touch waits for it
(R199, R201). -/
def State.goneFrames (s : State) (m : Model) : State :=
  let mine := s.knl.frames.filter fun p => m.has p.2.pn && p.2.st == .filling && !p.2.gone
  mine.foldl (fun s p =>
    let on := fun (t : Touch) => t.pn = p.2.pn ∧ t.frame = none
    let n := (s.knl.touches.filter fun t => on t).length
    let s := s.updFrame p.1 fun f => { f with gone := true, doomed := true, reads := n }
    { s with knl := { s.knl with touches := s.knl.touches.map fun t => if on t then { t with frame := some p.1 } else t } }) s

/-- The effect of UNLOAD: frames, directory entries, store frames and the identifier become free. A command that still waits for pages of
the model has failed partway. -/
def State.unloadModel (s : State) (id : Nat) : State :=
  let m := s.model id
  let ents := m.pages.filter fun pn => decide (Tab.get {} s.knl.dir pn ≠ {})
  let frs := ents.map fun pn => (Tab.get {} s.knl.dir pn).sframe
  let lines := (ents.filter fun pn => (Tab.get {} s.knl.dir pn).valid && s.linesOk [dirLine pn]).map dirLine
  let unpin := fun (x : Frame) =>
    if !m.has x.pn then x
    else match x.st with
      | .resident => { x with gone := true }
      | .pinned => { x with st := .resident, ref := true, gone := true }
      | _ => x
  let s := { s with knl := { s.knl with frames := Tab.mapAll {} s.knl.frames fun _ x => unpin x } }
  let s := (s.goneFrames m).doomPages fun f => m.has f.pn
  let stuck := s.knl.cmds.filter fun w => w.id = id
  let s := { s with knl := { s.knl with
      dir := ents.foldl (fun t pn => Tab.set {} t pn {}) s.knl.dir
      sframes := frs.foldl (fun t f => Tab.upd {} t f fun x => { x with bound := false }) s.knl.sframes
      waiting := s.knl.waiting.filter fun w => match w with
        | .page pn => !m.has pn
        | .code _ => true
      cmds := s.knl.cmds.filter fun w => w.id ≠ id
      models := Tab.set {} s.knl.models id {} } }
  (s.lvtBump lines).knlEnd 7 stuck

/-- A page of a model failed to fill: a waiting LOAD unloads its model, a waiting PIN leaves it unpinned (R202). -/
def State.knlFailed (s : State) (id pn : Nat) : State :=
  let hit := s.knl.cmds.filter fun w => w.left.contains pn
  let s := ({ s with knl := { s.knl with cmds := s.knl.cmds.filter fun w => !w.left.contains pn } }).knlEnd 7 hit
  if hit.any (·.isLoad) then s.unloadModel id
  else if hit.isEmpty then s
  else (s.updModel id fun m => { m with hpin := false }).restate id

/-- An SRES that refuses a load, by a free value: the spec states none, and IMAGE is not one of them, because R247 writes each IREASON
only for the condition in its row (log entry 61). -/
def freeSres (v : Nat) : Nat := if v % 13 < 7 then v % 13 + 1 else v % 13 + 2

/-- A page of a model failed to fill: an LC load that waits for it cannot become LOADED. -/
def State.loadsFailed (s : State) (id : Nat) : State :=
  let js := (s.sched.jobs.filter fun p => p.2.st == .loading && p.2.verified && !p.2.be && p.2.named.contains id).map (·.1)
  js.foldl (fun s j => let (v, s) := s.draw; s.jobRefuse j (freeSres v)) s

end Sys2Proof.Machine
end

