-- ==== Sys2Proof/Machine/Kennel.lean ====
section
/-!
DEFINITION. The Kennel's commands and events (R188, R192 to R202, R405).
-/

namespace Sys2Proof.Machine

/-! ### Kennel commands (R200 to R202) -/

/-- A Kennel command before the store is ready waits (R469). -/
def knlRow (d r op : Nat) (s : State) (f : HostCmd → State → State) : Out :=
  hostRow d r 3 (some op) s fun h s => if s.boot.store then f h s else s

/-- Reserved fields of a Kennel command's body (R200). -/
def knlReserved (b : Nat) : Bool :=
  natBits b 311 308 ≠ 0 || natBits b 295 292 ≠ 0 || natBits b 255 128 ≠ 0 || natBits b 63 1 ≠ 0

/-- Whether a page lies in the PN range of a domain (R190). -/
def State.pnIn (s : State) (d pn : Nat) : Bool :=
  let w := (Tab.get 0 s.knl.drange d).toNat
  decide (natBits w 19 0 ≤ pn) && decide (pn < natBits w 44 24)

/-- The lowest free model identifier (R182). -/
def State.freeModel (s : State) : Option Nat := (List.range 4096).find? fun i => !(s.model i).valid

/-- Store frames of the variant (R184). -/
def Variant.storeFrames : Variant → Nat
  | .sn9610 => 344064
  | _ => 688128

/-- The first `n` store frames from `f` that are free and not retired, with those skipped because their version is at its end
(R188). `fuel` bounds the frames looked at. -/
def pickStore (tab : Tab SFrame) : (fuel f n : Nat) → List Nat × List Nat
  | 0, _, _ => ([], [])
  | fuel + 1, f, n =>
    if n = 0 then ([], [])
    else
      let x := Tab.get {} tab f
      if x.bound || x.retired then pickStore tab fuel (f + 1) n
      else if x.lastver = 0xFFFFFF then let r := pickStore tab fuel (f + 1) n; (r.1, f :: r.2)
      else let r := pickStore tab fuel (f + 1) (n - 1); (f :: r.1, r.2)

/-- A command ends with a KRES refused by BAD_COMMAND; its status shows model 0 (log entry 234). -/
def State.knlBadCommand (s : State) (key : Nat) : State := s.cmdDone key (kresult 9 0)

/-- A command reads the lines of the two tables that it is to write: one that is not good, or whose version is at its end, ends it with
DATA_ERROR (R404, R405). -/
def State.knlLines (s : State) (key id : Nat) (errs : List LineErr) (l : List Nat) (f : State → State) : State :=
  let r := s.tableRun errs l
  let s := s.tableRead r
  if r.bad.isNone && s.lvtCan l then f s else s.cmdDone key (kresult 7 id)

/-- KRES of a LOAD's checks, in the order of R202's table; 0 when they pass. -/
def State.loadRes (s : State) (d base n : Nat) (pin : Bool) (frames : List Nat) : Nat :=
  let pns := (List.range n).map (base + ·)
  if s.freeModel.isNone then 1
  else if pns.any fun pn => !s.pnIn d pn || (List.range 16).any fun e => e ≠ d && s.pnIn e pn then 2
  else if pns.any fun pn => (Tab.get {} s.knl.dir pn).valid || (s.modelOf pn).isSome then 3
  else if frames.length < n then 4
  else if pin && !s.pinRoom d n then 5
  else 0

/-- KNL_LOAD: the identifier is allocated and the store frames are bound (R188, R201); the copy then runs. A nonzero MODEL is refused
with BAD_COMMAND, and a LOAD refused before it has an identifier shows model 0 (log entries 233 and 234). -/
def execKnlLoad (d : Nat) (a : KnlAsk) (s : State) : Out :=
  knlRow d a.ring 1 s fun h s =>
    let r := a.ring
    let b := h.body
    let key := ringKey d r
    let base := natBits b 291 272
    let n := natBits b 271 256 + 1
    let pin := natBit b 0
    if knlReserved b || natBits b 307 296 ≠ 0 || natBits b 127 64 % 64 ≠ 0 then s.knlBadCommand key
    else
      let pick := pickStore s.knl.sframes (s.var.storeFrames) 0 n
      let res := s.loadRes d base n pin pick.1
      let lines := pick.1.map verLine ++ pick.2.map verLine ++ (List.range n).map fun i => dirLine (base + i)
      if res ≠ 0 then s.cmdDone key (kresult res 0)
      else s.knlLines key 0 a.errs lines fun s => match s.freeModel with
        | none => s
        | some id =>
          let sf := pick.2.foldl (fun t f => Tab.upd {} t f fun x => { x with retired := true }) s.knl.sframes
          let sf := pick.1.foldl (fun t f => Tab.upd {} t f fun x => { x with bound := true, lastver := x.lastver + 1 }) sf
          let s := ({ s with knl := { s.knl with sframes := sf } }).lvtBump (pick.1.map verLine ++ pick.2.map verLine)
          let s := s.updModel id fun _ =>
            { valid := true, pnBase := base, npages := n, dom := d, hpin := pin, loading := true }
          -- the directory entries become VALID when the copy ends; their frames are fixed now
          let put := fun (t : Tab DirEnt) (p : Nat × Nat) =>
            Tab.set {} t (base + p.2) ⟨false, d, pin, (Tab.get {} sf p.1).lastver, id, p.1⟩
          let s := { s with knl := { s.knl with dir := pick.1.zipIdx.foldl put s.knl.dir } }
          (s.sendRead (s.ring d r).fn (natBits b 127 64) (n * 16384)).setCmd key (.busy id)

/-- The first `n` bytes, with zeros where there are fewer. -/
def padTo (n : Nat) (bs : List Byte) : List Byte := (List.range n).map fun k => bs.getD k 0

/-- The pages of a LOAD are written, each line under its page's version, with its metadata (R201, R401 to R403). -/
def State.putPages (s : State) (m : Model) (bs : List Byte) : State :=
  (List.range (m.npages * 256)).foldl (fun s i =>
    let e := Tab.get {} s.knl.dir (m.pnBase + i / 256)
    s.putLine (e.sframe * 16384 + 64 * (i % 256)) e.version (padTo 64 (bs.drop (64 * i)))) s

/-- KNL_LOAD_COPY_COMPLETE: the pages stand in the store and the directory entries are VALID; a failed host read undoes the load
(R201, R202, R246). -/
def execKnlLoadCopyComplete (d : Nat) (a : KnlAsk) (pages : HostRead) (s : State) : Out :=
  let r := a.ring
  if !hasRing d r then .fault .noSuchUnit
  else match (s.ring d r).cur with
    | none => .next s
    | some h =>
      match h.st, h.cls, h.op with
      | .busy id, 3, 1 =>
        let m := s.model id
        if !m.loading then .next s
        else match s.answered (s.ring d r).fn (natBits h.body 127 64) (m.npages * 16384) pages with
          | .data bs =>
            let run := s.tableRun a.errs (m.pages.map dirLine)
            let s := s.tableRead run
            if run.bad.isSome || !s.lvtCan (m.pages.map dirLine) then .next ((s.unloadModel id).cmdDone (ringKey d r) (kresult 7 id))
            else
              let s := s.putPages m bs
              let s := { s with knl := { s.knl with
                dir := m.pages.foldl (fun t pn => Tab.upd {} t pn fun e => { e with valid := true }) s.knl.dir } }
              let s := s.lvtBump (m.pages.map dirLine)
              let s := s.updModel id fun m => { m with loading := false, digest := Config.shake256 32 (padTo (m.npages * 16384) bs) }
              if m.hpin then .next (s.knlAwait (ringKey d r) true id)
              else .next (s.cmdDone (ringKey d r) (kresult 0 id))
          | _ => .next ((s.unloadModel id).cmdDone (ringKey d r) (kresult 7 id))
      | _, _, _ => .next s

/-- The checks shared by PIN, UNPIN, EVICT and UNLOAD: reserved fields, and a loaded model of the ring's domain (R200, R202). A field of
LOAD only that is not 0 is refused with BAD_COMMAND (log entry 233). -/
def knlOnModel (d r op : Nat) (s : State) (f : Nat → Model → State → State) : Out :=
  knlRow d r op s fun h s =>
    let b := h.body
    let id := natBits b 307 296
    let m := s.model id
    if knlReserved b || natBits b 291 256 ≠ 0 || natBits b 127 64 ≠ 0 || natBit b 0 then s.knlBadCommand (ringKey d r)
    else if !s.modelReady id || m.dom ≠ d then s.cmdDone (ringKey d r) (kresult 8 id)
    else f id m s

/-- KNL_PIN (R194, R201). A directory line that cannot be written ends it with DATA_ERROR (R404, R405). -/
def execKnlPin (d : Nat) (a : KnlAsk) (s : State) : Out :=
  knlOnModel d a.ring 2 s fun id m s =>
    let key := ringKey d a.ring
    if !m.pinned && !s.pinRoom d m.npages then s.cmdDone key (kresult 5 id)
    else s.knlLines key id a.errs ((s.pinStale id true).map dirLine) fun s =>
      (((s.updModel id fun m => { m with hpin := true }).restate id).setCmd key (.busy id)).knlAwait key false id

/-- KNL_UNPIN (R201, R404). -/
def execKnlUnpin (d : Nat) (a : KnlAsk) (s : State) : Out :=
  knlOnModel d a.ring 3 s fun id m s =>
    let key := ringKey d a.ring
    s.knlLines key id a.errs (if m.jpins = 0 then (s.pinStale id false).map dirLine else []) fun s =>
      ((s.updModel id fun m => { m with hpin := false }).restate id).cmdDone key (kresult 0 id)

/-- KNL_EVICT (R199, R201). -/
def execKnlEvict (d r : Nat) (s : State) : Out :=
  knlOnModel d r 4 s fun id m s =>
    (s.doomPages fun f => m.has f.pn && (f.st == .resident || (f.st == .filling && !m.pinned))).cmdDone (ringKey d r) (kresult 0 id)

/-- KNL_UNLOAD (R201, R404, R405). -/
def execKnlUnload (d : Nat) (a : KnlAsk) (s : State) : Out :=
  knlOnModel d a.ring 5 s fun id m s =>
    let key := ringKey d a.ring
    if m.pinned || 0 < m.refs then s.cmdDone key (kresult 6 id)
    else s.knlLines key id a.errs (m.pages.map dirLine) fun s => (s.unloadModel id).cmdDone key (kresult 0 id)

/-! ### Fills (R192, R193, R405) -/

/-- Fills in progress. -/
def State.fills (s : State) : Nat := (s.knl.frames.filter fun p => p.2.st == .filling).length

/-- KENNEL_FILL_START: what has waited longest takes a frame, a page for its fill or a job for its code (R192, R193, R248). -/
def execKennelFillStart (s : State) : Out :=
  match s.knl.waiting with
  | [] => .next s
  | .page pn :: rest =>
    if 64 ≤ s.fills || !s.boot.store then .next s
    else match s.takeFrame with
      | none => .next s
      | some (k, s) =>
        let s := { s with knl := { s.knl with waiting := rest } }
        .next (s.updFrame k fun _ => { st := .filling, pn := pn, ent := Tab.get {} s.knl.dir pn })
  | .code j :: rest =>
    match s.takeCode j with
    | none => .next s
    | some s => .next { s with knl := { s.knl with waiting := rest } }

/-- The touches that wait for the page a frame fills with; of a frame whose model is gone, none but those it holds already. -/
def Frame.waits (f : Frame) (t : Touch) : Bool := !f.gone && t.pn == f.pn && t.frame.isNone
def State.waitingOn (s : State) (f : Frame) : List Touch := s.knl.touches.filter f.waits

/-- A touch fails with an uncorrectable line (R140, R192): a KGET's task, or a Yarder channel, which halts when its burst ends. -/
def State.touchFails (s : State) (l : Nat) (t : Touch) : State :=
  match t.chan with
  | some n => s.updChan n fun h => { h with burst := h.burst.map fun b => { b with bad := some l } }
  | none =>
    let s := s.updCore t.core fun q => { q with sb := q.sb.filter fun r => !(r.uid == t.uid && r.cseq == t.cseq) }
    s.complete t.core t.slot t.uid t.cseq (some (.dataError l))

/-- A page has been filled into a frame: the touches that wait read it, and a frame that was to become FREE does so once none does
(R192, R199). A page that must be pinned and whose frame leaves is asked for again. -/
def State.fillGood (s : State) (k : Nat) (f : Frame) (id : Option Nat) : State :=
  let s := (s.yardWrite (bytesAt (16384 * k) (s.pageBytes f.ent))).1
  let pinned := (id.map fun i => (s.model i).pinned).getD false
  let n := (s.waitingOn f).length
  let s := s.updFrame k fun f => { f with st := if pinned && !f.doomed then .pinned else .resident, ref := true, reads := f.reads + n }
  let serve := fun (t : Touch) => if f.waits t then { t with frame := some k } else t
  let s := { s with knl := { s.knl with touches := s.knl.touches.map serve } }
  let s := s.frameGoes k
  if f.gone then s else s.knlFilled f.pn

/-- A fill has failed at a line of the store, which belongs to a store frame unless it is the directory's (R192, R405, R448). A RETIRED
whose line cannot be written is not set (R404). -/
def State.fillBad (s : State) (k : Nat) (f : Frame) (id : Option Nat) (o : Nat) (sf : Option Nat) (forge : Bool) : State :=
  let l := storeBase + o
  let s := s.lineFails o (if f.ent.valid then some f.ent.dom else none) forge
  let mine := fun (t : Touch) => f.waits t || t.frame == some k
  let ts := s.knl.touches.filter mine
  let s := { s with knl := { s.knl with
    fillFail := satAdd 32 s.knl.fillFail 1
    touches := s.knl.touches.filter fun t => !mine t } }
  let s := match sf with
    | some x =>
      let s := if s.tableBad (verLine x) then s.lineFails (s.var.tableOff (verLine x)) none false else s
      if s.linesOk [verLine x] then
        ({ s with knl := { s.knl with sframes := Tab.upd {} s.knl.sframes x fun w => { w with retired := true } } }).lvtBump [verLine x]
      else s
    | none => s
  let s := ts.foldl (fun s t => s.touchFails l t) s
  let s := (s.freeFrame k).leaveGranules
  match id with
  | some i => (s.knlFailed i f.pn).loadsFailed i
  | none => s

/-- KENNEL_FILL_COMPLETE (R192, R199, R405, R448). -/
def execKennelFillComplete (k : Nat) (errs : List LineErr) (s : State) : Out :=
  let f := Tab.get {} s.knl.frames k
  if f.st ≠ .filling then .next s
  else
    let id := if f.gone then none else (s.modelOf f.pn).map (·.1)
    let r := s.fillEnd f.pn f.ent errs
    let dom := if f.ent.valid then some f.ent.dom else none
    let t := r.fixed.foldl (fun s i => s.storeFixed (s.fillOff f.pn f.ent i) dom) s
    match r.bad with
    | none => .next (t.fillGood k f id)
    | some (i, forge) => .next (t.fillBad k f id (s.fillOff f.pn f.ent i) (if i = 256 then none else some f.ent.sframe) forge)

/-- KENNEL_READ_DONE: the oldest KGET that reads a frame has its last line (R195, R198). A line that must cross a failed link ends it with
DATA_ERROR (R442). -/
def execKennelReadDone (k : Nat) (s : State) : Out :=
  let f := Tab.get {} s.knl.frames k
  if f.reads = 0 || f.st == .filling || f.st == .free then .next s
  else match s.knl.touches.find? fun t => t.frame == some k && t.chan.isNone with
    | none => .next s
    | some t =>
      let from_ := 16384 * k + t.off
      let dom := some (s.owner t.core).dom
      let cut := (lineAddrs from_ (from_ + t.len)).find? fun o => s.yardCut t.core o
      let bad := s.yardBadIn from_ (from_ + t.len)
      let data := s.yard.mem.read from_ t.len
      let s' := { s with knl := { s.knl with touches := s.knl.touches.erase t } }
      let s' := s'.updCore t.core fun q => { q with sb := q.sb.filter fun r => !(r.uid == t.uid && r.cseq == t.cseq) }
      match cut, bad with
      | some o, _ => .next ((s'.readEnds k).complete t.core t.slot t.uid t.cseq (some (.dataError (yardBase + o))))
      | none, [] =>
        let s' := (s'.yardRead from_ (from_ + t.len) dom).readEnds k
        .next ((s'.coreWriteUe t.core (bytesAt t.dst data) dom).complete t.core t.slot t.uid t.cseq none)
      | none, b :: _ =>
        let l := lineAddr (yardBase + b)
        let s' := (s'.yardRead from_ (from_ + t.len) dom).readEnds k
        .next ((s'.ueMet 0 dom skSlice (s.slice b) l).complete t.core t.slot t.uid t.cseq (some (.dataError l)))

end Sys2Proof.Machine
end

