-- ==== Sys2Proof/Machine/Engines.lean ====
section
/-!
DEFINITION. What an engine does with an issued command: the lines it stages into its operand buffer (R147, R153), the result it makes of
them, and what becomes of its writes when it meets an uncorrectable unit or is aborted (R140, R148, R259, R499).
-/

namespace Sys2Proof.Machine

/-- The command that an opcode names (R256). -/
def specOf : Nat → CmdSpec
  | 0x40 => specSpmv
  | 0x41 => specVscale
  | 0x60 => specDgemm
  | 0x61 => specBdapply
  | 0x62 => specFormk
  | 0x63 => specFact
  | 0x64 => specInvblk
  | 0x80 => specVadd
  | 0x81 => specVsub
  | 0x82 => specVmul
  | 0x83 => specVmadd
  | 0x84 => specVclr
  | 0x85 => specVcopy
  | 0x86 => specVcvt
  | 0x87 => specVsel
  | 0x88 => specVclamp
  | 0x89 => specVneg
  | 0x8A => specVabs
  | 0x8B => specShift
  | 0x90 => specVdot
  | 0x91 => specVmaxabs
  | 0x92 => specVsumh
  | 0xA0 => specRdot
  | 0xA1 => specRspmv
  | 0xA2 => specRmul
  | _ => specLmatv

/-- The lines that a command reads. -/
def ERes.lines (r : ERes) : List Nat := linesOf (r.aux ++ r.prog ++ r.rd.flatMap Run.bytes)

/-- The bytes of a core's memory in listed lines, by device address: what its engine stages (R147). -/
def Core.stage (k : Core) (c : Nat) (lines : List Nat) : Mem :=
  (k.mem.filter fun p => lines.contains ((coreBase c + p.1) / 64)).map fun p => (coreBase c + p.1, p.2)

/-- What an engine makes of a command over the bytes that it received (R65, R147): its open values follow from the bits of the elements it
reads (R79). The last part is those bits. -/
def ECmd.made (m : ECmd) (c : Nat) : ERes × List Nat :=
  let rd : Rd := fun a => (Tab.get 0 m.got a).toNat
  let r := m.result (specOf m.opc) (m.cmd c rd [])
  let data := r.data rd
  (m.result (specOf m.opc) (m.cmd c rd data), data)

/-- The lines that an operand buffer holds: 512, and 1,024 on an LTE (R146). -/
def bufLines : Engine → Nat
  | .lte => 1024
  | _ => 512

/-- The uncorrectable words of listed lines of a core's memory, as line addresses. -/
def State.badLines (s : State) (c : Nat) (lines : List Nat) : List Nat :=
  (lines.filter fun l => (s.core c).bad.any fun b => (coreBase c + b) / 64 == l).map (64 * ·)

/-- An engine starts a command: it stages every line the command reads (log entry 25), correcting what it can; an uncorrectable line is
received and logged, and the choice among several is free (R140). Its buffer keeps the last lines staged, as many as it holds (R146). -/
def State.stageCmd (s : State) (c : Nat) (e : Engine) (m : ECmd) : State :=
  let r := m.result (specOf m.opc) (m.cmd c (s.coreRd c) [])
  let dom := some (s.owner c).dom
  let got := (s.core c).stage c r.lines
  let kept := r.lines.drop (r.lines.length - bufLines e)
  let buf := got.filter fun p => kept.contains (p.1 / 64)
  let dur := if r.refuse || r.fault then r.dur else max r.dur (staging e r)
  let weak := (s.core c).weak.filter fun b => r.lines.contains ((coreBase c + b) / 64)
  let bad := s.badLines c r.lines
  let s := weak.foldl (fun s b => s.coreFix c b dom) s
  let p := s.pickOne bad
  let line := p.1
  let s := match line with
    | some l => p.2.ueMet 0 dom skCore c l
    | none => p.2
  s.updCore c fun k => k.setEng e
    { run := some { m with started := s.dt, dur := dur, line := line, got := got }, queue := (k.eng e).queue.erase m, buf := buf }

/-- Some of a command's writes and events: each is kept where `pick` says so; its scalar is not written. -/
def ERes.pick (r : ERes) (pick : Nat → Bool) : ERes :=
  { r with writes := (r.writes.zipIdx.filter fun p => pick p.2).map (·.1),
           evs := (r.evs.zipIdx.filter fun p => pick (r.writes.length + p.2)).map (·.1),
           reg := none, pivots := [] }

/-- The writes and events of a command that met an uncorrectable unit: which of them came before it is open (R140), so each is kept or not
by a free value. -/
def State.keepFree (s : State) (r : ERes) : ERes × State :=
  (r.pick fun i => Config.freeValue (s.freeCtr + i) % 2 = 1,
   { s with freeCtr := s.freeCtr + r.writes.length + r.evs.length })

/-- The bytes by which writes land in a core's memory, by offset. -/
def State.landing (s : State) (c : Nat) (l : List Wr) : List (Nat × Byte) := (landAll (s.coreRd c) l).map fun p => (p.1 - coreBase c, p.2)

/-- Whether a write alone meets a word that it cannot merge with (R499). -/
def State.stuckWr (s : State) (c : Nat) (w : Wr) : Bool :=
  !(writeChecked 4 (s.core c).mem (s.core c).bad (s.landing c [w])).2.2.isEmpty

/-- A command's writes land in its core's memory. A unit that cannot be merged fails the command as on reading it (R499): no write that
meets such a unit is made, a block's elements and its scale nibble together (R59), and of the others each is kept or not by a free value
(R140). The failed line, one of them by a free value, is answered. -/
def State.cmdWrite (s : State) (c : Nat) (r : ERes) : State × ERes × Option Nat :=
  let w := s.coreWrite c (s.landing c r.writes)
  match w.2 with
  | [] => (w.1, r, none)
  | b :: _ =>
    let line := lineAddr (coreBase c + w.2.getD ((s.draw).1 % w.2.length) b)
    let k := (s.draw).2.keepFree { r with writes := r.writes.filter fun g => !s.stuckWr c g }
    ((k.2.coreWrite c (k.2.landing c k.1.writes)).1.ueMet 0 (some (s.owner c).dom) skCore c line, k.1, some line)

/-- The errors that the error code of an engine's operand buffer shows as a command uses it: corrections are counted; an uncorrectable
unit among the lines the command staged is received (R148, R439). `upset` lists the units in error by the core-memory address they
were staged from, each with whether it can be corrected. A 64-bit word of an engine's buffer is told from the others by that address
(log entry 221). -/
def State.bufErrors (s : State) (c : Nat) (e : Engine) (m : ECmd) (lines : List Nat) (upset : List (Nat × Bool)) : State × Option Nat :=
  let mine := upset.filter fun p => lines.contains (p.1 / 64)
  let dom := some (s.owner c).dom
  let s := (mine.filter (·.2)).foldl
    (fun s p => s.correctedIn (wkBuffer e) (p.1 / 8) (some c) skCore c (lineAddr p.1) 0 dom) s
  match m.line, mine.find? (fun p => !p.2) with
  | some l, _ => (s, some l)
  | none, some p => (s.ueMet 0 dom skCore c (lineAddr p.1), some (lineAddr p.1))
  | none, none => (s, none)

end Sys2Proof.Machine
end

