-- ==== Sys2Proof/Machine/Flags.lean ====
section
/-!
DEFINITION. How a retiring instruction's flag events enter FLAGS and the exception record (R62, R63, R83 to R85).
-/

namespace Sys2Proof.Machine

/-- The mask of a flag in FLAGS (R62). -/
def flagMask (f : Nat) : Nat := 2 ^ f

/-- Set one flag, which is sticky (R63). -/
def setFlag (flags f : Nat) : Nat := flags ||| flagMask f

/-- The lowest index among the events of one flag, if the flag was raised (R83). -/
def firstIndex (f : Nat) : List FlagEv → Option Nat
  | [] => none
  | e :: es =>
    match firstIndex f es with
    | none => if e.flag = f then some e.idx else none
    | some i => some (if e.flag = f then min e.idx i else i)

/-- Whether a list of events raises a flag. -/
def raises (f : Nat) (l : List FlagEv) : Bool := l.any fun e => e.flag == f

/-- How many events of a list are of a flag: for LOSS and OVF, the RU products that raised it (R83, R84). -/
def countFlag (f : Nat) (l : List FlagEv) : Nat := (l.filter fun e => e.flag == f).length

/-- The exception record after an instruction with these events retires (R84, R85). -/
def ExcRec.enter (x : ExcRec) (r : RetEntry) : ExcRec :=
  let x := match firstIndex fRange r.evs with
    | some i => if x.rangeV then x else
        { x with rangeV := true, rangeIdx := i % 2 ^ 32, rangeCseq := r.cseq, rangeOpc := r.opc, rangeEng := r.eng }
    | none => x
  let x := match firstIndex fInvalid r.evs with
    | some i => if x.invV then x else
        { x with invV := true, invIdx := i % 2 ^ 32, invCseq := r.cseq, invOpc := r.opc, invEng := r.eng }
    | none => x
  if r.eng = 4 then
    { x with lossCnt := satAdd 32 x.lossCnt (countFlag fLoss r.evs), ovfCnt := satAdd 16 x.ovfCnt (countFlag fOvf r.evs) }
  else x

/-- FLAGS after an instruction with these events retires (R81). -/
def enterFlags (flags : Nat) (l : List FlagEv) : Nat := l.foldl (fun a e => setFlag a e.flag) flags

/-- The 32 bytes of the exception record (R84). -/
def ExcRec.bytes (x : ExcRec) (flags : Nat) : List Byte :=
  toLE 32 (fields [(224, x.rangeIdx), (192, x.rangeCseq), (184, x.rangeOpc), (181, x.rangeEng), (176, bit x.rangeV),
    (144, x.invIdx), (112, x.invCseq), (104, x.invOpc), (101, x.invEng), (96, bit x.invV),
    (64, x.lossCnt), (48, x.ovfCnt), (0, flags % 65536)])

end Sys2Proof.Machine
end

