-- ==== Sys2Proof/Machine/SeqTally.lean ====
section
/-!
DEFINITION. The Sequencer's tally instructions and SPAWN (R214, R229, R233, R255), and the effect of operations at a tally
(R229 to R231, R168).
-/

namespace Sys2Proof.Machine

/-! ### TADD, TSET, TWAIT (R229, R255) -/

/-- TADD or TSET: RA names the tally, the second source is n or v, taken modulo 2^32 (log entry 22). -/
def tallyOp (c k opc : Nat) (isSet : Bool) (f : SFields) (s : State) : Out :=
  issueShort c k opc f false ([f.ra.toNat] ++ if f.i then [] else [f.rb.toNat]) []
    (fun s =>
      let x := s.slot c k
      some { s := s.tallyIssue ⟨(srcA x f).toNat, isSet, (srcB x f).toNat % 2 ^ 32, s.slotDom c k, x.uid, x.cseq⟩ }) s

/-- TADD (R229). -/
def execTadd (c k : Nat) (f : SFields) (s : State) : Out := tallyOp c k 0x28 false f s
/-- TSET (R229). -/
def execTset (c k : Nat) (f : SFields) (s : State) : Out := tallyOp c k 0x29 true f s

/-- Whether a task has an operation on a tally, issued before a CSEQ, that has not taken effect: its own operations on one tally take
effect in CSEQ order (R231). -/
def State.ownPending (s : State) (uid k cseq : Nat) : Bool :=
  s.tly.ops.any fun o => o.uid == some uid && o.tally == k && decide (o.cseq < cseq)

/-- TWAIT: the task waits until WAIT_COMPLETE; a refused WAIT never completes (R229, R233). -/
def execTwait (c k : Nat) (f : SFields) (s : State) : Out :=
  issueShort c k 0x2A f false ([f.ra.toNat] ++ if f.i then [] else [f.rb.toNat]) []
    (fun s =>
      let x := s.slot c k
      let t := (srcA x f).toNat
      let n := (srcB x f).toNat % 2 ^ 32
      let refused := s.waitRefused (s.slotDom c k) t
      let w : WaitSt := ⟨x.cseq, t, n, refused, !refused && s.waitMet t n && !s.ownPending (x.uid.getD 0) t x.cseq⟩
      let s' := if refused then s.tallyRefuse (s.slotDom c k) t else s
      some { s := s'.updSlot c k fun y => { y with wait := some w }, complete := false }) s

/-- WAIT_COMPLETE: the WAIT of a slot completes once it has been satisfied (R229). -/
def execWaitComplete (c k : Nat) (s : State) : Out :=
  if !s.hasSlot c k then .fault .noSuchUnit
  else match (s.slot c k).wait, (s.slot c k).uid with
    | some w, some uid =>
      if w.sat && !w.refused then .next ((s.updSlot c k fun y => { y with wait := none }).complete c k uid w.cseq none)
      else .next s
    | _, _ => .next s

/-! ### SPAWN (R214) -/

/-- A refused SPAWN: counted, with an error record (R214, R242). -/
def State.spawnRefused (s : State) (d a : Nat) : State :=
  ({ s with sched := { s.sched with spawnRef := Tab.upd 0 s.sched.spawnRef d fun n => satAdd 32 n 1 } }).record
    4 1 (some d) skSched 0 (a % 2 ^ 48) 0

/-- The line of the first uncorrectable unit of a range of core memory or the Yard, with its source kind and index (R445). -/
def State.firstBad (s : State) (a n : Nat) : Option (Nat × Nat × Nat) :=
  match s.place a with
  | .core c off => ((s.core c).badIn off (off + n)).head?.map fun b => (lineAddr (coreBase c + b), skCore, c)
  | .yard off => (s.yardBadIn off (off + n)).head?.map fun b => (lineAddr (yardBase + b), skSlice, s.slice b)
  | _ => none

/-- SPAWN at issue. -/
def spawnEff (c k : Nat) (f : SFields) (s : State) : Option Eff :=
  let a := (srcA (s.slot c k) f).toNat
  let d := s.slotDom c k
  if a % 64 ≠ 0 || !(decide (coreBase c ≤ a) && decide (a + 40 ≤ coreBase c + coreBytes)) then some { s := s.spawnRefused d a }
  else match s.firstBad a 40 with
    | some (l, sk, ix) => some { s := s.ueMet 0 (some d) sk ix l, fault := some (.dataError l) }
    | none =>
      let b := TaskBlock.ofNat (Rd.le s.rd a 40)
      let s := s.rangeRead a 40 (some d)
      if (s.blockRefusal d b).isSome then some { s := s.spawnRefused d a }
      else if !s.blockRoom d b then none
      else some { s := s.acceptBlock d b }

/-- SPAWN (R214). -/
def execSpawn (c k : Nat) (f : SFields) (s : State) : Out :=
  issueShort c k 0x2B f false [f.ra.toNat] [] (spawnEff c k f) s

/-! ### The effect of operations at a tally (R230, R231) -/

/-- Whether a task has an engine command issued before a CSEQ that has not completed. -/
def State.cmdsPending (s : State) (uid cseq : Nat) : Bool :=
  s.cores.any fun p => engineAll.any fun e =>
    ((p.2.eng e).run.toList ++ (p.2.eng e).queue).any fun m => m.uid == uid && decide (m.cseq < cseq)

/-- Whether a task has a commit copy, or a KGET, issued before a CSEQ that has not ended. -/
def State.copiesPending (s : State) (uid cseq : Nat) : Bool :=
  (s.cores.any fun p => p.2.slots.any fun q =>
    q.2.uid == some uid && q.2.copy.isSome && decide (q.2.commitCseq < cseq))
  || s.knl.touches.any fun t => t.chan.isNone && t.uid == uid && decide (t.cseq < cseq)

/-- Whether an operation may take effect now: an ADD of a task waits until its earlier remote writes and XMOVEs have ended (R168), and its
earlier engine commands, KGETs and commit copy too, which is how these announce their data (R27, R229, log entry 181). -/
def State.opFree (s : State) (o : TOp) : Bool :=
  match o.uid with
  | none => true
  | some u => o.isSet ||
    (!(s.mesh.any fun w => w.uid == u && (w.write || w.left ≠ 0) && decide (w.cseq < o.cseq)) && !s.cmdsPending u o.cseq
      && !s.copiesPending u o.cseq)

/-- The operations on a tally that reach it in one cycle: the first `n` that may take effect, with at most one of each task. -/
def pickOps (s : State) (k : Nat) : (n : Nat) → (uids : List Nat) → List TOp → List TOp
  | 0, _, _ => []
  | _, _, [] => []
  | n + 1, us, o :: os =>
    let seen := match o.uid with
      | none => false
      | some u => us.contains u
    let us' := match o.uid with
      | none => us
      | some u => u :: us
    if o.tally ≠ k then pickOps s k (n + 1) us os
    else if seen || !s.opFree o then pickOps s k (n + 1) us' os
    else o :: pickOps s k n us' os

/-- Remove each listed operation once. -/
def dropOps (l gone : List TOp) : List TOp := gone.foldl (fun l o => l.erase o) l

/-- The new value of a tally after SETs and the sum of ADDs, and whether it saturated (R230, R231). -/
def tallyNew (v : Nat) (ops : List TOp) : Nat × Bool :=
  let sets := (ops.filter (·.isSet)).map (·.n)
  let base := if sets = [] then v else sets.foldl max 0
  let sum := ((ops.filter fun o => !o.isSet).map (·.n)).foldl (· + ·) 0
  (min (base + sum) (2 ^ 32 - 1), decide (2 ^ 32 - 1 < base + sum))

/-- A slot's WAIT tested against a tally (R231); `late` tells that an earlier operation of its task on the tally is still to come. -/
def Slot.testWait (x : Slot) (k : Nat) (met : Nat → Bool) (late : Nat → Nat → Bool) : Slot :=
  match x.wait with
  | some w => if w.tally = k ∧ !w.refused ∧ met w.n ∧ !late (x.uid.getD 0) w.cseq then { x with wait := some { w with sat := true } } else x
  | none => x

/-- A waiting task's trigger tested; the satisfying operation fixes the release time (R215). -/
def Task.testTrig (t : Task) (k dt : Nat) (met : Nat → Bool) : Task :=
  if t.st = TaskSt.waiting ∧ t.trigTally = k ∧ !t.trigSat ∧ met t.trigN then { t with trigSat := true, release := dt } else t

/-- The tally a channel's WAIT word names (R265). -/
def Chan.waitTally (h : Chan) : Nat := natBits (h.w.getD h.word 0).toNat 58 41

/-- A channel's WAIT tested (R231). -/
def Chan.testWait (h : Chan) (k : Nat) (met : Nat → Bool) : Chan :=
  if h.st = ChSt.waiting ∧ h.waitTally = k ∧ !h.waitRefused ∧ met (h.waitN.getD 0) then { h with waitSat := true } else h

/-- Every WAIT and trigger on a tally, tested against its value (R231). -/
def State.testWaits (s : State) (k : Nat) : State :=
  let met := fun n => s.waitMet k n
  let dt := s.dt
  let cores := Tab.mapAll {} s.cores fun _ (q : Core) =>
    { q with slots := Tab.mapAll {} q.slots fun _ (x : Slot) => x.testWait k met fun u n => s.ownPending u k n }
  let tasks := s.sched.tasks.map fun (t : Task) => t.testTrig k dt met
  let chans := Tab.mapAll {} s.yrd.chans fun _ (h : Chan) => h.testWait k met
  { s with cores := cores, sched := { s.sched with tasks := tasks }, yrd := { s.yrd with chans := chans } }

/-- TALLY_OP_EFFECT: the operations that reach tally `k` in one cycle (R231). On a failed tally ADDs are refused and a SET clears
the mark (R448). -/
def execTallyOpEffect (k n : Nat) (s : State) : Out :=
  if !(decide (k < tallies)) then .fault .noSuchUnit
  else
    let ops := pickOps s k n [] s.tly.ops
    if ops.isEmpty then .next s
    else
      let s := { s with tly := { s.tly with ops := dropOps s.tly.ops ops } }
      let failed := s.tallyFailed k
      let sets := ops.any (·.isSet)
      let good := if failed && !sets then [] else ops
      let s := if failed && !sets then ops.foldl (fun s o => s.tallyRefuse o.dom k) s
        else { s with tly := { s.tly with failed := s.tly.failed.filter (· ≠ k) } }
      let r := tallyNew (s.tallyVal k) good
      let s := { s with tly := { s.tly with val := Tab.set 0 s.tly.val k r.1 } }
      let s := if r.2 then
          ({ s with tly := { s.tly with satCnt := satAdd 32 s.tly.satCnt 1 } }).record 3 2
            ((ops.head?).map TOp.dom) skTally 0 (tallyAddr k % 2 ^ 48) k
        else s
      .next (s.testWaits k)

end Sys2Proof.Machine
end

