-- ==== Sys2Proof/Machine/SeqSolve.lean ====
section
/-!
DEFINITION. The solve control (R94 to R98, R113, R124 to R128, R130): SOLVE, OUTER, INNER, PRECSWAP, COMMIT and FINISH as they
issue. What COMMIT, FINISH and a capped OUTER do as they retire stands in Pipeline.lean.
-/

namespace Sys2Proof.Machine

/-- The Sequencer of a slot issues nothing further. -/
def stopIssue (s : State) (c k : Nat) : State := s.updSlot c k fun x => { x with stopIssue := true }

/-- A fault found by the solve control, which stops issue only as it retires (R82). -/
def solveFault (s : State) (cyc : Nat) : Eff := { s := s, cycles := cyc, fault := some .malformed }

/-- A SOLVE that breaks a rule of R97: no command of the solve is issued, so issue stops at once. -/
def solveRefused (c k : Nat) (s : State) : Eff := solveFault (s.updSlot c k fun x => { x with stopIssue := true }) 4

/-! ### SOLVE (R96 to R98) -/

/-- An HF24 container that is below zero, infinite or NaN (R97). -/
def epsBad (x : Nat) : Bool :=
  match hfVal x with
  | .fin d => d.m < 0
  | _ => true

/-- Whether the entries of a penalty schedule meet R98, from entry to entry. -/
def schedOk : (prev : Option Nat) → List Nat → Bool
  | _, [] => true
  | prev, e :: es =>
    let start := natBits e 127 112
    (match prev with
      | none => start == 0
      | some p => decide (p < start))
    && natBits e 111 96 == 0 && decide (0 ≤ sgn 32 (natBits e 95 64)) && decide (0 < sgn 32 (natBits e 63 32))
    && decide (0 < sgn 32 (natBits e 31 0)) && schedOk (some start) es

/-- The checks of R97 on the fields of an SPB. `sched` says whether the schedule's place and entries are good. -/
def spbOk (v : Nat) (sched : Bool) : Bool :=
  let method := natBits v 353 352
  let n := natBits v 383 368
  let m := natBits v 399 384
  let nstage := natBits v 367 360
  let svar := natBits v 359 354
  let preb := natBits v 159 112
  method ≠ 3 && natBits v 459 456 == 0 && natBits v 111 0 == 0 && n == nstage * svar
  && decide (1 ≤ n ∧ n ≤ 16384 ∧ 1 ≤ m ∧ m ≤ 16384 ∧ 1 ≤ nstage ∧ 1 ≤ svar ∧ svar ≤ 32)
  && decide (0 < sgn 32 (natBits v 223 192)) && decide (0 < sgn 32 (natBits v 191 160))
  && (if method == 2 then
        nstage == 1 && decide (m ≤ 32) && natBits v 511 460 == 0 && natBits v 455 416 == 0 && natBits v 351 224 == 0 && preb == 0
      else
        natBits v 463 460 ≠ 0 && natBits v 455 448 ≠ 0 && natBits v 447 432 ≠ 0 && natBits v 431 416 ≠ 0
        && decide (0 < sgn 32 (natBits v 351 320))
        && !epsBad (natBits v 319 288) && !epsBad (natBits v 287 256) && !epsBad (natBits v 255 224)
        && preb ≠ 0 && preb % 64 == 0 && sched)

/-- The solve control that a good SPB sets up (R94, R113). -/
def SolveCtl.ofSpb (v : Nat) : SolveCtl :=
  { solved := true, method := natBits v 353 352, nVar := natBits v 383 368, mCon := natBits v 399 384,
    capOut := natBits v 431 416, capIn := natBits v 447 432, pivlim := natBits v 415 400,
    tau := natBits v 223 192, delta := natBits v 191 160, prebOff := natBits v 159 112 }

/-- SOLVE at issue: it reads and checks its SPB and, for METHOD 0 and 1, the schedule, which it reads also where its SPB breaks another
check: an uncorrectable line of it then ends the task with DATA_ERROR (log entry 232). -/
def solveEff (c k : Nat) (f : SFields) (s : State) : Option Eff :=
  let a := (srcA (s.slot c k) f).toNat
  let d := s.slotDom c k
  if (s.slot c k).sc.solved then some (solveFault s 4)
  else if a % 64 ≠ 0 || !s.taskRange c d a 64 then some (solveRefused c k s)
  else
    let v := Rd.le s.rd a 64
    let sb := natBits v 511 464
    let ns := natBits v 463 460
    let reads := natBits v 353 352 < 2 && sb % 16 == 0 && s.taskRange c d sb (16 * ns)
    let bad := (s.firstBad a 64).orElse fun _ => if reads then s.firstBad sb (16 * ns) else none
    match bad with
    | some (l, sk, ix) =>
      some { s := s.ueMet 0 (some d) sk ix l, cycles := 4, fault := some (.dataError l) }
    | none =>
      let s := s.rangeRead a 64 (some d)
      let s := if reads then s.rangeRead sb (16 * ns) (some d) else s
      let es := (List.range ns).map fun i => Rd.le s.rd (sb + 16 * i) 16
      if spbOk v (reads && schedOk none es) then
        some { s := s.updSlot c k fun x => { x with sc := SolveCtl.ofSpb v }, cycles := 4, act := .solve }
      else some (solveRefused c k s)

/-- SOLVE (R94, R96, R97). -/
def execSolve (c k : Nat) (f : SFields) (s : State) : Out :=
  issueShort c k 0x30 f false [f.ra.toNat] [] (solveEff c k f) s

/-! ### OUTER, INNER, PRECSWAP, FINISH -/

/-- OUTER (R94, R130): after the cap the Sequencer issues nothing. -/
def execOuter (c k : Nat) (f : SFields) (s : State) : Out :=
  issueShort c k 0x31 f false [] []
    (fun s =>
      let sc := (s.slot c k).sc
      if !sc.solved then some (solveFault s 1)
      else if sc.outCnt = sc.capOut then some { s := stopIssue s c k, act := .cap }
      else some { s := s.updSlot c k fun x => { x with sc := { x.sc with outCnt := x.sc.outCnt + 1, inCnt := 0 } }, act := .outer }) s

/-- INNER (R94). -/
def execInner (c k : Nat) (f : SFields) (s : State) : Out :=
  issueShort c k 0x32 f false [] []
    (fun s =>
      let sc := (s.slot c k).sc
      if !sc.solved then some (solveFault s 1)
      else if sc.inCnt = sc.capIn then some { s := s.setCy c k true }
      else some { s := (s.updSlot c k fun x => { x with sc := { x.sc with inCnt := x.sc.inCnt + 1 } }).setCy c k false, act := .inner }) s

/-- PRECSWAP (R94, R113). -/
def execPrecswap (c k : Nat) (f : SFields) (s : State) : Out :=
  issueShort c k 0x33 f false [] []
    (fun s =>
      let sc := (s.slot c k).sc
      if !sc.solved || !sc.stgDone then some (solveFault s 1)
      else some { s := s.updSlot c k fun x =>
        { x with sc := { x.sc with psel := !x.sc.psel, stgDone := false, swapped := true } } }) s

/-- FINISH (R94, R128): nothing is issued after it. -/
def execFinish (c k : Nat) (f : SFields) (s : State) : Out :=
  issueShort c k 0x35 f false [] []
    (fun s => some { s := stopIssue s c k, cycles := 2, act := .finish (f.imm.toNat % 16) }) s

/-! ### COMMIT (R124 to R127) -/

/-- A tensor of COMMIT: HQ32, of one dimension of the given length (R125). -/
def commitTensor (n : Nat) (o : Opnd) : Option TDesc :=
  match o.tensor? with
  | some d => if d.fmt = fmtHQ32 ∧ d.dim0 = n ∧ d.dim1 = 1 ∧ d.dim2 = 1 ∧ d.shapeOk then some d else none
  | none => none

/-- Whether two half-open ranges meet. -/
def hitsLimit (a b : Nat × Nat) : Bool := decide (a.1 < b.2) && decide (b.1 < a.2)

/-- The commit copy that a COMMIT starts, or none where it faults (R125, R126 step 1). k is OUT_CNT - 1 modulo 2^16, so 65,535 for a COMMIT
before the first OUTER (log entry 224). -/
def commitJob (s : State) (c k : Nat) (f : LFields) : Option CommitJob :=
  let j := s.slotJob c k
  let x := s.slot c k
  let sc := x.sc
  let cib := (x.reg (natBits f.param.toNat 4 0)).toNat
  let span := (cib, cib + 64 + 2 * sc.halfBytes)
  if !sc.solved || 2 ≤ sc.method || cib % 64 ≠ 0 || decide (cib < coreBase c) || decide (coreBase c + coreBytes < span.2)
      || natBits f.param.toNat 31 10 ≠ 0 || !(resolve j x f.op3).isNone then none
  else match commitTensor sc.nVar (resolve j x f.op0), commitTensor sc.mCon (resolve j x f.op1),
      commitTensor sc.mCon (resolve j x f.op2) with
    | some z, some zc, some y =>
      if hitsLimit span z.range || hitsLimit span zc.range || hitsLimit span y.range then none
      else if !([z, zc, y].all fun d => decide (coreBase c ≤ d.range.1) && decide (d.range.2 ≤ coreBase c + coreBytes)) then none
      else some ⟨if sc.committed then bit (sc.active = 0) else 0, (sc.outCnt + 65535) % 65536,
        (x.reg (natBits f.param.toNat 9 5)).toNat, cib, z.base, zc.base, y.base,
        [longWord0 0x34 f, longWord1 f] ++ z.key c ++ zc.key c ++ y.key c ++ [sc.nVar, sc.mCon]⟩
    | _, _, _ => none

/-- The commands in flight whose writes meet a range of lines, by task and CSEQ (R158). -/
def Core.writersOf (q : Core) (a n : Nat) : List (Nat × Nat) :=
  (q.sb.filter fun r => r.write && r.lo < (lineRange a (a + n)).2 && (lineRange a (a + n)).1 < r.hi).map fun r => (r.uid, r.cseq)

/-- COMMIT at issue. It is held while an earlier COMMIT, one that faults among them, has not retired and while one of its registers waits
for a command; its copy waits for the commands in flight that write what it reads (R126, R158, R254). -/
def execCommit (c k : Nat) (f : LFields) (s : State) : Out :=
  if !s.hasSlot c k then .fault .noSuchUnit
  else if !s.ready c k then .next s
  else match s.fetch c k (longWord0 0x34 f) (some (longWord1 f)) with
    | .other => .next s
    | .unknown => .next ((s.fetchRead c k 0 none).decodeFault c k ((s.slotJob c k).segWord (s.slot c k).pc / 2 ^ 56))
    | .bad u => .next (s.fetchFault c k 0x34 u)
    | .same =>
      let s := s.fetchRead c k (longWord0 0x34 f) (some (longWord1 f))
      let x := s.slot c k
      let regs := operandRegs f.op0 ++ operandRegs f.op1 ++ operandRegs f.op2
        ++ [natBits f.param.toNat 9 5, natBits f.param.toNat 4 0]
      if 2 ^ 32 ≤ x.cseq || f.res ≠ 0 || 1 < f.rnd.toNat || f.scl ≠ 0 || f.preg ≠ 0
          || [f.op0, f.op1, f.op2, f.op3].any (fun o => (resolve (s.slotJob c k) x o).isWrong) then .next (s.decodeFault c k 0x34)
      else if s.held c k regs [] || x.ret.any (·.opc == 0x34) then .next s
      else match commitJob s c k f with
        | none => .next (s.takeCseq c k (fun n => ⟨n, 0x34, 0, true, 3, [], some .malformed, .none⟩)
            fun y => { y with pc := y.pc + 16 })
        | some j =>
          let n := 4 * x.sc.nVar
          let m := 4 * x.sc.mCon
          let q := s.core c
          .next (s.takeCseq c k (fun n => ⟨n, 0x34, 0, false, 3, [], none, .commit j⟩)
            fun y => { y with pc := y.pc + 16, copy := some j
                              copyHold := q.writersOf j.z n ++ q.writersOf j.zc m ++ q.writersOf j.y m })

end Sys2Proof.Machine
end

