-- ==== Sys2Proof/Machine/Pipeline.lean ====
section
/-!
DEFINITION. The life of a command after its issue and the end of a task: start and completion of engine commands (R65, R224,
R257, R259), retirement and terminating events (R81 to R85, R118, R119), the commit copy (R126, R127), deadlines (R135 to
R138), and the drain with the task result record (R120, R134, R142 to R144).
-/

namespace Sys2Proof.Machine

/-! ### Start (R224, R432) -/

/-- The head command of each slot in a queue, oldest first. -/
def heads (l : List ECmd) : List ECmd :=
  l.foldl (fun acc m => if acc.any (fun x => x.slot == m.slot) then acc else acc ++ [m]) []

/-- The least of a list by a key; the earlier element wins a tie. -/
def least (key : ECmd → Nat × Nat) (l : List ECmd) : Option ECmd :=
  l.foldl (fun a m => match a with
    | none => some m
    | some b => if (key m).1 < (key b).1 || ((key m).1 == (key b).1 && (key m).2 < (key b).2) then some m else a) none

/-- The command an engine starts next (R224): of a yield in progress, else of the LC slot with the earliest deadline, else the
oldest of a BE slot. -/
def State.nextCmd (s : State) (c : Nat) (e : Engine) : Option ECmd :=
  let k := s.core c
  let hs := heads (k.eng e).queue
  let isLc := fun (m : ECmd) => (s.task m.uid).any fun t => !t.be
  let dl := fun (m : ECmd) => ((s.task m.uid).bind (·.deadline)).getD 0
  let yl := hs.filter fun m => (k.slot m.slot).yield.isSome
  match least (fun m => (m.order, m.slot)) yl with
  | some m => some m
  | none =>
    match least (fun m => (dl m, m.slot)) (hs.filter isLc) with
    | some m => some m
    | none => least (fun m => (m.order, m.slot)) hs

/-- ENGINE_COMMAND_START (R147, R224, R432): a free engine starts its next command once Leash grants its credits. -/
def execEngineCommandStart (c : Nat) (e : Engine) (s : State) : Out :=
  if !(decide (c < s.var.cores)) then .fault .noSuchUnit
  else if ((s.core c).eng e).run.isSome || s.ras.fence.contains c then .next s
  else match s.nextCmd c e with
    | none => .next s
    | some m =>
      match s.creditRequest c e with
      | (.start, s') =>
        let s' := s'.stageCmd c e m
        .next ({ s' with pwr := { s'.pwr with waiting := s'.pwr.waiting.erase ⟨c, e, m.uid, m.cseq⟩ } }.noteFall c)
      | (.stepFirst, s') => .next s'
      | (.wait, s') =>
        let w : CredWait := ⟨c, e, m.uid, m.cseq⟩
        if s.pwr.waiting.contains w then .next s'
        else .next { s' with pwr := { s'.pwr with waits := satAdd 32 s'.pwr.waits 1, waiting := s'.credWaits ++ [w] } }

/-! ### Completion and abort (R65, R120, R140, R259) -/

/-- Whether a command's task is in its slot and has not ended. -/
def State.cmdLive (s : State) (c : Nat) (m : ECmd) : Bool :=
  let x := s.slot c m.slot
  x.uid == some m.uid && x.term.isNone

/-- A command leaves its engine and the scoreboard. -/
def State.leave (s : State) (c : Nat) (e : Engine) (m : ECmd) : State :=
  s.updCore c fun k =>
    let k := { k with sb := k.sb.filter fun r => !(r.uid == m.uid && r.cseq == m.cseq) }
    k.setEng e { k.eng e with run := none }

/-- The entry of a command in its slot's retire list becomes complete with the command's outcome. -/
def Slot.cmdDone (x : Slot) (m : ECmd) (r : ERes) (fault : Option RFault) : Slot :=
  { x with ret := x.ret.map fun y =>
      if y.cseq = m.cseq then
        { y with complete := true, cycles := m.dur, evs := r.evs.map (fun p => ⟨p.1, p.2⟩), fault := fault,
                 act := if r.pivots = [] then y.act else .pivots r.pivots }
      else y }

/-- The end of a command: what it writes lands, it leaves its engine and the scoreboard, and it can retire if its task has not ended.
DATA_ERROR comes before any other fault of its (R119). `line` is an uncorrectable line it received. -/
def State.cmdEnd (s : State) (c : Nat) (e : Engine) (m : ECmd) (r : ERes) (line : Option Nat) (fault : Option RFault) : State :=
  let w := s.cmdWrite c r
  let s := (w.1).leave c e m
  let fault := match line, w.2.2 with
    | some l, _ => some (.dataError l)
    | none, some l => some (.dataError l)
    | none, none => fault
  let s := if s.cmdLive c m then
      s.updSlot c m.slot fun x =>
        let x := match m.reg, w.2.1.reg with
          | some g, some v => x.setReg g v
          | _, _ => x
        x.cmdDone m w.2.1 fault
    else s
  s.noteFall c

/-- ENGINE_COMMAND_COMPLETE: the running command's writes are visible, it leaves the scoreboard, and it can retire (R65, R120). -/
def execEngineCommandComplete (c : Nat) (e : Engine) (upset : List (Nat × Bool)) (s : State) : Out :=
  if !(decide (c < s.var.cores)) then .fault .noSuchUnit
  else match ((s.core c).eng e).run with
    | none => .next s
    | some m =>
      if 8192 < m.dur then .next s
      else
        let r := (m.made c).1
        let (s, line) := s.bufErrors c e m r.lines upset
        let (r', s) := if line.isSome then s.keepFree r else (r, s)
        .next (s.cmdEnd c e m r' line (if r.refuse || r.fault then some .malformed else none))

/-- The words and descriptors of a command (R79). -/
def ECmd.key (m : ECmd) (c : Nat) : List Nat := (m.cmd c (fun _ => 0) []).key

/-- What a command has written and raised when it is aborted: each write and event is kept or not by an open value of the command (R28,
R65, log entry 42). -/
def ECmd.cut (m : ECmd) (c : Nat) : ERes :=
  (m.made c).1.pick fun i => Config.cmdFree (m.key c) (m.made c).2 [3, i] % 2 = 1

/-- COMMAND_ABORT: a command of more than 8,192 cycles stops (R259). Until then it meets the errors of its operand buffer as any other
(R148); one that received an uncorrectable line wrote nothing after it (R140). -/
def execCommandAbort (c : Nat) (x : Engine × List (Nat × Bool)) (s : State) : Out :=
  if !(decide (c < s.var.cores)) then .fault .noSuchUnit
  else match ((s.core c).eng x.1).run with
    | none => .next s
    | some m =>
      if m.dur ≤ 8192 then .next s
      else
        let (s, line) := s.bufErrors c x.1 m (m.made c).1.lines x.2
        let (r, s) := if line.isSome then s.keepFree (m.cut c) else (m.cut c, s)
        .next (s.cmdEnd c x.1 m r line (some .aborted))

/-! ### Retirement (R81, R118, R119) -/

/-- Status codes (R25). -/
def stConverged : Nat := 0
def stCap : Nat := 1
def stDeadlineIter : Nat := 2
def stDeadlineNone : Nat := 3
def stIllPosed : Nat := 4
def stRange : Nat := 5
def stInvalid : Nat := 6
def stDataError : Nat := 7
def stKilled : Nat := 8
def stMalformed : Nat := 9

/-- The 64 bytes of a CIB header (R124). -/
def SolveCtl.header (sc : SolveCtl) : List Byte :=
  toLE 64 (fields [(448, sc.np1 % 2 ^ 64), (384, sc.np0 % 2 ^ 64), (368, sc.k1), (352, sc.k0), (336, sc.nVar), (320, sc.mCon),
    (1, bit sc.cv), (0, sc.active)])

/-- Write the CIB header as one line. -/
def State.writeHeader (s : State) (c k : Nat) : State :=
  let sc := (s.slot c k).sc
  (s.coreWrite c (bytesAt (sc.cib - coreBase c) sc.header)).1

/-- The solve control after a COMMIT has retired (R126 steps 5 and 6). The header goes to the CIB of the COMMIT that retires, and CIB_BASE
names it, also where an earlier COMMIT of the solve named another (log entry 225). -/
def SolveCtl.commit (sc : SolveCtl) (j : CommitJob) : SolveCtl :=
  if !sc.committed then
    { sc with committed := true, cv := true, active := 0, np0 := j.np, np1 := 0, k0 := j.k, k1 := 0, cib := j.cib, lastHalf := 0 }
  else
    let old := if sc.active = 0 then sc.np0 else sc.np1
    let take := !sc.cv || decide (sgn 64 j.np < sgn 64 old)
    let sc := if j.half = 0 then { sc with np0 := j.np, k0 := j.k } else { sc with np1 := j.np, k1 := j.k }
    { sc with active := if take then j.half else sc.active, cv := sc.cv || take, cib := j.cib, lastHalf := j.half }

/-- The solve control after a FINISH of METHOD 0 or 1 (R128). -/
def SolveCtl.finish (sc : SolveCtl) : SolveCtl := { sc with active := sc.lastHalf, cv := true }

/-- Pivot replacements of a FACT that retires (R133). -/
def SolveCtl.countPivots (sc : SolveCtl) (cseq : Nat) (l : List Pivot) : SolveCtl :=
  { sc with pivCnt := satAdd 32 sc.pivCnt l.length,
            pivFirst := match sc.pivFirst with
              | some p => some p
              | none => l.head?.map fun p => (cseq, p) }

/-- Change the solve control of a slot. -/
def State.updSc (s : State) (c k : Nat) (f : SolveCtl → SolveCtl) : State := s.updSlot c k fun x => { x with sc := f x.sc }

/-- FINISH as it retires: another status by the rules, or CONVERGED (R128, R139, R141). -/
def State.retireFinish (s : State) (c k op cseq : Nat) : State :=
  let x := s.slot c k
  let solve := x.sc.retired && x.sc.method < 2
  if op ≠ 0 || (solve && !x.sc.committed) then s.terminate c k stMalformed 4 cseq none
  else if x.sc.retired && natBit x.flags fInvalid then s.terminate c k stInvalid 4 cseq none
  else if solve && !(x.sc.cv && x.sc.active == x.sc.lastHalf) then
    ((s.updSc c k SolveCtl.finish).writeHeader c k).terminate c k stConverged 0 cseq none
  else s.terminate c k stConverged 0 cseq none

/-- COMMIT as it retires (R126 steps 4 to 6). -/
def State.retireCommit (s : State) (c k cseq : Nat) (j : CommitJob) : State :=
  if natBit (s.slot c k).flags fInvalid then s.terminate c k stInvalid 4 cseq none
  else (s.updSc c k fun sc => sc.commit j).writeHeader c k

/-- What an instruction does as it retires, in the order of R119. -/
def State.retireEvents (s : State) (c k : Nat) (e : RetEntry) : State :=
  match e.fault with
  | some (.dataError l) => s.terminate c k stDataError 5 e.cseq (some l)
  | some .aborted => s.terminate c k stMalformed 7 e.cseq none
  | some .malformed => s.terminate c k stMalformed 4 e.cseq none
  | none =>
    let s := match e.act with
      | .pivots l => s.updSc c k fun sc => sc.countPivots e.cseq l
      | .outer => s.updSc c k fun sc => { sc with outDone := sc.outDone + 1 }
      | .inner => s.updSc c k fun sc => { sc with innerDone := (sc.innerDone + 1) % 2 ^ 32 }
      | _ => s
    if raises fRange e.evs then s.terminate c k stRange 4 e.cseq none
    else match e.act with
      | .none | .pivots _ | .outer | .inner => s
      | .finish op => s.retireFinish c k op e.cseq
      | .cap => s.terminate c k stCap 1 e.cseq none
      | .solve => s.updSc c k fun sc => { sc with retired := true }
      | .commit j => s.retireCommit c k e.cseq j
      | .wopen n w => s.wopen c k n w
      | .wclose n => s.wclose c n

/-- Whether the oldest instruction of a slot can retire: it is complete, and its task has not ended (R81, R120). -/
def Slot.canRetire (x : Slot) : Bool := x.ret.head?.any (·.complete) && x.term.isNone && x.uid.isSome

/-- Whether the deadline of a slot's task has passed: the task takes effect before that instant only (R20). -/
def State.pastDeadline (s : State) (c k : Nat) : Bool :=
  (((s.slot c k).uid.bind s.task).bind (·.deadline)).any fun d => decide (d ≤ s.dt)

/-- Whether the oldest instruction of a slot can retire now. -/
def State.canRetire (s : State) (c k : Nat) : Bool := (s.slot c k).canRetire && !s.pastDeadline c k

/-- The oldest instruction of a slot retires: its flags enter FLAGS and the exception record, and then it takes its effect (R81, R84). -/
def State.retireOne (s : State) (c k : Nat) : State :=
  match (s.slot c k).ret with
  | [] => s
  | e :: rest =>
    (s.updSlot c k fun x =>
      { x with ret := rest, lastRet := x.lastRet + 1, flags := enterFlags x.flags e.evs, exc := x.exc.enter e }).retireEvents c k e

/-- RETIRE: the oldest instruction of a slot retires once it is complete (R81); nothing of an ended task retires (R120), and nothing at or
after the task's deadline (R20). -/
def execRetire (c k : Nat) (s : State) : Out :=
  if !s.hasSlot c k then .fault .noSuchUnit
  else .next (if s.canRetire c k then s.retireOne c k else s)

/-- At most `n` of the oldest instructions of a slot retire, while they can. -/
def State.retireN (c k : Nat) : (n : Nat) → State → State
  | 0, s => s
  | n + 1, s => if s.canRetire c k then State.retireN c k n (s.retireOne c k) else s

/-- Every instruction of a slot that can retire does: retirements come before any other event of the same cycle (R119, R260). -/
def State.retireReady (s : State) (c k : Nat) : State := State.retireN c k (s.slot c k).ret.length s

/-! ### The commit copy (R126, R127) -/

/-- COMMIT_COPY_COMPLETE: z, z_c and y stand in the target half (R124, R127); an uncorrectable line read is DATA_ERROR (R139), and the copy
writes only lines whose own source it can read (log entry 47). Which of several such lines it answers with is free (log entry 36). -/
def execCommitCopyComplete (c k : Nat) (s : State) : Out :=
  if !s.hasSlot c k then .fault .noSuchUnit
  else
    let x := s.slot c k
    match x.copy with
    | none => .next s
    | some j =>
      if s.copyHeld c k then .next s
      else
        let bad := s.copyBad c x.sc j
        let u := (j.parts c x.sc).foldl
          (fun s p => s.coreRead c (lineAddr p.1) (lineUp (p.1 + p.2.1)) (some (s.slotDom c k))) s
        let p := u.pickOne bad
        let line := p.1.map fun b => lineAddr (coreBase c + b)
        let u := p.2
        let s := match line with
          | some l => (u.copySome c x.sc j).ueMet 0 (some (s.slotDom c k)) skCore c l
          | none => (u.coreWrite c ((j.lines c x.sc).flatMap (s.copyLine c x.sc j))).1
        .next (s.updSlot c k fun x =>
          { x with copy := none, copyHold := [],
                   ret := x.ret.map fun e => match e.act with
                    | .commit _ => { e with complete := true, fault := line.map RFault.dataError }
                    | _ => e })

/-! ### The task result record and the end of a task (R120, R134, R142 to R144) -/

/-- The status after the substitution of R134. -/
def finalStatus (sc : SolveCtl) (status : Nat) : Nat :=
  if sc.retired && decide (sc.pivlim < sc.pivCnt)
      && (status == stCap || status == stDeadlineIter || status == stDeadlineNone || (status == stConverged && sc.method == 2)) then
    stIllPosed
  else status

/-- Whether the record returns an iterate (R144). -/
def iterV (sc : SolveCtl) (status : Nat) : Bool :=
  sc.retired && sc.method < 2 && (status == stConverged || ((status == stCap || status == stDeadlineIter) && sc.cv))

/-- The 96 bytes of the task result record (R142). Counts are those of instructions that have retired (R28, log entry 179). A STOP_CSEQ of
2^32, which a CSEQ overflow leaves (R81), shows modulo 2^32 (log entry 180). -/
def resultRecord (t : Task) (x : Slot) (m : Term) : List Byte :=
  let sc := x.sc
  let iv := iterV sc m.status
  let np := if sc.active = 0 then sc.np0 else sc.np1
  let kk := if sc.active = 0 then sc.k0 else sc.k1
  let piv := sc.pivFirst.getD (0, ⟨0, 0, 0⟩)
  x.exc.bytes x.flags ++ toLE 64 (fields [(704 - 256, m.t % 2 ^ 64), (640 - 256, t.tDisp % 2 ^ 64), (576 - 256, if iv then np % 2 ^ 64 else 0),
    (528 - 256, if iv then sc.cib % 2 ^ 48 else 0), (512 - 256, if iv then kk else 0), (464 - 256, (m.derr.getD 0) % 2 ^ 48),
    (448 - 256, sc.outDone % 65536), (416 - 256, sc.innerDone % 2 ^ 32), (384 - 256, sc.pivCnt), (352 - 256, piv.1 % 2 ^ 32),
    (344 - 256, piv.2.stage % 256), (338 - 256, piv.2.col % 64), (336 - 256, piv.2.kind % 4), (304 - 256, m.stopCseq % 2 ^ 32),
    (272 - 256, t.taskId), (268 - 256, finalStatus sc m.status), (264 - 256, m.status), (260 - 256, m.cause),
    (259 - 256, bit iv), (258 - 256, if iv then sc.active else 0), (257 - 256, bit m.derr.isSome), (256 - 256, bit sc.retired)])

/-- Write a domain's bytes at a device address of core memory or the Yard. A core or a granule that has left the domain since the address
was checked, or that is being scrubbed, refuses them (R176, R178). -/
def State.writeAt (s : State) (dom a : Nat) (l : List Byte) : State :=
  let refused := s.record 3 0 (some dom) skSched 0 (a % 2 ^ 48) 0
  match s.place a with
  | .core c off =>
    let o := s.owner c
    if o.valid && o.dom == dom && !o.scrub then (s.coreWrite c (bytesAt off l)).1 else refused
  | .yard off => if s.yardRangeOk dom off l.length then (s.yardWrite (bytesAt off l)).1 else refused
  | _ => s

/-- The end of a task: its record, then its completion tally, then its event (R27, R120, R380). The task is ENDED and leaves the
scheduler's lists; a core that was to be fenced may now be empty (R450). -/
def State.endTask (s : State) (t : Task) (x : Slot) (m : Term) : State :=
  let s := s.writeAt t.dom t.result (resultRecord t x m)
  let s := if t.doneV then s.tallyAdd t.dom t.doneTally 1 else s
  let st := finalStatus x.sc m.status
  let w := s.domevt t.dom
  let tev := natBits w 63 62
  let s := if tev = 2 ∨ (tev = 1 ∧ st ≠ stConverged) then
      s.post t.dom (natBits w 61 60) 2 (m.cause * 16 + st) t.job t.taskId
    else s
  ({ s with sched := { s.sched with tasks := s.sched.tasks.filter fun u => u.uid ≠ t.uid } }).fenceProgress

/-- The slot of a task becomes free and its windows close (R120, R167). -/
def State.freeSlot (s : State) (c k : Nat) : State := s.updCore c fun q => (q.closeWins k).updSlot k fun _ => {}

/-- Whether nothing of a draining task is still in progress on its core (R120). -/
def State.drained (s : State) (c : Nat) (uid : Nat) : Bool :=
  (engineAll.all fun e => (((s.core c).eng e).run.all fun m => m.uid != uid)) && (s.mesh.all fun w => w.uid != uid)
  && (s.knl.touches.all fun t => t.uid != uid || t.chan.isSome)

/-- TASK_DRAIN_COMPLETE (R120). -/
def execTaskDrainComplete (uid : Nat) (s : State) : Out :=
  match s.task uid with
  | none => .next s
  | some t =>
    match t.st with
    | .draining c k =>
      if !s.drained c uid then .next s
      else
        let x := s.slot c k
        match x.term with
        | none => .next s
        | some m => .next (((s.freeSlot c k).endTask t x m).noteFall c)
    | _ => .next s

/-! ### Deadlines (R135 to R138) -/

/-- The parked context of a task on a core. -/
def Core.parkedOf (q : Core) (uid : Nat) : Option Parked := q.parked.find? fun p => p.slot.uid == some uid

/-- End a task that holds no slot: pending, or parked on core `c` (R215). -/
def State.endIdle (s : State) (t : Task) (status cause : Nat) : State :=
  match t.st with
  | .parked c =>
    match (s.core c).parkedOf t.uid with
    | some p =>
      let s := s.updCore c fun q => { q with parked := q.parked.filter fun r => r.slot.uid ≠ some t.uid }
      s.endTask t p.slot ⟨status, cause, s.dt, p.slot.highest, none⟩
    | none => s
  | _ => s.endTask { t with tDisp := 0 } {} ⟨status, cause, s.dt, 0, none⟩

/-- Whether a task has reached its stop cycle (R135). -/
def State.stopDue (s : State) (t : Task) : Bool :=
  match t.deadline with
  | some d => decide (d ≤ s.dt + 4000)
  | none => false

/-- DEADLINE_STOP of a running or parked task (R135, R138); what can retire in that cycle does so first (R119, R260). -/
def execDeadlineStop (uid : Nat) (s : State) : Out :=
  match s.task uid with
  | none => .next s
  | some t =>
    if !s.stopDue t then .next s
    else match t.st with
      | .running c k =>
        let s := s.retireReady c k
        let x := s.slot c k
        .next (s.terminate c k x.sc.deadlineStatus 2 x.highest none)
      | .parked c =>
        match (s.core c).parkedOf uid with
        | some p => .next (s.endIdle t p.slot.sc.deadlineStatus 2)
        | none => .next s
      | _ => .next s

/-- UNDISPATCHED_DEADLINE: a pending task at its stop cycle (R137, R215). -/
def execUndispatchedDeadline (uid : Nat) (s : State) : Out :=
  match s.task uid with
  | none => .next s
  | some t => if s.stopDue t && t.pending then .next (s.endIdle t stDeadlineNone 3) else .next s

end Sys2Proof.Machine
end

