-- ==== Sys2Proof/Machine/Scheduler.lean ====
section
/-!
DEFINITION. The scheduler's own events (R215 to R228, R251): release, dispatch, yields, slices, parking and resuming, and the
fill of an instruction segment.
-/

namespace Sys2Proof.Machine

/-! ### Slots and cores -/

/-- The lowest free slot of a core. -/
def Core.freeSlotNo (q : Core) : Option Nat := (List.range 8).find? fun i => (q.slot i).uid.isNone

/-- Whether the scheduler may dispatch to a core (R206, R217, R450). -/
def State.coreOpen (s : State) (c : Nat) : Bool :=
  let o := s.owner c
  o.valid && !o.scrub && !o.closing && !s.ras.fence.contains c

/-- A free slot the scheduler may use. -/
def State.dispatchSlot (s : State) (c : Nat) : Option Nat := if s.coreOpen c then (s.core c).freeSlotNo else none

/-- The cores of a pack that are not fenced, in increasing number. -/
def State.packCores (s : State) (j : Nat) : List Nat :=
  let job := s.job j
  ((List.range (job.packHi + 1 - job.packLo)).map (job.packLo + ·)).filter fun c => !s.ras.fence.contains c

/-- Tasks bound to a core: those in its slots, then those parked on it. -/
def State.boundTasks (s : State) (c : Nat) : List Task :=
  s.sched.tasks.filter fun t => match t.st with
    | .running d _ => d == c
    | .draining d _ => d == c
    | .parked d => d == c
    | _ => false

/-! ### Order of tasks (R217, R218) -/

/-- The first of a list by a key of two numbers; ties keep the earlier element. -/
def firstBy (key : Task → Nat × Nat) (l : List Task) : Option Task :=
  l.foldl (fun a t => match a with
    | none => some t
    | some b => if (key t).1 < (key b).1 || ((key t).1 == (key b).1 && (key t).2 < (key b).2) then some t else a) none

/-- The READY tasks that have not reached their stop cycle (R215: the stop comes before dispatch). -/
def State.readyTasks (s : State) : List Task := s.sched.tasks.filter fun t => t.st == .ready && !s.stopDue t

/-- The first READY LC task of a pack's job: earliest deadline, then order of release (R217). -/
def State.firstLc (s : State) (j : Nat) : Option Task :=
  firstBy (fun t => (t.deadline.getD 0, t.release)) (s.readyTasks.filter fun t => !t.be && t.job == j)

/-- The head of a domain's READY BE queue (R218). -/
def State.headBe (s : State) (d : Nat) : Option Task :=
  firstBy (fun t => (t.queueTime, t.uid)) (s.readyTasks.filter fun t => t.be && t.dom == d)

/-- LC jobs that hold a pack, in increasing PACK_LO (R219). -/
def State.lcJobs (s : State) : List Nat :=
  let js := (s.sched.jobs.filter fun p => !p.2.be && p.2.st ≠ .free && p.2.st ≠ .loading).map fun p => (p.2.packLo, p.1)
  (js.insertionSort fun a b => a.1 ≤ b.1).map (·.2)

/-! ### Segments (R251) -/

/-- The segment of a core that holds a job's code. -/
def Core.segOf (q : Core) (j : Nat) : Option (Nat × Seg) :=
  (List.range 9).findSome? fun i => match Tab.get none q.segs i with
    | some g => if g.job = j then some (i, g) else none
    | none => none

/-- The jobs of BE tasks bound to a core. -/
def State.boundBeJobs (s : State) (c : Nat) : List Nat := (((s.boundTasks c).filter (·.be)).map (·.job)).dedup

/-- The lowest of segments 1 to 8 that holds no job with a task bound to the core (R251). -/
def State.spareSeg (s : State) (c : Nat) : Nat :=
  let jobs := s.boundBeJobs c
  (((List.range 8).map (· + 1)).find? fun i => match Tab.get none (s.core c).segs i with
    | some g => !jobs.contains g.job
    | none => true).getD 8

/-! ### Dispatch (R216 to R219) -/

/-- Whether a READY BE task may be placed on a core (R218). A task parked on the core with an equal queue time comes first (R219). -/
def State.beFits (s : State) (t : Task) (c : Nat) : Bool :=
  let o := s.owner c
  let bound := ((s.boundTasks c).filter (·.be)).length
  o.valid && o.dom == t.dom && (s.dispatchSlot c).isSome && (s.core c).parked.all (fun p => decide (t.queueTime < p.at_))
  && (if o.pack then (s.firstLc o.job).isNone && decide (bound < 8) else decide (bound < 16))
  && (((s.core c).segOf t.job).isSome || decide ((s.boundBeJobs c).length < 8))

/-- The core a BE task goes to. -/
def State.bePlace (s : State) (t : Task) : Option Nat := (List.range s.var.cores).find? (s.beFits t)

/-- The registers of a task as it starts (R216). -/
def startRegs (t : Task) : Tab Word :=
  let put := fun (g : Tab Word) i x => Tab.set 0 g i (BitVec.ofNat 64 x)
  put (put (put (put [] 0 t.arg) 1 t.taskId) 2 (t.deadline.getD 0)) 3 t.release

/-- The slot of a task as it starts (R216). -/
def State.startSlot (s : State) (t : Task) (seg : Nat) (started : Bool) : Slot :=
  let j := s.job t.job
  { uid := some t.uid
    started := started
    seg := seg
    pc := 32 * j.ndesc + 8 * j.entries.getD t.entry 0
    g := startRegs t
    stop := t.deadline.map (· - 4000)
    sliceLen := if t.be then 1000 * j.slice else 0
    sliceFrom := s.dt }

/-- Put a task into slot `k` of core `c`, asking for its segment if the core lacks it (R216, R251). -/
def State.dispatch (s : State) (t : Task) (c k : Nat) : State :=
  let (seg, started, fill) := if !t.be then (0, !(Tab.get none (s.core c).segs 0).any (·.filling), false)
    else match (s.core c).segOf t.job with
    | some (i, g) => (i, !g.filling, false)
    | none => (s.spareSeg c, false, true)
  let s := if fill then s.updCore c fun q => { q with segs := Tab.set none q.segs seg (some { job := t.job, filling := true }) } else s
  let x := s.startSlot t seg started
  let s := s.updSlot c k fun _ => x
  (s.updTask t.uid fun t => { t with st := .running c k, tDisp := s.dt }).slotCredits c

/-- The LC dispatch that comes first, if there is one (R217, R219). -/
def State.lcChoice (s : State) : Option (Task × Nat × Nat) :=
  s.lcJobs.findSome? fun j => match s.firstLc j with
    | none => none
    | some t => (s.packCores j).findSome? fun c => (s.dispatchSlot c).map fun k => (t, c, k)

/-- The BE dispatch that comes first: domains in round-robin order from the one after the last served (R218, R219). -/
def State.beChoice (s : State) : Option (Task × Nat × Nat) :=
  (List.range 16).findSome? fun i => match s.headBe ((s.sched.rrDom + i) % 16) with
    | none => none
    | some t => match s.bePlace t with
      | none => none
      | some c => (s.dispatchSlot c).map fun k => (t, c, k)

/-- TASK_DISPATCH: one placement by the scheduler's rules (R217 to R219). -/
def execTaskDispatch (s : State) : Out :=
  match s.lcChoice with
  | some (t, c, k) => .next (s.dispatch t c k)
  | none =>
    match s.beChoice with
    | some (t, c, k) =>
      let s := s.dispatch t c k
      .next { s with sched := { s.sched with rrDom := (t.dom + 1) % 16 } }
    | none => .next s

/-- A waiting task whose trigger has been satisfied becomes READY (R215). -/
def Task.ready (t : Task) : Task :=
  { t with
    st := .ready, queueTime := t.release
    deadline := if t.dlmode = 1 then some ((t.release + t.dlval) % 2 ^ 64) else t.deadline }

/-- TASK_RELEASE: a waiting task whose trigger has been satisfied is READY, and with it every task that the same operation satisfied
(R215, R220). -/
def execTaskRelease (uid : Nat) (s : State) : Out :=
  match s.task uid with
  | none => .next s
  | some t =>
    if t.st == .waiting && t.trigSat && !s.stopDue t then
      let with_ := fun (u : Task) =>
        u.st == .waiting && u.trigSat && u.trigTally == t.trigTally && u.release == t.release && !s.stopDue u
      .next { s with sched := { s.sched with tasks := s.sched.tasks.map fun u => if with_ u then u.ready else u } }
    else .next s

/-- A filled segment with the units in error that a fetch will find there: those of the fill, or, of a segment that was filled before,
those that have come since (R250, R252; log entry 231). -/
def Seg.upset (g : Seg) (upset : List (Nat × Bool)) : Seg :=
  let bad := (upset.filter fun p => !p.2).map (·.1)
  let weak := (upset.filter (·.2)).map (·.1)
  if g.filling then { g with filling := false, bad := bad, weak := weak } else { g with bad := g.bad ++ bad, weak := g.weak ++ weak }

/-- SEGMENT_FILL_COMPLETE: the tasks that wait for the segment start, those parked on the core too (R228, R251, R252). `upset` are the
offsets of the units that a fetch will find in error, each with whether it can be corrected. -/
def execSegmentFillComplete (c seg : Nat) (upset : List (Nat × Bool)) (s : State) : Out :=
  if !(decide (c < s.var.cores) && decide (seg < 9)) then .fault .noSuchUnit
  else match Tab.get none (s.core c).segs seg with
    | some g =>
      let start := fun (x : Slot) => if x.uid.isSome && x.seg == seg then { x with started := true } else x
      .next (s.updCore c fun q => { q with
        segs := Tab.set none q.segs seg (some (g.upset upset))
        slots := Tab.mapAll {} q.slots fun _ x => start x
        parked := q.parked.map fun p => { p with slot := start p.slot } })
    | none => .next s

/-! ### Yields (R221 to R227) -/

/-- Whether a slot holds a BE task that can be asked to yield: one that neither drains nor yields already. R221 names the task in the
highest slot and does not say what happens where that one already ends or yields; the model passes over it (log entry 235). -/
def State.canYield (s : State) (c k : Nat) : Bool :=
  let x := s.slot c k
  (s.slotTask c k).any (·.be) && x.term.isNone && x.yield.isNone

/-- BE_YIELD_FOR_LC: a pack with a first LC task and no free slot takes one back (R221). A yield at the end of a slice is not the pack's
one yield in progress (log entry 235). -/
def execBeYieldForLc (job : Nat) (s : State) : Out :=
  let cs := s.packCores job
  let free := cs.any fun c => (s.dispatchSlot c).isSome
  let going := cs.any fun c => (List.range 8).any fun k => match (s.slot c k).yield with
    | some (slice, _) => !slice
    | none => false
  if (s.job job).be || (s.firstLc job).isNone || free || going then .next s
  else
    match cs.find? fun c => (List.range 8).any (s.canYield c) with
    | none => .next s
    | some c => match ((List.range 8).reverse).find? (s.canYield c) with
      | none => .next s
      | some k => .next (s.updSlot c k fun x => { x with yield := some (false, s.dt) })

/-- BE_SLICE_END: a task at the end of its slice yields, or starts a full slice again (R225, R226). -/
def execBeSliceEnd (uid : Nat) (s : State) : Out :=
  match s.task uid with
  | none => .next s
  | some t =>
    match t.st with
    | .running c k =>
      let x := s.slot c k
      let end_ := x.sliceFrom + (x.sliceLen - x.sliceUsed)
      if !t.be || x.yield.isSome || x.term.isSome || decide (s.dt < end_) then .next s
      else
        let waits := match s.headBe t.dom with
          | some h => (s.bePlace h).isNone
          | none => false
        if waits && decide ((s.core c).parked.length < 8) then
          .next (s.updSlot c k fun x => { x with yield := some (true, end_) })
        else
          .next (s.updSlot c k fun x => { x with sliceLen := 1000 * (s.job t.job).slice, sliceUsed := 0, sliceFrom := s.dt })
    | _ => .next s

/-- The windows a slot has open. -/
def Core.winsOf (q : Core) (k : Nat) : List (Nat × Nat) := q.wins.filter fun p => natBit p.2 0 && natBits p.2 7 5 == k

/-- The slot as a yield saves it: its timer stopped, or with the slice that an overrun leaves (R226, R227). -/
def Slot.saved (x : Slot) (dt slice : Nat) : Slot :=
  match x.yield with
  | some (true, e) => { x with yield := none, sliceUsed := 0, sliceLen := max (slice - (dt - e)) 1000 }
  | _ => { x with yield := none, sliceUsed := x.sliceUsed + (dt - x.sliceFrom) }

/-- YIELD_CONTEXT_SAVE: everything issued has retired; the context is parked and the slot is free (R227). -/
def execYieldContextSave (uid : Nat) (s : State) : Out :=
  match s.task uid with
  | none => .next s
  | some t =>
    match t.st with
    | .running c k =>
      let x := s.slot c k
      if x.yield.isNone || x.term.isSome || !x.ret.isEmpty || x.remote.isSome || decide (8 ≤ (s.core c).parked.length) then .next s
      else
        let slice := 1000 * (s.job t.job).slice
        let p : Parked := ⟨x.saved s.dt slice, (s.core c).winsOf k, s.dt⟩
        let s := match x.yield with
          | some (true, e) => { s with sched := { s.sched with
              ovrCnt := Tab.upd 0 s.sched.ovrCnt t.dom fun n => satAdd 24 n 1
              ovrNs := Tab.upd 0 s.sched.ovrNs t.dom fun n => satAdd 40 n (s.dt - e) } }
          | _ => s
        let s := (s.freeSlot c k).updCore c fun q => { q with parked := q.parked ++ [p] }
        .next ((s.updTask uid fun t => { t with st := .parked c, queueTime := s.dt }).noteFall c)
    | _ => .next s

/-- The windows of a parked context rewritten with a slot number (R228). -/
def Core.reopen (q : Core) (k : Nat) (wins : List (Nat × Nat)) : Core :=
  { q with wins := wins.foldl (fun t p => Tab.set 0 t p.1 (p.2 - 32 * natBits p.2 7 5 + 32 * k)) q.wins }

/-- PARKED_RESUME: the earliest-parked task of a core takes its lowest free slot (R228). -/
def execParkedResume (c : Nat) (s : State) : Out :=
  if !(decide (c < s.var.cores)) then .fault .noSuchUnit
  else
    let o := s.owner c
    match (s.core c).parked with
    | [] => .next s
    | p :: rest =>
      match p.slot.uid, (s.core c).freeSlotNo with
      | some uid, some k =>
        let lcWaits := o.pack && (s.firstLc o.job).isSome
        let beFirst := match s.headBe o.dom with
          | some h => decide (h.queueTime < p.at_) && s.beFits h c
          | none => false
        let due := (s.task uid).any s.stopDue
        if lcWaits || beFirst || due || s.ras.fence.contains c || o.scrub then .next s
        else
          let s := s.updCore c fun q =>
            (({ q with parked := rest }).updSlot k fun _ => { p.slot with sliceFrom := s.dt }).reopen k p.wins
          .next ((s.updTask uid fun t => { t with st := .running c k }).slotCredits c)
      | _, _ => .next s

end Sys2Proof.Machine
end

