-- ==== Sys2Proof/Machine/Yarder.lean ====
section
/-!
DEFINITION. The Yarder (chapter 10): channels and their programs, bursts and the arbiter, abort and disable, and the registers of
the YRD block.
-/

namespace Sys2Proof.Machine

/-! ### Channels and descriptors (R262 to R267, R282) -/

def yOk : Nat := 0
def yAborted : Nat := 1
def yBus : Nat := 2
def yDecode : Nat := 3
def yRefused : Nat := 4
def yData : Nat := 5
def yUnpinned : Nat := 6
def yBadInstr : Nat := 7
def yFetch : Nat := 8
def yBadConfig : Nat := 9

def Chan.dvalid (h : Chan) : Bool := natBit h.cfg.toNat 60
def Chan.dom (h : Chan) : Nat := natBits h.cfg.toNat 59 56
def Chan.jobV (h : Chan) : Bool := natBit h.cfg.toNat 55
def Chan.job (h : Chan) : Nat := natBits h.cfg.toNat 47 40
def Chan.poll (h : Chan) : Nat := natBits h.cfg.toNat 39 32
def Chan.evt (h : Chan) : Nat := natBits h.cfg.toNat 19 18
def Chan.space (h : Chan) : Nat := natBits h.cfg.toNat 17 16
def Chan.retry (h : Chan) : Nat := natBits h.cfg.toNat 10 8
def Chan.prio (h : Chan) : Nat := natBits h.cfg.toNat 2 0

/-- Word `i` of the running descriptor, and opcode of a word (R265). -/
def Chan.wd (h : Chan) (i : Nat) : Nat := (h.w.getD i 0).toNat
def yOpc (w : Nat) : Nat := natBits w 63 60

/-- The first words of the instructions of a descriptor, from word `i` (R265). -/
def yStarts (ws : List Nat) : (fuel i : Nat) → List Nat
  | 0, _ => []
  | fuel + 1, i => if 6 ≤ i then [] else i :: yStarts ws fuel (if yOpc (ws.getD i 0) = 1 then i + 4 else i + 1)

/-- An instruction at word `i` that R266 refuses, LOOPs' targets apart. -/
def yBadAt (ws : List Nat) (i : Nat) : Bool :=
  let w := ws.getD i 0
  match yOpc w with
  | 0 => w ≠ 0
  | 1 =>
    let ss := natBits w 59 56
    let ds := natBits w 55 52
    decide (2 < i) || natBits w 51 24 ≠ 0 || natBits w 23 0 == 0 || decide (3 < ss) || ds == 3 || decide (5 < ds)
  | 2 => natBits w 56 12 ≠ 0
  | 3 => natBits w 40 32 ≠ 0
  | 4 => natBits w 40 32 ≠ 0
  | 5 => natBits w 59 0 ≠ 0
  | _ => true

/-- Whether a descriptor fails the check of R266. -/
def yBadDescriptor (ws : List Nat) : Bool :=
  let st := yStarts ws 6 0
  let loops := st.filter fun i => yOpc (ws.getD i 0) = 2
  st.any (yBadAt ws) || decide (1 < loops.length)
  || loops.any fun i => let t := natBits (ws.getD i 0) 59 57; !(decide (t < i) && st.contains t)

/-- The LOOP of the running descriptor: its index and its target. -/
def Chan.loopAt (h : Chan) : Option (Nat × Nat) :=
  let ws := h.w.map (·.toNat)
  ((yStarts ws 6 0).find? fun i => yOpc (ws.getD i 0) = 2).map fun i => (i, natBits (ws.getD i 0) 59 57)

/-- Whether a word lies in the loop body (R267). -/
def Chan.inBody (h : Chan) (i : Nat) : Bool := match h.loopAt with
  | some (l, t) => decide (t ≤ i) && decide (i < l)
  | none => false

/-- The source and destination of the current pass (R267): modulo 2^64, with the strides of the iteration in the loop body. -/
def Chan.passSrc (h : Chan) : Nat :=
  let k : Int := if h.inBody h.word then (h.iter : Int) else 0
  wrapN 64 ((h.wd (h.word + 1) : Int) + k * sgn 32 (natBits (h.wd (h.word + 3)) 63 32))
def Chan.passDst (h : Chan) : Nat :=
  let k : Int := if h.inBody h.word then (h.iter : Int) else 0
  wrapN 64 ((h.wd (h.word + 2) : Int) + k * sgn 32 (natBits (h.wd (h.word + 3)) 31 0))

/-! ### Events, halts and write-back (R263, R275, R279, R280, R283) -/

/-- The event of a descriptor's end or of a halt at `t` (R379, R380): `lvl` is 1 for a descriptor that goes on, 2 for END, 3 for a halt. -/
def State.chanEvent (s : State) (t n yres word idx lvl : Nat) : State :=
  let h := s.chan n
  let wants := h.evt = 1 ∨ (h.evt = 2 ∧ 2 ≤ lvl) ∨ (h.evt = 3 ∧ lvl = 3)
  if wants then s.postAt t h.dom (natBits (s.domevt h.dom) 59 58) 3 yres word (n * 65536 + idx) else s

/-- Bytes 48 to 63 of a descriptor as the status write leaves them: OWN is still 1 (R23, R263, R280). -/
def yStatus (dt residue iter retries word yres : Nat) : List Byte :=
  toLE 16 (fields [(127, 1), (64, dt % 2 ^ 63), (32, residue), (16, iter), (11, retries), (8, word), (0, yres)])

/-- The domain of a channel; one that is not bound to a domain has none (R282, R363). -/
def Chan.domain (h : Chan) : Option Nat := if h.dvalid then some h.dom else none

/-- What a device-space range breaks of R270 for a domain: DECODE, REFUSED or nothing. -/
def State.devCheck (s : State) (d a len : Nat) : Option Nat :=
  match s.place a, s.place (a + len - 1) with
  | .core c _, .core c' _ =>
    if c ≠ c' then some yDecode
    else if (s.owner c).valid && (s.owner c).dom == d && !(s.owner c).scrub then none else some yRefused
  | .yard o, .yard _ => if s.yardRangeOk d o len then none else some yRefused
  | _, _ => some yDecode

/-- The same for a channel, whose every device byte is refused when it has no domain. -/
def State.chanCheck (s : State) (h : Chan) (a len : Nat) : Option Nat :=
  match s.devCheck h.dom a len with
  | none => if h.dvalid then none else some yRefused
  | some y => some y

/-- Write bytes at a device address; the device addresses of the units not merged (R499). -/
def State.devWrite (s : State) (a : Nat) (bs : List Byte) : State × List Nat :=
  match s.place a with
  | .core c o => let r := s.coreWrite c (bytesAt o bs); (r.1, r.2.map (coreBase c + ·))
  | .yard o => let r := s.yardWrite (bytesAt o bs); (r.1, r.2.map (yardBase + ·))
  | _ => (s, [])

/-- The source kind and index of a device address of core memory or the Yard (R444). -/
def State.devSource (s : State) (a : Nat) : Nat × Nat := match s.place a with
  | .core c _ => (skCore, c)
  | .yard o => (skSlice, s.slice o)
  | _ => (skChan, 0)

/-- Write bytes at a device address for a unit that is no burst: the units that are not merged stay, with a record each line (R499). -/
def State.devWriteUe (s : State) (a : Nat) (bs : List Byte) (dom : Option Nat) : State :=
  let r := s.devWrite a bs
  (r.2.map lineAddr).dedup.foldl (fun s l => let x := s.devSource l; s.ueMet 0 dom x.1 x.2 l) r.1

/-- A reader of the device corrects the correctable errors that it meets in a range (R439). -/
def State.devRead (s : State) (a len : Nat) (dom : Option Nat) : State :=
  match s.place a with
  | .core c o => s.coreRead c o (o + len) dom
  | .yard o => s.yardRead o (o + len) dom
  | _ => s

/-- Whether the Yarder's path to a device range must cross a failed link (R442): to the range's cores and Yard slices. -/
def State.rangeCut (s : State) (a len : Nat) : Bool :=
  let y := Config.meshRouter 0
  (lineAddrs a (a + len)).any fun l => match s.place l with
    | .core c _ => s.undeliverable y c
    | .yard o => s.yardCut y o
    | _ => false

/-- A function's write into its host's memory. -/
def State.hostWrite (s : State) (fn : Fn) (a : Nat) (bs : List Byte) : State :=
  s.updFn fn fun f => { f with mem := f.mem.write a bs }

/-- The function of a host space (R269). -/
def spaceFn (sp : Nat) : Option Fn := match sp with
  | 1 => some .a
  | 2 => some .b
  | _ => none

/-- Whether a channel's domain may use a host space (R366), and whether the host can be reached (R388). -/
def State.spaceOk (s : State) (d sp : Nat) : Bool := match spaceFn sp with
  | some fn => s.isDriver fn d
  | none => true
def State.spaceReach (s : State) (sp a n : Nat) : Bool := match spaceFn sp with
  | some fn => s.fnReachAt fn a n
  | none => true

/-- A burst's host sides can be reached (R278, R388, R412). -/
def State.burstReach (s : State) (b : Burst) : Bool := s.spaceReach b.sspace b.src b.len && s.spaceReach b.dspace b.dst b.len

/-- Write into the descriptor at HEAD from byte `off`: none when the write fails (R263, R280). -/
def State.ringWrite (s : State) (n off : Nat) (bs : List Byte) : Option State :=
  let h := s.chan n
  let a := (h.base.toNat + 64 * h.head + off) % 2 ^ 64
  match spaceFn h.space with
  | some fn => if h.dvalid && s.isDriver fn h.dom && s.fnReachAt fn a bs.length then some (s.hostWrite fn a bs) else none
  | none => if (s.chanCheck h a bs.length).isNone then some (s.devWriteUe a bs h.domain) else none

/-- A burst slot and a touch that a channel gives up. A core that was to be fenced may have waited for the burst (R450). -/
def State.chanRelease (s : State) (n : Nat) : State :=
  let slots := Tab.mapAll none s.yrd.slots fun _ x => if x = some n then none else x
  let s := { s with yrd := { s.yrd with slots := slots } }
  let mine := s.knl.touches.filter fun t => t.chan == some n
  let s := { s with knl := { s.knl with touches := s.knl.touches.filter fun t => t.chan != some n } }
  let s := mine.foldl (fun s t => match t.frame with
    | some k => s.readEnds k
    | none => s) s
  (s.updChan n fun h => { h with burst := none }).fenceProgress

/-- A channel has stopped: no FELL_JOB waits for it any more, whatever it does later (R237, R281). -/
def State.fellChan (s : State) (n : Nat) : State :=
  { s with sched := { s.sched with fells := s.sched.fells.map fun f => { f with chans := f.chans.filter (· ≠ n) } } }

/-- A channel enters HALTED with a result; a halt other than by ABORT counts (R276, R283). -/
def State.chanHalted (s : State) (n yres : Nat) (aborted : Bool) : State :=
  let s := s.chanRelease n
  let s := if aborted then s else { s with yrd := { s.yrd with halts := satAdd 32 s.yrd.halts 1 } }
  (s.updChan n fun h =>
    { h with st := .halted, yres := yres, abort := false, wb := none, waitN := none, waitSat := false, waitRefused := false }).fellChan n

/-- An error record of a channel. -/
def State.chanRecord (s : State) (n cls code addr : Nat) : State :=
  let h := s.chan n
  s.record cls code (if h.dvalid then some h.dom else none) skChan n (addr % 2 ^ 48) 0

/-- A channel halts without a write-back: BAD_CONFIG, FETCH_ERROR, or a status write that failed (R275, R280). `word` is the word at which
its descriptor ended, 0 where it carries out none. -/
def State.chanHaltPlain (s : State) (n yres cls code word : Nat) : State :=
  let h := s.chan n
  ((s.chanRecord n cls code 0).chanEvent s.dt n yres word h.head 3).chanHalted n yres false

/-- The result of a status write that fails: CHSTAT shows BUS_ERROR and the descriptor keeps OWN (R280). -/
def State.statusFailed (s : State) (n word : Nat) : State := s.chanHaltPlain n yBus 3 1 word

/-- A descriptor ends with a halt: its write-back starts, and nothing else of the channel goes on (R275, R276, R278). -/
def State.chanHalt (s : State) (n yres residue : Nat) (aborted : Bool) : State :=
  (s.chanRelease n).updChan n fun x => { x with
    wb := some { yres := yres, residue := residue, word := x.word, fin := .halt aborted, ended := s.dt }
    abort := x.abort || aborted, waitN := none, waitSat := false, waitRefused := false }

/-- The next write of a write-back: the status with OWN still 1, then OWN by a write of its own, after which HEAD advances, the event is
posted and the channel goes on (R280). `errs` is how many attempts meet an error: on a ring in host memory the write is retried under
R278, and when its retries are exhausted the channel halts with BUS_ERROR and the descriptor keeps OWN. An ABORT met meanwhile halts the
channel in the end (R281), and the one event of the descriptor's end and of that halt shows the written result (log entry 236). -/
def State.wbStep (s : State) (n errs : Nat) : State :=
  let h := s.chan n
  match h.wb with
  | none => s
  | some b =>
    let host := (spaceFn h.space).isSome
    let s := if host && 0 < errs then { s with yrd := { s.yrd with retried := satAdd 32 s.yrd.retried (min errs h.retry) } } else s
    if host && h.retry < errs then s.statusFailed n b.word
    else match b.own with
      | none =>
        match s.ringWrite n 48 (yStatus b.ended b.residue h.iter (min h.retriesMax 7) b.word b.yres) with
        | none => s.statusFailed n b.word
        | some s => s.updChan n fun x => { x with wb := some { b with own := some (BitVec.ofNat 8 (natBits b.ended 62 56)) } }
      | some top =>
        match s.ringWrite n 63 [top] with
        | none => s.statusFailed n b.word
        | some s =>
          let s := s.updChan n fun x => { x with head := (x.head + 1) % (x.nM1 + 1), wb := none }
          let lvl := if h.abort then 3 else match b.fin with
            | .fetch => 1
            | .idle => 2
            | .halt _ => 3
          let s := s.chanEvent b.ended n b.yres b.word h.head lvl
          match b.fin with
          | .halt aborted => s.chanHalted n b.yres aborted
          | e =>
            if h.abort then s.chanHalted n yAborted true
            else s.updChan n fun x => { x with st := if e = .idle then .idle else .fetch, pollFrom := s.dt }

/-- Bytes of the current pass not written (R263). -/
def Chan.left (h : Chan) : Nat := match h.passDone with
  | some k => natBits (h.wd h.word) 23 0 - k
  | none => 0

/-- ABORT takes effect on a channel with no burst and no write-back in progress (R276, R281). A burst that failed and waits for its retry
is not retried, and its result is BUS_ERROR. -/
def State.abortNow (s : State) (n : Nat) : State :=
  let h := s.chan n
  let retrying := match h.burst with
    | some b => decide (0 < b.retries)
    | none => false
  match h.st with
  | .fetch => (s.chanEvent s.dt n yAborted 0 h.head 3).chanHalted n yAborted true
  | .run => s.chanHalt n (if retrying then yBus else yAborted) h.left true
  | .waiting => s.chanHalt n yAborted 0 true
  | _ => s

/-- ABORT of a channel (R276): a burst in progress, or a write-back, runs to its end first. -/
def State.chanAbort (s : State) (n : Nat) : State :=
  let h := s.chan n
  let busy := h.wb.isSome || (h.st == .run && (match h.burst with
    | some b => b.granted.isSome
    | none => false))
  if busy then s.updChan n fun x => { x with abort := true } else s.abortNow n

/-- Whether a channel is bound to a job: one of its own domain (R262). -/
def State.hasJob (s : State) (h : Chan) : Bool := h.dvalid && h.jobV && (s.job h.job).dom == h.dom

/-- Channels bound to a job (R276, R285). -/
def State.jobChans (s : State) (j : Nat) : List Nat := (s.yrd.chans.filter fun p => s.hasJob p.2 && p.2.job == j).map (·.1)

/-! ### Enable, disable, doorbell, poll (R275, R277, R284) -/

/-- A channel's configuration is invalid (R284). -/
def State.chanBad (s : State) (h : Chan) : Bool :=
  !h.dvalid || h.space == 3 || h.base.toNat % 64 ≠ 0
  || (h.jobV && !((s.job h.job).st == .loaded && (s.job h.job).dom == h.dom))

/-- EN written 1 (R275). -/
def State.chanEnable (s : State) (n : Nat) : State :=
  let h := s.chan n
  if h.st ≠ .disabled then s.updChan n fun x => { x with en := true }
  else
    let s := s.updChan n fun x => { x with en := true }
    if s.chanBad h then s.chanHaltPlain n yBadConfig 4 1 0
    else s.updChan n fun x => { x with st := .fetch, bytes := 0 }

/-- The frame that a channel's touch reads. -/
def State.chanFrame (s : State) (n : Nat) : Option Nat := (s.knl.touches.find? fun t => t.chan == some n).bind (·.frame)

/-- The source bytes of a burst on the device. A model page that does not exist reads as zero (R196). -/
def State.burstSrc (s : State) (n : Nat) (b : Burst) : List Byte :=
  if b.sspace = 0 then s.rdBytes b.src b.len
  else
    match s.chanFrame n with
    | some k => s.yard.mem.read (16384 * k + natBits b.src 13 0) b.len
    | none => List.replicate b.len 0

/-- Where the source of a burst lies in core memory or the Yard, if it does: a page's in the frame that its touch reads. -/
def State.burstFrom (s : State) (n : Nat) (b : Burst) : Option Nat :=
  if b.sspace = 0 then some b.src
  else if b.sspace = 3 then (s.chanFrame n).map fun k => yardBase + 16384 * k + natBits b.src 13 0
  else none

/-- The first uncorrectable line of those that a burst reads on the device, with its source kind and index (R272, R278): whole lines, of
which the source may take a part (R151, R170). -/
def State.burstBad (s : State) (n : Nat) (b : Burst) : Option (Nat × Nat × Nat) :=
  (s.burstFrom n b).bind fun a => s.firstBad (lineAddr a) (lineUp (a + b.len) - lineAddr a)

/-- The device ranges of a granted burst once more as it writes: a core or a granule that has left the channel's domain since its grant
refuses it (R178, R281). -/
def State.burstRecheck (s : State) (h : Chan) (b : Burst) : Option (Nat × Nat) :=
  match (if b.sspace = 0 then s.chanCheck h b.src b.len else none), (if b.dspace = 0 then s.chanCheck h b.dst b.len else none) with
  | some y, _ => some (y, b.src)
  | none, some y => some (y, b.dst)
  | none, none => none

/-- Whether a burst's path must cross a failed link (R442): from the Yarder to the cores and the Yard slices of its ranges. -/
def State.burstCut (s : State) (n : Nat) (b : Burst) : Bool :=
  ((s.burstFrom n b).any fun a => s.rangeCut a b.len) || (b.dspace = 0 && s.rangeCut b.dst b.len)

/-- Bytes of a burst of `len` bytes to an address that its first `r` aligned 64-byte lines hold (R149, R277). -/
def lineCut (dst len r : Nat) : Nat := min len (64 * r - dst % 64)

/-- Whether some lines of a granted burst may have been written already: all its source stands on the device and is good, and nothing
fails the burst (R272, R278). -/
def State.burstPart (s : State) (n : Nat) (b : Burst) : Bool :=
  b.granted.isSome && (b.sspace = 0 || b.sspace = 3) && b.dspace ≤ 2 && b.bad.isNone && s.burstReach b && !s.burstCut n b
  && (s.burstBad n b).isNone && (s.burstRecheck (s.chan n) b).isNone

/-- EN written 0 (R277, R281): a status write in progress completes, and a pending write of OWN is not made. Of a burst in progress
whole aligned lines may have been written already: how many is a free value. -/
def State.chanDisable (s : State) (n : Nat) : State :=
  let h := s.chan n
  if h.st = .disabled then s.updChan n fun x => { x with en := false }
  else
    let s := match h.burst with
      | some b =>
        if s.burstPart n b then
          let (r, s) := s.draw
          let done := lineCut b.dst b.len (r % ((b.dst % 64 + b.len + 63) / 64 + 1))
          let bs := (s.burstSrc n b).take done
          let s := match spaceFn b.dspace with
            | some fn => s.hostWrite fn b.dst bs
            | none => (s.devWrite b.dst bs).1
          s.updChan n fun x => { x with bytes := (x.bytes + done) % 2 ^ 64 }
        else s
      | none => s
    let s := s.chanRelease n
    let s := match h.wb with
      | some b => if b.own.isNone then s.wbStep n 0 else s
      | none => s
    (s.updChan n fun x => { x with
      en := false, st := .disabled, w := [], word := 0, iter := 0, passDone := none, abort := false, wb := none, waitN := none
      waitSat := false, waitRefused := false, retriesMax := 0 }).fellChan n

/-- DB written 1 (R275). -/
def State.chanDoorbell (s : State) (n : Nat) : State :=
  let h := s.chan n
  if h.st = .idle ∨ h.st = .halted then s.updChan n fun x => { x with st := .fetch } else s

/-- YRD_POLL_EXPIRY (R275). -/
def execYrdPollExpiry (n : Nat) (s : State) : Out :=
  if 128 ≤ n then .fault .noSuchUnit
  else
    let h := s.chan n
    if h.st = .idle ∧ h.poll ≠ 0 ∧ h.pollFrom + 1000 * h.poll ≤ s.dt then .next (s.updChan n fun x => { x with st := .fetch })
    else .next s

/-! ### Fetch (R262, R264, R266, R275) -/

/-- The address of the descriptor at HEAD. -/
def Chan.descAt (h : Chan) : Nat := (h.base.toNat + 64 * h.head) % 2 ^ 64

/-- What the read of the descriptor at HEAD leaves behind: a request to the host, or the errors corrected or met on the device (R360,
R439, R447). -/
def State.descRead (s : State) (n : Nat) : State :=
  let h := s.chan n
  match spaceFn h.space with
  | some fn => s.sendRead fn h.descAt 64
  | none => match s.firstBad h.descAt 64 with
    | some (l, sk, ix) => s.ueMet 0 h.domain sk ix l
    | none => s.devRead h.descAt 64 h.domain

/-- The 64 bytes of the descriptor at HEAD, none when they cannot be read (R270, R275, R278, R442). For a ring on the device an error
answer stands for a mesh link that exhausted its retries. -/
def State.fetchDesc (s : State) (n : Nat) (resp : HostRead) : Option (List Byte) :=
  let h := s.chan n
  let a := h.descAt
  match spaceFn h.space with
  | some fn =>
    if h.dvalid && s.isDriver fn h.dom && s.fnReachAt fn a 64 then
      (match resp with
        | .data bs => some bs
        | _ => none)
    else none
  | none => match resp with
    | .data _ =>
      if (s.chanCheck h a 64).isNone && !s.rangeCut a 64 && (s.firstBad a 64).isNone then some (s.rdBytes a 64) else none
    | _ => none

/-- Whether a fetch meets an answer from its ring's memory at all: the channel may read there, and the path to it stands. -/
def State.descMet (s : State) (n : Nat) (resp : HostRead) : Bool :=
  let h := s.chan n
  match spaceFn h.space with
  | some fn => h.dvalid && s.isDriver fn h.dom
  | none => (match resp with
    | .data _ => true
    | _ => false) && (s.chanCheck h h.descAt 64).isNone && !s.rangeCut h.descAt 64

/-- YRD_DESCRIPTOR_FETCH (R264, R266, R275). -/
def execYrdDescriptorFetch (n : Nat) (resp : HostRead) (s : State) : Out :=
  if 128 ≤ n then .fault .noSuchUnit
  else if (s.chan n).st ≠ .fetch ∨ (s.chan n).wb.isSome then .next s
  else
    let got := s.fetchDesc n resp
    let s := if s.descMet n resp then s.descRead n else s
    match got with
    | none => .next (s.chanHaltPlain n yFetch 3 1 0)
    | some bs =>
      if !natBit (bs.getD 63 0).toNat 7 then .next (s.updChan n fun h => { h with st := .idle, pollFrom := s.dt })
      else
        let ws := (List.range 6).map fun i => leNat ((bs.drop (8 * i)).take 8)
        let s := s.updChan n fun h => { h with
          w := ws.map (BitVec.ofNat 64 ·), word := 0, iter := 0, passDone := none, retriesMax := 0, burst := none }
        if yBadDescriptor ws then .next (s.chanHalt n yBadInstr 0 false)
        else .next (s.updChan n fun h => { h with st := .run })

/-! ### Instructions (R267, R268) -/

/-- A row that executes the instruction at a running channel's word, of one opcode, with no pass in progress. -/
def yRow (n opc : Nat) (s : State) (f : Chan → State → State) : Out :=
  if 128 ≤ n then .fault .noSuchUnit
  else
    let h := s.chan n
    if h.st = .run ∧ h.word < 6 ∧ yOpc (h.wd h.word) = opc ∧ h.passDone = none ∧ h.wb = none then .next (f h s) else .next s

/-- Length of the next burst of a pass at `k` bytes (R271). -/
def burstLen (ss ds src dst left : Nat) : Nat :=
  let isHost := fun sp => sp == 1 || sp == 2
  let l := min 4096 left
  let l := if isHost ss then min l (4096 - src % 4096) else l
  let l := if isHost ds then min l (4096 - dst % 4096) else l
  if ss = 3 then min l (16384 - src % 16384) else l

/-- Whether a job's channel is an LC job's (R197). -/
def State.chanLc (s : State) (h : Chan) : Bool := s.hasJob h && !(s.job h.job).be

/-- The page a model-space burst touches, if its job has it (R195, R269). -/
def State.burstPage (s : State) (h : Chan) (src : Nat) : Option Nat :=
  if s.hasJob h then s.touchPage (s.job h.job) (natBits src 35 32) (natBits src 29 14) else none

/-- The next burst of the pass becomes the channel's burst; a BE touch of a page that is not resident asks for its fill (R195, R270). -/
def State.formBurst (s : State) (n : Nat) : State :=
  let h := s.chan n
  match h.passDone with
  | none => s
  | some k =>
    let w := h.wd h.word
    let ss := natBits w 59 56
    let ds := natBits w 55 52
    let src := (h.passSrc + k) % 2 ^ 64
    let dst := (h.passDst + k) % 2 ^ 64
    let len := burstLen ss ds src dst (natBits w 23 0 - k)
    let page := if ss = 3 then s.burstPage h src else none
    let s := s.updChan n fun x => { x with burst := some ⟨ss, src, ds, dst, len, none, 0, none, page⟩ }
    if ss ≠ 3 || s.chanLc h then s
    else match page with
      | some pn => s.touch ⟨0, 0, 0, 0, some n, pn, natBits src 13 0, len, dst, none⟩
      | none => s

/-- YRD_MOVE: a pass begins (R267, R271). -/
def execYrdMove (n : Nat) (s : State) : Out :=
  yRow n 1 s fun _ s => (s.updChan n fun x => { x with passDone := some 0 }).formBurst n

/-- YRD_LOOP (R267). -/
def execYrdLoop (n : Nat) (s : State) : Out :=
  yRow n 2 s fun h s =>
    let w := h.wd h.word
    if h.iter < natBits w 11 0 then s.updChan n fun x => { x with iter := x.iter + 1, word := natBits w 59 57 }
    else s.updChan n fun x => { x with word := x.word + 1 }

/-- A channel's WAIT is satisfied: EXP follows a relative one, and the next word runs (R267, R275). -/
def Chan.waitEnd (x : Chan) (v : Nat) : Chan :=
  { x with st := .run, word := x.word + 1, waitN := none, waitSat := false, exp := if natBit (x.wd x.word) 59 then v else x.exp }

/-- YRD_WAIT: one that is satisfied completes at once; else the channel waits until its threshold is met, and a refused WAIT never
completes (R229, R233, R267, R268, R275). -/
def execYrdWait (n : Nat) (s : State) : Out :=
  yRow n 3 s fun h s =>
    let w := h.wd h.word
    let t := natBits w 58 41
    let v := if natBit w 59 then (h.exp + natBits w 31 0) % 2 ^ 32 else natBits w 31 0
    if s.waitRefused h.dom t then
      (s.tallyRefuse h.dom t).updChan n fun x => { x with st := .waiting, waitN := some v, waitRefused := true, waitSat := false }
    else if s.waitMet t v then s.updChan n fun x => x.waitEnd v
    else s.updChan n fun x => { x with st := .waiting, waitN := some v, waitRefused := false, waitSat := false }

/-- YRD_WAIT_SATISFIED (R267, R275). -/
def execYrdWaitSatisfied (n : Nat) (s : State) : Out :=
  if 128 ≤ n then .fault .noSuchUnit
  else
    let h := s.chan n
    if h.st = .waiting ∧ h.waitSat ∧ h.wb = none then .next (s.updChan n fun x => x.waitEnd (h.waitN.getD 0))
    else .next s

/-- YRD_SIGNAL: every earlier burst of the channel has been written, so the operation is issued (R267, R268). -/
def execYrdSignal (n : Nat) (s : State) : Out :=
  yRow n 4 s fun h s =>
    let w := h.wd h.word
    (s.tallyIssue ⟨natBits w 58 41, natBit w 59, natBits w 31 0, h.dom, none, 0⟩).updChan n fun x => { x with word := x.word + 1 }

/-- A descriptor ends with result OK: its write-back starts (R263, R275, R280). -/
def State.chanFinish (s : State) (n : Nat) (isEnd : Bool) (errs : Nat) : State :=
  let h := s.chan n
  let word := if 6 ≤ h.word then ((yStarts (h.w.map (·.toNat)) 6 0).getLast?).getD 5 else h.word
  (s.updChan n fun x => { x with
    wb := some { yres := yOk, residue := 0, word := word, fin := if isEnd then .idle else .fetch, ended := s.dt } }).wbStep n errs

/-- A row that ends a descriptor, or makes the next write of a write-back (R280). -/
def yEndRow (n errs : Nat) (isEnd : Bool) (here : Chan → Bool) (s : State) : Out :=
  if 128 ≤ n then .fault .noSuchUnit
  else
    let h := s.chan n
    if h.wb.isSome then .next (s.wbStep n errs)
    else if h.st = .run ∧ h.passDone = none ∧ here h then .next (s.chanFinish n isEnd errs)
    else .next s

/-- YRD_EMPTY: the descriptor ends at EMPTY or after W5, and the channel goes on to the next (R265, R275). -/
def execYrdEmpty (n errs : Nat) (s : State) : Out :=
  yEndRow n errs false (fun h => 6 ≤ h.word || yOpc (h.wd h.word) == 0) s

/-- YRD_END (R265, R275). -/
def execYrdEnd (n errs : Nat) (s : State) : Out :=
  yEndRow n errs true (fun h => h.word < 6 && yOpc (h.wd h.word) == 5) s

/-! ### Bursts (R270 to R273, R278) -/

def Burst.isHost (b : Burst) : Bool := (b.sspace == 1 || b.sspace == 2) || (b.dspace == 1 || b.dspace == 2)

/-- A port range that is not decoded (R269, R300, R344). -/
def State.portDecodes (s : State) (sp a len : Nat) : Bool :=
  s.var.acts && a < 2 ^ 24 && (if sp = 4 then decide (a % 4096 + len ≤ 0x808)
    else
      let q := natBits a 23 16
      if q < 32 then decide (a % 65536 + len ≤ 0x2448) else decide (q < 96) && decide (a % 65536 + len ≤ 0x140))

/-- Whether a port range belongs to a domain (R270). -/
def State.portOwned (s : State) (sp a d : Nat) : Bool :=
  if sp = 4 then (let x := s.loopSlot (natBits a 23 12); x.dvalid && x.dom == d)
  else
    let q := natBits a 23 16
    s.pioDom (if q < 32 then uQueue q else uMap (q - 32)) == some d

/-- The check of a burst's ranges (R270): the result of the first row that applies, and the address it is recorded with. -/
def State.burstCheck (s : State) (h : Chan) (b : Burst) : Option (Nat × Nat) :=
  let dev := fun sp a => if sp = 0 then s.chanCheck h a b.len else none
  let srcDec := if b.sspace = 0 then dev 0 b.src == some yDecode
    else b.sspace = 3 && (decide (2 ^ 36 ≤ b.src) || natBits b.src 31 30 ≠ 0)
  let dstDec := if b.dspace = 0 then dev 0 b.dst == some yDecode
    else (b.dspace = 4 || b.dspace = 5) && !s.portDecodes b.dspace b.dst b.len
  let j := s.job h.job
  let at_ := fun (sp a : Nat) => if sp = 0 then a else 0
  if srcDec then some (yDecode, at_ b.sspace b.src)
  else if dstDec then some (yDecode, at_ b.dspace b.dst)
  else if dev b.sspace b.src == some yRefused then some (yRefused, b.src)
  else if dev b.dspace b.dst == some yRefused then some (yRefused, b.dst)
  else if b.sspace = 3 && (!s.hasJob h || j.nmodels ≤ natBits b.src 35 32) then some (yRefused, 0)
  else if (b.dspace = 4 || b.dspace = 5) && !s.portOwned b.dspace b.dst h.dom then some (yRefused, 0)
  else if !s.spaceOk h.dom b.sspace || !s.spaceOk h.dom b.dspace then some (yRefused, 0)
  else if b.sspace = 3 && s.chanLc h then
    (match b.page with
      | none => none
      | some pn => match s.frameOf pn with
        | some (_, f) => if f.st.isPinned then none else some (yUnpinned, 0)
        | none => some (yUnpinned, 0))
  else none

/-- The record of a check that fails (R448). -/
def State.checkRecord (s : State) (n y a : Nat) : State :=
  if y = yDecode then s.chanRecord n 3 1 a else if y = yRefused then s.chanRecord n 3 0 a else s

/-- Whether a channel's burst is ready for the arbiter (R270, R273). -/
def State.burstReady (s : State) (n : Nat) (h : Chan) : Bool :=
  h.st == .run && !h.abort && h.wb.isNone && (match h.burst with
    | none => false
    | some b => b.granted.isNone && (b.bad.isSome || b.sspace ≠ 3 || s.chanLc h || b.page.isNone
        || (s.chanFrame n).isSome))

/-- The channel the arbiter grants next in a class (R273): highest PRIO, then round robin above the last one granted. -/
def State.arbiter (s : State) (host : Bool) : Option (Nat × Chan) :=
  let ready := s.yrd.chans.filter fun p => s.burstReady p.1 p.2 && (match p.2.burst with
    | some b => b.isHost == host
    | none => false)
  let top := (ready.map fun p => p.2.prio).foldl max 0
  let l := ready.filter fun p => p.2.prio == top
  let from_ := Tab.get 0 s.yrd.rr (bit host * 8 + top)
  match l.find? fun p => decide (from_ ≤ p.1) with
  | some p => some p
  | none => l.head?

/-- YRD_BURST_GRANT (R270, R273, R388). -/
def execYrdBurstGrant (host : Bool) (s : State) : Out :=
  let base := if host then 16 else 0
  match (List.range 16).find? fun i => (Tab.get none s.yrd.slots (base + i)).isNone with
  | none => .next s
  | some i =>
    match s.arbiter host with
    | none => .next s
    | some (n, h) =>
      match h.burst with
      | none => .next s
      | some b =>
        let s := { s with yrd := { s.yrd with rr := Tab.set 0 s.yrd.rr (bit host * 8 + h.prio) (n + 1) } }
        match s.burstCheck h b with
        | some (y, a) =>
          let s := match b.page with
            | some pn => if y = yUnpinned then s.countHit pn else s
            | none => s
          .next ((s.checkRecord n y a).chanHalt n y h.left false)
        | none =>
          if !s.burstReach b then .next ((s.checkRecord n yDecode 0).chanHalt n yDecode h.left false)
          else
            let s := if b.sspace = 3 && s.chanLc h then
                (match b.page with
                  | some pn => s.touch ⟨0, 0, 0, 0, some n, pn, natBits b.src 13 0, b.len, b.dst, none⟩
                  | none => s)
              else s
            let s := match spaceFn b.sspace with
              | some fn => s.sendRead fn b.src b.len
              | none => s
            .next ({ s with yrd := { s.yrd with slots := Tab.set none s.yrd.slots (base + i) (some n) } }.updChan n fun x =>
              { x with burst := some { b with granted := some (base + i) } })

/-- Deliver a burst to a port, whole and in address order (R269, R300, R344). -/
def State.portWrite (s : State) (sp a : Nat) (bs : List Byte) : State :=
  let whole := fun (off lo : Nat) => decide (off ≤ lo) && decide (lo + 8 ≤ off + bs.length)
  let word := fun (off lo : Nat) => leNat ((bs.drop (lo - off)).take 8)
  if sp = 4 then
    let n := natBits a 23 12
    let off := a % 4096
    let s := s.updLoop n fun x => { x with staging := x.staging.write off (bs.take (0x800 - off)) }
    if whole off 0x800 then s.pushWord n (word off 0x800) else s
  else
    let q := natBits a 23 16
    let off := a % 65536
    if q < 32 then
      let s := s.updTxQueue q fun x => { x with staging := x.staging.write off (bs.take (0x2440 - off)) }
      if whole off 0x2440 then s.sendWord q (word off 0x2440) else s
    else if natBit (s.txMap (q - 32)).cfg.toNat 63 then s.pioRecord 4 0 (uMap (q - 32)) (0xC43000 + 8 * (q - 32))
    else s.updTxMap (q - 32) fun x => { x with tmpl := x.tmpl.write off bs }

/-- A burst ends with a result that is not retried (R278): the channel halts; the bytes of the burst stay in RESIDUE. -/
def State.burstFails (s : State) (n y : Nat) : State :=
  let h := s.chan n
  s.chanHalt n y h.left h.abort

/-- A burst meets an error on a path that is retried (R276, R278). -/
def State.burstRetry (s : State) (n : Nat) (b : Burst) : State :=
  let h := s.chan n
  if h.abort then s.burstFails n yBus
  else if b.retries < h.retry then
    let s := s.chanRelease n
    let s := { s with yrd := { s.yrd with retried := satAdd 32 s.yrd.retried 1 } }
    let s := s.updChan n fun x => { x with
      burst := some { b with granted := none, retries := b.retries + 1 }, retriesMax := max x.retriesMax (b.retries + 1) }
    if b.sspace = 3 && !s.chanLc h then
      (match b.page with
        | some pn => s.touch ⟨0, 0, 0, 0, some n, pn, natBits b.src 13 0, b.len, b.dst, none⟩
        | none => s)
    else s
  else (s.chanRecord n 3 1 0).burstFails n yBus

/-- A burst has written its destination: the pass goes on, or the next instruction follows (R267, R271, R281). -/
def State.burstDone (s : State) (n : Nat) (b : Burst) : State :=
  let s := s.chanRelease n
  let s := s.updChan n fun x =>
    let k := x.passDone.getD 0 + b.len
    let x := { x with bytes := (x.bytes + b.len) % 2 ^ 64 }
    if k = natBits (x.wd x.word) 23 0 then { x with passDone := none, word := x.word + 4 } else { x with passDone := some k }
  if (s.chan n).abort then s.abortNow n
  else if (s.chan n).passDone.isSome then s.formBurst n else s

/-- A burst corrects the correctable errors of the lines that it reads on the device (R439). -/
def State.burstSeen (s : State) (n : Nat) (b : Burst) : State :=
  match s.burstFrom n b with
  | none => s
  | some a => s.devRead (lineAddr a) (lineUp (a + b.len) - lineAddr a) (s.chan n).domain

/-- Write a burst's data to its destination and end it (R272, R499). -/
def State.burstWrite (s : State) (n : Nat) (b : Burst) (bs : List Byte) : State :=
  let d := (s.chan n).dom
  match spaceFn b.dspace with
  | some fn => (s.hostWrite fn b.dst bs).burstDone n b
  | none =>
    if b.dspace = 0 then
      let r := s.devWrite b.dst bs
      match r.2 with
      | [] => r.1.burstDone n b
      | u :: _ =>
        let loc := s.devSource u
        (r.1.ueMet 0 (some d) loc.1 loc.2 (lineAddr u)).burstFails n yData
    else (s.portWrite b.dspace b.dst bs).burstDone n b

/-- YRD_BURST_COMPLETE (R272, R276, R278, R499): `resp` is what a host source answered. For a burst without a host side an error
answer stands for a mesh link that exhausted its retries. -/
def execYrdBurstComplete (n : Nat) (resp : HostRead) (s : State) : Out :=
  if 128 ≤ n then .fault .noSuchUnit
  else match (s.chan n).burst with
    | none => .next s
    | some b =>
      if b.granted.isNone then .next s
      else
        let d := (s.chan n).dom
        if !s.burstReach b then .next ((s.checkRecord n yDecode 0).burstFails n yDecode)
        else if s.burstCut n b then .next (s.burstRetry n b)
        else match s.burstRecheck (s.chan n) b, b.bad with
          | some (y, a), _ => .next ((s.checkRecord n y a).burstFails n y)
          | none, some _ => .next (s.burstFails n yData)
          | none, none =>
            match resp with
            | .data bs =>
              match s.burstBad n b with
              | some (l, sk, ix) => .next ((s.ueMet 0 (some d) sk ix l).burstFails n yData)
              | none =>
                let s' := if b.sspace = 3 && b.page.isNone then s.chanRecord n 3 3 (if b.dspace = 0 then b.dst else 0)
                  else s.burstSeen n b
                let data := if b.sspace = 1 ∨ b.sspace = 2 then (List.range b.len).map (bs.getD · 0) else s.burstSrc n b
                .next (s'.burstWrite n b data)
            | .ur =>
              if b.isHost then .next ((s.checkRecord n yDecode 0).burstFails n yDecode) else .next (s.burstRetry n b)
            | _ => .next (s.burstRetry n b)

/-! ### Registers of the YRD block (R282, R283) -/

/-- Channel state numbers (R282). -/
def ChSt.num : ChSt → Nat
  | .disabled => 0
  | .idle => 1
  | .fetch => 2
  | .run => 3
  | .waiting => 4
  | .halted => 5

/-- A read of a YRD register at a block offset. -/
def State.yrdRead (s : State) (off : Nat) : Nat :=
  if off < 0x2000 then
    let h := s.chan (off / 0x40)
    match off % 0x40 with
    | 0x00 => h.cfg.toNat
    | 0x08 => h.nM1
    | 0x10 => h.base.toNat
    | 0x18 => bit h.en
    | 0x20 => h.head
    | 0x28 => h.exp
    | 0x30 =>
      let granted := match h.burst with
        | some b => b.granted.isSome
        | none => false
      fields [(61, h.st.num), (48, h.yres), (36, h.iter), (33, h.word % 8), (32, bit granted)]
    | 0x38 => h.bytes
    | _ => 0
  else if off = 0x4000 then fields [(32, s.yrd.retried), (0, s.yrd.halts)]
  else 0

/-- Writable bits of CHCFG (R282). -/
def rwChCfg : Nat := maskBits 60 55 + maskBits 47 32 + maskBits 19 16 + maskBits 10 8 + maskBits 2 0

/-- A write of a channel's configuration register (R282). -/
def State.chanCfgWrite (s : State) (holder : Bool) (n r k v : Nat) : State :=
  if (s.chan n).st ≠ .disabled then s.chanRecord n 4 0 (0x700000 + 0x40 * n + r)
  else s.updChan n fun h =>
    let new := fun (old rw : Nat) => (regMerge (BitVec.ofNat 64 old) k rw v).toNat
    match r with
    | 0x00 => { h with cfg := regMerge h.cfg k (if holder then rwChCfg else rwChCfg - maskBits 60 56) v }
    | 0x08 => { h with nM1 := new h.nM1 (maskBits 15 0) }
    | 0x10 => { h with base := regMerge h.base k (maskBits 63 0) v }
    | 0x20 => { h with head := new h.head (maskBits 15 0) }
    | _ => { h with exp := new h.exp (maskBits 31 0) }

/-- A write of CHCTL (R275 to R277, R281): EN 0 goes before ABORT. -/
def State.chanCtlWrite (s : State) (n k v : Nat) : State :=
  if !natBit k 0 then s
  else if !natBit v 0 then s.chanDisable n
  else
    let s := s.chanEnable n
    let s := if natBit v 2 then s.chanAbort n else s
    if natBit v 1 then s.chanDoorbell n else s

/-- A write of YRD_CTL.CLR (R283). -/
def State.yrdClr (s : State) : State := { s with yrd := { s.yrd with retried := 0, halts := 0 } }

/-- A write of a YRD register at a block offset. -/
def State.yrdWrite (s : State) (holder : Bool) (off k v : Nat) : State :=
  if off < 0x2000 then
    let n := off / 0x40
    let r := off % 0x40
    if r = 0x18 then s.chanCtlWrite n k v
    else if r = 0x00 ∨ r = 0x08 ∨ r = 0x10 ∨ r = 0x20 ∨ r = 0x28 then s.chanCfgWrite holder n r k v
    else s
  else if off = 0x4008 && writes1 k v 0 then s.yrdClr
  else s

end Sys2Proof.Machine
end

