-- ==== Sys2Proof/Machine/Jobs.lean ====
section
/-!
DEFINITION. The host's scheduler commands (R206 to R213, R235 to R242), job images and their checks (R243 to R248, R400, R410),
and scrubs (R176 to R180).
-/

namespace Sys2Proof.Machine

/-! ### Submission (R211 to R213) -/

/-- SRES of a host submission, by the first row of R213's table that applies. -/
def State.submitRes (s : State) (d : Nat) (b : TaskBlock) : Nat :=
  match s.blockRefusal d b with
  | some r => if r = sresNoJob || s.blockRoom d b then r else sresQueueFull
  | none => if s.blockRoom d b then sresOk else sresQueueFull

/-- TASK_SUBMIT (R212, R213, R215). -/
def execTaskSubmit (d r : Nat) (s : State) : Out :=
  hostRow d r 1 none s fun h s =>
    let b := TaskBlock.ofNat h.body
    let res := s.submitRes d b
    (if res = sresOk then s.acceptBlock d b else s).cmdDone (ringKey d r) res

/-! ### The image (R243 to R245, R247) -/

/-- A job image's header as a number (R244). -/
structure ImgHdr where
  x : Nat
deriving DecidableEq, Repr

def ImgHdr.f (h : ImgHdr) (hi lo : Nat) : Nat := natBits h.x hi lo
def ImgHdr.nmodels (h : ImgHdr) : Nat := h.f 959 952
def ImgHdr.nentry (h : ImgHdr) : Nat := h.f 951 944
def ImgHdr.ndesc (h : ImgHdr) : Nat := h.f 943 934
def ImgHdr.codeLen (h : ImgHdr) : Nat := h.f 919 904
def ImgHdr.len (h : ImgHdr) : Nat := h.f 895 864
def ImgHdr.bindOff (h : ImgHdr) : Nat := h.f 863 832
def ImgHdr.entryOff (h : ImgHdr) : Nat := h.f 831 800
def ImgHdr.descOff (h : ImgHdr) : Nat := h.f 799 768
def ImgHdr.codeOff (h : ImgHdr) : Nat := h.f 767 736
def ImgHdr.wcetOff (h : ImgHdr) : Nat := h.f 735 704
def ImgHdr.sigOff (h : ImgHdr) : Nat := h.f 703 672

/-- The sections below the signature block, as offset and size (R243). -/
def ImgHdr.sections (h : ImgHdr) : List (Nat × Nat) :=
  [(0, 128), (h.bindOff, 48 * h.nmodels), (h.entryOff, 8 * h.nentry), (h.descOff, 32 * h.ndesc), (h.codeOff, h.codeLen),
   (h.wcetOff, 16 * h.nentry)]

/-- Whether the sections lie as R243 asks. -/
def ImgHdr.sectionsOk (h : ImgHdr) : Bool :=
  let l := h.sections
  l.all (fun p => if p.2 = 0 then p.1 == 0 else p.1 % 64 == 0 && decide (p.1 + p.2 ≤ h.sigOff))
  && l.zipIdx.all (fun p => l.zipIdx.all fun q =>
      p.2 == q.2 || p.1.2 == 0 || q.1.2 == 0 || decide (p.1.1 + p.1.2 ≤ q.1.1) || decide (q.1.1 + q.1.2 ≤ p.1.1))

/-- The ranges and reserved fields of R244, and the lengths of R243 and R398. -/
def ImgHdr.fieldsOk (h : ImgHdr) (xlen : Nat) : Bool :=
  h.f 973 972 == 0 && h.f 933 920 == 0 && h.f 671 0 == 0 && h.len == xlen
  && decide (1 ≤ h.f 967 960) && decide (h.f 967 960 ≤ 16) && decide (h.nmodels ≤ 16) && decide (1 ≤ h.nentry)
  && decide (h.ndesc ≤ 512) && decide (8 ≤ h.codeLen) && h.codeLen % 8 == 0 && decide (h.codeLen + 32 * h.ndesc ≤ 16384)
  && h.sigOff % 64 == 0 && h.len == h.sigOff + 192

/-- Bindings, entries and WCET claims as numbers (R245). -/
def imgBind (h : ImgHdr) (img : List Byte) (i : Nat) : List Byte := cut img (h.bindOff + 48 * i) 48
def imgEntry (h : ImgHdr) (img : List Byte) (i : Nat) : Nat := fieldAt img (h.entryOff + 8 * i) 8
def imgWcet (h : ImgHdr) (img : List Byte) (i : Nat) : Nat := fieldAt img (h.wcetOff + 16 * i) 16

/-- The ranges and reserved fields of R245. -/
def tablesOk (h : ImgHdr) (img : List Byte) : Bool :=
  (List.range h.nmodels).all (fun i => natBits (leNat (imgBind h img i)) 111 0 == 0)
  && (List.range h.nentry).all (fun i => natBits (imgEntry h img i) 63 48 == 0 && natBits (imgEntry h img i) 31 0 == 0)
  && (List.range h.nentry).all (fun i =>
      natBits (imgWcet h img i) 75 0 == 0 && decide (1 ≤ natBits (imgWcet h img i) 79 76) && decide (natBits (imgWcet h img i) 79 76 ≤ 8))

/-- IREASON 0x03 passes (R400). -/
def State.imgSigned (s : State) (h : ImgHdr) (img : List Byte) : Bool :=
  let blk := cut img h.sigOff 192
  h.f 903 896 == sigSlot blk && jobSlotOk s.lc (sigSlot blk) && s.sigOk "SN-JOBIMAGE" (cut img 0 h.sigOff) blk

/-- IREASON 0x06 passes: the named models are those of the bindings (R245, R246). -/
def State.imgModels (s : State) (h : ImgHdr) (img : List Byte) (models : List Nat) : Bool :=
  models.zipIdx.all fun p =>
    if p.2 < h.nmodels then
      let b := imgBind h img p.2
      let m := s.model p.1
      p.1 != 0xFFF && m.npages == natBits (leNat b) 127 112 + 1 && m.digest == cut b 16 32
    else p.1 == 0xFFF

/-- IREASON of the first check of R247 that fails; 0 when all pass. -/
def State.imgReason (s : State) (be : Bool) (xlen : Nat) (models : List Nat) (img : List Byte) : Nat :=
  let h : ImgHdr := ⟨fieldAt img 0 128⟩
  if h.f 1023 992 ≠ 0x534E4A49 || h.f 991 976 ≠ 1 then 1
  else if !h.fieldsOk xlen || !h.sectionsOk || !tablesOk h img then 2
  else if !s.imgSigned h img then 3
  else if h.f 971 968 &&& s.var.units ≠ h.f 971 968 || s.var.stands < h.f 967 960 then 4
  else if !natBit (h.f 975 974) (bit be) then 5
  else if !s.imgModels h img models then 6
  else if (List.range h.nentry).any fun i => decide (h.codeLen / 8 ≤ natBits (imgEntry h img i) 47 32) then 7
  else if (List.range h.nentry).any fun i => decide (4096 < natBits (imgWcet h img i) 95 80) then 8
  else 0

/-- The job with what its verified image gives it. -/
def Job.withImage (j : Job) (img : List Byte) : Job :=
  let h : ImgHdr := ⟨fieldAt img 0 128⟩
  { j with
    verified := true
    counted := true
    nmodels := h.nmodels
    entries := (List.range h.nentry).map fun i => natBits (imgEntry h img i) 47 32
    ndesc := h.ndesc
    codeLen := h.codeLen
    segBytes := cut img h.descOff (32 * h.ndesc) ++ cut img h.codeOff h.codeLen
    prehash := Config.shake256 64 (cut img 0 h.sigOff) }

/-! ### JOB_LOAD (R209, R210, R238, R240, R247, R248) -/

/-- Fields of a scheduler command that its SOP does not use, and reserved ones (R238, R240). -/
def sopUnused (sop b : Nat) : Bool :=
  let res := natBits b 302 296 ≠ 0 || natBits b 279 272 ≠ 0
  let lc := !natBit b 303
  res || match sop with
    | 0x10 => natBits b 311 304 ≠ 0 || (if lc then natBits b 271 256 ≠ 0 else natBits b 295 280 ≠ 0)
    | 0x13 => natBits b 303 256 ≠ 0 || natBits b 223 0 ≠ 0
    | _ => natBits b 303 0 ≠ 0

/-- Whether a core may join a pack of a domain (R210, R450). -/
def State.packOk (s : State) (d c : Nat) : Bool :=
  let o := s.owner c
  decide (c < s.var.cores) && !s.ras.fence.contains c && o.valid && o.dom == d && !o.closing && !o.pack

/-- Jobs held, and LC jobs held (R208). -/
def State.jobCount (s : State) (lcOnly : Bool) : Nat := (s.sched.jobs.filter fun p => p.2.st ≠ .free && (!lcOnly || !p.2.be)).length

/-- The 16 identifiers of the MODELS field (R238). -/
def modelsField (b : Nat) : List Nat := (List.range 16).map fun i => natBits b (64 + 12 * i + 11) (64 + 12 * i)

/-- SRES of the checks before the image is examined, in the order of R247. -/
def State.loadFirst (s : State) (d : Nat) (be : Bool) (hi lo : Nat) (models : List Nat) : Nat :=
  if !be && !(decide (lo ≤ hi) && (List.range (hi + 1 - lo)).all fun i => s.packOk d (lo + i)) then sresPackConflict
  else if 256 ≤ s.jobCount false || (!be && decide (64 ≤ s.jobCount true)) then sresTooMany
  else if (models.filter (· ≠ 0xFFF)).any fun id =>
      let m := s.model id
      !s.modelReady id || m.dom ≠ d then sresBadModel
  else sresOk

/-- The lowest free job handle. -/
def State.freeJob (s : State) : Option Nat := (List.range 256).find? fun j => (s.job j).st == .free

/-- JOB_LOAD: the pack is claimed and the load begins (R209, R210); before the store is ready it waits (R469). -/
def execJobLoad (d r : Nat) (s : State) : Out :=
  hostRow d r 2 (some 0x10) s fun h s =>
    let b := h.body
    let key := ringKey d r
    let be := natBit b 303
    let hi := natBits b 295 288
    let lo := natBits b 287 280
    let models := modelsField b
    let res := s.loadFirst d be hi lo models
    if !s.boot.store then s
    else if sopUnused 0x10 b || natBits b 63 0 % 64 ≠ 0 then s.cmdDone key sresBadCommand
    else if res ≠ sresOk then s.cmdDone key res
    else match s.freeJob with
      | none => s
      | some j =>
        let slice := if natBits b 271 256 = 0 then 100 else natBits b 271 256
        let s := s.updJob j fun _ =>
          { st := .loading, be := be, dom := d, ring := key, xlen := h.xlen, models := models
            packHi := if be then 0 else hi, packLo := if be then 0 else lo, slice := if be then slice else 0 }
        let s := (s.job j).named.foldl (fun s id => s.updModel id fun m => { m with refs := m.refs + 1 }) s
        let s := if be then s
          else (List.range (hi + 1 - lo)).foldl (fun s i => s.updOwner (lo + i) fun o => { o with pack := true, job := j }) s
        (s.sendRead (s.ring d r).fn (natBits b 63 0) h.xlen).setCmd key (.busy j)

/-- Pages that the load of a job would newly pin, with its code frame (R194, R248). -/
def State.loadPins (s : State) (j : Nat) : Nat :=
  let job := s.job j
  1 + (if job.be then 0 else ((job.named.filter fun id => !(s.model id).pinned).map fun id => (s.model id).npages).sum)

/-- The code frame is taken and filled at once if nothing waits for a frame before it and one can be taken; else the load waits for it in
the order of arrival (R193, R248). -/
def State.jobFrame (s : State) (j : Nat) : State :=
  if (s.job j).frame.isSome then s
  else
    let wait := { s with knl := { s.knl with waiting := s.knl.waiting.filter (· ≠ .code j) ++ [.code j] } }
    match s.knl.waiting with
    | [] => (s.takeCode j).getD wait
    | .code i :: rest =>
      if i = j then ({ s with knl := { s.knl with waiting := rest } }.takeCode j).getD s
      else if s.knl.waiting.contains (.code j) then s else wait
    | _ => if s.knl.waiting.contains (.code j) then s else wait

/-- The image is verified: the pins and the code frame count, and a frame for the code and the pages of an LC job's models are asked
for. -/
def State.jobVerified (s : State) (j : Nat) (img : List Byte) : State :=
  let s := (s.updJob j fun x => x.withImage img).jobFrame j
  let job := s.job j
  if job.be then s
  else job.named.foldl (fun s id =>
    ((s.updModel id fun m => { m with jpins := m.jpins + 1 }).restate id).wantPages (s.model id).pages) s

/-- The cores of a pack become floor islands, and Leash begins to grant their floors (R431). -/
def State.grantFloors (s : State) (cores : List Nat) : State :=
  (cores.foldl (fun s c => s.updCore c fun k => { k with isFloor := true }) s).leashRecompute

/-- Whether a core holds its floor and runs at 1.2 GHz or more (R431). -/
def State.floorHeld (s : State) (c : Nat) : Bool :=
  let k := s.core c
  k.isFloor && decide (s.floorAt s.mv c ≤ k.grant) && decide (floorStep ≤ k.step) && decide (floorStep ≤ k.stepDecided)

/-- M6 after a job has become LOADED (R410). -/
def m6Next (m6 prehash : List Byte) (dom j : Nat) (be : Bool) : List Byte :=
  Config.sha3_384 (m6 ++ prehash ++ [BitVec.ofNat 8 dom, BitVec.ofNat 8 j, BitVec.ofNat 8 (bit be)])

/-- A verified job whose pages are pinned and whose code frame is taken becomes LOADED, an LC job once its pack holds its floors (R209,
R248, R410, R431). -/
def State.jobLoaded (s : State) (j : Nat) : State :=
  let job := s.job j
  let cs := if job.be then [] else s.packCores j
  if job.frame.isNone || (!job.be && !job.named.all s.allPinned) then s
  else
    let s := if cs.all s.floorHeld then s else s.grantFloors cs
    if !cs.all s.floorHeld then s
    else
    let s := s.updJob j fun x => { x with st := .loaded }
    let s := cs.foldl (fun s c => s.updCore c fun k => { k with segs := Tab.set none k.segs 0 (some { job := j, filling := false }) }) s
    let s := { s with sec := { s.sec with m6 := m6Next s.sec.m6 job.prehash job.dom j job.be } }
    s.cmdDone job.ring (sresOk + 256 * j)

/-- JOB_LOAD_COMPLETE: the image as read is examined once; the load then goes on as far as its frame and pages allow (R247, R248). A
host read that fails refuses the load, with an SRES that the spec does not state (log entry 61). -/
def execJobLoadComplete (j : Nat) (image : HostRead) (s : State) : Out :=
  if 256 ≤ j then .fault .noSuchUnit
  else
    let job := s.job j
    if job.st ≠ .loading then .next s
    else if job.verified then .next ((s.jobFrame j).jobLoaded j)
    else match s.answered (s.ringAt job.ring).fn (s.cmdSrc job.ring) job.xlen image with
      | .data bs =>
        let img := cut bs 0 job.xlen
        let reason := s.imgReason job.be job.xlen job.models img
        if reason ≠ 0 then .next (s.jobRefuse j (sresImage + 65536 * reason))
        else if !s.pinRoom job.dom (s.loadPins j) then .next (s.jobRefuse j sresPinLimit)
        else .next ((s.jobVerified j img).jobLoaded j)
      | _ =>
        let (v, s) := s.draw
        .next (s.jobRefuse j (freeSres v))

/-! ### JOB_UNLOAD, FELL (R209, R235 to R237) -/

/-- JOB_UNLOAD (R209, R251, R276). -/
def execJobUnload (d r : Nat) (s : State) : Out :=
  hostRow d r 2 (some 0x11) s fun h s =>
    let key := ringKey d r
    let j := natBits h.body 311 304
    let job := s.job j
    if sopUnused 0x11 h.body then s.cmdDone key sresBadCommand
    else if job.st = .free || job.dom ≠ d then s.cmdDone key sresNoJob
    else if !(job.st == .loaded || job.st == .felled) || s.sched.tasks.any (·.job = j) then s.cmdDone key sresBusy
    else
      let cs := s.jobChans j
      let s := cs.foldl (fun s n => (s.chanAbort n).updChan n fun x => { x with cfg := x.cfg &&& ~~~ (BitVec.ofNat 64 (2 ^ 55)) }) s
      let pack := if job.be then [] else s.packCores j
      let s := pack.foldl (fun s c => s.noteFall c) (s.jobDrop j)
      (if job.be then s else s.leashRecompute).cmdDone key sresOk

/-- FELL takes effect on a task (R235). -/
def State.fellOne (s : State) (uid : Nat) : State :=
  match s.task uid with
  | none => s
  | some t =>
    match t.st with
    | .running c k =>
      let s := s.retireReady c k
      s.terminate c k stKilled 6 (s.slot c k).highest none
    | .draining _ _ => s
    | .ended => s
    | _ => s.endIdle t stKilled 6

/-- Whether every task a FELL acts on is ENDED and every channel it aborted has stopped (R237). -/
def FellCmd.finished (f : FellCmd) (s : State) : Bool :=
  f.uids.all (fun u => (s.task u).isNone) && f.chans.all fun n => !(s.chan n).abort && (s.chan n).wb.isNone

/-- The FELL of a ring completes (R209, R237). -/
def State.fellFinish (s : State) (key : Nat) : State :=
  match s.sched.fells.find? fun f => f.ring = key with
  | none => s
  | some f =>
    if !f.finished s then s
    else
      let s := { s with sched := { s.sched with fells := s.sched.fells.filter fun x => x.ring ≠ key } }
      (if f.whole then s.updJob f.job fun x => { x with st := .felled } else s).cmdDone key sresOk

/-- Start a FELL: the tasks are felled, the channels aborted, and the command waits for them, so far as they have not stopped at once
(R237, R281). -/
def State.fellStart (s : State) (key : Nat) (whole : Bool) (j : Nat) (uids chans : List Nat) : State :=
  let s := uids.foldl State.fellOne s
  let s := chans.foldl State.chanAbort s
  let f : FellCmd := ⟨key, whole, j, uids, chans.filter fun n => (s.chan n).abort || (s.chan n).wb.isSome⟩
  ({ s with sched := { s.sched with fells := s.sched.fells ++ [f] } }).setCmd key (.busy j)

/-- FELL_JOB (R209, R235, R236). -/
def execFellJob (d r : Nat) (s : State) : Out :=
  hostRow d r 2 (some 0x12) s fun h s =>
    let key := ringKey d r
    let j := natBits h.body 311 304
    let job := s.job j
    if sopUnused 0x12 h.body then s.cmdDone key sresBadCommand
    else if job.st = .free || job.dom ≠ d then s.cmdDone key sresNoJob
    else match job.st with
      | .loaded =>
        let s := s.updJob j fun x => { x with st := .felling }
        s.fellStart key true j ((s.sched.tasks.filter (·.job = j)).map (·.uid)) (s.jobChans j)
      | .loading => s.cmdDone key sresBusy
      | _ => s.cmdDone key sresOk

/-- FELL_TASK (R235, R237). -/
def execFellTask (d r : Nat) (s : State) : Out :=
  hostRow d r 2 (some 0x13) s fun h s =>
    let key := ringKey d r
    let j := natBits h.body 311 304
    let job := s.job j
    let mine := (s.sched.tasks.filter fun t => t.job = j && t.taskId = natBits h.body 255 224).map (·.uid)
    if sopUnused 0x13 h.body then s.cmdDone key sresBadCommand
    else if job.st ≠ .loaded || job.dom ≠ d then s.cmdDone key sresNoJob
    else if mine.isEmpty then s.cmdDone key sresOk
    else s.fellStart key false j mine []

/-- FELL_COMPLETE (R237). -/
def execFellComplete (d r : Nat) (s : State) : Out :=
  if !hasRing d r then .fault .noSuchUnit else .next (s.fellFinish (ringKey d r))

/-! ### ASSIGN and scrubs (R176 to R180, R206, R207, R239) -/

/-- Whether an ASSIGN may not take its granules or cores now (R206, R207). -/
def State.assignBusy (s : State) (gran : Bool) (units : List Nat) : Bool :=
  let out := if gran then units.filter fun g => (s.gran g).knl else []
  let stuck := fun g => (List.range 4).any fun i => match (Tab.get {} s.knl.frames (4 * g + i)).st with
    | .pinned => true
    | .code _ => true
    | _ => false
  units.any (fun u => s.sched.assigns.any fun a => (a.kind != 0) == gran && a.named.contains u)
  || (!gran && units.any fun c => (s.owner c).pack)
  || out.any stuck
  || (!out.isEmpty && decide (min s.var.pinMax (s.stayFrames - 4 * out.length - 256) < s.pinCount none))

/-- ASSIGN (R206, R207, R239). -/
def execAssign (d r : Nat) (s : State) : Out :=
  hostRow d r 2 (some 0x14) s fun h s =>
    let b := h.body
    let key := ringKey d r
    let kind := natBits b 311 310
    let units := (List.range (natBits b 291 280 + 1)).map (natBits b 303 292 + ·)
    let absent := fun u => if kind = 0 then decide (s.var.cores ≤ u) || s.ras.fence.contains u else decide (s.var.granules ≤ u)
    if kind = 3 || natBits b 279 0 ≠ 0 || units.any absent then s.cmdDone key sresBadCommand
    else if !h.ctl then s.cmdDone key sresNotControl
    else if s.assignBusy (kind ≠ 0) units then s.cmdDone key sresBusy
    else
      let a : AssignCmd := ⟨key, kind, natBit b 309, natBit b 308, natBits b 307 304, units, false, units⟩
      let s := ({ s with sched := { s.sched with assigns := s.sched.assigns ++ [a] } }).setCmd key (.busy 0)
      if kind = 0 then
        let s := units.foldl (fun s c => s.updOwner c fun o => { o with closing := true }) s
        let on := s.sched.tasks.filter fun t => match t.st with
          | .running c _ => units.contains c
          | .parked c => units.contains c
          | _ => false
        if a.force then (on.map (·.uid)).foldl State.fellOne s else s
      else
        let kn := units.filter fun g => (s.gran g).knl
        let rest := units.filter fun g => !(s.gran g).knl
        let s := kn.foldl (fun s g => s.updGran g fun x => { x with leaving := true }) s
        let s := rest.foldl (fun s g => s.updGran g fun x => { x with scrub := true }) s
        s.doomGranules kn rest

/-- CORE_SCRUB_START: a closing core that is empty takes the scrub state (R176, R206 step 4). -/
def execCoreScrubStart (c : Nat) (s : State) : Out :=
  if !(decide (c < s.var.cores)) then .fault .noSuchUnit
  else
    let o := s.owner c
    let named := s.sched.assigns.any fun a => a.names false c
    if o.closing && !o.scrub && named && s.coreIdle c && !s.ras.fencing.any (·.1 = c) then
      .next ((s.updOwner c fun o => { o with scrub := true }).scrubAdd [(false, c)])
    else .next s

/-- The scrub engine has finished its unit: one that failed its read-back is counted and recorded (R179, R180). -/
def State.scrubEnd (s : State) (ok : Bool) (skind sidx addr : Nat) : State :=
  let s := { s with sec := { s.sec with scrubBusy := none } }
  let s := if ok then s
    else ({ s with sec := { s.sec with scrubFailed := satAdd 16 s.sec.scrubFailed 1 } }).ueMet 2 none skind sidx addr
  s.scrubNext

/-- CORE_SCRUB_COMPLETE: the core's memory and operand buffers are zero, and it takes its new domain, or it is fenced (R176, R179, R206, R449). -/
def execCoreScrubComplete (c : Nat) (ok : Bool) (s : State) : Out :=
  if !(decide (c < s.var.cores)) then .fault .noSuchUnit
  else if s.sec.scrubBusy ≠ some (false, c) then .next s
  else
    let s := s.scrubEnd ok skCore c (coreBase c)
    if !ok then .next (s.fenceStart c 2)
    else
      let a := s.sched.assigns.find? fun a => a.names false c
      let s := s.updCore c fun k => { k with
        mem := [], bad := [], weak := [], wins := [], sb := [], segs := [], se := {}, dbe := {}, ve := {}, ru := {}, lte := {} }
      let own : CoreOwn := match a with
        | some a => if a.valid then { valid := true, dom := a.dom } else {}
        | none => {}
      .next ((s.updOwner c fun _ => own).unitDone false c false)

/-- GRANULE_SCRUB_COMPLETE (R178, R179, R206). -/
def execGranuleScrubComplete (g : Nat) (ok : Bool) (s : State) : Out :=
  if !(decide (g < s.var.granules)) then .fault .noSuchUnit
  else if s.sec.scrubBusy ≠ some (true, g) then .next s
  else
    let s := s.scrubEnd ok skSlice (s.slice (65536 * g)) (yardBase + 65536 * g)
    if !ok then .next (s.unitDone true g true)
    else
      let lo := 65536 * g
      let a := s.sched.assigns.find? fun a => a.names true g
      let out := fun b => b < lo || lo + 65536 ≤ b
      let s := { s with yard := { mem := s.yard.mem.zero lo (lo + 65536), bad := s.yard.bad.filter out, weak := s.yard.weak.filter out } }
      let own : GranOwn := match a with
        | some a => if !a.valid then {} else if a.kind = 2 then { valid := true, knl := true } else { valid := true, dom := a.dom }
        | none => {}
      .next ((s.updGran g fun _ => own).unitDone true g false)

/-! ### Registers (R172, R205, R208, R242) -/

def JobSt.num : JobSt → Nat
  | .free => 0
  | .loading => 1
  | .loaded => 2
  | .felling => 3
  | .felled => 4

/-- SCHED_YMAP's entry of a granule (R172). -/
def GranOwn.entry (g : GranOwn) : Nat := fields [(7, bit g.valid), (6, bit g.knl), (0, g.dom)]

/-- SCHED_CMAPc (R205); a fenced core reads zero (R450). -/
def State.cmapReg (s : State) (c : Nat) : Nat :=
  let o := s.owner c
  let k := s.core c
  let busy := ((List.range 8).filter fun i => (k.slot i).uid.isSome)
  let lc := busy.filter fun i => (s.sched.tasks.any fun t => some t.uid == (k.slot i).uid && !t.be)
  let mask := fun (l : List Nat) => (l.map fun i => 2 ^ i).sum
  if s.ras.fence.contains c then 0
  else fields [(63, bit o.valid), (62, bit o.scrub), (61, bit o.closing), (60, bit o.pack), (56, o.dom), (48, o.job),
    (40, k.parked.length), (32, mask busy), (24, mask lc)]

/-- SCHED_JOBj (R208). -/
def State.jobReg (s : State) (j : Nat) : Nat :=
  let x := s.job j
  let running := (s.sched.tasks.filter fun t => t.job = j && !t.pending).length
  fields [(61, x.st.num), (60, bit x.be), (56, x.dom), (48, x.packHi), (40, x.packLo), (24, x.slice), (12, min running 4095)]

/-- A read of the SCHED block by offset (R172, R205, R208, R242). -/
def State.schedRead (s : State) (off : Nat) : Nat :=
  let n := off / 8
  if n < 384 then
    fields ((List.range 8).map fun i => (8 * i, (s.gran (8 * n + i)).entry))
  else if 0x1000 ≤ off ∧ off < 0x1800 then s.cmapReg ((off - 0x1000) / 8)
  else if 0x2000 ≤ off ∧ off < 0x2800 then s.jobReg ((off - 0x2000) / 8)
  else if 0x3000 ≤ off ∧ off < 0x3100 then
    let d := (off - 0x3000) / 16
    if off % 16 = 0 then fields [(47, s.pendingCount d), (0, Tab.get 0 s.sched.spawnRef d)]
    else fields [(40, Tab.get 0 s.sched.ovrCnt d), (0, Tab.get 0 s.sched.ovrNs d)]
  else 0

/-- SCHED_CTL.CLR (R242): every counter of every domain. PENDING shows a number of tasks and counts nothing since reset; it stays. -/
def State.schedClr (s : State) : State := { s with sched := { s.sched with spawnRef := [], ovrCnt := [], ovrNs := [] } }

end Sys2Proof.Machine
end

