-- ==== Sys2Proof/Machine/Ras.lean ====
section
/-!
DEFINITION. Patrol, hard errors, mesh links, island faults, the error log and the RAS registers (R439 to R451).
-/

namespace Sys2Proof.Machine

/-! ### The error log (R444, R446, R447) -/

/-- Whether two records coalesce: equal in CLASS, CODE, SKIND, SIDX and ADDR, the second within 1 ms of
the first: before the end of the half-open window of R20. -/
def ErrRec.joins (newest r : ErrRec) : Bool :=
  newest.cls == r.cls && newest.code == r.code && newest.skind == r.skind && newest.sidx == r.sidx && newest.addr == r.addr
  && decide (r.t < newest.t + 1000000)

/-- The newest record of the log. -/
def Ras.newest (x : Ras) : Option ErrRec := if x.next = 0 then none else Tab.get none x.log ((x.next - 1) % 1024)

/-- RAS_RECORD_LOG: the oldest waiting record enters the log or is coalesced, which adds 1 to COUNT whatever its own COUNT is (R446). -/
def execRasRecordLog (s : State) : Out :=
  match s.ras.queue with
  | [] => .next s
  | r :: rest =>
    let s := { s with ras := { s.ras with queue := rest } }
    match s.ras.newest with
    | some n =>
      if n.joins r then
        let n' := { n with count := satAdd 16 n.count 1 }
        .next { s with ras := { s.ras with log := Tab.set none s.ras.log (n.seq % 1024) (some n') } }
      else
        let e := { r with seq := s.ras.next }
        let x := { s.ras with log := Tab.set none s.ras.log (e.seq % 1024) (some e), next := (s.ras.next + 1) % 2 ^ 32 }
        .next (({ s with ras := x }).postDevice 6 e.cls 0 e.seq)
    | none =>
      let e := { r with seq := s.ras.next }
      let x := { s.ras with log := Tab.set none s.ras.log (e.seq % 1024) (some e), next := (s.ras.next + 1) % 2 ^ 32 }
      .next (({ s with ras := x }).postDevice 6 e.cls 0 e.seq)

/-- The 256 bits of a record (R444). -/
def ErrRec.word (r : ErrRec) : Nat :=
  fields [(192, r.t % 2 ^ 64), (160, r.seq % 2 ^ 32), (152, r.cls % 256), (144, r.code % 256), (143, bit r.dom.isSome),
    (139, r.dom.getD 0 % 16), (124, r.skind % 16), (112, r.sidx % 4096), (96, min r.count 65535), (48, r.addr % 2 ^ 48),
    (0, r.detail % 2 ^ 48)]

/-- A read of the RAS block (R446, R447). -/
def State.rasRead (s : State) (off : Nat) : Nat :=
  let x := s.ras
  if off = 0 then fields [(32, x.next), (16, x.yref % 65536), (7, x.fence.length), (0, x.lost)]
  else if off = 8 then fields [(32, x.ce), (0, x.ue)]
  else if 0x10 ≤ off ∧ off < 0x30 then
    let i := (off - 0x10) / 8
    (((List.range 64).filter fun j => x.fence.contains (64 * i + j)).map fun j => 2 ^ j).sum
  else if 0x8000 ≤ off ∧ off < 0x10000 then
    match Tab.get none x.log ((off - 0x8000) / 32) with
    | some r => natBits r.word (64 * (off % 32 / 8) + 63) (64 * (off % 32 / 8))
    | none => 0
  else 0

/-! ### Patrol (R439 to R441, R448) -/

/-- Store offset of a line of a channel (R183). -/
def State.patrolOff (s : State) (ch j : Nat) : Nat := 64 * (j * s.var.channels + ch)

/-- The domain whose page holds a store offset, if one does. -/
def State.storeDom (s : State) (o : Nat) : Option Nat :=
  match s.var.region o with
  | .frame f => (s.knl.dir.find? fun p => p.2.valid && p.2.sframe == f).map fun p => p.2.dom
  | _ => none

/-- Where a patrol read looks: its source kind, index, address, detail and domain; none where there is no such unit. -/
def State.patrolAt (s : State) : PatrolTarget → Option (Nat × Nat × Nat × Nat × Option Nat)
  | .coreLine c l =>
    let o := s.owner c
    if c < s.var.cores ∧ l < 12288 then some (skCore, c, coreBase c + 64 * l, 0, if o.valid then some o.dom else none) else none
  | .yardLine i l =>
    let off := 64 * (l * s.var.slices + i)
    let g := s.gran (off / 65536)
    if i < s.var.slices ∧ off < 65536 * s.var.granules then
      some (skSlice, i, yardBase + off, 0, if g.valid && !g.knl then some g.dom else none)
    else none
  | .storeLine ch j =>
    if ch < s.var.channels ∧ 64 * (j * s.var.channels + ch) < s.var.storeBytes then
      some (skStore, ch, storeBase + s.patrolOff ch j, 0, s.storeDom (s.patrolOff ch j))
    else none
  | .tallyWord k =>
    let d := (List.range 16).find? fun d => s.ownsTally d k
    if k < tallies then some (skTally, 0, tallyAddr k, k, d) else none
  | .tableWord sk _ => if sk = skKnl ∨ sk = skSched ∨ sk = skLeash ∨ sk = skSec then some (sk, 0, 0, 0, none) else none
  | .loopWord n _ =>
    let x := s.loopSlot n
    if n < 4096 then some (skLoop, n, 0, 0, if natBit x.cfg.toNat 63 then some (natBits x.cfg.toNat 62 59) else none) else none
  | .trajEntry n i _ =>
    let x := s.loopSlot n
    if n < 4096 ∧ i < 64 then some (skLoop, n, 0, 0, if natBit x.cfg.toNat 63 then some (natBits x.cfg.toNat 62 59) else none) else none

/-- The patrol skips cores and granules in the scrub state, fenced cores, the loop slots of a tray without them, and store lines that are
neither in a bound store frame nor in the directory or the frame version array (R7, R439, R440). -/
def State.patrolSkips (s : State) : PatrolTarget → Bool
  | .coreLine c _ => (s.owner c).scrub || s.ras.fence.contains c
  | .yardLine i l => (s.gran (64 * (l * s.var.slices + i) / 65536)).scrub
  | .loopWord _ _ => !s.var.acts
  | .trajEntry _ _ _ => !s.var.acts
  | .storeLine ch j => !s.boot.store || (match s.var.region (s.patrolOff ch j) with
    | .frame f => !(Tab.get {} s.knl.sframes f).bound
    | .table _ => false
    | .device => true)
  | _ => false

/-- What stands in the state at the place of a patrol read, whatever the read itself shows (R440). -/
def State.patrolStands (s : State) (t : PatrolTarget) : PatrolFind :=
  let found := fun (bad weak : Bool) => if bad then PatrolFind.uncorrectable else if weak then .corrected false else .clean
  match t with
  | .coreLine c l => found (!((s.core c).badIn (64 * l) (64 * l + 64)).isEmpty) (!((s.core c).weakIn (64 * l) (64 * l + 64)).isEmpty)
  | .yardLine i l =>
    let o := 64 * (l * s.var.slices + i)
    found (!(s.yardBadIn o (o + 64)).isEmpty) (!(s.yardWeakIn o (o + 64)).isEmpty)
  | .tallyWord k => found (s.tly.failed.contains k) false
  | .loopWord n _ => found (s.loopSlot n).bad false
  | .trajEntry n i _ => found (((s.loopSlot n).queue[i]?).any (·.bad)) false
  | _ => .clean

/-- The number by which R441 tells a word of a table, a loop slot or a queue entry from the others of its kind; of a tally its address. -/
def patrolWord (t : PatrolTarget) (a : Nat) : Nat :=
  match t with
  | .tableWord _ w => w
  | .loopWord _ w => 2 * w
  | .trajEntry _ i w => 2 * (64 * w + i) + 1
  | _ => a

/-- The units of a line, `u` bytes each, that the patrol corrects: those that stand with a correctable error, or else one by a free value
(log entry 146). -/
def State.patrolUnits (s : State) (stand : List Nat) (lo u : Nat) : List Nat × State :=
  if stand.isEmpty then ([lo + u * ((s.draw).1 % (64 / u))], (s.draw).2) else (stand, s)

/-- The units that still have their error after the patrol has corrected these: none, unless another write to the line kept the corrected
line from being written back (R440). An error that the other write may have covered stays or not by a free value. -/
def State.patrolLeft (s : State) (stand units : List Nat) (raced : Bool) : List Nat × State :=
  if !raced then ([], s)
  else if stand.isEmpty then (if (s.draw).1 % 2 = 1 then units else [], (s.draw).2)
  else (stand, s)

/-- The patrol corrects a line, or a word of a table (R440, R441). -/
def State.patrolCorrected (s : State) (t : PatrolTarget) (raced : Bool) (sk ix a det : Nat) (dom : Option Nat) : State :=
  match t with
  | .coreLine c l =>
    let stand := (s.core c).weakIn (64 * l) (64 * l + 64)
    let p := s.patrolUnits stand (64 * l) 4
    let q := (p.1.foldl (fun s b => s.coreFix c b dom) p.2).patrolLeft stand p.1 raced
    q.2.updCore c fun k => { k with weak := k.weak.filter (!stand.contains ·) ++ q.1 }
  | .yardLine _ _ =>
    let o := a - yardBase
    let stand := s.yardWeakIn o (o + 64)
    let p := s.patrolUnits stand o 8
    let q := (p.1.foldl (fun s b => s.yardFix b dom) p.2).patrolLeft stand p.1 raced
    { q.2 with yard := { q.2.yard with weak := q.2.yard.weak.filter (!stand.contains ·) ++ q.1 } }
  | _ => s.correctedIn sk (patrolWord t a) none sk ix a det dom

/-- An uncorrectable finding: the next reader of the line meets it. Which unit of a line holds the error is a free value (R439, R440,
R448). -/
def State.patrolUncorrectable (s : State) (t : PatrolTarget) (sk ix a det : Nat) (dom : Option Nat) : State :=
  let s := ({ s with ras := { s.ras with ue := satAdd 32 s.ras.ue 1 } }).record 2 1 dom sk ix a det
  match t with
  | .coreLine c l =>
    if ((s.core c).badIn (64 * l) (64 * l + 64)).isEmpty then
      let (v, s) := s.draw
      s.updCore c fun k => { k with bad := (64 * l + 4 * (v % 16)) :: k.bad }
    else s
  | .yardLine _ _ =>
    let o := a - yardBase
    if (s.yardBadIn o (o + 64)).isEmpty then
      let (v, s) := s.draw
      { s with yard := { s.yard with bad := (o + 8 * (v % 8)) :: s.yard.bad } }
    else s
  | .storeLine _ _ =>
    let l := (a - storeBase) / 64
    { s with knl := { s.knl with badLines := if s.knl.badLines.contains l then s.knl.badLines else l :: s.knl.badLines } }
  | .tallyWord k => { s with tly := { s.tly with failed := if s.tly.failed.contains k then s.tly.failed else k :: s.tly.failed } }
  | .tableWord _ _ => s.fatal 1 sk ix 0
  | .loopWord n _ => s.updLoop n fun x => { x with bad := true }
  | .trajEntry n i _ => s.updLoop n fun x => { x with queue := x.queue.zipIdx.map fun p => if p.2 = i then { p.1 with bad := true } else p.1 }

/-- How a line of the store that the patrol reads is not good as it stands under its version (R402, R403, R405), if it is not. -/
def State.patrolFault (s : State) : PatrolTarget → Option Bool
  | .storeLine ch j =>
    let o := s.patrolOff ch j
    if s.lineStands o then s.lineFault o (s.lineVer o) else none
  | _ => none

/-- How a patrol read ends: nothing found, a correction, or an uncorrectable line, of the store with whether its failure is of forgery
type. -/
inductive PatrolEnd where
  | clean
  | corrected (raced : Bool)
  | uncorrectable (forge : Option Bool)
deriving DecidableEq, Repr

/-- How a patrol read ends by what it found; of a line of the store, as its errors and its own state give it (R186, R405). -/
def patrolShows (t : PatrolTarget) (r : PatrolFind) (fault : Option Bool) : PatrolEnd :=
  match t with
  | .storeLine _ _ => match lineEnd fault r.storeErrs 0 with
    | .good => .clean
    | .fixed => .corrected false
    | .bad forge => .uncorrectable (some forge)
  | _ => match r with
    | .corrected raced => .corrected raced
    | .uncorrectable => .uncorrectable none
    | _ => .clean

/-- PATROL_STEP (R439 to R441). -/
def execPatrolStep (t : PatrolTarget) (r : PatrolFind) (s : State) : Out :=
  match s.patrolAt t with
  | none => .fault .noSuchUnit
  | some (sk, ix, a, det, dom) =>
    if s.patrolSkips t then .next s
    else match patrolShows t ((s.patrolStands t).worst r) (s.patrolFault t) with
      | .clean => .next s
      | .corrected raced => .next (s.patrolCorrected t raced sk ix a det dom)
      | .uncorrectable none => .next (s.patrolUncorrectable t sk ix a det dom)
      | .uncorrectable (some forge) => .next ((s.lineNotGood forge).patrolUncorrectable t sk ix a det dom)

/-! ### Islands (R443, R449, R450) -/

/-- A task bound to a faulted core ends at once, unless an instruction that retires in that cycle has ended it already (R119, R450 step
2). -/
def State.islandEnds (s : State) (c : Nat) (t : Task) : State :=
  let m := fun (x : Slot) => (⟨7, 8, s.dt, x.highest, none⟩ : Term)
  match t.st with
  | .running d k =>
    if d = c then
      let s := s.retireReady c k
      (s.freeSlot c k).endTask t (s.slot c k) ((s.slot c k).term.getD (m (s.slot c k)))
    else s
  | .draining d k =>
    if d = c then (s.freeSlot c k).endTask t (s.slot c k) ((s.slot c k).term.getD (m (s.slot c k))) else s
  | .parked d => if d = c then s.endIdle t 7 8 else s
  | _ => s

/-- What a task on a core whose island stops will never write, by CSEQ: its commands and its commit copy, its remote writes, XMOVEs and
KGETs (R27, log entry 223). -/
def State.lostOf (s : State) (c : Nat) (t : Task) : List Nat :=
  (s.core c).queuedOf t.uid
  ++ (engineAll.flatMap fun e => (((s.core c).eng e).run.toList.filter fun m => m.uid = t.uid).map (·.cseq))
  ++ ((s.mesh.filter fun w => w.src = c && w.uid = t.uid && (w.write || w.left ≠ 0)).map (·.cseq))
  ++ ((s.knl.touches.filter fun x => x.core = c && x.chan.isNone && x.uid = t.uid).map (·.cseq))
  ++ match t.st with
    | .running d k => if d = c && (s.slot c k).copy.isSome then [(s.slot c k).commitCseq] else []
    | _ => []

/-- A core island's handshake faults: its tasks end with DATA_ERROR and the core is fenced (R449, R450). -/
def State.coreFault (s : State) (c : Nat) : State :=
  let s := s.updOwner c fun o => { o with closing := true }
  let reading := s.knl.touches.filterMap fun t => if t.core = c && t.chan.isNone then t.frame else none
  let never := s.sched.tasks.map fun t => (t.uid, s.lostOf c t)
  let s := { s with
    mesh := s.mesh.filter fun w => w.src ≠ c
    knl := { s.knl with touches := s.knl.touches.filter fun t => t.core ≠ c || t.chan.isSome } }
  let s := reading.foldl (fun s k => s.readEnds k) s
  let s := never.foldl (fun s p => s.dropAdds p.1 p.2) s
  let s := (List.range 8).foldl (fun s k => (s.copyStop c k).updSlot c k fun x => { x with copy := none }) s
  let s := s.updCore c fun k => { k with se := {}, dbe := {}, ve := {}, ru := {}, lte := {}, sb := [] }
  let s := { s with ras := { s.ras with fencing := s.ras.fencing.filter fun p => p.1 ≠ c } }
  let s := s.sched.tasks.foldl (fun s t => s.islandEnds c t) s
  s.fenceDone c 1

/-- ISLAND_HANDSHAKE_FAULT (R443, R449). -/
def execIslandHandshakeFault (i : Island) (s : State) : Out :=
  match i with
  | .mesh => .next (s.fatal 2 skSched 0 0)
  | .core c =>
    if !(decide (c < s.var.cores)) then .fault .noSuchUnit
    else if s.ras.fence.contains c then .next s
    else .next (s.coreFault c)

/-! ### Mesh links (R442, R443) -/

/-- MESH_FLIT_CRC_FAIL: a failed send of a link's flit: one more of the flit that failed before, or the first of another, whose
predecessor has then crossed (R442 steps 1 and 2). After 8 of one flit the link has yet to retrain. -/
def execMeshFlitCrcFail (f : FlitFail) (s : State) : Out :=
  if !(decide (f.link < 4 * s.var.cores)) then .fault .noSuchUnit
  else if s.ras.linkDown.contains f.link then .next s
  else .next { s with ras := { s.ras with linkFails := Tab.upd 0 s.ras.linkFails f.link fun n =>
    if 8 ≤ n then n else if f.again then n + 1 else 1 } }

/-- MESH_LINK_RETRAIN_DONE: after 8 failed sends the link retrains; the third retrain in a row that fails makes it a failed link
(R442 steps 2 and 3). -/
def execMeshLinkRetrainDone (link : Nat) (ok : Bool) (s : State) : Out :=
  if !(decide (link < 4 * s.var.cores)) then .fault .noSuchUnit
  else if Tab.get 0 s.ras.linkFails link < 8 || s.ras.linkDown.contains link then .next s
  else if ok then
    let x := { s.ras with linkFails := Tab.set 0 s.ras.linkFails link 0, linkRetrains := Tab.set 0 s.ras.linkRetrains link 0 }
    .next (({ s with ras := x }).record 6 0 none skLink link 0 0)
  else
    let n := Tab.get 0 s.ras.linkRetrains link + 1
    let s := ({ s with ras := { s.ras with linkRetrains := Tab.set 0 s.ras.linkRetrains link n } }).record 6 0 none skLink link 0 0
    if n < 3 then .next s
    else .next (({ s with ras := { s.ras with linkDown := link :: s.ras.linkDown } }).fatal 0 skLink link 0)

/-- SLICE_OR_CHANNEL_STOPS_ANSWERING (R443, R470). -/
def execSliceOrChannelStopsAnswering (u : DeadUnit) (s : State) : Out :=
  match u with
  | .slice i => if i < s.var.slices then .next (s.fatal 3 skSlice i 0) else .fault .noSuchUnit
  | .channel i => if i < s.var.channels then .next (s.fatal 3 skStore i 0) else .fault .noSuchUnit

end Sys2Proof.Machine
end

