-- ==== Sys2Proof/Machine/Security.lean ====
section
/-!
DEFINITION. Security commands: the nonce, tokens and the life cycle, fuse programming and keys of plant I/O units (R413 to R422, R425), and
reads of host memory that time out (R377).
-/

namespace Sys2Proof.Machine

/-! ### Results (R417) -/

def secOk : Nat := 0
def secNotControl : Nat := 1
def secBadState : Nat := 2
def secBadToken : Nat := 3
def secNoSession : Nat := 4
def secUnwrap : Nat := 5
def secFuseFail : Nat := 6
def secNotDomain : Nat := 7
def secBadCommand : Nat := 8
def secHostRead : Nat := 9

/-- Whether no security command accepted earlier on any ring still waits (R416). -/
def State.secTurn (s : State) (h : HostCmd) : Bool :=
  s.hif.rings.all fun p => p.2.cur.all fun g => g.cls ≠ 5 || g.st ≠ .fresh || decide (h.seq ≤ g.seq)

/-- A row that carries out a security command: one at a time, in order of acceptance, over all rings (R416). -/
def secRow (d r op : Nat) (s : State) (f : HostCmd → State → State) : Out :=
  hostRow d r 5 (some op) s fun h s => if s.sec.fuseJob.isSome || !s.secTurn h then s else f h s

/-- LEN of a security command (R415). -/
def secLen (b : Nat) : Nat := natBits b 287 272

/-- NONCE: 32 fresh bytes go to SRC and are the device nonce (R416). The result of a write that fails
is not stated and is a free value among those that R417 writes (log entry 128). -/
def execNonce (d r : Nat) (rnd : List Byte) (writeOk : Bool) (s : State) : Out :=
  secRow d r 1 s fun h s =>
    let b := h.body
    let key := ringKey d r
    let fn := (s.ring d r).fn
    if natBits b 311 288 ≠ 0 || natBits b 271 64 ≠ 0 || secLen b ≠ 32 then s.cmdDone key secBadCommand
    else
      let n := cut rnd 0 32
      let s := { s with sec := { s.sec with nonce := some n } }
      if !writeOk || !s.fnReachAt fn (natBits b 63 0) 32 then
        let (v, s) := s.draw
        s.cmdDone key (v % 10)
      else (s.updFn fn fun f => { f with mem := f.mem.write (natBits b 63 0) n }).cmdDone key secOk

/-! ### Tokens (R418 to R420) -/

def tkKind (t : List Byte) : Nat := fieldAt t 4 1
def tkNsig (t : List Byte) : Nat := fieldAt t 5 1
def tkPlen (t : List Byte) : Nat := fieldAt t 6 2
def tkDsn (t : List Byte) : Nat := fieldAt t 8 8
def tkNonce (t : List Byte) : List Byte := cut t 16 32
def tkPayload (t : List Byte) : List Byte := cut t 64 (tkPlen t)
def tkSigned (t : List Byte) : List Byte := cut t 0 (64 + tkPlen t)
def tkBlock (t : List Byte) (i : Nat) : List Byte := cut t (64 + tkPlen t + 192 * i) 192
/-- The signer slots of a token, in order. -/
def tkSlots (t : List Byte) : List Nat := (List.range (tkNsig t)).map fun i => sigSlot (tkBlock t i)

/-- The layout of R418, and LEN. -/
def tokenLayout (t : List Byte) (len : Nat) : Bool :=
  fieldAt t 0 4 == 0x4B544E53 && decide (1 ≤ tkKind t) && decide (tkKind t ≤ 7) && (tkNsig t == 1 || tkNsig t == 2)
  && tkPlen t % 32 == 0 && decide (tkPlen t ≤ 512) && fieldAt t 48 16 == 0 && len == 64 + tkPlen t + 192 * tkNsig t

/-- What the row of a KIND says (R419): the states it starts from, whether its signers fit the state and the payload, whether the payload
is well formed, and the limits that answer BAD_STATE. -/
structure TokenRule where
  kind : Nat
  states : List Nat
  signers : Nat → List Byte → List Nat → Bool
  payload : List Byte → Bool
  limit : State → List Byte → Bool

/-- The checks of R419 in their order; the result of the first that fails. The nonce is the one the device held. -/
def TokenRule.check (x : TokenRule) (s : State) (nonce : Option (List Byte)) (t : List Byte) (len : Nat) : Nat :=
  let p := tkPayload t
  if !tokenLayout t len then secBadToken
  else if x.kind ≠ 1 && tkDsn t ≠ s.fuses.dsn then secBadToken
  else if nonce ≠ some (tkNonce t) then secBadToken
  else if !x.states.contains s.lc then secBadState
  else if !x.payload p || !x.signers s.lc p (tkSlots t) then secBadToken
  else if !(List.range (tkNsig t)).all (fun i => s.sigOk "SN-TOKEN" (tkSigned t) (tkBlock t i)) then secBadToken
  else if !x.limit s p then secBadState
  else secOk

/-- A TOKEN: read, its nonce spent, checked, and applied (R416, R419). A token of another KIND belongs to another row of the table. -/
def tokenRow (x : TokenRule) (d r : Nat) (tok : HostRead) (s : State) (apply : List Byte → State → State) : Out :=
  secRow d r 2 s fun h s =>
    let b := h.body
    let key := ringKey d r
    if natBits b 311 288 ≠ 0 || natBits b 271 64 ≠ 0 then s.cmdDone key secBadCommand
    else if !h.ctl then s.cmdDone key secNotControl
    else
      let fn := (s.ring d r).fn
      let sent := s.sendRead fn (natBits b 63 0) (secLen b)
      let spent := { sent with sec := { sent.sec with nonce := none } }
      match s.answered (s.ring d r).fn (natBits b 63 0) (secLen b) tok with
      | .data bs =>
        let len := secLen b
        let t := cut bs 0 len
        if tkKind t ≠ x.kind ∧ 1 ≤ tkKind t ∧ tkKind t ≤ 7 then s
        else
          let res := x.check s s.sec.nonce t len
          if res = secOk then apply t spent else spent.cmdDone key res
      | _ => spent.cmdDone key secHostRead

/-- Fuses are to be programmed: the command completes when they have been verified (R417, R420). -/
def State.program (s : State) (key : Nat) (f : Fuses) : State :=
  { s with sec := { s.sec with fuseJob := some ⟨key, f⟩ } }.setCmd key (.busy 0)

/-- The OR of two byte lists. -/
def orBytes (a b : List Byte) : List Byte := (List.range (max a.length b.length)).map fun i => a.getD i 0 ||| b.getD i 0

/-- The transition bit of a state, in its three copies (R391, R420). -/
def Fuses.lcTo (f : Fuses) (lc : Nat) : Fuses :=
  { f with lc0 := f.lc0 ||| 2 ^ (lc - 1), lc1 := f.lc1 ||| 2 ^ (lc - 1), lc2 := f.lc2 ||| 2 ^ (lc - 1) }

/-- Signers that are all maker slots, and a single signer of a kind. -/
def oneMaker (l : List Nat) : Bool := l.length == 1 && l.all isMakerSlot
def oneProd (l : List Nat) : Bool := l.length == 1 && l.all isProdSlot
def oneOwner (l : List Nat) : Bool := l.length == 1 && l.all fun k => isProdSlot k || isDevSlot k

def ruleProvision : TokenRule := ⟨1, [lcBlank], fun _ _ l => oneMaker l, fun p => p.isEmpty, fun _ _ => true⟩
/-- TOKEN_PROVISION: UDS from the TRNG and DSN from the header (R419). -/
def execTokenProvision (d r : Nat) (tok : HostRead) (uds : List Byte) (s : State) : Out :=
  tokenRow ruleProvision d r tok s fun t s =>
    s.program (ringKey d r) ({ s.fuses with uds := orBytes s.fuses.uds (cut uds 0 32), dsn := s.fuses.dsn ||| tkDsn t }.lcTo lcMaker)

/-- The slots an OWN token names, in increasing order, and the digest of the `i`th. -/
def ownMask (p : List Byte) : Nat := fieldAt p 0 1
def ownSlots (p : List Byte) : List Nat := (List.range 8).filter (natBit (ownMask p))
def ruleOwn : TokenRule :=
  ⟨2, [lcMaker], fun _ _ l => oneMaker l,
    fun p => p.length == 32 * (1 + ones 8 (ownMask p)) && fieldAt p 1 31 == 0 && natBits (ownMask p) 5 0 != 0, fun _ _ => true⟩
/-- TOKEN_OWN: the owner's digests are programmed (R419). -/
def execTokenOwn (d r : Nat) (tok : HostRead) (s : State) : Out :=
  tokenRow ruleOwn d r tok s fun t s =>
    let p := tkPayload t
    let put := fun (m : Tab (List Byte)) (x : Nat × Nat) => Tab.set [] m x.1 (orBytes (Tab.get [] m x.1) (cut p (32 + 32 * x.2) 32))
    s.program (ringKey d r)
      ({ s.fuses with okey := (ownSlots p).zipIdx.foldl put s.fuses.okey, oset := s.fuses.oset ||| ownMask p }.lcTo lcOwned)

def ruleSeal : TokenRule := ⟨3, [lcOwned], fun _ _ l => oneProd l, fun p => p.isEmpty, fun _ _ => true⟩
/-- TOKEN_SEAL (R419). -/
def execTokenSeal (d r : Nat) (tok : HostRead) (s : State) : Out :=
  tokenRow ruleSeal d r tok s fun _ s => s.program (ringKey d r) (s.fuses.lcTo lcField)

def ruleReturn : TokenRule :=
  ⟨4, [lcOwned, lcField], fun _ _ l => l.length == 2 && isMakerSlot (l.getD 0 255) && isProdSlot (l.getD 1 255), fun p => p.isEmpty,
    fun _ _ => true⟩
/-- TOKEN_RETURN: every OREV bit is fused (R419). -/
def execTokenReturn (d r : Nat) (tok : HostRead) (s : State) : Out :=
  tokenRow ruleReturn d r tok s fun _ s => s.program (ringKey d r) ({ s.fuses with orev := 255 }.lcTo lcReturn)

def ruleScrap : TokenRule :=
  ⟨5, [lcBlank, lcMaker, lcOwned, lcField, lcReturn],
    fun lc _ l => oneMaker l || (oneProd l && (lc == lcOwned || lc == lcField)), fun p => p.isEmpty, fun _ _ => true⟩
/-- TOKEN_SCRAP: every UDS bit is fused to 1 (R419). -/
def execTokenScrap (d r : Nat) (tok : HostRead) (s : State) : Out :=
  tokenRow ruleScrap d r tok s fun _ s => s.program (ringKey d r) ({ s.fuses with uds := List.replicate 32 0xFF }.lcTo lcScrapped)

def dbgLevel (p : List Byte) : Nat := fieldAt p 0 1
def ruleDebug : TokenRule :=
  ⟨6, [lcMaker, lcOwned, lcReturn], fun lc _ l => if lc = lcOwned then oneOwner l else oneMaker l,
    fun p => !p.isEmpty && (dbgLevel p == 1 || dbgLevel p == 2) && (p.drop 1).all (· == 0),
    fun s p => decide (dbgLevel p ≤ debugLimit s.lc)⟩
/-- TOKEN_DEBUG: the debug level of the next boot (R419, R421). -/
def execTokenDebug (d r : Nat) (tok : HostRead) (s : State) : Out :=
  tokenRow ruleDebug d r tok s fun t s =>
    ({ s with sec := { s.sec with dbgp := dbgLevel (tkPayload t) } }).cmdDone (ringKey d r) secOk

def revOwner (p : List Byte) : Nat := fieldAt p 0 1
def revMaker (p : List Byte) : Nat := fieldAt p 1 1
def ruleRevoke : TokenRule :=
  ⟨7, [lcMaker, lcOwned, lcField, lcReturn],
    fun _ p l => (oneProd l || oneMaker l) && (revOwner p == 0 || oneProd l) && (revMaker p == 0 || oneMaker l),
    fun p => !p.isEmpty && (p.drop 2).all (· == 0) && decide (revMaker p < 16),
    fun s p => (revOwner p == 0 || natBits s.fuses.oset 5 0 &&& (63 - natBits (s.fuses.orev ||| revOwner p) 5 0) != 0)
      && (revMaker p == 0 || natBits (s.fuses.mrev ||| revMaker p) 3 0 != 15)⟩
/-- TOKEN_REVOKE (R419). -/
def execTokenRevoke (d r : Nat) (tok : HostRead) (s : State) : Out :=
  tokenRow ruleRevoke d r tok s fun t s =>
    let p := tkPayload t
    s.program (ringKey d r) { s.fuses with orev := s.fuses.orev ||| revOwner p, mrev := s.fuses.mrev ||| revMaker p }

/-- FUSE_SAFE: ARG is ORed into the safe levels, in MAKER or OWNED with LOCK 0 at its acceptance (R416, R425). -/
def execFuseSafe (d r : Nat) (s : State) : Out :=
  secRow d r 3 s fun h s =>
    let b := h.body
    let key := ringKey d r
    if natBits b 311 128 ≠ 0 || natBits b 63 0 ≠ 0 then s.cmdDone key secBadCommand
    else if !h.ctl then s.cmdDone key secNotControl
    else if !(s.lc == lcMaker || s.lc == lcOwned) || h.locked then s.cmdDone key secBadState
    else s.program key { s.fuses with safe := s.fuses.safe ||| natBits b 127 64 }

/-- What fuses hold when programming from `o` to `n` did not verify: each bit that was to rise has risen or not, as free values say. -/
def Fuses.partly (o n : Fuses) (v : Nat → Nat) : Fuses :=
  let part := fun (a b k : Nat) => a ||| (b &&& v k)
  let bytes := fun (a b : List Byte) (k : Nat) => orBytes a (b.zipIdx.map fun x => x.1 &&& BitVec.ofNat 8 (v k / 256 ^ x.2))
  { o with
    uds := bytes o.uds n.uds 0
    dsn := part o.dsn n.dsn 1
    lc0 := part o.lc0 n.lc0 2
    lc1 := part o.lc1 n.lc1 3
    lc2 := part o.lc2 n.lc2 4
    mrev := part o.mrev n.mrev 5
    oset := part o.oset n.oset 6
    orev := part o.orev n.orev 7
    safe := part o.safe n.safe 8
    okey := (List.range 8).foldl (fun m i => Tab.set [] m i (bytes (Tab.get [] o.okey i) (Tab.get [] n.okey i) (9 + i))) o.okey }

/-- FUSE_PROGRAMMING_COMPLETE: the fuses verify, or FUSE_FAIL; PEND shows the state that takes effect next (R417, R420). A request for a
reset that the FORGE limit called for meanwhile goes out now (R425). -/
def execFuseProgrammingComplete (ok : Bool) (s : State) : Out :=
  match s.sec.fuseJob with
  | none => .next s
  | some j =>
    let f := if ok then j.f else s.fuses.partly j.f fun k => Config.freeValue (s.freeCtr + k)
    let s := { s with
      freeCtr := if ok then s.freeCtr else s.freeCtr + 17
      fuses := f
      sec := { s.sec with fuseJob := none, pend := f.lcNow } }
    .next (s.cmdDone j.ring (if ok then secOk else secFuseFail)).forgeAsk

/-! ### Keys of plant I/O units (R413, R414) -/

/-- Whether an unwrapped object is well formed and suits a unit, channel and direction. -/
def keyObjOk (unit sc : Nat) (tx : Bool) (o : List Byte) : Bool :=
  let c := fieldAt o 32 1
  o.length == 80 && decide (c ≤ 5) && fieldAt o 33 3 == 0 && fieldAt o 68 12 == 0
  && (c == 1 || c == 3 || fieldAt o 16 16 == 0)
  && (if unit < 4 then decide (c ≤ 3) && (!tx || sc == 0) else decide (4 ≤ c))

/-- Delete the key at a unit's SC, AN and direction. -/
def State.keyDelete (s : State) (unit sc an : Nat) (tx : Bool) : State :=
  { s with sec := { s.sec with keys := s.sec.keys.filter fun k => !(k.unit == unit && k.sc == sc && k.an == an && k.tx == tx) } }

/-- Install a key: it replaces the one at its place, and its packet or freshness value begins anew (R414). -/
def State.keyInstall (s : State) (unit sc an : Nat) (tx : Bool) (o : List Byte) : State :=
  let s := s.keyDelete unit sc an tx
  let s := { s with sec := { s.sec with keys := s.sec.keys ++ [⟨unit, sc, an, tx, o, fieldAt o 52 8⟩] } }
  if tx && decide (unit < 4) then s.updMac unit fun x => { x with txBlocked := false } else s

/-- KEY_INSTALL (R413 to R416). -/
def execKeyInstall (d r : Nat) (obj : HostRead) (s : State) : Out :=
  secRow d r 4 s fun h s =>
    let b := h.body
    let key := ringKey d r
    let unit := natBits b 311 300
    let sc := natBits b 299 297
    let an := natBits b 296 295
    let tx := natBit b 294
    let fn := (s.ring d r).fn
    if natBits b 293 288 ≠ 0 || natBits b 271 128 ≠ 0 || natBits b 127 96 ≠ 0 || !(secLen b == 88 || secLen b == 0) then
      s.cmdDone key secBadCommand
    else if 11 < unit || !s.var.acts || s.pioDom unit ≠ some d then s.cmdDone key secNotDomain
    else match s.sec.sessions.find? (fun x => x.fn == fn && x.sid == natBits b 95 64) with
      | none => s.cmdDone key secNoSession
      | some ses =>
        if secLen b = 0 then (s.keyDelete unit sc an tx).cmdDone key secOk
        else
          let s := s.sendRead fn (natBits b 63 0) 88
          match s.answered fn (natBits b 63 0) 88 obj with
          | .data bs =>
            let bad := ({ s with sec := { s.sec with unwrapf := satAdd 16 s.sec.unwrapf 1 } }).cmdDone key secUnwrap
            (match Config.aesUnwrap (Config.kdf ses.secret (ascii "KT") 32) (cut bs 0 88) with
            | none => bad
            | some o => if keyObjOk unit sc tx o then (s.keyInstall unit sc an tx o).cmdDone key secOk else bad)
          | _ => s.cmdDone key secHostRead

/-! ### Reads of host memory that time out (R377, R278) -/

/-- The read of host memory for a command of a ring in progress fails: a LOAD's pages, a job image, a token or key object. -/
def State.copyTimeout (s : State) (d r : Nat) : Out :=
  match (s.ring d r).cur with
  | none => .next s
  | some h =>
    match h.st with
    | .busy x =>
      if h.cls = 3 && h.op = 1 then execKnlLoadCopyComplete d ⟨r, []⟩ .cto s
      else if h.cls = 2 && h.op = 0x10 && !(s.job x).verified then execJobLoadComplete x .cto s
      else .next s
    | .fresh =>
      if h.cls = 5 && h.op = 2 then tokenRow ruleSeal d r .cto s fun _ s => s
      else if h.cls = 5 && h.op = 4 && secLen h.body ≠ 0 then execKeyInstall d r .cto s
      else .next s
    | _ => .next s

/-- PCIE_COMPLETION_TIMEOUT: the read of a ring, a channel or a command gets no completion (R278, R377). -/
def execPcieCompletionTimeout (who : CtoWho) (s : State) : Out :=
  match who with
  | .ring d r => execSqDescriptorReturn d r .cto s
  | .chan n =>
    if 128 ≤ n then .fault .noSuchUnit
    else
      let h := s.chan n
      if h.st = .fetch then (if (spaceFn h.space).isSome then execYrdDescriptorFetch n .cto s else .next s)
      else if h.burst.any fun b => b.granted.isSome && (spaceFn b.sspace).isSome then execYrdBurstComplete n .cto s
      else .next s
  | .copy d r => if hasRing d r then s.copyTimeout d r else .fault .noSuchUnit

end Sys2Proof.Machine
end

