-- ==== Sys2Proof/Machine/SeqHf.lean ====
section
/-!
DEFINITION. The Sequencer's HF24 instructions (R43 to R46, R60, R89, R255).
-/

namespace Sys2Proof.Machine

/-- The HF24 bits of a register: bits 31 to 24 and the upper half are ignored (R43, R498). -/
def hfBits (w : Word) : Nat := w.toNat % 0x1000000

/-- The rounding mode of an instruction; decode has refused the reserved ones. -/
def rndOf (n : Nat) : Rnd := (Rnd.ofField n).getD .rne

/-- A two-operand HF24 operation (R89). -/
def hfOp (c k opc : Nat) (f : SFields) (cyc : Nat) (op : Rnd → Nat → Nat → Nat × List Nat) (s : State) : Out :=
  issueShort c k opc f false ([f.ra.toNat] ++ if f.i then [] else [f.rb.toNat]) [f.rd.toNat]
    (fun s =>
      let r := op (rndOf f.rnd.toNat) (hfBits (srcA (s.slot c k) f)) (hfBits (srcB (s.slot c k) f))
      some { s := s.setReg c k f.rd.toNat (BitVec.ofNat 64 r.1), cycles := cyc, flags := r.2 }) s

/-- HADD (R45, R89). -/
def execHadd (c k : Nat) (f : SFields) (s : State) : Out := hfOp c k 0x18 f 3 hfAdd s
/-- HSUB (R45, R89). -/
def execHsub (c k : Nat) (f : SFields) (s : State) : Out := hfOp c k 0x19 f 3 hfSub s
/-- HMUL (R45, R89). -/
def execHmul (c k : Nat) (f : SFields) (s : State) : Out := hfOp c k 0x1A f 3 hfMul s
/-- HDIV (R45, R89). -/
def execHdiv (c k : Nat) (f : SFields) (s : State) : Out := hfOp c k 0x1B f 8 hfDiv s

/-- HSQRT of RA (R45, R89). -/
def execHsqrt (c k : Nat) (f : SFields) (s : State) : Out :=
  issueShort c k 0x1C f false [f.ra.toNat] [f.rd.toNat]
    (fun s =>
      let r := hfSqrt (rndOf f.rnd.toNat) (hfBits (srcA (s.slot c k) f))
      some { s := s.setReg c k f.rd.toNat (BitVec.ofNat 64 r.1), cycles := 10, flags := r.2 }) s

/-- HCMP compares RA with RB and writes CY (R46, R255). -/
def execHcmp (c k : Nat) (f : SFields) (s : State) : Out :=
  issueShort c k 0x1D f (f.i || decide (5 < f.imm.toNat)) [f.ra.toNat, f.rb.toNat] []
    (fun s => some { s := s.setCy c k (hfCmp f.imm.toNat (hfBits ((s.slot c k).reg f.ra.toNat))
      (hfBits ((s.slot c k).reg f.rb.toNat))) }) s

/-- The fraction length of a conversion (R255). -/
def cvtFrac (f : SFields) : Nat := f.imm.toNat % 64

/-- HCVTI: an integer or HQ value to HF24 (R60, R255). -/
def execHcvti (c k : Nat) (f : SFields) (s : State) : Out :=
  issueShort c k 0x1E f (decide (62 < cvtFrac f)) [f.ra.toNat] [f.rd.toNat]
    (fun s =>
      let r := hfRound (rndOf f.rnd.toNat) ⟨(srcA (s.slot c k) f).toInt, -(cvtFrac f : Int)⟩
      some { s := s.setReg c k f.rd.toNat (BitVec.ofNat 64 r.1), cycles := 3, flags := r.2 }) s

/-- HCVTF: HF24 to a 64-bit integer or HQ value (R60, R255). -/
def execHcvtf (c k : Nat) (f : SFields) (s : State) : Out :=
  issueShort c k 0x1F f (decide (62 < cvtFrac f)) [f.ra.toNat] [f.rd.toNat]
    (fun s =>
      let r := storeScalar fmtHQ64 (cvtFrac f) (rndOf f.rnd.toNat) (XV.ofHV (hfVal (hfBits (srcA (s.slot c k) f))))
      some { s := s.setReg c k f.rd.toNat r.1, cycles := 3, flags := r.2 }) s

end Sys2Proof.Machine
end

