-- ==== Sys2Proof/Machine/SeqInt.lean ====
section
/-!
DEFINITION. The Sequencer's integer instructions, branches and CORENUM (R86 to R88, R255).
-/

namespace Sys2Proof.Machine

/-- An operation RD from RA and the second source that leaves CY unchanged (R86). -/
def aluOp (c k opc : Nat) (f : SFields) (op : Word → Word → Word) (s : State) : Out :=
  issueShort c k opc f false ([f.ra.toNat] ++ if f.i then [] else [f.rb.toNat]) [f.rd.toNat]
    (fun s => some { s := s.setReg c k f.rd.toNat (op (srcA (s.slot c k) f) (srcB (s.slot c k) f)) }) s

/-- An operation that also writes CY (R86). -/
def carryOp (c k opc : Nat) (f : SFields) (op : Word → Word → Bool → Word × Bool) (s : State) : Out :=
  issueShort c k opc f false ([f.ra.toNat] ++ if f.i then [] else [f.rb.toNat]) [f.rd.toNat]
    (fun s =>
      let r := op (srcA (s.slot c k) f) (srcB (s.slot c k) f) (s.slot c k).cy
      some { s := (s.setReg c k f.rd.toNat r.1).setCy c k r.2 }) s

/-- An operation on a register pair (R86, R87, R88): low or quotient in RD, high or remainder in RD + 1, and its cycles. -/
def pairOp (c k opc : Nat) (f : SFields) (op : Word → Word → Word × Word) (cyc : Word → Word → Nat) (s : State) : Out :=
  issueShort c k opc f (f.rd.toNat % 2 ≠ 0) ([f.ra.toNat] ++ if f.i then [] else [f.rb.toNat])
    [f.rd.toNat, f.rd.toNat + 1]
    (fun s =>
      let a := srcA (s.slot c k) f
      let b := srcB (s.slot c k) f
      let r := op a b
      some { s := (s.setReg c k f.rd.toNat r.1).setReg c k (f.rd.toNat + 1) r.2, cycles := cyc a b }) s

/-- Magnitude of a signed 64-bit value; that of -2^63 has 64 bits (R87). -/
def sMag (w : Word) : Nat := w.toInt.natAbs

/-- Cycles of a multiply by its multiplier's magnitude (R87). -/
def mulCycles (m : Nat) : Nat := 2 + (max 1 (bits m) + 7) / 8

/-- Leading zeros of a 64-bit magnitude (R88). -/
def lz (m : Nat) : Nat := 64 - bits m

/-- Cycles of a divide by its magnitudes (R88). -/
def divCycles (a b : Nat) : Nat := 4 + (lz b - lz a + 1 + 3) / 4

/-- The two halves of a 128-bit product. -/
def halves (x : Nat) : Word × Word := (BitVec.ofNat 64 x, BitVec.ofNat 64 (x / 2 ^ 64))

/-- Quotient and remainder of DIVU (R88). -/
def divuOp (a b : Word) : Word × Word := if b = 0 then (BitVec.allOnes 64, a) else (a / b, a % b)

/-- Quotient and remainder of DIVS (R88): truncated toward zero, the remainder with the sign of the dividend. -/
def divsOp (a b : Word) : Word × Word :=
  if b = 0 then (BitVec.allOnes 64, a)
  else (BitVec.ofInt 64 (Int.tdiv a.toInt b.toInt), BitVec.ofInt 64 (Int.tmod a.toInt b.toInt))

/-- A Boolean as the value 1 or 0. -/
def ofBool (b : Bool) : Word := if b then 1 else 0

/-- NOP (R255). -/
def execNop (c k : Nat) (f : SFields) (s : State) : Out :=
  issueShort c k 0x00 f false [] [] (fun s => some { s := s }) s

/-- ADD (R86). -/
def execAdd (c k : Nat) (f : SFields) (s : State) : Out := aluOp c k 0x01 f (fun a b => a + b) s
/-- SUB (R86). -/
def execSub (c k : Nat) (f : SFields) (s : State) : Out := aluOp c k 0x02 f (fun a b => a - b) s
/-- ADDC (R86). -/
def execAddc (c k : Nat) (f : SFields) (s : State) : Out :=
  carryOp c k 0x03 f (fun a b cy =>
    (BitVec.ofNat 64 (a.toNat + b.toNat + bit cy), decide (2 ^ 64 ≤ a.toNat + b.toNat + bit cy))) s
/-- SUBB (R86). -/
def execSubb (c k : Nat) (f : SFields) (s : State) : Out :=
  carryOp c k 0x04 f (fun a b cy => (a - b - ofBool cy, decide (a.toNat < b.toNat + bit cy))) s
/-- SETCY (R86). -/
def execSetcy (c k : Nat) (f : SFields) (s : State) : Out :=
  issueShort c k 0x05 f false [] [] (fun s => some { s := s.setCy c k true }) s
/-- CLRCY (R86). -/
def execClrcy (c k : Nat) (f : SFields) (s : State) : Out :=
  issueShort c k 0x06 f false [] [] (fun s => some { s := s.setCy c k false }) s
/-- AND (R86). -/
def execAnd (c k : Nat) (f : SFields) (s : State) : Out := aluOp c k 0x07 f (fun a b => a &&& b) s
/-- OR (R86). -/
def execOr (c k : Nat) (f : SFields) (s : State) : Out := aluOp c k 0x08 f (fun a b => a ||| b) s
/-- XOR (R86). -/
def execXor (c k : Nat) (f : SFields) (s : State) : Out := aluOp c k 0x09 f (fun a b => a ^^^ b) s
/-- SHL, by the count modulo 64 (R86). -/
def execShl (c k : Nat) (f : SFields) (s : State) : Out := aluOp c k 0x0A f (fun a b => a <<< (b.toNat % 64)) s
/-- SHR, by the count modulo 64 (R86). -/
def execShr (c k : Nat) (f : SFields) (s : State) : Out := aluOp c k 0x0B f (fun a b => a >>> (b.toNat % 64)) s
/-- SAR copies bit 63 (R86). -/
def execSar (c k : Nat) (f : SFields) (s : State) : Out := aluOp c k 0x0C f (fun a b => a.sshiftRight (b.toNat % 64)) s
/-- CMPLT, signed (R86). -/
def execCmplt (c k : Nat) (f : SFields) (s : State) : Out := aluOp c k 0x0D f (fun a b => ofBool (a.slt b)) s
/-- CMPLTU (R86). -/
def execCmpltu (c k : Nat) (f : SFields) (s : State) : Out := aluOp c k 0x0E f (fun a b => ofBool (a.ult b)) s
/-- CMPEQ (R86). -/
def execCmpeq (c k : Nat) (f : SFields) (s : State) : Out := aluOp c k 0x0F f (fun a b => ofBool (a == b)) s
/-- MULU (R86, R87). -/
def execMulu (c k : Nat) (f : SFields) (s : State) : Out :=
  pairOp c k 0x10 f (fun a b => halves (a.toNat * b.toNat)) (fun _ b => mulCycles b.toNat) s
/-- MULS (R86, R87). -/
def execMuls (c k : Nat) (f : SFields) (s : State) : Out :=
  pairOp c k 0x11 f (fun a b => halves (wrapN 128 (a.toInt * b.toInt))) (fun _ b => mulCycles (sMag b)) s
/-- DIVU (R86, R88). -/
def execDivu (c k : Nat) (f : SFields) (s : State) : Out :=
  pairOp c k 0x12 f divuOp (fun a b => divCycles a.toNat b.toNat) s
/-- DIVS (R86, R88). -/
def execDivs (c k : Nat) (f : SFields) (s : State) : Out :=
  pairOp c k 0x13 f divsOp (fun a b => divCycles (sMag a) (sMag b)) s
/-- LI (R255). -/
def execLi (c k : Nat) (f : SFields) (s : State) : Out :=
  issueShort c k 0x14 f false [] [f.rd.toNat] (fun s => some { s := s.setReg c k f.rd.toNat (immExt f) }) s
/-- LIH: bits [63:32] of RD take IMM, the lower half stays (R255). -/
def execLih (c k : Nat) (f : SFields) (s : State) : Out :=
  issueShort c k 0x15 f false [f.rd.toNat] [f.rd.toNat]
    (fun s =>
      let w := BitVec.ofNat 64 (f.imm.toNat * 2 ^ 32 + ((s.slot c k).reg f.rd.toNat).toNat % 2 ^ 32)
      some { s := s.setReg c k f.rd.toNat w }) s
/-- SEL: RA if CY is 1, otherwise the second source (R255). -/
def execSel (c k : Nat) (f : SFields) (s : State) : Out :=
  issueShort c k 0x16 f false ([f.ra.toNat] ++ if f.i then [] else [f.rb.toNat]) [f.rd.toNat]
    (fun s =>
      let w := if (s.slot c k).cy then srcA (s.slot c k) f else srcB (s.slot c k) f
      some { s := s.setReg c k f.rd.toNat w }) s
/-- SWAP exchanges RA and RB; I must be 0 (R255). -/
def execSwap (c k : Nat) (f : SFields) (s : State) : Out :=
  issueShort c k 0x17 f f.i [f.ra.toNat, f.rb.toNat] [f.ra.toNat, f.rb.toNat]
    (fun s =>
      let a := (s.slot c k).reg f.ra.toNat
      let b := (s.slot c k).reg f.rb.toNat
      some { s := (s.setReg c k f.ra.toNat b).setReg c k f.rb.toNat a }) s

/-- A branch (R255): 2 cycles and its target when taken, 1 cycle and the next instruction otherwise. The target is this
instruction plus IMM times 8 bytes, modulo 2^64. -/
def branchOp (c k opc : Nat) (f : SFields) (rd : List Nat) (taken : Slot → Bool) (s : State) : Out :=
  issueShort c k opc f false rd []
    (fun s =>
      let x := s.slot c k
      if taken x then some { s := s, cycles := 2, pc := some (wrapN 64 ((x.pc : Int) + 8 * (immExt f).toInt)) }
      else some { s := s }) s

/-- BR (R255). -/
def execBr (c k : Nat) (f : SFields) (s : State) : Out := branchOp c k 0x2C f [] (fun _ => true) s
/-- BNZ RA (R255). -/
def execBnz (c k : Nat) (f : SFields) (s : State) : Out :=
  branchOp c k 0x2D f [f.ra.toNat] (fun x => x.reg f.ra.toNat != 0) s
/-- BZ RA (R255). -/
def execBz (c k : Nat) (f : SFields) (s : State) : Out :=
  branchOp c k 0x2E f [f.ra.toNat] (fun x => x.reg f.ra.toNat == 0) s
/-- BCY (R255). -/
def execBcy (c k : Nat) (f : SFields) (s : State) : Out := branchOp c k 0x2F f [] (fun x => x.cy) s

/-- CORENUM (R255). -/
def execCorenum (c k : Nat) (f : SFields) (s : State) : Out :=
  issueShort c k 0x36 f false [] [f.rd.toNat] (fun s => some { s := s.setReg c k f.rd.toNat (BitVec.ofNat 64 c) }) s

end Sys2Proof.Machine
end

