-- ==== Sys2Proof/Machine/Regs.lean ====
section
/-!
DEFINITION. The set-up registers by device address (R5, R6, R11, R13 to R17, R361 to R363, R396): what each reads as, which function
an access from BAR0 is allowed to, and what a write does.
-/

namespace Sys2Proof.Machine

/-! ### Reads -/

/-- CAPS_ID and CAPS_UNITS (R5, R6). -/
def State.capsRead (s : State) (off : Nat) : Nat :=
  if off = 0 then fields [(48, s.var.part), (40, s.id.step), (32, s.id.tray)]
  else if off = 8 then fields [(24, s.var.channels), (16, s.var.slices), (8, s.var.stands), (1, s.var.units), (0, 1)]
  else 0

/-- The KNL block (R190, R203). -/
def State.knlRead (s : State) (off : Nat) : Nat :=
  if off = 0 then fields [(32, (s.knl.frames.filter fun p => p.2.st.isPinned).length), (16, s.kframes), (0, s.var.pinMax)]
  else if off = 8 then fields [(32, s.knl.hits), (0, s.knl.misses)]
  else if off = 0x10 then fields [(32, s.knl.victims), (0, s.knl.fillFail)]
  else if 0x100 ≤ off ∧ off < 0x180 then (Tab.get 0 s.knl.drange ((off - 0x100) / 8)).toNat
  else 0

/-- The CORE block: the conflict counters and windows of core `off / 0x1000` (R156, R163). -/
def State.coreRegs (s : State) (off : Nat) : Nat :=
  let k := s.core (off / 0x1000)
  let r := off % 0x1000
  if s.var.cores ≤ off / 0x1000 then 0
  else if r = 0x80 then fields [(32, k.narrowWait), (0, k.poolWait)]
  else if r = 0x88 then fields [(32, k.sbHold), (0, k.winRefused)]
  else if 0x100 ≤ r ∧ r < 0x140 then Tab.get 0 k.wins ((r - 0x100) / 8)
  else 0

/-- The TLY block (R232, R234). -/
def State.tlyRead (s : State) (off : Nat) : Nat :=
  if off < 0x80 then (Tab.get 0 s.tly.drange (off / 8)).toNat
  else if off = 0x80 then fields [(32, s.tly.satCnt), (0, s.tly.refused)]
  else 0

/-- SEC_LC (R424). -/
def State.lcReg (s : State) : Nat :=
  let x := s.sec
  fields [(61, x.sensed.lc), (58, x.pend), (56, x.dbg), (54, x.dbgp), (40, x.sensed.oset), (32, x.sensed.orev),
    (28, x.sensed.mrev), (16, x.sensed.svn)]
/-- SEC_SETUP (R424). -/
def State.setupReg (s : State) : Nat := fields [(63, bit s.sec.lock), (62, bit s.sec.ideA), (61, bit s.sec.ideB)]
/-- SEC_SCRUB_STAT (R180). -/
def State.scrubReg (s : State) : Nat :=
  let (b, k, t) := match s.sec.scrubBusy with
    | none => (0, 0, 0)
    | some (g, u) => (1, bit g, u)
  fields [(63, b), (61, k), (32, t), (16, s.sec.scrubQ.length), (0, s.sec.scrubFailed)]
/-- The SEC block (R180, R424). -/
def State.secRead (s : State) (off : Nat) : Nat :=
  if off = 0 then s.lcReg
  else if off = 8 then s.setupReg
  else if off = 0x10 then fields [(62, s.sec.result), (32, s.sec.fwsvn)]
  else if off = 0x18 then s.sec.sensed.dsn
  else if off = 0x20 then fields [(48, s.sec.tagfail), (32, s.sec.forge), (16, s.sec.unwrapf), (0, s.sec.spdmerr)]
  else if off = 0x40 then s.scrubReg
  else 0

/-- The registers that answer in status mode (R396). -/
def statusReg (a : Nat) : Bool := a = 0 || a = 8 || a = 0x100000 || a = 0xE00000 || a = 0xE00010 || a = 0xE00018

/-- What the 64-bit register at device address `a` holds, before any filter (R11, R361). Absent units read zero (R7), and in status
mode every register but those of R396. -/
def State.readReg (s : State) (a : Nat) : Nat :=
  if s.sec.statusMode && !statusReg a then 0
  else if a < 0x100000 then s.capsRead a
  else if a < 0x200000 then s.hifRead (a - 0x100000)
  else if a < 0x300000 then s.schedRead (a - 0x200000)
  else if a < 0x400000 then s.knlRead (a - 0x300000)
  else if a < 0x500000 then s.coreRegs (a - 0x400000)
  else if a < 0x600000 then 0
  else if a < 0x700000 then s.tlyRead (a - 0x600000)
  else if a < 0x800000 then s.yrdRead (a - 0x700000)
  else if a < 0xA00000 then s.tallyVal ((a - 0x800000) / 8)
  else if a < 0xC00000 then (if s.var.acts then s.loopRead (a - 0xA00000) else 0)
  else if a < 0xD00000 then (if s.var.acts then s.pioRead (a - 0xC00000) else 0)
  else if a < 0xE00000 then s.timeRead (a - 0xD00000)
  else if a < 0xF00000 then s.secRead (a - 0xE00000)
  else if a < 0xF10000 then s.pwrRead (a - 0xF00000)
  else if a < 0xF20000 then s.rasRead (a - 0xF10000)
  else s.twinRead (a - 0xF20000)

/-! ### The filter (R363) -/

/-- Whom a register is given to. -/
inductive RegOwner where
  | everyone
  | holder
  | domain (d : Option Nat) (holderToo : Bool)
deriving DecidableEq, Repr

/-- The domain a tally lies in (R232). -/
def State.tallyDom (s : State) (k : Nat) : Option Nat := (List.range 16).find? fun d => s.ownsTally d k

/-- The domain of a core that is assigned (R205, R450). -/
def State.coreDom (s : State) (c : Nat) : Option Nat :=
  if (s.owner c).valid && !s.ras.fence.contains c then some (s.owner c).dom else none

/-- Whom the register at an address is given to (R363). -/
def State.regOwner (s : State) (a : Nat) : RegOwner :=
  if a = 0 || a = 8 || a = 0x100000 || a = 0x100010 || a = 0x100018 then .everyone
  else if 0x100000 ≤ a ∧ a < 0x200000 then (match hifDom (a - 0x100000) with
    | some d => .domain (some d) true
    | none => .holder)
  else if 0x400000 ≤ a ∧ a < 0x500000 then
    let r := a % 0x1000
    if r = 0x80 ∨ r = 0x88 ∨ r = 0x90 ∨ (0x100 ≤ r ∧ r < 0x140) then .domain (s.coreDom ((a - 0x400000) / 0x1000)) false else .holder
  else if 0x700000 ≤ a ∧ a < 0x702000 then
    let h := s.chan ((a - 0x700000) / 0x40)
    .domain (if h.dvalid then some h.dom else none) true
  else if 0x800000 ≤ a ∧ a < 0xA00000 then .domain (s.tallyDom ((a - 0x800000) / 8)) false
  else if 0xA00000 ≤ a ∧ a < 0xB00000 then
    let x := s.loopSlot ((a - 0xA00000) / 0x100)
    .domain (if x.dvalid then some x.dom else none) true
  else if 0xC00000 ≤ a ∧ a < 0xD00000 then (match pioUnitOf (a - 0xC00000) with
    | some u => .domain (s.pioDom u) true
    | none => .holder)
  else .holder

/-- Whether a function holds set-up control. -/
def State.holds (s : State) (fn : Fn) : Bool := s.hif.holder == some fn

/-- Whether an access of a function to a register passes the filter (R363). -/
def State.allowed (s : State) (fn : Fn) (a : Nat) : Bool :=
  match s.regOwner a with
  | .everyone => true
  | .holder => s.holds fn
  | .domain none _ => s.holds fn
  | .domain (some d) ht => s.isDriver fn d || (ht && s.holds fn)

/-- The value of a register as a function reads it: its own MSI-X table and PBA, and every other register of the device (R361, R396). -/
def State.fnReg (s : State) (fn : Fn) (a : Nat) : Nat :=
  if 0x110000 ≤ a ∧ a < 0x111000 then (if s.sec.statusMode then 0 else s.msixRead fn (a - 0x110000)) else s.readReg a

/-- TIME_DT by halves (R325): a read of the lower half latches the upper one for the function's next read of that half. -/
def State.dtRead (s : State) (fn : Fn) (p : Part) : Nat × State :=
  let put := fun (l : Option Nat) => ({ s with time := (match fn with
    | .a => { s.time with latchA := l }
    | .b => { s.time with latchB := l }) } : State)
  let up := s.dt / 2 ^ 32 % 2 ^ 32
  match p with
  | .full => (s.dt % 2 ^ 64, put (some up))
  | .lo => (s.dt % 2 ^ 32, put (some up))
  | .hi => ((match fn with
      | .a => s.time.latchA
      | .b => s.time.latchB).getD up, put none)

/-- The part of a register's value that an access takes (R13). -/
def partOf (p : Part) (v : Nat) : Nat := match p with
  | .full => v % 2 ^ 64
  | .lo => v % 2 ^ 32
  | .hi => v / 2 ^ 32 % 2 ^ 32

/-- A BAR0 read by a function (R361 to R363, R412): what it returns, none for an Unsupported Request, and the state after it. -/
def State.bar0Read (s : State) (fn : Fn) (a : Nat) (p : Part) (ide : Bool) : Option Nat × State :=
  if s.ideFilters fn ide then (some 0, s.filtered)
  else if !bar0Decodes a 8 then (none, s.unsupported fn a 8 false)
  else if !(decide (0x110000 ≤ a) && decide (a < 0x111000)) && !s.allowed fn a then (some 0, s.filtered)
  else if a = 0xD00000 && !s.sec.statusMode then ((some (s.dtRead fn p).1), (s.dtRead fn p).2)
  else (some (partOf p (s.fnReg fn a)), s)

/-- A read by a host (R358, R361 to R363, R369): what it returns, and the state after it. -/
def State.hostRd (s : State) (fn : Fn) (ide : Bool) : HostRd → Option Nat × State
  | .bar0 a p => s.bar0Read fn a p ide
  | .bar2 _ => (some 0, if s.ideFilters fn ide then s.filtered else s)
  | .cfg r => (some (s.capRead fn r), s)

/-! ### Writes -/

/-- A write of HIF_RST (R389). -/
def State.rstWrite (s : State) (fn : Fn) (k v : Nat) : State :=
  if !natBit k 0 then s
  else if !(s.holds fn || s.hif.rstany || s.hif.holder.isNone) then s.record 4 0 none skFn (fnNum fn) 0x100010 0
  else
    let key := v % 256
    let live := match s.hif.armed with
      | some (f, t) => f == fn && decide (s.dt < t)
      | none => false
    if key = 0x5A && live then s.fullReset (causeFnA + fnNum fn) 0
    else if key = 0xA5 then { s with hif := { s.hif with armed := some (fn, s.dt + 1000000) } }
    else { s with hif := { s.hif with armed := none } }

/-- A write of KNL_DRANGEd (R190). -/
def State.knlDrangeWrite (s : State) (d k v : Nat) : State :=
  let w := regMerge (Tab.get 0 s.knl.drange d) k (rwMask [(61, 48), (44, 24), (19, 0)]) v
  if s.sec.lock then s
  else if 1048576 < natBits w.toNat 44 24 then s.record 4 0 (some d) skKnl 0 (0x300100 + 8 * d) 0
  else { s with knl := { s.knl with drange := Tab.set 0 s.knl.drange d w } }

/-- KNL_CTL.CLR (R203). -/
def State.knlClr (s : State) : State := { s with knl := { s.knl with hits := 0, misses := 0, victims := 0, fillFail := 0 } }

/-- A write to the KNL block. -/
def State.knlWrite (s : State) (off k v : Nat) : State :=
  if off = 0x18 then (if writes1 k v 0 then s.knlClr else s)
  else if 0x100 ≤ off ∧ off < 0x180 then s.knlDrangeWrite ((off - 0x100) / 8) k v
  else s

/-- CORE_CONF_CTL.CLR of a core (R156). -/
def State.confClr (s : State) (c : Nat) : State :=
  s.updCore c fun x => { x with narrowWait := 0, poolWait := 0, sbHold := 0, winRefused := 0 }

/-- A write to the CORE block. -/
def State.coreRegWrite (s : State) (off k v : Nat) : State :=
  if off / 0x1000 < s.var.cores && off % 0x1000 = 0x90 && writes1 k v 0 then s.confClr (off / 0x1000) else s

/-- Two half-open ranges of tallies that both hold one (R232). -/
def rangesMeet (a b : Nat) : Bool :=
  let lo := max (natBits a 17 0) (natBits b 17 0)
  decide (lo < min (natBits a 50 32) (natBits b 50 32))

/-- A write of TLY_DRANGEd: tallies whose owner changes take the value 0 (R232). The record of an ignored one names the tally of the
written BASE (R444, log entry 238). -/
def State.tlyDrangeWrite (s : State) (d k v : Nat) : State :=
  let w := regMerge (Tab.get 0 s.tly.drange d) k (rwMask [(50, 32), (17, 0)]) v
  let meets := (List.range 16).any fun e => e ≠ d && rangesMeet w.toNat (Tab.get 0 s.tly.drange e).toNat
  if s.sec.lock then s
  else if tallies < natBits w.toNat 50 32 || meets then
    s.record 4 0 (some d) skTally 0 (tallyAddr (natBits w.toNat 17 0)) (natBits w.toNat 17 0)
  else
    let t := { s with tly := { s.tly with drange := Tab.set 0 s.tly.drange d w } }
    { t with tly := { t.tly with val := t.tly.val.filter fun p => s.tallyDom p.1 = t.tallyDom p.1 } }

/-- A write of SEC_SETUP (R17, R412, R424): a function that comes to require IDE with no Secure stream falls silent. -/
def State.setupWrite (s : State) (k v : Nat) : State :=
  if s.sec.lock then s
  else
    let w := (regMerge (BitVec.ofNat 64 s.setupReg) k (maskBits 63 61) v).toNat
    let blockedA := s.ideBlocks .a
    let blockedB := s.ideBlocks .b
    let s := { s with sec := { s.sec with lock := natBit w 63, ideA := natBit w 62, ideB := natBit w 61 } }
    let s := if !blockedA && s.ideBlocks .a then s.fnSilent .a else s
    if !blockedB && s.ideBlocks .b then s.fnSilent .b else s

/-- What a write to a register does once it has passed the filter: `k` are the bits it carries. -/
def State.writeReg (s : State) (fn : Fn) (a k v : Nat) : State :=
  if s.sec.statusMode && !statusReg a then s
  else if a < 0x100000 then s
  else if a < 0x200000 then (if a = 0x100010 then s.rstWrite fn k v else s.hifWrite fn (a - 0x100000) k v)
  else if a < 0x300000 then (if a = 0x203100 && writes1 k v 0 then s.schedClr else s)
  else if a < 0x400000 then s.knlWrite (a - 0x300000) k v
  else if a < 0x500000 then s.coreRegWrite (a - 0x400000) k v
  else if a < 0x600000 then s
  else if a < 0x700000 then (if a < 0x600080 then s.tlyDrangeWrite ((a - 0x600000) / 8) k v else s)
  else if a < 0x800000 then s.yrdWrite (s.holds fn) (a - 0x700000) k v
  else if a < 0xA00000 then s
  else if a < 0xC00000 then (if s.var.acts then s.loopWrite (s.holds fn) (a - 0xA00000) k v else s)
  else if a < 0xD00000 then (if s.var.acts then s.pioWrite (s.holds fn) (a - 0xC00000) k v else s)
  else if a < 0xE00000 then s.timeWrite (a - 0xD00000) k v
  else if a < 0xF00000 then (if a = 0xE00008 then s.setupWrite k v else s)
  else if a < 0xF10000 then s.pwrWrite (a - 0xF00000) k v
  else if a < 0xF20000 then s
  else s.twinWrite (a - 0xF20000) k v

/-- A BAR0 write of a function to the register at `a`, whole or one half (R13, R361 to R363, R412, R469); `ide` tells that it arrives in
a stream of the function. -/
def State.regWriteIn (s : State) (fn : Fn) (ide : Bool) (a : Nat) (p : Part) (v : Word) : State :=
  if !s.fnAnswers fn then s
  else if s.ideFilters fn ide then s.filtered
  else if !bar0Decodes a 8 then s.unsupported fn a 8 true
  else if 0x110000 ≤ a ∧ a < 0x111000 then (if s.sec.statusMode then s else s.msixWrite fn (a - 0x110000) (partMask p) v.toNat)
  else if !s.allowed fn a then s.filtered
  else s.writeReg fn a (partMask p) v.toNat

/-- A BAR0 write that arrives in a stream of its function, where it has one. -/
def State.regWrite (s : State) (fn : Fn) (a : Nat) (p : Part) (v : Word) : State := s.regWriteIn fn true a p v

end Sys2Proof.Machine
end

