-- ==== Sys2Proof/Machine/SetupRows.lean ====
section
/-!
DEFINITION. The rows of the table that are host writes to a set-up register, each at its register's address: every one passes BAR0, the
filter of R363 and the register's own rules. A read of TIME_DT stands here too.
-/

namespace Sys2Proof.Machine

/-- A write of a named register by a row of the table: `ok` tells that the unit it names exists in some variant. -/
def regRow (ok : Bool) (fn : Fn) (a : Nat) (p : Part) (v : Word) (s : State) : Out :=
  if ok then .next (s.regWrite fn a p v) else .fault .noSuchUnit

/-- REGISTER_WRITE: any other write of a register (R13 to R17, R363); the table's one row for it carries the writes of configuration space
too, of the lower 32 bits of the value (R358, R359; log entry 207). -/
def execRegisterWrite (fn : Fn) (addr : HostWr) (p : Part) (v : Word) (ide : Bool) (s : State) : Out :=
  match addr with
  | .bar0 a => .next (s.regWriteIn fn ide a p v)
  | .cfg r => .next (s.cfgWrite fn r (v.toNat % 2 ^ 32))

/-- MSIX_VECTOR_UNMASK: the vector control of a vector is written with its mask bit 0; a pending message is sent (R359, R361, R382). -/
def execMsixVectorUnmask (fn : Fn) (vec : Nat) (s : State) : Out :=
  regRow (decide (vec < 64)) fn (0x110008 + 16 * vec) .hi 0 s

/-! ### HIF (R364, R365, R374, R377, R383, R389) -/

def execSqEnable (fn : Fn) (d r : Nat) (p : Part) (v : Word) (s : State) : Out :=
  regRow (hasRing d r) fn (0x102000 + 0x200 * d + 0x20 * r) p v s
def execSqDisable (fn : Fn) (d r : Nat) (p : Part) (v : Word) (s : State) : Out :=
  regRow (hasRing d r) fn (0x102000 + 0x200 * d + 0x20 * r) p v s
def execEqEnable (fn : Fn) (d q : Nat) (p : Part) (v : Word) (s : State) : Out :=
  regRow (decide (d < 16) && decide (q < 4)) fn (0x106000 + 0x100 * d + 0x20 * q) p v s
/-- HIF_CLAIM: a write of CLAIM to HIF_CTL. -/
def execHifClaim (fn : Fn) (s : State) : Out := regRow true fn 0x100000 .full 1 s
/-- HIF_RELEASE: a write of RELEASE. -/
def execHifRelease (fn : Fn) (s : State) : Out := regRow true fn 0x100000 .full 2 s
/-- HIF_TAKE: a write of TAKE. -/
def execHifTake (fn : Fn) (s : State) : Out := regRow true fn 0x100000 .full 4 s
def execHifFndomWrite (fn : Fn) (p : Part) (v : Word) (s : State) : Out := regRow true fn 0x100008 p v s
/-- HIF_RST_ARM: a write of 0xA5 to HIF_RST. -/
def execHifRstArm (fn : Fn) (s : State) : Out := regRow true fn 0x100010 .full 0xA5 s
/-- HIF_RST_START: a write of 0x5A to HIF_RST. -/
def execHifRstStart (fn : Fn) (s : State) : Out := regRow true fn 0x100010 .full 0x5A s
/-- HIF_RST_ARM_EXPIRY: the 1 ms of an armed request ends. -/
def execHifRstArmExpiry (s : State) : Out :=
  match s.hif.armed with
  | some (_, t) => if t ≤ s.dt then .next { s with hif := { s.hif with armed := none } } else .next s
  | none => .next s

/-! ### Yarder (R275 to R277, R281, R283) -/

def chanCtl (n : Nat) : Nat := 0x700018 + 0x40 * n
/-- YRD_ENABLE: EN 1 is written to CHCTL. -/
def execYrdEnable (fn : Fn) (n : Nat) (s : State) : Out := regRow (decide (n < 128)) fn (chanCtl n) .full 1 s
/-- YRD_DISABLE: EN 0. -/
def execYrdDisable (fn : Fn) (n : Nat) (s : State) : Out := regRow (decide (n < 128)) fn (chanCtl n) .full 0 s
/-- YRD_DOORBELL: EN 1 with GO. -/
def execYrdDoorbell (fn : Fn) (n : Nat) (s : State) : Out := regRow (decide (n < 128)) fn (chanCtl n) .full 3 s
/-- YRD_ABORT: EN 1 with ABORT. -/
def execYrdAbort (fn : Fn) (n : Nat) (s : State) : Out := regRow (decide (n < 128)) fn (chanCtl n) .full 5 s
def execYrdCtlClr (fn : Fn) (s : State) : Out := regRow true fn 0x704008 .full 1 s

/-! ### Loop engine (R310 to R312, R316, R318) -/

def execLoopDvalidSet (fn : Fn) (slot : Nat) (p : Part) (v : Word) (s : State) : Out :=
  regRow (decide (slot < 4096)) fn (0xA00000 + 0x100 * slot) p v s
def execLoopDvalidClear (fn : Fn) (slot : Nat) (p : Part) (v : Word) (s : State) : Out :=
  regRow (decide (slot < 4096)) fn (0xA00000 + 0x100 * slot) p v s
def execLoopBaseWrite (fn : Fn) (p : Part) (v : Word) (s : State) : Out := regRow true fn 0xB00000 p v s
def execLoopCtlClr (fn : Fn) (s : State) : Out := regRow true fn 0xB00010 .full 1 s

/-! ### Plant I/O (R320, R337, R340, R347, R349, R350) -/

def execCanRecover (fn : Fn) (n : Nat) (s : State) : Out := regRow (decide (n < 8)) fn (0xC30008 + 0x100 * n) .full 1 s
def execRingEnable (fn : Fn) (n : Nat) (p : Part) (v : Word) (s : State) : Out :=
  regRow (decide (n < 64)) fn (0xC20000 + 0x20 * n) p v s
def execCaptureEnable (fn : Fn) (n : Nat) (p : Part) (v : Word) (s : State) : Out :=
  regRow (decide (n < 16)) fn (0xC50000 + 0x20 * n) p v s
/-- OVERSPEED_CLEAR: a 1 is written to the W1C bit; when the hardware sets it in the same cycle it ends as 1 (R16, R349). -/
def execOverspeedClear (fn : Fn) (n : Nat) (samecycle : Bool) (s : State) : Out :=
  if !(decide (n < 16)) then .fault .noSuchUnit
  else
    let t := s.regWrite fn (0xC50010 + 0x20 * n) .full (BitVec.ofNat 64 (2 ^ 63))
    .next (if samecycle && (s.cap n).ovs && !(t.cap n).ovs then s.ovsClear n true else t)
def execDinEnable (fn : Fn) (i : Nat) (p : Part) (v : Word) (s : State) : Out :=
  regRow (decide (i < 32)) fn (0xC60000 + 0x10 * i) p v s
def execPioOwnWrite (fn : Fn) (u : Nat) (p : Part) (v : Word) (s : State) : Out :=
  regRow (decide (u < 764)) fn (0xC00000 + 8 * u) p v s

/-! ### Timebase (R322, R325 to R327) -/

def execDiscEnable (fn : Fn) (p : Part) (v : Word) (s : State) : Out := regRow true fn 0xD00018 p v s
def execDiscDisable (fn : Fn) (p : Part) (v : Word) (s : State) : Out := regRow true fn 0xD00018 p v s
def execTimeEpochWrite (fn : Fn) (p : Part) (v : Word) (s : State) : Out := regRow true fn 0xD00008 p v s
/-- TIME_FREQ_WRITE: a write of TIME_FREQ[31:0]. -/
def execTimeFreqWrite (fn : Fn) (v : BitVec 32) (s : State) : Out :=
  regRow true fn 0xD00010 .lo (BitVec.ofNat 64 v.toNat) s
/-- TIME_DT_LOW_READ: a read by a host (R325, R361 to R363, R369). The table's one row for a read stands for the read of TIME_DT[31:0],
which latches [63:32] for the same initiator, and carries every other read too (log entry 111). -/
def execTimeDtLowRead (fn : Fn) (rd : HostRd) (ide : Bool) (s : State) : Out :=
  let answers := match rd with
    | .cfg _ => (s.fnSt fn).ready && (s.fnSt fn).ls == 2
    | _ => s.fnAnswers fn
  if !answers then .next s
  else
    let r := s.hostRd fn ide rd
    .next (r.2.updFn fn fun f => { f with rdata := r.1 })

/-! ### Security, tallies, Kennel, cores, scheduler, twin -/

def execSecSetupLock (fn : Fn) (p : Part) (v : Word) (s : State) : Out := regRow true fn 0xE00008 p v s
def execTlyDrangeWrite (fn : Fn) (d : Nat) (p : Part) (v : Word) (s : State) : Out :=
  regRow (decide (d < 16)) fn (0x600000 + 8 * d) p v s
def execKnlDrangeWrite (fn : Fn) (d : Nat) (p : Part) (v : Word) (s : State) : Out :=
  regRow (decide (d < 16)) fn (0x300100 + 8 * d) p v s
def execCoreConfClr (fn : Fn) (c : Nat) (s : State) : Out := regRow (decide (c < 256)) fn (0x400090 + 0x1000 * c) .full 1 s
def execKnlCtlClr (fn : Fn) (s : State) : Out := regRow true fn 0x300018 .full 1 s
def execSchedCtlClr (fn : Fn) (s : State) : Out := regRow true fn 0x203100 .full 1 s
def execTwinCfgWrite (fn : Fn) (p : Part) (v : Word) (s : State) : Out := regRow true fn 0xF20000 p v s
/-- TWIN_CLAIM, TWIN_RELEASE, TWIN_STANDBY and TWIN_HANDOVER: the command bits of TWIN_CTL (R457, R459). -/
def execTwinClaim (fn : Fn) (s : State) : Out := regRow true fn 0xF20008 .full 1 s
def execTwinRelease (fn : Fn) (s : State) : Out := regRow true fn 0xF20008 .full 2 s
def execTwinStandby (fn : Fn) (s : State) : Out := regRow true fn 0xF20008 .full 4 s
def execTwinHandover (fn : Fn) (s : State) : Out := regRow true fn 0xF20008 .full 8 s

end Sys2Proof.Machine
end

