-- ==== Sys2Proof/Machine/Spdm.lean ====
section
/-!
DEFINITION. Attestation by SPDM, key management of IDE streams, and debug access (R406 to R412, R421).
-/

namespace Sys2Proof.Machine

/-! ### Responses (R406) -/

/-- Whether a function's responder takes requests: configuration requests reach it through its tunnel (R406, R469). -/
def State.spdmUp (s : State) (fn : Fn) : Bool := (s.fnSt fn).ready && (s.fnSt fn).ls == 2

/-- A row that is an SPDM request to a function. -/
def spdmRow (fn : Fn) (s : State) (f : State → State) : Out := if s.spdmUp fn then .next (f s) else .next s

/-- Response codes of DSP0274, and of the vendor-defined response that carries IDE_KM. -/
def spdmDigests : Nat := 0x01
def spdmCertificate : Nat := 0x02
def spdmChallengeAuth : Nat := 0x03
def spdmMeasurements : Nat := 0x60
def spdmKeyExchangeRsp : Nat := 0x64
def spdmHeartbeatAck : Nat := 0x68
def spdmKeyUpdateAck : Nat := 0x69
def spdmEndSessionAck : Nat := 0x6C
def spdmVendor : Nat := 0x7E
def spdmError : Nat := 0x7F

/-- A response without a signature. -/
def State.answer (s : State) (fn : Fn) (code : Nat) (body : List Byte) : State :=
  { s with sec := { s.sec with answers := s.sec.answers ++ [⟨fn, code, body, []⟩] } }

/-- A response signed with the Alias key over what DSP0274 has it sign. -/
def State.answerSigned (s : State) (fn : Fn) (code : Nat) (chal body : List Byte) : State :=
  let sig := Config.ed448Sign s.sec.aliasSeed (Config.spdmToSign code chal body)
  { s with sec := { s.sec with answers := s.sec.answers ++ [⟨fn, code, body, sig⟩] } }

/-- An ERROR response, counted in SPDMERR (R424). -/
def State.spdmRefuse (s : State) (fn : Fn) : State :=
  let s := s.answer fn spdmError []
  { s with sec := { s.sec with spdmerr := satAdd 16 s.sec.spdmerr 1 } }

/-! ### Certificates and measurements (R407 to R410) -/

/-- The chain of slot 0, where it is provisioned (R406, R407). -/
def State.chain (s : State) : Option (List Byte) :=
  if s.lc = lcBlank || s.sec.statusMode then none
  else (Config.flashChain s.sec.sensed.dsn (s.lc == lcReturn)).map fun c =>
    c ++ Config.aliasCert s.sec.idSeed (Config.ed448Public s.sec.aliasSeed) Config.romDigest s.sec.m2 s.sec.m3 s.m5 s.sec.fwsvn

/-- `n` registers from address `a`, each `step` bytes after the one before, with only the bits of a mask, as little-endian words. -/
def State.regWords (s : State) (a step n mask : Nat) : List Byte :=
  (List.range n).flatMap fun i => toLE 8 (s.readReg (a + step * i) &&& mask)

/-- The set-up record (R409). -/
def State.setupRecord (s : State) : List Byte :=
  let all := maskBits 63 0
  s.regWords 0x100008 8 1 all ++ s.regWords 0x100000 8 1 (maskBits 61 61) ++ s.regWords 0xE00008 8 1 all
  ++ s.regWords 0x201000 8 256 (rwMask [(63, 63), (59, 56)]) ++ s.regWords 0x200000 8 384 all
  ++ s.regWords 0x600000 8 16 all ++ s.regWords 0x300100 8 16 all
  ++ s.regWords 0xC00000 8 764 all ++ s.regWords 0x700000 0x40 128 (rwMask [(60, 60), (59, 56)])
  ++ s.regWords 0xA00000 0x100 4096 (rwMask [(63, 63), (62, 59)])
  ++ s.regWords 0xB00000 8 1 all ++ s.regWords 0xC02000 8 1 all

/-- The value of measurement block `i` (R408); none for an index that does not exist. -/
def State.measurement (s : State) (i : Nat) : Option (List Byte) :=
  match i with
  | 1 => some Config.romDigest
  | 2 => some s.sec.m2
  | 3 => some s.sec.m3
  | 4 => some (if s.sec.lock then Config.sha3_384 s.setupRecord else List.replicate 48 0)
  | 5 => some s.m5
  | 6 => some s.sec.m6
  | _ => none

/-- DMTFSpecMeasurementValueType of a block (R408, DSP0274): ROM, firmware, hardware and firmware configuration, the device mode as a raw
value, and the job log as a manifest (log entry 203). -/
def measType (i : Nat) : Nat := match i with
  | 1 => 0
  | 2 => 1
  | 3 => 2
  | 4 => 3
  | 5 => 0x85
  | _ => 4

/-- A block in the DMTF measurement format (R408): its index, the specification, its size, the value's type and size, and the value. -/
def measBlock (i : Nat) (v : List Byte) : List Byte :=
  toLE 1 i ++ toLE 1 1 ++ toLE 2 (v.length + 3) ++ toLE 1 (measType i) ++ toLE 2 v.length ++ v

/-- The blocks that a request names: their number for index 0, all for 0xFF (DSP0274). -/
def State.blocks (s : State) (i : Nat) : Option (List Byte) :=
  let one := fun (k : Nat) => (s.measurement k).map (measBlock k)
  if i = 0 then some [6]
  else if i = 0xFF then some ((List.range 6).flatMap fun k => (one (k + 1)).getD [])
  else one i

/-! ### Requests (R406) -/

/-- The versions, capabilities and algorithms of R406, in DSP0274's encodings (log entry 203): CERT, CHAL, MEAS with signature, ENCRYPT,
MAC, KEY_EX, HBEAT, KEY_UPD; Ed448, SHA3-384, secp384r1, AES-256-GCM, and the SPDM key schedule. -/
def spdmVersions : List Nat := [0x12, 0x13]
def spdmCaps : Nat := 0x62D6
def spdmAsym : Nat := 2 ^ 11
def spdmHash : Nat := 2 ^ 4
def spdmMeasHash : Nat := 2 ^ 5
def spdmDhe : Nat := 2 ^ 4
def spdmAead : Nat := 2 ^ 1

/-- A request that sets a connection up (R406): a version or an algorithm that the responder does not support is answered with ERROR. -/
def State.spdmSetup (s : State) (fn : Fn) : SpdmSetup → State
  | .version => (s.updFn fn fun f => { f with spdmVer := none, spdmAlg := false }).answer fn 0x04 (spdmVersions.flatMap (toLE 1))
  | .capabilities v =>
    if spdmVersions.contains v then (s.updFn fn fun f => { f with spdmVer := some v }).answer fn 0x61 (toLE 4 spdmCaps)
    else s.spdmRefuse fn
  | .algorithms asym hash dhe aead =>
    if asym &&& spdmAsym ≠ 0 && hash &&& spdmHash ≠ 0 && dhe &&& spdmDhe ≠ 0 && aead &&& spdmAead ≠ 0 then
      (s.updFn fn fun f => { f with spdmAlg := true }).answer fn 0x63
        (toLE 4 spdmMeasHash ++ toLE 4 spdmAsym ++ toLE 4 spdmHash ++ toLE 2 spdmDhe ++ toLE 2 spdmAead ++ toLE 2 1)
    else s.spdmRefuse fn

/-- SPDM_GET_DIGESTS: the digest of slot 0's chain, or none; `setup` are the requests that set the connection up before it (R406). -/
def execSpdmGetDigests (fn : Fn) (setup : List SpdmSetup) (s : State) : Out :=
  spdmRow fn s fun s => (setup.foldl (fun s q => s.spdmSetup fn q) s).answer fn spdmDigests (match s.chain with
    | some c => Config.sha3_384 c
    | none => [])

/-- SPDM_GET_CERTIFICATE: slot 0 only. -/
def execSpdmGetCertificate (fn : Fn) (slot : Nat) (s : State) : Out :=
  spdmRow fn s fun s => match slot, s.chain with
    | 0, some c => s.answer fn spdmCertificate c
    | _, _ => s.spdmRefuse fn

/-- SPDM_CHALLENGE. -/
def execSpdmChallenge (fn : Fn) (slot : Nat) (chal : List Byte) (s : State) : Out :=
  spdmRow fn s fun s => match slot, s.chain with
    | 0, some c => s.answerSigned fn spdmChallengeAuth chal (Config.sha3_384 c)
    | _, _ => s.spdmRefuse fn

/-- SPDM_GET_MEASUREMENTS, signed (R408). -/
def execSpdmGetMeasurements (fn : Fn) (index : Nat) (chal : List Byte) (s : State) : Out :=
  spdmRow fn s fun s => match s.chain, s.blocks index with
    | some _, some b => s.answerSigned fn spdmMeasurements chal b
    | _, _ => s.spdmRefuse fn

/-- The sessions of a function. -/
def State.sessions (s : State) (fn : Fn) : List Spdm := s.sec.sessions.filter fun x => x.fn == fn
def State.session (s : State) (fn : Fn) (sid : Nat) : Option Spdm := s.sec.sessions.find? fun x => x.fn == fn && x.sid == sid

/-- SPDM_KEY_EXCHANGE: a session opens, at most 2 a function. Its number is free, but differs from those that stand. -/
def execSpdmKeyExchange (fn : Fn) (slot : Nat) (exch : List Byte) (s : State) : Out :=
  spdmRow fn s fun s => match slot, s.chain with
    | 0, some _ =>
      if 2 ≤ (s.sessions fn).length then s.spdmRefuse fn
      else
        let n := s.freeCtr
        let (v, s) := s.draw
        let used := fun (k : Nat) => s.sec.sessions.any fun x => x.sid == (v + k) % 2 ^ 32
        let sid := (v + ((List.range 5).find? fun k => !used k).getD 0) % 2 ^ 32
        let ses : Spdm := ⟨fn, sid, Config.spdmSecret (fnNum fn) sid n exch, 0, s.dt⟩
        ({ s with sec := { s.sec with sessions := s.sec.sessions ++ [ses] } }).answerSigned fn spdmKeyExchangeRsp exch (toLE 4 sid)
    | _, _ => s.spdmRefuse fn

/-- A session is gone. -/
def State.sessionEnd (s : State) (fn : Fn) (sid : Nat) : State :=
  { s with sec := { s.sec with sessions := s.sec.sessions.filter fun x => !(x.fn == fn && x.sid == sid) } }

/-- A row in a secured session: a session that does not exist is answered with ERROR. -/
def sessionRow (fn : Fn) (sid : Nat) (s : State) (f : State → State) : Out :=
  spdmRow fn s fun s => if (s.session fn sid).isNone then s.spdmRefuse fn else f s

/-- SPDM_END_SESSION. -/
def execSpdmEndSession (fn : Fn) (sid : Nat) (s : State) : Out :=
  sessionRow fn sid s fun s => (s.sessionEnd fn sid).answer fn spdmEndSessionAck []

/-- Change a session. -/
def State.updSession (s : State) (fn : Fn) (sid : Nat) (f : Spdm → Spdm) : State :=
  { s with sec := { s.sec with sessions := s.sec.sessions.map fun x => if x.fn == fn && x.sid == sid then f x else x } }

/-- SPDM_HEARTBEAT. -/
def execSpdmHeartbeat (fn : Fn) (sid : Nat) (s : State) : Out :=
  sessionRow fn sid s fun s => (s.updSession fn sid fun x => { x with beat := s.dt }).answer fn spdmHeartbeatAck []

/-- SPDM_HEARTBEAT_TIMEOUT: the session ends. The spec names no period; the row is the timeout itself. -/
def execSpdmHeartbeatTimeout (fn : Fn) (sid : Nat) (s : State) : Out := .next (s.sessionEnd fn sid)

/-- SPDM_KEY_UPDATE: the data keys of the session are replaced. -/
def execSpdmKeyUpdate (fn : Fn) (sid : Nat) (s : State) : Out :=
  sessionRow fn sid s fun s => (s.updSession fn sid fun x => { x with updates := x.updates + 1 }).answer fn spdmKeyUpdateAck []

/-- SPDM_REQUEST_REFUSED: a request for what R406 refuses is answered with ERROR. -/
def execSpdmRequestRefused (fn : Fn) (s : State) : Out := spdmRow fn s fun s => s.spdmRefuse fn

/-! ### IDE streams (R411, R412) -/

/-- A stream of a function. -/
def State.ideStream (s : State) (fn : Fn) (n : Nat) : Option IdeStream := s.sec.streams.find? fun x => x.fn == fn && x.stream == n

/-- Put a stream in place of the one of its number; a stream without keys is none. -/
def State.putStream (s : State) (x : IdeStream) : State :=
  let rest := s.sec.streams.filter fun y => !(y.fn == x.fn && y.stream == x.stream)
  { s with sec := { s.sec with streams := if x.keys.isEmpty then rest else rest ++ [x] } }

/-- A change of the streams of a function: when it leaves a function that requires IDE with none Secure, the function falls silent
(R412). -/
def State.ideChange (s : State) (fn : Fn) (f : State → State) : State :=
  let t := f s
  if !s.ideBlocks fn && t.ideBlocks fn then t.fnSilent fn else t

/-- The options that R411 lists for a key: set 0 or 1 of a substream of a stream, a key of 256 bits. -/
def ideOptions (stream keySet sub : Nat) : Bool := decide (stream < 256) && decide (keySet < 2) && decide (sub < 6)

/-- IDE_KM_QUERY. -/
def execIdeKmQuery (fn : Fn) (sid : Nat) (s : State) : Out :=
  sessionRow fn sid s fun s => s.answer fn spdmVendor ([0] ++ (s.sec.streams.filter fun x => x.fn == fn).map fun x => BitVec.ofNat 8 x.stream)

/-- IDE_KM_KEY_PROG: a key of a key set of a substream; at most 2 streams a function (R411). -/
def execIdeKmKeyProg (fn : Fn) (sid stream keySet sub : Nat) (key : List Byte) (s : State) : Out :=
  sessionRow fn sid s fun s =>
    let mine := s.sec.streams.filter fun x => x.fn == fn
    let x := (s.ideStream fn stream).getD ⟨fn, stream, [], []⟩
    if !ideOptions stream keySet sub || key.length ≠ 32 || ((s.ideStream fn stream).isNone && 2 ≤ mine.length) then s.spdmRefuse fn
    else
      let keys := (x.keys.filter fun k => !(k.1 == keySet && k.2.1 == sub)) ++ [(keySet, sub, key)]
      (s.putStream { x with keys := keys }).answer fn spdmVendor [2]

/-- IDE_KM_K_SET_GO: a substream runs on a key set that has been programmed. -/
def execIdeKmKSetGo (fn : Fn) (sid stream keySet sub : Nat) (s : State) : Out :=
  sessionRow fn sid s fun s =>
    match s.ideStream fn stream with
    | some x =>
      if !ideOptions stream keySet sub || !(x.keys.any fun k => k.1 == keySet && k.2.1 == sub) then s.spdmRefuse fn
      else (s.putStream { x with going := (x.going.filter fun p => p.2 ≠ sub) ++ [(keySet, sub)] }).answer fn spdmVendor [5]
    | none => s.spdmRefuse fn

/-- IDE_KM_K_SET_STOP: a key set of a substream stops, and its key is gone. -/
def execIdeKmKSetStop (fn : Fn) (sid stream keySet sub : Nat) (s : State) : Out :=
  sessionRow fn sid s fun s =>
    match s.ideStream fn stream with
    | some x =>
      if !ideOptions stream keySet sub then s.spdmRefuse fn
      else
        let y : IdeStream := { x with
          going := x.going.filter fun p => p ≠ (keySet, sub)
          keys := x.keys.filter fun k => !(k.1 == keySet && k.2.1 == sub) }
        (s.ideChange fn fun s => s.putStream y).answer fn spdmVendor [5]
    | none => s.spdmRefuse fn

/-! ### Debug access (R421) -/

/-- The level that a register asks for: status registers and the RAS logs 0, the security block 2, every other 1. -/
def debugNeed (a : Nat) : Nat :=
  if a = 0xE00000 || a = 0xE00010 || a = 0xE00018 || (0xF18000 ≤ a && a < 0xF20000) then 0
  else if 0xE00000 ≤ a && a < 0xF00000 then 2
  else 1

/-- Bytes as little-endian words. -/
def wordsOf (bs : List Byte) : List Nat := (List.range (ceilDiv bs.length 8)).map fun i => leNat (cut bs (8 * i) 8)

/-- The words of a part of the security block's state (R421). UDS and the keys of R392 are in none (R393): in BLANK, where K_SES is N_boot
itself, nor is N_boot. An installed key of a plant I/O unit is no key of that table (log entry 212). -/
def State.secItem (s : State) (item : SecItem) : List Nat :=
  let x := s.sec
  match item with
  | .lvt i => [s.lvtOf i]
  | .okey k => wordsOf (cut (Tab.get [] s.fuses.okey k) 0 32)
  | .lcCopies => [s.fuses.lc0, s.fuses.lc1, s.fuses.lc2]
  | .nboot => if s.lc = lcBlank then [] else wordsOf x.nboot
  | .nonce => (x.nonce.map wordsOf).getD []
  | .session i => match x.sessions[i]? with
    | some y => [fnNum y.fn, y.sid, y.updates, y.beat]
    | none => []
  | .stream i => match x.streams[i]? with
    | some y => [fnNum y.fn, y.stream] ++ y.going.flatMap fun p => [p.1, p.2]
    | none => []
  | .pioKey i => match x.keys[i]? with
    | some y => [y.unit, y.sc, y.an, bit y.tx, y.pn] ++ wordsOf (cut y.obj 0 80)
    | none => []
  | .scrub => match x.scrubBusy with
    | some u => [1, bit u.1, u.2] ++ x.scrubQ.flatMap fun p => [bit p.1, p.2]
    | none => [0]
  | .m2 => wordsOf x.m2
  | .m3 => wordsOf x.m3
  | .m6 => wordsOf x.m6
  | .fuseJob => match x.fuseJob with
    | some j => [1, j.ring]
    | none => [0]
  | .fuses => [s.fuses.dsn, s.fuses.mrev, s.fuses.oset, s.fuses.orev, s.fuses.svn, s.fuses.safe]

/-- What debug access returned. -/
def State.debugGives (s : State) (w : Nat) : State :=
  { s with boot := { s.boot with debugOut := s.boot.debugOut ++ [BitVec.ofNat 64 w] } }

/-- DEBUG_ACCESS: halting, resuming and stepping a core, and reads of memory and registers, within the level in force (R421). An
uncorrectable unit reads as a free value. -/
def execDebugAccess (op : DebugOp) (s : State) : Out :=
  let lvl := s.sec.dbg
  let coreOk := fun (c : Nat) => decide (1 ≤ lvl) && decide (c < s.var.cores) && !s.ras.fence.contains c
  if s.boot.step < 4 || s.boot.inReset then .next s
  else match op with
    | .halt c => .next (if coreOk c then s.updCore c fun k => { k with halted := true, steps := 0 } else s)
    | .resume c => .next (if coreOk c then s.updCore c fun k => { k with halted := false, steps := 0 } else s)
    | .step c => .next (if coreOk c && (s.core c).halted then s.updCore c fun k => { k with steps := k.steps + 1 } else s)
    | .readMem a =>
      if lvl = 0 || a % 8 ≠ 0 then .next s
      else
        let bad := match s.place a with
          | .core c o => some !((s.core c).badIn o (o + 8)).isEmpty
          | .yard o => some !(s.yardBadIn o (o + 8)).isEmpty
          | _ => none
        (match bad with
        | some true =>
          let (v, s) := s.draw
          .next (s.debugGives v)
        | some false => .next (s.debugGives (leNat (s.rdBytes a 8)))
        | none => .next s)
    | .readSec x => .next (if 2 ≤ lvl then (s.secItem x).foldl State.debugGives s else s)
    | .readReg a => .next (if a % 8 = 0 && a < 0x1000000 && debugNeed a ≤ lvl then s.debugGives (s.readReg a) else s)

end Sys2Proof.Machine
end

