-- ==== Sys2Proof/Machine/Dispatch.lean ====
section
/-!
DEFINITION. The one dispatcher: each command of the table to its meaning.
-/

namespace Sys2Proof.Machine

def exec (i : Instr) (s : State) : Host.Outcome State Fault Refusal :=
  match i with
  | .nop c sl f => Sys2Proof.Machine.execNop c sl f s
  | .add c sl f => Sys2Proof.Machine.execAdd c sl f s
  | .sub c sl f => Sys2Proof.Machine.execSub c sl f s
  | .addc c sl f => Sys2Proof.Machine.execAddc c sl f s
  | .subb c sl f => Sys2Proof.Machine.execSubb c sl f s
  | .setcy c sl f => Sys2Proof.Machine.execSetcy c sl f s
  | .clrcy c sl f => Sys2Proof.Machine.execClrcy c sl f s
  | .and c sl f => Sys2Proof.Machine.execAnd c sl f s
  | .or c sl f => Sys2Proof.Machine.execOr c sl f s
  | .xor c sl f => Sys2Proof.Machine.execXor c sl f s
  | .shl c sl f => Sys2Proof.Machine.execShl c sl f s
  | .shr c sl f => Sys2Proof.Machine.execShr c sl f s
  | .sar c sl f => Sys2Proof.Machine.execSar c sl f s
  | .cmplt c sl f => Sys2Proof.Machine.execCmplt c sl f s
  | .cmpltu c sl f => Sys2Proof.Machine.execCmpltu c sl f s
  | .cmpeq c sl f => Sys2Proof.Machine.execCmpeq c sl f s
  | .mulu c sl f => Sys2Proof.Machine.execMulu c sl f s
  | .muls c sl f => Sys2Proof.Machine.execMuls c sl f s
  | .divu c sl f => Sys2Proof.Machine.execDivu c sl f s
  | .divs c sl f => Sys2Proof.Machine.execDivs c sl f s
  | .li c sl f => Sys2Proof.Machine.execLi c sl f s
  | .lih c sl f => Sys2Proof.Machine.execLih c sl f s
  | .sel c sl f => Sys2Proof.Machine.execSel c sl f s
  | .swap c sl f => Sys2Proof.Machine.execSwap c sl f s
  | .hadd c sl f => Sys2Proof.Machine.execHadd c sl f s
  | .hsub c sl f => Sys2Proof.Machine.execHsub c sl f s
  | .hmul c sl f => Sys2Proof.Machine.execHmul c sl f s
  | .hdiv c sl f => Sys2Proof.Machine.execHdiv c sl f s
  | .hsqrt c sl f => Sys2Proof.Machine.execHsqrt c sl f s
  | .hcmp c sl f => Sys2Proof.Machine.execHcmp c sl f s
  | .hcvti c sl f => Sys2Proof.Machine.execHcvti c sl f s
  | .hcvtf c sl f => Sys2Proof.Machine.execHcvtf c sl f s
  | .ld32 c sl f => Sys2Proof.Machine.execLd32 c sl f s
  | .ld64 c sl f => Sys2Proof.Machine.execLd64 c sl f s
  | .st32 c sl f => Sys2Proof.Machine.execSt32 c sl f s
  | .st64 c sl f => Sys2Proof.Machine.execSt64 c sl f s
  | .xmove c sl f => Sys2Proof.Machine.execXmove c sl f s
  | .kget c sl f => Sys2Proof.Machine.execKget c sl f s
  | .wopen c sl f => Sys2Proof.Machine.execWopen c sl f s
  | .wclose c sl f => Sys2Proof.Machine.execWclose c sl f s
  | .tadd c sl f => Sys2Proof.Machine.execTadd c sl f s
  | .tset c sl f => Sys2Proof.Machine.execTset c sl f s
  | .twait c sl f => Sys2Proof.Machine.execTwait c sl f s
  | .spawn c sl f => Sys2Proof.Machine.execSpawn c sl f s
  | .br c sl f => Sys2Proof.Machine.execBr c sl f s
  | .bnz c sl f => Sys2Proof.Machine.execBnz c sl f s
  | .bz c sl f => Sys2Proof.Machine.execBz c sl f s
  | .bcy c sl f => Sys2Proof.Machine.execBcy c sl f s
  | .solve c sl f => Sys2Proof.Machine.execSolve c sl f s
  | .outer c sl f => Sys2Proof.Machine.execOuter c sl f s
  | .inner c sl f => Sys2Proof.Machine.execInner c sl f s
  | .precswap c sl f => Sys2Proof.Machine.execPrecswap c sl f s
  | .commit c sl f => Sys2Proof.Machine.execCommit c sl f s
  | .finish c sl f => Sys2Proof.Machine.execFinish c sl f s
  | .corenum c sl f => Sys2Proof.Machine.execCorenum c sl f s
  | .spmv c sl f => Sys2Proof.Machine.execSpmv c sl f s
  | .vscale c sl f => Sys2Proof.Machine.execVscale c sl f s
  | .dgemm c sl f => Sys2Proof.Machine.execDgemm c sl f s
  | .bdapply c sl f => Sys2Proof.Machine.execBdapply c sl f s
  | .formk c sl f => Sys2Proof.Machine.execFormk c sl f s
  | .fact c sl f => Sys2Proof.Machine.execFact c sl f s
  | .invblk c sl f => Sys2Proof.Machine.execInvblk c sl f s
  | .vadd c sl f => Sys2Proof.Machine.execVadd c sl f s
  | .vsub c sl f => Sys2Proof.Machine.execVsub c sl f s
  | .vmul c sl f => Sys2Proof.Machine.execVmul c sl f s
  | .vmadd c sl f => Sys2Proof.Machine.execVmadd c sl f s
  | .vclr c sl f => Sys2Proof.Machine.execVclr c sl f s
  | .vcopy c sl f => Sys2Proof.Machine.execVcopy c sl f s
  | .vcvt c sl f => Sys2Proof.Machine.execVcvt c sl f s
  | .vsel c sl f => Sys2Proof.Machine.execVsel c sl f s
  | .vclamp c sl f => Sys2Proof.Machine.execVclamp c sl f s
  | .vneg c sl f => Sys2Proof.Machine.execVneg c sl f s
  | .vabs c sl f => Sys2Proof.Machine.execVabs c sl f s
  | .shift c sl f => Sys2Proof.Machine.execShift c sl f s
  | .vdot c sl f => Sys2Proof.Machine.execVdot c sl f s
  | .vmaxabs c sl f => Sys2Proof.Machine.execVmaxabs c sl f s
  | .vsumh c sl f => Sys2Proof.Machine.execVsumh c sl f s
  | .rdot c sl f => Sys2Proof.Machine.execRdot c sl f s
  | .rspmv c sl f => Sys2Proof.Machine.execRspmv c sl f s
  | .rmul c sl f => Sys2Proof.Machine.execRmul c sl f s
  | .lmatv c sl f => Sys2Proof.Machine.execLmatv c sl f s
  | .engineCommandStart c e => Sys2Proof.Machine.execEngineCommandStart c e s
  | .engineCommandComplete c e upset => Sys2Proof.Machine.execEngineCommandComplete c e upset s
  | .commandAbort c e => Sys2Proof.Machine.execCommandAbort c e s
  | .retire c sl => Sys2Proof.Machine.execRetire c sl s
  | .commitCopyComplete c sl => Sys2Proof.Machine.execCommitCopyComplete c sl s
  | .deadlineStop uid => Sys2Proof.Machine.execDeadlineStop uid s
  | .undispatchedDeadline uid => Sys2Proof.Machine.execUndispatchedDeadline uid s
  | .taskDrainComplete uid => Sys2Proof.Machine.execTaskDrainComplete uid s
  | .remoteWordArrival tgt src => Sys2Proof.Machine.execRemoteWordArrival tgt src s
  | .taskSubmit d r => Sys2Proof.Machine.execTaskSubmit d r s
  | .taskRelease uid => Sys2Proof.Machine.execTaskRelease uid s
  | .taskDispatch => Sys2Proof.Machine.execTaskDispatch s
  | .beYieldForLc job => Sys2Proof.Machine.execBeYieldForLc job s
  | .beSliceEnd uid => Sys2Proof.Machine.execBeSliceEnd uid s
  | .yieldContextSave uid => Sys2Proof.Machine.execYieldContextSave uid s
  | .parkedResume c => Sys2Proof.Machine.execParkedResume c s
  | .segmentFillComplete c seg upset => Sys2Proof.Machine.execSegmentFillComplete c seg upset s
  | .tallyOpEffect k n => Sys2Proof.Machine.execTallyOpEffect k n s
  | .waitComplete c sl => Sys2Proof.Machine.execWaitComplete c sl s
  | .jobLoad d r => Sys2Proof.Machine.execJobLoad d r s
  | .jobLoadComplete job image => Sys2Proof.Machine.execJobLoadComplete job image s
  | .jobUnload d r => Sys2Proof.Machine.execJobUnload d r s
  | .fellJob d r => Sys2Proof.Machine.execFellJob d r s
  | .fellTask d r => Sys2Proof.Machine.execFellTask d r s
  | .fellComplete d r => Sys2Proof.Machine.execFellComplete d r s
  | .assign d r => Sys2Proof.Machine.execAssign d r s
  | .coreScrubStart c => Sys2Proof.Machine.execCoreScrubStart c s
  | .coreScrubComplete c ok => Sys2Proof.Machine.execCoreScrubComplete c ok s
  | .granuleScrubComplete g ok => Sys2Proof.Machine.execGranuleScrubComplete g ok s
  | .knlLoad d r => Sys2Proof.Machine.execKnlLoad d r s
  | .knlPin d r => Sys2Proof.Machine.execKnlPin d r s
  | .knlUnpin d r => Sys2Proof.Machine.execKnlUnpin d r s
  | .knlEvict d r => Sys2Proof.Machine.execKnlEvict d r s
  | .knlUnload d r => Sys2Proof.Machine.execKnlUnload d r s
  | .kennelFillStart => Sys2Proof.Machine.execKennelFillStart s
  | .kennelFillComplete frame e => Sys2Proof.Machine.execKennelFillComplete frame e s
  | .kennelReadDone frame => Sys2Proof.Machine.execKennelReadDone frame s
  | .sqDescriptorFetch d r => Sys2Proof.Machine.execSqDescriptorFetch d r s
  | .sqDescriptorReturn d r resp => Sys2Proof.Machine.execSqDescriptorReturn d r resp s
  | .hostNop d r => Sys2Proof.Machine.execHostNop d r s
  | .hostDescriptorComplete d r writeOk => Sys2Proof.Machine.execHostDescriptorComplete d r writeOk s
  | .sqTailWrite fn d r v ide => Sys2Proof.Machine.execSqTailWrite fn d r v ide s
  | .eqHeadWrite fn d q v ide => Sys2Proof.Machine.execEqHeadWrite fn d q v ide s
  | .tallyAdd fn d v ide => Sys2Proof.Machine.execTallyAdd fn d v ide s
  | .sqEnable fn d r p v => Sys2Proof.Machine.execSqEnable fn d r p v s
  | .sqDisable fn d r p v => Sys2Proof.Machine.execSqDisable fn d r p v s
  | .eqEnable fn d q p v => Sys2Proof.Machine.execEqEnable fn d q p v s
  | .eqItimeExpiry d q => Sys2Proof.Machine.execEqItimeExpiry d q s
  | .hifClaim fn => Sys2Proof.Machine.execHifClaim fn s
  | .hifRelease fn => Sys2Proof.Machine.execHifRelease fn s
  | .hifTake fn => Sys2Proof.Machine.execHifTake fn s
  | .hifFndomWrite fn p v => Sys2Proof.Machine.execHifFndomWrite fn p v s
  | .hifRstArm fn => Sys2Proof.Machine.execHifRstArm fn s
  | .hifRstStart fn => Sys2Proof.Machine.execHifRstStart fn s
  | .hifRstArmExpiry => Sys2Proof.Machine.execHifRstArmExpiry s
  | .bar0UndecodedAccess fn bar2 addr size isWrite ide => Sys2Proof.Machine.execBar0UndecodedAccess fn bar2 addr size isWrite ide s
  | .registerWrite fn addr p v ide => Sys2Proof.Machine.execRegisterWrite fn addr p v ide s
  | .tunnelUp fn gen bme cfg => Sys2Proof.Machine.execTunnelUp fn gen bme cfg s
  | .tunnelLoss fn => Sys2Proof.Machine.execTunnelLoss fn s
  | .hotReset fn bme cfg => Sys2Proof.Machine.execHotReset fn bme cfg s
  | .d3hotEntry fn => Sys2Proof.Machine.execD3hotEntry fn s
  | .d3hotExit fn bme cfg => Sys2Proof.Machine.execD3hotExit fn bme cfg s
  | .busMasterClear fn => Sys2Proof.Machine.execBusMasterClear fn s
  | .yrdEnable fn n => Sys2Proof.Machine.execYrdEnable fn n s
  | .yrdDisable fn n => Sys2Proof.Machine.execYrdDisable fn n s
  | .yrdDoorbell fn n => Sys2Proof.Machine.execYrdDoorbell fn n s
  | .yrdAbort fn n => Sys2Proof.Machine.execYrdAbort fn n s
  | .yrdPollExpiry n => Sys2Proof.Machine.execYrdPollExpiry n s
  | .yrdDescriptorFetch n resp => Sys2Proof.Machine.execYrdDescriptorFetch n resp s
  | .yrdMove n => Sys2Proof.Machine.execYrdMove n s
  | .yrdLoop n => Sys2Proof.Machine.execYrdLoop n s
  | .yrdWait n => Sys2Proof.Machine.execYrdWait n s
  | .yrdWaitSatisfied n => Sys2Proof.Machine.execYrdWaitSatisfied n s
  | .yrdSignal n => Sys2Proof.Machine.execYrdSignal n s
  | .yrdEmpty n errs => Sys2Proof.Machine.execYrdEmpty n errs s
  | .yrdEnd n errs => Sys2Proof.Machine.execYrdEnd n errs s
  | .yrdBurstGrant host => Sys2Proof.Machine.execYrdBurstGrant host s
  | .yrdBurstComplete n resp => Sys2Proof.Machine.execYrdBurstComplete n resp s
  | .loopDvalidSet fn slot p v => Sys2Proof.Machine.execLoopDvalidSet fn slot p v s
  | .loopDvalidClear fn slot p v => Sys2Proof.Machine.execLoopDvalidClear fn slot p v s
  | .loopClose d r => Sys2Proof.Machine.execLoopClose d r s
  | .loopOpen d r => Sys2Proof.Machine.execLoopOpen d r s
  | .loopResume d r => Sys2Proof.Machine.execLoopResume d r s
  | .loopQclear d r => Sys2Proof.Machine.execLoopQclear d r s
  | .trajectoryPush slot word => Sys2Proof.Machine.execTrajectoryPush slot word s
  | .gridInstant => Sys2Proof.Machine.execGridInstant s
  | .loopCommit => Sys2Proof.Machine.execLoopCommit s
  | .loopBaseWrite fn p v => Sys2Proof.Machine.execLoopBaseWrite fn p v s
  | .loopCtlClr fn => Sys2Proof.Machine.execLoopCtlClr fn s
  | .ethernetFrameReceived m fr => Sys2Proof.Machine.execEthernetFrameReceived m fr s
  | .canFrameReceived n fr => Sys2Proof.Machine.execCanFrameReceived n fr s
  | .send q word => Sys2Proof.Machine.execSend q word s
  | .portTransmitStart port => Sys2Proof.Machine.execPortTransmitStart port s
  | .portTransmitEnd port e => Sys2Proof.Machine.execPortTransmitEnd port e s
  | .queueFrameLate q => Sys2Proof.Machine.execQueueFrameLate q s
  | .canRecover fn n => Sys2Proof.Machine.execCanRecover fn n s
  | .canBusOffRecovered n => Sys2Proof.Machine.execCanBusOffRecovered n s
  | .ringEnable fn n p v => Sys2Proof.Machine.execRingEnable fn n p v s
  | .encoderTransition n a b t => Sys2Proof.Machine.execEncoderTransition n a b t s
  | .encoderIndexEdge n t => Sys2Proof.Machine.execEncoderIndexEdge n t s
  | .sentMessageEnd n msg => Sys2Proof.Machine.execSentMessageEnd n msg s
  | .captureEnable fn n p v => Sys2Proof.Machine.execCaptureEnable fn n p v s
  | .overspeedClear fn n samecycle => Sys2Proof.Machine.execOverspeedClear fn n samecycle s
  | .dinRawEdge ix level t => Sys2Proof.Machine.execDinRawEdge ix level t s
  | .dinFilterExpiry ix => Sys2Proof.Machine.execDinFilterExpiry ix s
  | .dinStuckExpiry ix => Sys2Proof.Machine.execDinStuckExpiry ix s
  | .dinEnable fn ix p v => Sys2Proof.Machine.execDinEnable fn ix p v s
  | .pwmPeriodStart o => Sys2Proof.Machine.execPwmPeriodStart o s
  | .pioOwnWrite fn u p v => Sys2Proof.Machine.execPioOwnWrite fn u p v s
  | .ppsInEdge t => Sys2Proof.Machine.execPpsInEdge t s
  | .holdoverTimeout => Sys2Proof.Machine.execHoldoverTimeout s
  | .discEnable fn p v => Sys2Proof.Machine.execDiscEnable fn p v s
  | .discDisable fn p v => Sys2Proof.Machine.execDiscDisable fn p v s
  | .timeEpochWrite fn p v => Sys2Proof.Machine.execTimeEpochWrite fn p v s
  | .timeFreqWrite fn v => Sys2Proof.Machine.execTimeFreqWrite fn v s
  | .timeDtLowRead fn rd ide => Sys2Proof.Machine.execTimeDtLowRead fn rd ide s
  | .gptpSyncTimer m => Sys2Proof.Machine.execGptpSyncTimer m s
  | .gptpAnnounceTimer m => Sys2Proof.Machine.execGptpAnnounceTimer m s
  | .gptpPdelayReqTimer m => Sys2Proof.Machine.execGptpPdelayReqTimer m s
  | .gptpPdelayReqReceived m seq t => Sys2Proof.Machine.execGptpPdelayReqReceived m seq t s
  | .gptpPdelayRespReceived m seq t => Sys2Proof.Machine.execGptpPdelayRespReceived m seq t s
  | .gptpForeignReceived m kind => Sys2Proof.Machine.execGptpForeignReceived m kind s
  | .nonce d r rnd writeOk => Sys2Proof.Machine.execNonce d r rnd writeOk s
  | .tokenProvision d r tok uds => Sys2Proof.Machine.execTokenProvision d r tok uds s
  | .tokenOwn d r tok => Sys2Proof.Machine.execTokenOwn d r tok s
  | .tokenSeal d r tok => Sys2Proof.Machine.execTokenSeal d r tok s
  | .tokenReturn d r tok => Sys2Proof.Machine.execTokenReturn d r tok s
  | .tokenScrap d r tok => Sys2Proof.Machine.execTokenScrap d r tok s
  | .tokenDebug d r tok => Sys2Proof.Machine.execTokenDebug d r tok s
  | .tokenRevoke d r tok => Sys2Proof.Machine.execTokenRevoke d r tok s
  | .fuseSafe d r => Sys2Proof.Machine.execFuseSafe d r s
  | .keyInstall d r obj => Sys2Proof.Machine.execKeyInstall d r obj s
  | .spdmGetDigests fn setup => Sys2Proof.Machine.execSpdmGetDigests fn setup s
  | .spdmGetCertificate fn slot => Sys2Proof.Machine.execSpdmGetCertificate fn slot s
  | .spdmChallenge fn slot chal => Sys2Proof.Machine.execSpdmChallenge fn slot chal s
  | .spdmGetMeasurements fn index chal => Sys2Proof.Machine.execSpdmGetMeasurements fn index chal s
  | .spdmKeyExchange fn slot exch => Sys2Proof.Machine.execSpdmKeyExchange fn slot exch s
  | .spdmEndSession fn sid => Sys2Proof.Machine.execSpdmEndSession fn sid s
  | .spdmHeartbeat fn sid => Sys2Proof.Machine.execSpdmHeartbeat fn sid s
  | .spdmHeartbeatTimeout fn sid => Sys2Proof.Machine.execSpdmHeartbeatTimeout fn sid s
  | .spdmKeyUpdate fn sid => Sys2Proof.Machine.execSpdmKeyUpdate fn sid s
  | .ideKmQuery fn sid => Sys2Proof.Machine.execIdeKmQuery fn sid s
  | .ideKmKeyProg fn sid stream keySet sub key => Sys2Proof.Machine.execIdeKmKeyProg fn sid stream keySet sub key s
  | .ideKmKSetGo fn sid stream keySet sub => Sys2Proof.Machine.execIdeKmKSetGo fn sid stream keySet sub s
  | .ideKmKSetStop fn sid stream keySet sub => Sys2Proof.Machine.execIdeKmKSetStop fn sid stream keySet sub s
  | .secSetupLock fn p v => Sys2Proof.Machine.execSecSetupLock fn p v s
  | .tlyDrangeWrite fn d p v => Sys2Proof.Machine.execTlyDrangeWrite fn d p v s
  | .knlDrangeWrite fn d p v => Sys2Proof.Machine.execKnlDrangeWrite fn d p v s
  | .coreConfClr fn c => Sys2Proof.Machine.execCoreConfClr fn c s
  | .knlCtlClr fn => Sys2Proof.Machine.execKnlCtlClr fn s
  | .schedCtlClr fn => Sys2Proof.Machine.execSchedCtlClr fn s
  | .yrdCtlClr fn => Sys2Proof.Machine.execYrdCtlClr fn s
  | .leashRecompute => Sys2Proof.Machine.execLeashRecompute s
  | .lowvExit => Sys2Proof.Machine.execLowvExit s
  | .leashRaise => Sys2Proof.Machine.execLeashRaise s
  | .grantHysteresisExpiry c => Sys2Proof.Machine.execGrantHysteresisExpiry c s
  | .islandStepChange c => Sys2Proof.Machine.execIslandStepChange c s
  | .tmcReport tin tout flow pto => Sys2Proof.Machine.execTmcReport tin tout flow pto s
  | .tmcReportTimeout => Sys2Proof.Machine.execTmcReportTimeout s
  | .tmccapWrite w => Sys2Proof.Machine.execTmccapWrite w s
  | .junctionSensorRead readings => Sys2Proof.Machine.execJunctionSensorRead readings s
  | .hotClear => Sys2Proof.Machine.execHotClear s
  | .thermalTrip => Sys2Proof.Machine.execThermalTrip s
  | .patrolStep t r => Sys2Proof.Machine.execPatrolStep t r s
  | .islandHandshakeFault ix => Sys2Proof.Machine.execIslandHandshakeFault ix s
  | .meshFlitCrcFail f => Sys2Proof.Machine.execMeshFlitCrcFail f s
  | .meshLinkRetrainDone link ok => Sys2Proof.Machine.execMeshLinkRetrainDone link ok s
  | .rasRecordLog => Sys2Proof.Machine.execRasRecordLog s
  | .knagoHelloReceived dsn side pairid => Sys2Proof.Machine.execKnagoHelloReceived dsn side pairid s
  | .knagoLossOfSignal => Sys2Proof.Machine.execKnagoLossOfSignal s
  | .knagoFrameTimeout => Sys2Proof.Machine.execKnagoFrameTimeout s
  | .knagoSearchTimeout => Sys2Proof.Machine.execKnagoSearchTimeout s
  | .knagoSearchRetry => Sys2Proof.Machine.execKnagoSearchRetry s
  | .knagoFrameError => Sys2Proof.Machine.execKnagoFrameError s
  | .knagoHeartbeatSend => Sys2Proof.Machine.execKnagoHeartbeatSend s
  | .knagoHeartbeatReceived ast => Sys2Proof.Machine.execKnagoHeartbeatReceived ast s
  | .snapshotReceived sn => Sys2Proof.Machine.execSnapshotReceived sn s
  | .twinCfgWrite fn p v => Sys2Proof.Machine.execTwinCfgWrite fn p v s
  | .twinClaim fn => Sys2Proof.Machine.execTwinClaim fn s
  | .twinRelease fn => Sys2Proof.Machine.execTwinRelease fn s
  | .twinStandby fn => Sys2Proof.Machine.execTwinStandby fn s
  | .twinHandover fn => Sys2Proof.Machine.execTwinHandover fn s
  | .claimMessageReceived side => Sys2Proof.Machine.execClaimMessageReceived side s
  | .grantReceived => Sys2Proof.Machine.execGrantReceived s
  | .claimTimeout => Sys2Proof.Machine.execClaimTimeout s
  | .handoverReceived => Sys2Proof.Machine.execHandoverReceived s
  | .handoverAckReceived => Sys2Proof.Machine.execHandoverAckReceived s
  | .twinAuthInFall => Sys2Proof.Machine.execTwinAuthInFall s
  | .twinAuthInContention => Sys2Proof.Machine.execTwinAuthInContention s
  | .compareTrigger n => Sys2Proof.Machine.execCompareTrigger n s
  | .compareDigestFormed n => Sys2Proof.Machine.execCompareDigestFormed n s
  | .partnerDigestReceived n seq dig => Sys2Proof.Machine.execPartnerDigestReceived n seq dig s
  | .compareTimeout n => Sys2Proof.Machine.execCompareTimeout n s
  | .powerGood => Sys2Proof.Machine.execPowerGood s
  | .inputUndervoltage => Sys2Proof.Machine.execInputUndervoltage s
  | .inputBrownout => Sys2Proof.Machine.execInputBrownout s
  | .railInRange => Sys2Proof.Machine.execRailInRange s
  | .railFault => Sys2Proof.Machine.execRailFault s
  | .railRetry => Sys2Proof.Machine.execRailRetry s
  | .coolantCheck tin flow => Sys2Proof.Machine.execCoolantCheck tin flow s
  | .tcrWrite bytes => Sys2Proof.Machine.execTcrWrite bytes s
  | .bootRomRun copy0 copy1 trng trngOk => Sys2Proof.Machine.execBootRomRun copy0 copy1 trng trngOk s
  | .standStart failed => Sys2Proof.Machine.execStandStart failed s
  | .timebaseStart => Sys2Proof.Machine.execTimebaseStart s
  | .functionConfigReady fn => Sys2Proof.Machine.execFunctionConfigReady fn s
  | .storeReady => Sys2Proof.Machine.execStoreReady s
  | .ptpInstanceStart => Sys2Proof.Machine.execPtpInstanceStart s
  | .resetNPulse lowNs recognised => Sys2Proof.Machine.execResetNPulse lowNs recognised s
  | .tmcFullReset reason => Sys2Proof.Machine.execTmcFullReset reason s
  | .fullResetRelease => Sys2Proof.Machine.execFullResetRelease s
  | .watchdogRestart => Sys2Proof.Machine.execWatchdogRestart s
  | .watchdogProbe sched kennel leash => Sys2Proof.Machine.execWatchdogProbe sched kennel leash s
  | .watchdogExpiry => Sys2Proof.Machine.execWatchdogExpiry s
  | .tmcRestart => Sys2Proof.Machine.execTmcRestart s
  | .ethernetLinkChange m up => Sys2Proof.Machine.execEthernetLinkChange m up s
  | .canBusError n rec => Sys2Proof.Machine.execCanBusError n rec s
  | .ppsOutEdge => Sys2Proof.Machine.execPpsOutEdge s
  | .pwmOnTimeEnd o => Sys2Proof.Machine.execPwmOnTimeEnd o s
  | .msixVectorUnmask fn vec => Sys2Proof.Machine.execMsixVectorUnmask fn vec s
  | .pcieCompletionTimeout who => Sys2Proof.Machine.execPcieCompletionTimeout who s
  | .sliceOrChannelStopsAnswering u => Sys2Proof.Machine.execSliceOrChannelStopsAnswering u s
  | .takeoverWindowEnd => Sys2Proof.Machine.execTakeoverWindowEnd s
  | .knlLoadCopyComplete d r pages => Sys2Proof.Machine.execKnlLoadCopyComplete d r pages s
  | .debugAccess op => Sys2Proof.Machine.execDebugAccess op s
  | .coreRailMoveComplete => Sys2Proof.Machine.execCoreRailMoveComplete s
  | .fuseProgrammingComplete ok => Sys2Proof.Machine.execFuseProgrammingComplete ok s
  | .spdmRequestRefused fn => Sys2Proof.Machine.execSpdmRequestRefused fn s

end Sys2Proof.Machine
end

