-- ==== Sys2Proof/Machine/Step.lean ====
section
/-!
DEFINITION. One step of the tray: the command at the front of the queue is carried out with the queue's rest; on an empty queue one cycle
of the timebase passes once it runs.
-/

namespace Sys2Proof.Machine

/-- A step with nothing to carry out: one cycle passes on the watchdog's clock, and of the timebase when it runs (log entries 6, 163). -/
def State.idle (s : State) : State := if s.time.running then s.tickDie.cycle else s.tickDie

/-- One step. -/
def step (s : State) : Host.Outcome State Fault Refusal :=
  match s.pending with
  | [] => .next s.idle
  | c :: rest => exec c { s with pending := rest }

/-- A state with the command that a word spells at the front of its queue; unchanged where the word spells none. -/
def State.withFetchWord (s : State) (nbits w : Nat) : State :=
  match decodeTableWord nbits w with
  | some c => { s with pending := c :: s.pending }
  | none => s

end Sys2Proof.Machine
end

