-- ==== Sys2Proof/Machine/Views.lean ====
section
/-!
DEFINITION. The words in which claims speak: when an instruction issues and what every issued instruction leaves as it was; when a ring
carries out a host descriptor.
-/

namespace Sys2Proof.Machine

/-- The tables on the way to the registers of a slot are in canonical form. -/
def State.slotTabs (s : State) (c k : Nat) : Bool :=
  Tab.wf ({} : Core) s.cores && Tab.wf ({} : Slot) (s.core c).slots && Tab.wf (0 : Word) (s.slot c k).g

/-- The fetch of an instruction meets no error of the instruction store that can be corrected (R250, R439). -/
def State.fetchClean (s : State) (c k w0 : Nat) (w1 : Option Nat) : Bool :=
  match s.slotSeg c k with
  | none => true
  | some g => (fetchUnits (s.slotJob c k).ndesc (s.slot c k).pc w0 w1).all fun u => !g.weak.contains u

/-- A slot of an existing core can issue, and its code holds this instruction next, with no error in what it fetches (R81, R82, R252). -/
def State.atIssue (s : State) (c k w0 : Nat) (w1 : Option Nat) : Bool :=
  s.hasSlot c k && s.ready c k && decide (s.fetch c k w0 w1 = .same) && s.fetchClean c k w0 w1
  && decide ((s.slot c k).cseq < 2 ^ 32) && s.slotTabs c k

/-- A short instruction with every field in range issues now, held by nothing (R253, R254). -/
def State.issues (s : State) (c k opc : Nat) (f : SFields) (rd wr : List Nat) : Bool :=
  s.atIssue c k (shortWord opc f) none && f.res == 0 && rndOk opc f && !s.held c k rd wr

/-- The registers of the two sources. -/
def srcRegs (f : SFields) : List Nat := [f.ra.toNat] ++ if f.i then [] else [f.rb.toNat]

/-- A slot keeps everything but its registers, CY, its place in the code and its list of issued instructions. -/
def Slot.keeps (x y : Slot) : Prop :=
  { y with g := x.g, cy := x.cy, pc := x.pc, cseq := x.cseq, ret := x.ret } = x

/-- Nothing outside slot `k` of core `c` has changed, but the count of debug steps of that core. -/
structure OnlySlot (s t : State) (c k : Nat) : Prop where
  rest : { t with cores := s.cores } = s
  core : ∀ c', { t.core c' with slots := [], steps := 0 } = { s.core c' with slots := [], steps := 0 }
  slots : ∀ c' k', c' ≠ c ∨ k' ≠ k → t.slot c' k' = s.slot c' k'
  mem : ∀ a, t.rd a = s.rd a

/-- The entry for retirement of a Sequencer instruction that is complete at its issue, with the flags it raises (R81, R83). -/
def plainEntry (opc cycles : Nat) (fl : List Nat) (act : RetAct) (cseq : Nat) : RetEntry :=
  ⟨cseq, opc, 0, true, cycles, fl.map (fun f => ⟨f, 0⟩), none, act⟩

/-- How a slot stands after an instruction that issued: no register written but those listed, CY and the next place in the code as
given, the next CSEQ, and one more entry for retirement (R81, R86, R255). -/
structure SlotIssued (x y : Slot) (e : Nat → RetEntry) (pc : Nat) (cy : Bool) (wr : List Nat) : Prop where
  regs : ∀ r, r ∉ wr → y.reg r = x.reg r
  cy : y.cy = cy
  pc : y.pc = pc
  cseq : y.cseq = x.cseq + 1
  ret : y.ret = x.ret ++ [e x.cseq]

/-- What an instruction leaves that has issued and acts on its slot's registers alone. -/
structure Issued (s t : State) (c k : Nat) (e : Nat → RetEntry) (pc : Nat) (cy : Bool) (wr : List Nat) : Prop where
  now : SlotIssued (s.slot c k) (t.slot c k) e pc cy wr
  slot : (s.slot c k).keeps (t.slot c k)
  only : OnlySlot s t c k

/-- The oldest instruction of a slot is `e`, complete, and its task has neither ended nor reached its deadline: it retires next (R20, R81,
R120). -/
structure State.retires (s : State) (c k : Nat) (e : RetEntry) : Prop where
  slot : s.hasSlot c k = true
  tabs : s.slotTabs c k = true
  first : (s.slot c k).ret.head? = some e
  complete : e.complete = true
  live : (s.slot c k).term = none
  task : (s.slot c k).uid.isSome = true
  due : ∀ uid t d, (s.slot c k).uid = some uid → s.task uid = some t → t.deadline = some d → s.dt < d

/-- An engine command passes every check of its decode, and nothing holds it (R82, R158, R159, R223). -/
def State.issuesCmd (s : State) (c k : Nat) (sp : CmdSpec) (f : LFields) : Bool :=
  let x := s.mkCmd c k sp f
  let sb := x.ranges sp.roles ((s.slot c k).uid.getD 0) (s.slot c k).cseq
  s.atIssue c k (longWord0 sp.opc f) (some (longWord1 f))
  && (sp.e != .lte || s.var.coreLte c) && !decodeBad sp.e sp.kinds x && decide (sb.length ≤ 8)
  && !s.held c k (longReads sp f x) x.o0.scalarReg && s.queueRoom c sp.e k
  && !sb.any (fun r => (s.core c).sbConflict r.lo r.hi r.write) && decide ((s.core c).sb.length + sb.length ≤ 256)

/-- What an engine command leaves that has issued: it stands last in its engine's queue with all that its issue fixes, its ranges stand
in the scoreboard, its entry waits to retire, and no register and no byte has changed (R65, R81, R157, R256). -/
structure CmdIssued (s t : State) (c k : Nat) (sp : CmdSpec) (x : Cmd) (m : ECmd) : Prop where
  queue : ((t.core c).eng sp.e).queue = ((s.core c).eng sp.e).queue ++ [m]
  run : ((t.core c).eng sp.e).run = ((s.core c).eng sp.e).run
  buf : ((t.core c).eng sp.e).buf = ((s.core c).eng sp.e).buf
  who : m.uid = (s.slot c k).uid.getD 0 ∧ m.slot = k ∧ m.cseq = (s.slot c k).cseq ∧ m.opc = sp.opc ∧ m.order = (s.core c).orders
  ops : m.o0 = x.o0 ∧ m.o1 = x.o1 ∧ m.o2 = x.o2 ∧ m.o3 = x.o3 ∧ m.preg = x.preg ∧ m.f = x.f ∧ m.g = x.g ∧ m.sc = x.sc
  refuse : m.refuse = solveBad sp.opc sp.reloc x
  reg : m.reg = x.o0.scalarReg.head?
  sb : (t.core c).sb = (s.core c).sb ++ x.ranges sp.roles ((s.slot c k).uid.getD 0) (s.slot c k).cseq
  slot : SlotIssued (s.slot c k) (t.slot c k) (fun n => ⟨n, sp.opc, engineNum sp.e, false, 0, [], none, .none⟩)
    ((s.slot c k).pc + 16) (s.slot c k).cy []
  mem : ∀ a, t.rd a = s.rd a
  rest : { t with cores := s.cores } = s

/-- No unit that a range meets has an error, correctable or not (R150, R171). -/
def State.sound (s : State) (a n : Nat) : Bool :=
  match s.place a with
  | .core c off => ((s.core c).badIn off (off + n)).isEmpty && ((s.core c).weakIn off (off + n)).isEmpty
  | .yard off => (s.yardBadIn off (off + n)).isEmpty && (s.yardWeakIn off (off + n)).isEmpty
  | _ => true

/-- The number that `m * 2^e` is. -/
def Dy.val (x : Dy) : Rat := (x.m : Rat) * (2 : Rat) ^ x.e

/-- An exact real number `z` rounded to HF24, with its flags (R42 to R45, R54, R55): beyond the largest finite value an infinity to nearest
and the largest finite value to odd, with INF; otherwise the nearest value, the even one of two as near, or to odd the value itself or
the odd one of its two neighbours; a zero without a sign; UNDER where it is subnormal or zero and not exact. -/
def HfRounds (r : Rnd) (z : ℝ) (p : Nat × List Nat) : Prop :=
  let beyond := match r with
    | .rne => (2 - 2 ^ (-16 : Int)) * 2 ^ 127 ≤ |z|
    | .rto => (2 - 2 ^ (-15 : Int)) * 2 ^ 127 < |z|
  let top := match r with
    | .rne => if z < 0 then 0xFF8000 else 0x7F8000
    | .rto => if z < 0 then 0xFF7FFF else 0x7F7FFF
  (beyond → p = (top, [fInf]))
  ∧ (¬ beyond → ∃ v : Dy, let y : ℝ := (v.val : ℝ)
      p.1 < 2 ^ 24 ∧ hfVal p.1 = .fin v ∧ (y = 0 → p.1 = 0)
      ∧ p.2 = (if |y| < 2 ^ (-126 : Int) ∧ y ≠ z then [fUnder] else [])
      ∧ match r with
        | .rne => ∀ b w, hfVal b = .fin w → |y - z| ≤ |(w.val : ℝ) - z| ∧ ((w.val : ℝ) ≠ y → |y - z| = |(w.val : ℝ) - z| → p.1 % 2 = 0)
        | .rto => y = z ∨ (p.1 % 2 = 1 ∧ ∀ b w, hfVal b = .fin w →
            (w.val : ℝ) ≠ z ∧ ¬ (y < w.val ∧ (w.val : ℝ) < z) ∧ ¬ (z < w.val ∧ (w.val : ℝ) < y)))

/-- Bits that a word of `w` bytes at a little-endian address spells through the address map. -/
def State.word (s : State) (a w : Nat) : Nat := Rd.le s.rd a w

/-- Ring `r` of domain `d` has accepted the descriptor `h`, of this class and operation, and has not carried it out (R371, R375). -/
structure State.accepts (s : State) (d r cls : Nat) (op : Option Nat) (h : HostCmd) : Prop where
  ring : hasRing d r = true
  cur : (s.ring d r).cur = some h
  fresh : h.st = .fresh
  cls : h.cls = cls
  op : op.all (· = h.op) = true

/-- The bits `hi` to `lo` of a descriptor's body. -/
def HostCmd.field (h : HostCmd) (hi lo : Nat) : Nat := natBits h.body hi lo

/-- A BAR0 write of a function reaches the register at `a`: the function answers, needs no IDE stream that it lacks, and passes the
filter; the block is not in status mode (R361 to R363, R396, R412, R469). -/
def State.reaches (s : State) (fn : Fn) (a : Nat) : Bool :=
  s.fnAnswers fn && !s.ideBlocks fn && s.allowed fn a && !s.sec.statusMode

end Sys2Proof.Machine
end

