-- ==== Sys2Proof/WellFormed.lean ====
section
/-!
DEFINITION. Well-formed commands: those that name only units that some tray of the variant has (R2, R64, R149, R169, R184, R319). A
command whose form is right may still have no effect, when its condition does not hold.
-/

namespace Sys2Proof

/-- A core and one of its eight task slots (R64, R86). -/
def slotOk (cores c k : Nat) : Bool := decide (c < cores) && decide (k < 8)
/-- One of 16 domains and one of its 16 rings (R374). -/
def ringOk (d r : Nat) : Bool := decide (d < 16) && decide (r < 16)
/-- One of 16 domains and one of its 4 event queues (R383). -/
def queueOk (d q : Nat) : Bool := decide (d < 16) && decide (q < 4)
/-- A place that the patrol reads: a line of a core, a slice or a channel, a tally, a word of a table, or a loop slot (R439). -/
def PatrolTarget.ok (cores : Nat) : PatrolTarget → Bool
  | .coreLine c l => decide (c < cores) && decide (l < 12288)
  | .yardLine i l => decide (i < cores / 4) && decide (l < 49152)
  | .storeLine ch j => decide (ch < 3 * cores / 8) && decide (j < 1863680)
  | .tallyWord k => decide (k < 262144)
  | .tableWord sk _ => sk == 9 || sk == 10 || sk == 11 || sk == 12
  | .loopWord n _ => decide (n < 4096)
  | .trajEntry n i _ => decide (n < 4096) && decide (i < 64)
/-- An island that exists. -/
def Island.ok (cores : Nat) : Island → Bool
  | .core c => decide (c < cores)
  | .mesh => true
/-- A slice or channel that exists (R2). -/
def DeadUnit.ok (cores : Nat) : DeadUnit → Bool
  | .slice i => decide (i < cores / 4)
  | .channel i => decide (i < 3 * cores / 8)
/-- A requester that exists. -/
def CtoWho.ok : CtoWho → Bool
  | .ring d r => ringOk d r
  | .chan n => decide (n < 128)
  | .copy d r => ringOk d r

/-- Whether a command names only units of a tray with `cores` cores. -/
def Instr.wf (cores : Nat) (i : Instr) : Bool :=
  match i with
  | .nop x y _ | .add x y _ | .sub x y _ | .addc x y _ | .subb x y _ | .setcy x y _ | .clrcy x y _ | .and x y _ | .or x y _
  | .xor x y _ | .shl x y _ | .shr x y _ | .sar x y _ | .cmplt x y _ | .cmpltu x y _ | .cmpeq x y _ | .mulu x y _
  | .muls x y _ | .divu x y _ | .divs x y _ | .li x y _ | .lih x y _ | .sel x y _ | .swap x y _ | .hadd x y _ | .hsub x y _
  | .hmul x y _ | .hdiv x y _ | .hsqrt x y _ | .hcmp x y _ | .hcvti x y _ | .hcvtf x y _ | .ld32 x y _ | .ld64 x y _
  | .st32 x y _ | .st64 x y _ | .xmove x y _ | .kget x y _ | .wopen x y _ | .wclose x y _ | .tadd x y _ | .tset x y _
  | .twait x y _ | .spawn x y _ | .br x y _ | .bnz x y _ | .bz x y _ | .bcy x y _ | .solve x y _ | .outer x y _
  | .inner x y _ | .precswap x y _ | .commit x y _ | .finish x y _ | .corenum x y _ | .spmv x y _ | .vscale x y _
  | .dgemm x y _ | .bdapply x y _ | .formk x y _ | .fact x y _ | .invblk x y _ | .vadd x y _ | .vsub x y _ | .vmul x y _
  | .vmadd x y _ | .vclr x y _ | .vcopy x y _ | .vcvt x y _ | .vsel x y _ | .vclamp x y _ | .vneg x y _ | .vabs x y _
  | .shift x y _ | .vdot x y _ | .vmaxabs x y _ | .vsumh x y _ | .rdot x y _ | .rspmv x y _ | .rmul x y _ | .lmatv x y _
  | .retire x y | .commitCopyComplete x y | .waitComplete x y => slotOk cores x y
  | .engineCommandStart x _ | .engineCommandComplete x _ _ | .commandAbort x _ | .parkedResume x | .coreScrubStart x
  | .coreScrubComplete x _ | .grantHysteresisExpiry x | .islandStepChange x => decide (x < cores)
  | .deadlineStop _ | .undispatchedDeadline _ | .taskDrainComplete _ | .taskRelease _ | .taskDispatch | .beYieldForLc _
  | .beSliceEnd _ | .yieldContextSave _ | .kennelFillStart | .kennelFillComplete _ _ | .kennelReadDone _ | .hifClaim _
  | .hifRelease _ | .hifTake _ | .hifFndomWrite _ _ _ | .hifRstArm _ | .hifRstStart _ | .hifRstArmExpiry
  | .bar0UndecodedAccess _ _ _ _ _ _ | .registerWrite _ _ _ _ _ | .tunnelUp _ _ _ _ | .tunnelLoss _ | .hotReset _ _ _ | .d3hotEntry _
  | .d3hotExit _ _ _ | .busMasterClear _ | .yrdBurstGrant _ | .gridInstant | .loopCommit | .loopBaseWrite _ _ _ | .loopCtlClr _
  | .ppsInEdge _ | .holdoverTimeout | .discEnable _ _ _ | .discDisable _ _ _ | .timeEpochWrite _ _ _ | .timeFreqWrite _ _
  | .timeDtLowRead _ _ _ | .spdmGetDigests _ _ | .spdmGetCertificate _ _ | .spdmChallenge _ _ _ | .spdmGetMeasurements _ _ _
  | .spdmKeyExchange _ _ _ | .spdmEndSession _ _ | .spdmHeartbeat _ _ | .spdmHeartbeatTimeout _ _ | .spdmKeyUpdate _ _
  | .ideKmQuery _ _ | .ideKmKeyProg _ _ _ _ _ _ | .ideKmKSetGo _ _ _ _ _ | .ideKmKSetStop _ _ _ _ _ | .secSetupLock _ _ _
  | .knlCtlClr _ | .schedCtlClr _ | .yrdCtlClr _ | .leashRecompute | .lowvExit | .leashRaise | .tmcReport _ _ _ _
  | .tmcReportTimeout | .tmccapWrite _ | .junctionSensorRead _ | .hotClear | .thermalTrip | .rasRecordLog
  | .knagoHelloReceived _ _ _ | .knagoLossOfSignal | .knagoFrameTimeout | .knagoSearchTimeout | .knagoSearchRetry
  | .knagoFrameError | .knagoHeartbeatSend | .knagoHeartbeatReceived _ | .snapshotReceived _ | .twinCfgWrite _ _ _
  | .twinClaim _ | .twinRelease _ | .twinStandby _ | .twinHandover _ | .claimMessageReceived _ | .grantReceived
  | .claimTimeout | .handoverReceived | .handoverAckReceived | .twinAuthInFall | .twinAuthInContention | .powerGood
  | .inputUndervoltage | .inputBrownout | .railInRange | .railFault | .railRetry | .coolantCheck _ _ | .tcrWrite _
  | .bootRomRun _ _ _ _ | .standStart _ | .timebaseStart | .functionConfigReady _ | .storeReady | .ptpInstanceStart
  | .resetNPulse _ _ | .tmcFullReset _ | .fullResetRelease | .watchdogRestart | .watchdogProbe _ _ _ | .watchdogExpiry
  | .tmcRestart | .ppsOutEdge | .takeoverWindowEnd | .debugAccess _ | .coreRailMoveComplete | .fuseProgrammingComplete _
  | .spdmRequestRefused _ => true
  | .remoteWordArrival x y => decide (x < cores) && decide (y < cores)
  | .taskSubmit x y | .jobLoad x y | .jobUnload x y | .fellJob x y | .fellTask x y | .fellComplete x y | .assign x y
  | .knlEvict x y | .sqDescriptorFetch x y
  | .sqDescriptorReturn x y _ | .hostNop x y | .hostDescriptorComplete x y _ | .sqTailWrite _ x y _ _ | .sqEnable _ x y _ _
  | .sqDisable _ x y _ _ | .loopClose x y | .loopOpen x y | .loopResume x y | .loopQclear x y | .nonce x y _ _
  | .tokenProvision x y _ _ | .tokenOwn x y _ | .tokenSeal x y _ | .tokenReturn x y _ | .tokenScrap x y _ | .tokenDebug x y _
  | .tokenRevoke x y _ | .fuseSafe x y | .keyInstall x y _ => ringOk x y
  | .knlLoad x y | .knlPin x y | .knlUnpin x y | .knlUnload x y | .knlLoadCopyComplete x y _ => ringOk x y.ring
  | .segmentFillComplete x y _ => decide (x < cores) && decide (y < 9)
  | .tallyOpEffect x _ => decide (x < 262144)
  | .jobLoadComplete x _ | .coreConfClr _ x => decide (x < 256)
  | .granuleScrubComplete x _ => decide (x < 12 * cores)
  | .eqHeadWrite _ x y _ _ | .eqEnable _ x y _ _ | .eqItimeExpiry x y => queueOk x y
  | .tallyAdd _ x _ _ | .encoderTransition x _ _ _ | .encoderIndexEdge x _ | .sentMessageEnd x _ | .captureEnable _ x _ _
  | .overspeedClear _ x _ | .pwmPeriodStart x | .tlyDrangeWrite _ x _ _ | .knlDrangeWrite _ x _ _ | .pwmOnTimeEnd x
    => decide (x < 16)
  | .yrdEnable _ x | .yrdDisable _ x | .yrdDoorbell _ x | .yrdAbort _ x | .yrdPollExpiry x | .yrdDescriptorFetch x _
  | .yrdMove x | .yrdLoop x | .yrdWait x | .yrdWaitSatisfied x | .yrdSignal x | .yrdEmpty x _ | .yrdEnd x _
  | .yrdBurstComplete x _ => decide (x < 128)
  | .loopDvalidSet _ x _ _ | .loopDvalidClear _ x _ _ | .trajectoryPush x _ => decide (x < 4096)
  | .ethernetFrameReceived x _ | .gptpSyncTimer x | .gptpAnnounceTimer x | .gptpPdelayReqTimer x
  | .gptpPdelayReqReceived x _ _ | .gptpPdelayRespReceived x _ _ | .gptpForeignReceived x _ | .ethernetLinkChange x _
    => decide (x < 4)
  | .canFrameReceived x _ | .canRecover _ x | .canBusOffRecovered x | .canBusError x _ => decide (x < 8)
  | .send x _ | .queueFrameLate x | .dinRawEdge x _ _ | .dinFilterExpiry x | .dinStuckExpiry x | .dinEnable _ x _ _
    => decide (x < 32)
  | .portTransmitStart x | .portTransmitEnd x _ => decide (x < 12)
  | .ringEnable _ x _ _ | .compareTrigger x | .compareDigestFormed x | .partnerDigestReceived x _ _ | .compareTimeout x
  | .msixVectorUnmask _ x => decide (x < 64)
  | .pioOwnWrite _ x _ _ => decide (x < 764)
  | .patrolStep x _ => PatrolTarget.ok cores x
  | .islandHandshakeFault x => Island.ok cores x
  | .meshFlitCrcFail ⟨x, _⟩ | .meshLinkRetrainDone x _ => decide (x < 4 * cores)
  | .pcieCompletionTimeout x => CtoWho.ok x
  | .sliceOrChannelStopsAnswering x => DeadUnit.ok cores x

end Sys2Proof
end

