-- ==== Sys2Proof/Safety.lean ====
section
/-!
DEFINITION. What counts as a safe run: a step that answers a next state; the canonical form of the machine's tables; and the tray's
outputs at their safe levels while it has no authority.
-/

namespace Sys2Proof.Machine

/-- A step that neither faults nor is refused. -/
def Runs (s : State) : Prop := ∃ t, step s = .next t

/-- The memories of the tray are in canonical form. -/
def memOk (m : Mem) : Bool := Tab.wf 0 m

/-- Every memory that the spec gives the tray, and host memory as far as the tray has written it, in canonical form. -/
def State.memsOk (s : State) : Bool :=
  Tab.wf ({} : Core) s.cores && s.cores.all (fun p => memOk p.2.mem) && memOk s.yard.mem && memOk s.knl.store && memOk s.hif.a.mem
  && memOk s.hif.b.mem

/-- A command in an engine: the registers that its issue fixed, and the bytes that its engine has staged for it. -/
def ECmd.tabsOk (m : ECmd) : Bool := Tab.wf 0 m.g && memOk m.got

/-- An engine: its operand buffer and its commands. -/
def EngSt.tabsOk (e : EngSt) : Bool := memOk e.buf && e.run.all ECmd.tabsOk && e.queue.all ECmd.tabsOk

/-- The tables of a core beside its memory: windows, segments, slots with their registers, parked contexts, engines. -/
def Core.tabsOk (k : Core) : Bool :=
  Tab.wf 0 k.wins && Tab.wf none k.segs && Tab.wf {} k.slots && k.slots.all (fun p => Tab.wf 0 p.2.g)
  && k.parked.all (fun q => Tab.wf 0 q.slot.g) && engineAll.all fun e => (k.eng e).tabsOk

/-- The MSI-X tables of a function. -/
def FnSt.tabsOk (f : FnSt) : Bool := Tab.wf 0 f.msixAddr && Tab.wf 0 f.msixData && Tab.wf 0 f.msixSent

/-- What a frozen grid instant keeps of the inputs. -/
def Frozen.tabsOk (z : Frozen) : Bool := Tab.wf 0 z.own && Tab.wf {} z.caps && Tab.wf {} z.rxf && Tab.wf {} z.dins

/-- Plant I/O: its tables, with the rules and filters, templates and staging windows in them. -/
def Pio.tabsOk (x : Pio) : Bool :=
  Tab.wf 0 x.own && Tab.wf {} x.macs && x.macs.all (fun p => Tab.wf 0 p.2.rules)
  && Tab.wf {} x.cans && x.cans.all (fun p => Tab.wf 0 p.2.fltA && Tab.wf 0 p.2.fltB)
  && Tab.wf {} x.rings && Tab.wf {} x.rxf && Tab.wf {} x.txf && Tab.wf {} x.maps && x.maps.all (fun p => memOk p.2.tmpl)
  && Tab.wf {} x.queues && x.queues.all (fun p => memOk p.2.staging)
  && Tab.wf {} x.caps && Tab.wf {} x.dins && Tab.wf {} x.pwms && Tab.wf {} x.douts
  && Tab.wf none x.txing && Tab.wf 0 x.sentFrames && Tab.wf [] x.lastSent

/-- The scheduler's tables. -/
def Sched.tabsOk (x : Sched) : Bool :=
  Tab.wf {} x.cmap && Tab.wf {} x.ymap && Tab.wf {} x.jobs && Tab.wf 0 x.spawnRef && Tab.wf 0 x.ovrCnt && Tab.wf 0 x.ovrNs

/-- The Kennel's tables. -/
def Knl.tabsOk (x : Knl) : Bool :=
  Tab.wf {} x.models && Tab.wf {} x.dir && Tab.wf {} x.sframes && Tab.wf 0 x.lvt && Tab.wf {} x.frames && Tab.wf 0 x.drange

/-- Every table of the tray but the memories of `State.memsOk`, in canonical form: register files, staging windows, operand buffers, and
whatever else the tray holds many of. -/
def State.tabsOk (s : State) : Bool :=
  s.cores.all (fun p => p.2.tabsOk) && s.hif.a.tabsOk && s.hif.b.tabsOk
  && Tab.wf {} s.hif.rings && Tab.wf {} s.hif.eqs && Tab.wf 0 s.hif.domevt && s.sched.tabsOk && s.knl.tabsOk
  && Tab.wf 0 s.tly.val && Tab.wf 0 s.tly.drange
  && Tab.wf {} s.yrd.chans && Tab.wf none s.yrd.slots && Tab.wf 0 s.yrd.rr
  && Tab.wf {} s.loop.slots && s.loop.slots.all (fun p => memOk p.2.staging) && s.loop.frozen.all Frozen.tabsOk
  && s.pio.tabsOk && Tab.wf 0 s.time.nextSync && Tab.wf 0 s.time.nextAnn && Tab.wf 0 s.time.nextPdelay && Tab.wf [] s.time.pdelay
  && Tab.wf none s.ras.log && Tab.wf 0 s.ras.linkFails && Tab.wf 0 s.ras.linkRetrains && Tab.wf {} s.twin.cmps
  && Tab.wf [] s.fuses.okey && s.sec.fuseJob.all fun j => Tab.wf [] j.f.okey

/-- Every command that waits names units of this tray. -/
def State.pendingOk (s : State) : Bool := s.pending.all (Instr.wf s.var.cores)

end Sys2Proof.Machine
end

