-- ==== Sys2Proof/Certificates/Slice0/Obligations.lean ====
section
/-!
DEFINITION. The statements for the provers.
-/

open Sys2Proof Sys2Proof.Machine

/-! ### Numbers and encodings -/

/-- R54 to R56 on the grid of multiples of `2^g`: rounding to nearest, ties to even, and to odd; a rounding to odd that keeps two bits more
does not change the rounding to nearest that follows. -/
def Obligations.RoundingIsNearestOrOdd : Prop :=
  ∀ (x : Dy) (g : Int),
    (x.e < g →
      let p := pow2 (g - x.e).toNat
      let q := (x.round .rne g).1
      let r := x.round .rto g
      2 * (x.m - q * p).natAbs ≤ p.natAbs ∧ (2 * (x.m - q * p).natAbs = p.natAbs → q % 2 = 0)
      ∧ (r.2 = true ↔ x.m % p = 0) ∧ (r.2 = true → x.m = r.1 * p)
      ∧ (r.2 = false → (x.m - r.1 * p).natAbs < p.natAbs ∧ r.1 % 2 = 1))
    ∧ (g ≤ x.e → ∀ m, x.round m g = (x.m * pow2 (x.e - g).toNat, true))
    ∧ ∀ h, g + 2 ≤ h → (Dy.round .rne h ⟨(x.round .rto g).1, g⟩).1 = (x.round .rne h).1

/-- R253: the fields of a short and of a long instruction stand in their bits. -/
def Obligations.InstructionWordsSpellTheirFields : Prop :=
  (∀ (opc : Nat) (f : SFields), opc < 256 →
    let w := shortWord opc f
    w < 2 ^ 64 ∧ natBits w 63 56 = opc ∧ natBits w 55 51 = f.rd.toNat ∧ natBits w 50 46 = f.ra.toNat ∧ natBits w 45 41 = f.rb.toNat
    ∧ natBits w 40 39 = f.rnd.toNat ∧ natBit w 38 = f.i ∧ natBits w 37 32 = f.res.toNat ∧ natBits w 31 0 = f.imm.toNat)
  ∧ (∀ (opc : Nat) (f : LFields), opc < 256 →
    let w := longWord0 opc f * 2 ^ 64 + longWord1 f
    longWord1 f < 2 ^ 64 ∧ natBits w 127 120 = opc ∧ natBits w 119 118 = f.rnd.toNat ∧ natBits w 117 108 = f.scl.toNat
    ∧ natBits w 107 103 = f.preg.toNat ∧ natBits w 102 96 = f.res.toNat ∧ natBits w 95 80 = f.op0.toNat ∧ natBits w 79 64 = f.op1.toNat
    ∧ natBits w 63 48 = f.op2.toNat ∧ natBits w 47 32 = f.op3.toNat ∧ natBits w 31 0 = f.param.toNat)

/-! ### The Sequencer -/

/-- R86, R255: each integer operation of one cycle writes RD with its result and nothing else. -/
def Obligations.IntegerOperationsWriteRd : Prop :=
  ∀ (s : State) (c k : Nat) (f : SFields),
    let x := s.slot c k
    let a := srcA x f
    let b := srcB x f
    let n := b.toNat % 64
    ∀ p ∈ ([ (.add c k f, 0x01, srcRegs f, a + b), (.sub c k f, 0x02, srcRegs f, a - b),
             (.and c k f, 0x07, srcRegs f, a &&& b), (.or c k f, 0x08, srcRegs f, a ||| b), (.xor c k f, 0x09, srcRegs f, a ^^^ b),
             (.shl c k f, 0x0A, srcRegs f, a <<< n), (.shr c k f, 0x0B, srcRegs f, a >>> n), (.sar c k f, 0x0C, srcRegs f, a.sshiftRight n),
             (.cmplt c k f, 0x0D, srcRegs f, if a.toInt < b.toInt then 1 else 0),
             (.cmpltu c k f, 0x0E, srcRegs f, if a.toNat < b.toNat then 1 else 0),
             (.cmpeq c k f, 0x0F, srcRegs f, if a = b then 1 else 0),
             (.li c k f, 0x14, [], f.imm.signExtend 64),
             (.lih c k f, 0x15, [f.rd.toNat], f.imm ++ (x.reg f.rd.toNat).setWidth 32),
             (.sel c k f, 0x16, srcRegs f, if x.cy then a else b),
             (.corenum c k f, 0x36, [], BitVec.ofNat 64 c) ] : List (Instr × Nat × List Nat × Word)),
      s.issues c k p.2.1 f p.2.2.1 [f.rd.toNat] →
      ∃ t, exec p.1 s = .next t ∧ (t.slot c k).reg f.rd.toNat = p.2.2.2
        ∧ Issued s t c k (plainEntry p.2.1 1 [] .none) (x.pc + 8) x.cy [f.rd.toNat]

/-- R86 to R88: the operations that write CY, and NOP and SWAP. Products and quotients, with the cycles that their operands'
magnitudes give. -/
def Obligations.CarryOperationsAndProducts : Prop :=
  (
  ∀ (s : State) (c k : Nat) (f : SFields),
    let x := s.slot c k
    let a := srcA x f
    let b := srcB x f
    let cin := if x.cy then 1 else 0
    (s.issues c k 0x03 f (srcRegs f) [f.rd.toNat] → ∃ t, exec (.addc c k f) s = .next t
      ∧ (t.slot c k).reg f.rd.toNat = BitVec.ofNat 64 (a.toNat + b.toNat + cin)
      ∧ Issued s t c k (plainEntry 0x03 1 [] .none) (x.pc + 8) (decide (2 ^ 64 ≤ a.toNat + b.toNat + cin)) [f.rd.toNat])
    ∧ (s.issues c k 0x04 f (srcRegs f) [f.rd.toNat] → ∃ t, exec (.subb c k f) s = .next t
      ∧ (t.slot c k).reg f.rd.toNat = BitVec.ofInt 64 ((a.toNat : Int) - b.toNat - cin)
      ∧ Issued s t c k (plainEntry 0x04 1 [] .none) (x.pc + 8) (decide (a.toNat < b.toNat + cin)) [f.rd.toNat])
    ∧ (s.issues c k 0x05 f [] [] → ∃ t, exec (.setcy c k f) s = .next t
      ∧ Issued s t c k (plainEntry 0x05 1 [] .none) (x.pc + 8) true [])
    ∧ (s.issues c k 0x06 f [] [] → ∃ t, exec (.clrcy c k f) s = .next t
      ∧ Issued s t c k (plainEntry 0x06 1 [] .none) (x.pc + 8) false [])
    ∧ (s.issues c k 0x00 f [] [] → ∃ t, exec (.nop c k f) s = .next t
      ∧ Issued s t c k (plainEntry 0x00 1 [] .none) (x.pc + 8) x.cy [])
    ∧ (f.i = false → s.issues c k 0x17 f [f.ra.toNat, f.rb.toNat] [f.ra.toNat, f.rb.toNat] → ∃ t, exec (.swap c k f) s = .next t
      ∧ (t.slot c k).reg f.ra.toNat = x.reg f.rb.toNat ∧ (t.slot c k).reg f.rb.toNat = x.reg f.ra.toNat
      ∧ Issued s t c k (plainEntry 0x17 1 [] .none) (x.pc + 8) x.cy [f.ra.toNat, f.rb.toNat]))
  ∧ (
  ∀ (s : State) (c k : Nat) (f : SFields),
    let x := s.slot c k
    let a := srcA x f
    let b := srcB x f
    let mul := fun (m : Nat) => 2 + (max 1 (bits m) + 7) / 8
    let div := fun (m n : Nat) => 4 + ((64 - bits n) - (64 - bits m) + 1 + 3) / 4
    let prod := fun (i : Int) => ((BitVec.ofInt 64 i, BitVec.ofInt 64 (i / 2 ^ 64)) : Word × Word)
    ∀ p ∈ ([ (.mulu c k f, 0x10, prod (a.toNat * b.toNat : Int), mul b.toNat),
             (.muls c k f, 0x11, prod (a.toInt * b.toInt), mul b.toInt.natAbs),
             (.divu c k f, 0x12, if b = 0 then (-1, a) else (BitVec.ofNat 64 (a.toNat / b.toNat), BitVec.ofNat 64 (a.toNat % b.toNat)),
               div a.toNat b.toNat),
             (.divs c k f, 0x13, if b = 0 then (-1, a) else (BitVec.ofInt 64 (a.toInt.tdiv b.toInt), BitVec.ofInt 64 (a.toInt.tmod b.toInt)),
               div a.toInt.natAbs b.toInt.natAbs) ] : List (Instr × Nat × (Word × Word) × Nat)),
      f.rd.toNat % 2 = 0 → s.issues c k p.2.1 f (srcRegs f) [f.rd.toNat, f.rd.toNat + 1] →
      ∃ t, exec p.1 s = .next t ∧ (t.slot c k).reg f.rd.toNat = p.2.2.1.1 ∧ (t.slot c k).reg (f.rd.toNat + 1) = p.2.2.1.2
        ∧ Issued s t c k (plainEntry p.2.1 p.2.2.2 [] .none) (x.pc + 8) x.cy [f.rd.toNat, f.rd.toNat + 1])

/-- R44, R45, R57, R89, R255: HF24 arithmetic and conversions write RD, and their flags wait for retirement. Their results: the special ones of
R45, and otherwise the exact sum, difference, product, quotient, root or converted integer, rounded to nearest or to odd; HCVTF rounds to the
grid of its fraction length and stores the nearest extreme beyond HQ64. That HCVTF writes the width of HQ64 is the model's reading (log
entry 243), and that a zero divisor has no sign where the dividend is infinite. -/
def Obligations.HalfFloatOperationsWriteRd : Prop :=
  (∀ (s : State) (c k : Nat) (f : SFields) (r : Rnd),
    let x := s.slot c k
    let a := (srcA x f).toNat % 2 ^ 24
    let b := (srcB x f).toNat % 2 ^ 24
    let q := f.imm.toNat % 64
    let hf := fun (r : Nat × List Nat) => ((BitVec.ofNat 64 r.1, r.2) : Word × List Nat)
    ∀ p ∈ ([ (.hadd c k f, 0x18, srcRegs f, hf (hfAdd r a b), 3), (.hsub c k f, 0x19, srcRegs f, hf (hfSub r a b), 3),
             (.hmul c k f, 0x1A, srcRegs f, hf (hfMul r a b), 3), (.hdiv c k f, 0x1B, srcRegs f, hf (hfDiv r a b), 8),
             (.hsqrt c k f, 0x1C, [f.ra.toNat], hf (hfSqrt r a), 10),
             (.hcvti c k f, 0x1E, [f.ra.toNat], hf (hfRound r ⟨(srcA x f).toInt, -(q : Int)⟩), 3),
             (.hcvtf c k f, 0x1F, [f.ra.toNat], storeScalar fmtHQ64 q r (XV.ofHV (hfVal a)), 3) ]
             : List (Instr × Nat × List Nat × (Word × List Nat) × Nat)),
      Rnd.ofField f.rnd.toNat = some r → q ≤ 62 → s.issues c k p.2.1 f p.2.2.1 [f.rd.toNat] →
      ∃ t, exec p.1 s = .next t ∧ (t.slot c k).reg f.rd.toNat = p.2.2.2.1.1
        ∧ Issued s t c k (plainEntry p.2.1 p.2.2.2.2 p.2.2.2.1.2 .none) (x.pc + 8) x.cy [f.rd.toNat])
  ∧ (∀ (r : Rnd) (a b : Nat) (x y : Dy), hfVal a = .fin x → hfVal b = .fin y →
    HfRounds r ((x.val : ℝ) + (y.val : ℝ)) (hfAdd r a b)
    ∧ HfRounds r ((x.val : ℝ) - (y.val : ℝ)) (hfSub r a b)
    ∧ HfRounds r ((x.val : ℝ) * (y.val : ℝ)) (hfMul r a b)
    ∧ (y.val ≠ 0 → HfRounds r ((x.val : ℝ) / (y.val : ℝ)) (hfDiv r a b))
    ∧ (y.val = 0 → x.val = 0 → hfDiv r a b = (hfNaN, [fInvalid]))
    ∧ (y.val = 0 → x.val ≠ 0 → hfDiv r a b = (hfInf (decide (x.val < 0)), [fDivZero]))
    ∧ (0 ≤ x.val → HfRounds r (Real.sqrt (x.val : ℝ)) (hfSqrt r a))
    ∧ (x.val < 0 → hfSqrt r a = (hfNaN, [fInvalid])))
  ∧ (∀ (r : Rnd) (n : Int) (q : Nat), HfRounds r ((n : ℝ) / 2 ^ q) (hfRound r ⟨n, -(q : Int)⟩))
  ∧ (∀ (r : Rnd) (a b : Nat),
    ((hfVal a = .nan ∨ hfVal b = .nan) →
      hfAdd r a b = (hfNaN, []) ∧ hfSub r a b = (hfNaN, []) ∧ hfMul r a b = (hfNaN, []) ∧ hfDiv r a b = (hfNaN, []))
    ∧ (hfVal a = .nan → hfSqrt r a = (hfNaN, []))
    ∧ (∀ p, hfVal a = .inf p → hfSqrt r a = if p = true then (hfNaN, [fInvalid]) else (hfInf false, []))
    ∧ (∀ p q, hfVal a = .inf p → hfVal b = .inf q →
      hfAdd r a b = (if p = q then (hfInf p, []) else (hfNaN, [fInvalid]))
      ∧ hfSub r a b = (if p = q then (hfNaN, [fInvalid]) else (hfInf p, []))
      ∧ hfMul r a b = (hfInf (p != q), []) ∧ hfDiv r a b = (hfNaN, [fInvalid]))
    ∧ (∀ p y, hfVal a = .inf p → hfVal b = .fin y →
      hfAdd r a b = (hfInf p, []) ∧ hfSub r a b = (hfInf p, [])
      ∧ hfMul r a b = (if y.val = 0 then (hfNaN, [fInvalid]) else (hfInf (p != decide (y.val < 0)), []))
      ∧ hfDiv r a b = (hfInf (p != decide (y.val < 0)), []))
    ∧ (∀ x q, hfVal a = .fin x → hfVal b = .inf q →
      hfAdd r a b = (hfInf q, []) ∧ hfSub r a b = (hfInf !q, [])
      ∧ hfMul r a b = (if x.val = 0 then (hfNaN, [fInvalid]) else (hfInf (q != decide (x.val < 0)), []))
      ∧ hfDiv r a b = (0, [])))
  ∧ (∀ (r : Rnd) (q a : Nat), q ≤ 62 →
    (hfVal a = .nan → storeScalar fmtHQ64 q r (XV.ofHV (hfVal a)) = (0, [fInvalid]))
    ∧ (∀ p, hfVal a = .inf p → storeScalar fmtHQ64 q r (XV.ofHV (hfVal a)) =
        (BitVec.ofInt 64 (if p = true then -2 ^ 63 else 2 ^ 63 - 1), [fSat, fRange]))
    ∧ (∀ x, hfVal a = .fin x →
      let k := (x.round r (-(q : Int))).1
      storeScalar fmtHQ64 q r (XV.ofHV (hfVal a)) =
        if k < -2 ^ 63 then (BitVec.ofInt 64 (-2 ^ 63), [fSat, fRange])
        else if 2 ^ 63 ≤ k then (BitVec.ofInt 64 (2 ^ 63 - 1), [fSat, fRange])
        else (BitVec.ofInt 64 k, if k = 0 ∧ x.val ≠ 0 then [fUnder] else [])))

/-- R42, R46, R255: the values that HF24 encodings have; their comparison is exact, a NaN is unordered, and HCMP writes CY by its condition,
raises no flag and changes nothing else. -/
def Obligations.HalfFloatCompareWritesCarry : Prop :=
  (∀ (s : State) (c k : Nat) (f : SFields),
    let x := s.slot c k
    let a := (x.reg f.ra.toNat).toNat % 2 ^ 24
    let b := (x.reg f.rb.toNat).toNat % 2 ^ 24
    f.i = false → f.imm.toNat ≤ 5 → s.issues c k 0x1D f [f.ra.toNat, f.rb.toNat] [] →
    ∃ t, exec (.hcmp c k f) s = .next t
      ∧ Issued s t c k (plainEntry 0x1D 1 [] .none) (x.pc + 8) (hfCmp f.imm.toNat a b) [])
  ∧ (∀ (b : Nat),
    let sign : Rat := if natBit b 23 then -1 else 1
    let x := natBits b 22 15
    let f := natBits b 14 0
    (x = 255 → f ≠ 0 → hfVal b = .nan) ∧ (x = 255 → f = 0 → hfVal b = .inf (natBit b 23))
    ∧ (x = 0 → ∃ v, hfVal b = .fin v ∧ v.val = sign * (f / 2 ^ 15) * 2 ^ (-126 : Int))
    ∧ (1 ≤ x → x ≤ 254 → ∃ v, hfVal b = .fin v ∧ v.val = sign * (1 + f / 2 ^ 15) * 2 ^ ((x : Int) - 127)))
  ∧ (hfVal 0x000001 = .fin ⟨1, -141⟩ ∧ hfVal 0x3F8000 = .fin ⟨0x8000, -15⟩ ∧ hfVal 0x7F7FFF = .fin ⟨0xFFFF, 112⟩
    ∧ hfVal 0x7F8000 = .inf false ∧ hfVal 0xFF8000 = .inf true ∧ hfVal hfNaN = .nan ∧ hfNaN = 0x7FC000)
  ∧ (∀ (a b i : Nat), i ≤ 5 →
    ((hfVal a = .nan ∨ hfVal b = .nan) → hfCmp i a b = decide (i = 5))
    ∧ (∀ x y, hfVal a = .fin x → hfVal b = .fin y → (hfCmp i a b = true ↔
      (match i with
        | 0 => x.val < y.val
        | 1 => x.val ≤ y.val
        | 2 => x.val = y.val
        | 3 => y.val ≤ x.val
        | 4 => y.val < x.val
        | _ => x.val ≠ y.val)))
    ∧ (∀ y, hfVal a = .inf false → hfVal b = .fin y → hfCmp i a b = decide (i = 3 ∨ i = 4 ∨ i = 5))
    ∧ (∀ y, hfVal a = .inf true → hfVal b = .fin y → hfCmp i a b = decide (i = 0 ∨ i = 1 ∨ i = 5))
    ∧ (∀ x, hfVal a = .fin x → hfVal b = .inf false → hfCmp i a b = decide (i = 0 ∨ i = 1 ∨ i = 5))
    ∧ (∀ x, hfVal a = .fin x → hfVal b = .inf true → hfCmp i a b = decide (i = 3 ∨ i = 4 ∨ i = 5))
    ∧ (∀ p q, hfVal a = .inf p → hfVal b = .inf q → hfCmp i a b =
      (if p = q then decide (i = 1 ∨ i = 2 ∨ i = 3) else if p = true then decide (i = 0 ∨ i = 1 ∨ i = 5) else decide (3 ≤ i))))

/-- R255: branches. That a target wraps modulo 2^64, and that one outside the segment is found at the next issue, is the model's reading
(log entry 38). -/
def Obligations.BranchesTakenAndNotTaken : Prop :=
  ∀ (s : State) (c k : Nat) (f : SFields),
    let x := s.slot c k
    let target := (((x.pc : Int) + 8 * f.imm.toInt) % 2 ^ 64).toNat
    ∀ p ∈ ([ (.br c k f, 0x2C, [], true), (.bnz c k f, 0x2D, [f.ra.toNat], x.reg f.ra.toNat != 0),
             (.bz c k f, 0x2E, [f.ra.toNat], x.reg f.ra.toNat == 0), (.bcy c k f, 0x2F, [], x.cy) ]
             : List (Instr × Nat × List Nat × Bool)),
      s.issues c k p.2.1 f p.2.2.1 [] →
      ∃ t, exec p.1 s = .next t
        ∧ Issued s t c k (plainEntry p.2.1 (if p.2.2.2 then 2 else 1) [] .none) (if p.2.2.2 then target else x.pc + 8) x.cy []

/-- R140, R155, R161, R162, R165, R170, R173, R255, R442, R499: an aligned load of the slot's own core memory, or of a granule of its domain,
that meets no error. An aligned store to them writes the bytes at RA + IMM and no other byte of memory. One that names another core's memory
goes onto the mesh as one word, and does not retire before that word has ended there. A misaligned one, or one whose address decodes to
nothing that the Sequencer reaches, reads zero or stores nothing and is recorded, and so is one that the Yard refuses, which is counted too;
each retires normally. An uncorrectable unit that a load meets, or that a store cannot merge with, and a path that a failed link cuts, give
DATA_ERROR. That LD32 leaves the upper half of RD zero is the model's reading (log entry 14). -/
def Obligations.LoadsAndStores : Prop :=
  (
  ∀ (s : State) (c k : Nat) (f : SFields),
    let x := s.slot c k
    let a := lsAddr x f
    ∀ p ∈ ([(.ld32 c k f, 0x20, 4), (.ld64 c k f, 0x21, 8)] : List (Instr × Nat × Nat)),
      s.issues c k p.2.1 f [f.ra.toNat] [f.rd.toNat] → a % p.2.2 = 0 →
      (∀ off, s.place a = .core c off → (s.core c).lsHeld a p.2.2 false = false → (s.core c).badIn off (off + p.2.2) = [] →
          (s.core c).weakIn off (off + p.2.2) = [] →
        ∃ t, exec p.1 s = .next t ∧ (t.slot c k).reg f.rd.toNat = BitVec.ofNat 64 (s.word a p.2.2)
          ∧ Issued s t c k (plainEntry p.2.1 6 [] .none) (x.pc + 8) x.cy [f.rd.toNat])
      ∧ (∀ off, s.place a = .yard off → s.yardOk (s.slotDom c k) off = true → s.yardCut c off = false →
          s.yardBadIn off (off + p.2.2) = [] → s.yardWeakIn off (off + p.2.2) = [] →
        ∃ t, exec p.1 s = .next t ∧ (t.slot c k).reg f.rd.toNat = BitVec.ofNat 64 (s.word a p.2.2)
          ∧ Issued s t c k (plainEntry p.2.1 14 [] .none) (x.pc + 8) x.cy [f.rd.toNat]))
  ∧ (
  ∀ (s : State) (c k : Nat) (f : SFields),
    let x := s.slot c k
    let a := lsAddr x f
    let v := (x.reg f.rd.toNat).toNat
    ∀ p ∈ ([(.st32 c k f, 0x22, 4), (.st64 c k f, 0x23, 8)] : List (Instr × Nat × Nat)),
      s.issues c k p.2.1 f [f.ra.toNat, f.rd.toNat] [] → a % p.2.2 = 0 → s.memsOk = true →
      ((∃ off, s.place a = .core c off ∧ (s.core c).lsHeld a p.2.2 true = false)
        ∨ (∃ off, s.place a = .yard off ∧ s.yardOk (s.slotDom c k) off = true ∧ s.yardCut c off = false
          ∧ s.yardBadIn off (off + p.2.2) = [])) →
      ∃ t, exec p.1 s = .next t
        ∧ (∀ i, i < p.2.2 → t.rd (a + i) = v / 256 ^ i % 256)
        ∧ (∀ b, b < a ∨ a + p.2.2 ≤ b → t.rd b = s.rd b)
        ∧ SlotIssued x (t.slot c k) (plainEntry p.2.1 1 [] .none) (x.pc + 8) x.cy [] ∧ x.keeps (t.slot c k)
        ∧ (∀ c' k', c' ≠ c ∨ k' ≠ k → t.slot c' k' = s.slot c' k')
        ∧ { t with cores := s.cores, yard := s.yard } = s)
  ∧ (
  ∀ (s : State) (c k : Nat) (f : SFields),
    let x := s.slot c k
    let a := lsAddr x f
    let d := s.slotDom c k
    let rd := f.rd.toNat
    let nowhere := fun (w : Nat) => a % w ≠ 0 ∨ (∃ b, s.place a = .regs b) ∨ (∃ b, s.place a = .store b) ∨ s.place a = .nowhere
    let lost := s.recordN 1 3 1 (some d) skCore c (a % 2 ^ 48) 0
    let refused := State.recordN { s with ras := { s.ras with yref := satAdd 16 s.ras.yref 1 } } 1 3 0 (some d) skCore c (a % 2 ^ 48) 0
    let failed := fun (opc cycles n : Nat) => (⟨n, opc, 0, true, cycles, [], some (.dataError (lineAddr a)), .none⟩ : RetEntry)
    let waits := fun (opc n : Nat) => (⟨n, opc, 0, false, 1, [], none, .none⟩ : RetEntry)
    let word := fun (t w v : Nat) (wr : Bool) => ({ src := c, slot := k, uid := x.uid.getD 0, cseq := x.cseq, tgt := t, addr := a
                                                    write := wr, width := w, val := v, reg := if wr then 0 else rd, left := 0, laddr := 0 } : RWord)
    (∀ p ∈ ([(.ld32 c k f, 0x20, 4), (.ld64 c k f, 0x21, 8)] : List (Instr × Nat × Nat)),
      s.issues c k p.2.1 f [f.ra.toNat] [rd] →
      (nowhere p.2.2 → ∃ t, exec p.1 s = .next t ∧ (t.slot c k).reg rd = 0
        ∧ Issued lost t c k (plainEntry p.2.1 1 [] .none) (x.pc + 8) x.cy [rd])
      ∧ (a % p.2.2 = 0 → ∀ off, s.place a = .yard off →
        (s.yardOk d off = false → ∃ t, exec p.1 s = .next t ∧ (t.slot c k).reg rd = 0
          ∧ Issued refused t c k (plainEntry p.2.1 1 [] .none) (x.pc + 8) x.cy [rd])
        ∧ (s.yardOk d off = true → s.yardCut c off = true → ∃ t, exec p.1 s = .next t
          ∧ Issued s t c k (failed p.2.1 1) (x.pc + 8) x.cy [])
        ∧ (s.yardOk d off = true → s.yardCut c off = false → s.yardBadIn off (off + p.2.2) ≠ [] → ∃ t, exec p.1 s = .next t
          ∧ Issued (s.ueMet 0 (some d) skSlice (s.slice off) (lineAddr a)) t c k (failed p.2.1 14) (x.pc + 8) x.cy []))
      ∧ (a % p.2.2 = 0 → ∀ off, s.place a = .core c off → (s.core c).lsHeld a p.2.2 false = false →
        (s.core c).badIn off (off + p.2.2) ≠ [] → ∃ t, exec p.1 s = .next t
          ∧ Issued (s.ueMet 0 (some d) skCore c (lineAddr a)) t c k (failed p.2.1 6) (x.pc + 8) x.cy [])
      ∧ (a % p.2.2 = 0 → ∀ o off, s.place a = .core o off → o ≠ c → x.remote = none → ∃ t, exec p.1 s = .next t
        ∧ t.mesh = s.mesh ++ [word o p.2.2 0 false] ∧ (t.slot c k).remote = some rd
        ∧ SlotIssued x (t.slot c k) (waits p.2.1) (x.pc + 8) x.cy [] ∧ (∀ b, t.rd b = s.rd b)
        ∧ (∀ c' k', c' ≠ c ∨ k' ≠ k → t.slot c' k' = s.slot c' k') ∧ { t with cores := s.cores, mesh := s.mesh } = s))
    ∧ (∀ p ∈ ([(.st32 c k f, 0x22, 4), (.st64 c k f, 0x23, 8)] : List (Instr × Nat × Nat)),
      let v := (x.reg rd).toNat
      s.issues c k p.2.1 f [f.ra.toNat, rd] [] →
      (nowhere p.2.2 → ∃ t, exec p.1 s = .next t ∧ Issued lost t c k (plainEntry p.2.1 1 [] .none) (x.pc + 8) x.cy [])
      ∧ (a % p.2.2 = 0 → ∀ off, s.place a = .yard off →
        let w := s.yardWrite (bytesAt off (toLE p.2.2 v))
        (s.yardOk d off = false → ∃ t, exec p.1 s = .next t
          ∧ Issued refused t c k (plainEntry p.2.1 1 [] .none) (x.pc + 8) x.cy [])
        ∧ (s.yardOk d off = true → s.yardCut c off = true → ∃ t, exec p.1 s = .next t
          ∧ Issued s t c k (failed p.2.1 1) (x.pc + 8) x.cy [])
        ∧ (s.yardOk d off = true → s.yardCut c off = false → w.2 ≠ [] → ∃ t, exec p.1 s = .next t
          ∧ Issued (w.1.ueMet 0 (some d) skSlice (s.slice off) (lineAddr a)) t c k (failed p.2.1 1) (x.pc + 8) x.cy []))
      ∧ (a % p.2.2 = 0 → ∀ o off, s.place a = .core o off → o ≠ c → ∃ t, exec p.1 s = .next t
        ∧ Issued { s with mesh := s.mesh ++ [word o p.2.2 (v % 2 ^ (8 * p.2.2)) true] } t c k (waits p.2.1) (x.pc + 8) x.cy [])))

/-- R165 to R167: WOPEN and WCLOSE take effect when they retire. -/
def Obligations.WindowsOpenAndCloseAtRetirement : Prop :=
  ∀ (s : State) (c k : Nat) (f : SFields),
    let x := s.slot c k
    (s.issues c k 0x26 f [f.ra.toNat] [] → ∃ t, exec (.wopen c k f) s = .next t
      ∧ Issued s t c k (plainEntry 0x26 1 [] (.wopen (f.imm.toNat % 8) (srcA x f).toNat)) (x.pc + 8) x.cy [])
    ∧ (s.issues c k 0x27 f [] [] → ∃ t, exec (.wclose c k f) s = .next t
      ∧ Issued s t c k (plainEntry 0x27 1 [] (.wclose (f.imm.toNat % 8))) (x.pc + 8) x.cy [])
    ∧ (∀ e n w, s.retires c k e → Tab.wf 0 (s.core c).wins = true → e.fault = none → raises fRange e.evs = false →
        (e.act = .wopen n w → natBits w 29 16 < natBits w 45 32 → natBits w 45 32 ≤ 12288 →
          ∃ t, exec (.retire c k) s = .next t
            ∧ (∀ i, Tab.get 0 (t.core c).wins i = if i = n then winBits w k else Tab.get 0 (s.core c).wins i))
        ∧ (e.act = .wclose n →
          ∃ t, exec (.retire c k) s = .next t
            ∧ (∀ i, Tab.get 0 (t.core c).wins i =
                if i = n then Tab.get 0 (s.core c).wins i / 2 * 2 else Tab.get 0 (s.core c).wins i)))

/-- R161, R162, R164, R165, R168, R195, R196, R198: XMOVE puts its block onto the mesh, or moves nothing where no beat of it reaches another
core; each REMOTE_WORD_ARRIVAL carries one word or one beat, outward or inward: what the target accepts is stored or loaded, what its windows
refuse is counted there, and with its last beat the XMOVE leaves the scoreboard and can retire. KGET of a page of its job's model reads the
frame that holds it, or waits for one; KENNEL_READ_DONE puts the bytes into core memory. The model's readings: the immediate in place of RB
(log entry 15), the source that a record names (18), beats to the own core or the Yard (20). -/
def Obligations.RemoteWordsAndPageTouches : Prop :=
  (
  (∀ (s : State) (c k : Nat) (f : SFields),
    let x := s.slot c k
    let n := f.imm.toNat % 512 + 1
    let inward := natBit f.imm.toNat 9
    let la := (srcA x f).toNat / 8 * 8
    let ra := (srcB x f).toNat / 8 * 8
    s.issues c k 0x24 f (srcRegs f) [] → coreBase c ≤ la → la + 8 * n ≤ coreBase c + coreBytes →
    (s.core c).lsHeld la (8 * n) inward = false →
    (∀ t, s.beatCore c ra n = some t → (s.core c).sb.length < 256 →
      ∃ u, exec (.xmove c k f) s = .next u
        ∧ u.mesh = s.mesh ++ [{ src := c, slot := k, uid := x.uid.getD 0, cseq := x.cseq, tgt := t, addr := ra, write := !inward
                                width := 8, val := 0, reg := 0, left := n, laddr := la }]
        ∧ (u.core c).sb = (s.core c).sb ++ [⟨x.uid.getD 0, x.cseq, la / 64, (la + 8 * n + 63) / 64, inward⟩]
        ∧ SlotIssued x (u.slot c k) (fun q => ⟨q, 0x24, 0, false, 1, [], none, .none⟩) (x.pc + 8) x.cy []
        ∧ (∀ a, u.rd a = s.rd a))
    ∧ (s.beatCore c ra n = none → inward = false →
      ∃ u, exec (.xmove c k f) s = .next u ∧ SlotIssued x (u.slot c k) (plainEntry 0x24 1 [] .none) (x.pc + 8) x.cy []
        ∧ u.mesh = s.mesh ∧ (∀ a, u.rd a = s.rd a)))
  ∧ (∀ (s : State) (w : RWord),
    let off := w.addr - coreBase w.tgt
    let gone := { s with mesh := s.mesh.erase w }
    (s.mesh.find? fun v => v.src == w.src && v.tgt == w.tgt) = some w → w.src < s.var.cores → w.tgt < s.var.cores →
    s.undeliverable w.src w.tgt = false →
    (w.left = 0 → w.write = true → s.remoteOk w.src w.tgt off w.width true = true →
      ∃ t, exec (.remoteWordArrival w.tgt w.src) s = .next t
        ∧ t = (gone.coreWrite w.tgt (bytesAt off (toLE w.width w.val))).1.complete w.src w.slot w.uid w.cseq none)
    ∧ (w.left = 0 → w.write = false → s.remoteOk w.src w.tgt off w.width false = true →
      (s.core w.tgt).badIn off (off + w.width) = [] → (s.core w.tgt).weakIn off (off + w.width) = [] →
      (s.slot w.src w.slot).uid = some w.uid → s.slotTabs w.src w.slot = true →
      ∃ t, exec (.remoteWordArrival w.tgt w.src) s = .next t ∧ t.mesh = s.mesh.erase w
        ∧ (t.slot w.src w.slot).reg w.reg = BitVec.ofNat 64 (s.word w.addr w.width) ∧ (t.slot w.src w.slot).remote = none
        ∧ (∀ e ∈ (t.slot w.src w.slot).ret, e.cseq = w.cseq → e.complete = true) ∧ (∀ a, t.rd a = s.rd a))
    ∧ (w.left = 0 → w.write = true → s.remoteOk w.src w.tgt off w.width true = false →
      ∃ t, exec (.remoteWordArrival w.tgt w.src) s = .next t
        ∧ t = ((gone.updCore w.tgt fun q => { q with winRefused := satAdd 32 q.winRefused 1 }).recordN 1 3 0 (some (s.owner w.src).dom) 0
            w.src (w.addr % 2 ^ 48) 0).complete w.src w.slot w.uid w.cseq none)
    ∧ (∀ t o, s.place w.addr = .core t o → t ≠ w.src →
      let lo := w.laddr - coreBase w.src
      let next := fun (u : State) => { w with
        addr := w.addr + 8, laddr := w.laddr + 8, left := w.left - 1
        tgt := (u.beatCore w.src (w.addr + 8) (w.left - 1)).getD w.tgt }
      let soundAt := fun (c a : Nat) => (s.core c).badIn a (a + 8) = [] ∧ (s.core c).weakIn a (a + 8) = []
      (s.remoteOk w.src t o 8 w.write = true → (if w.write = true then soundAt w.src lo else soundAt t o) →
        let u := if w.write = true then (s.coreWrite t (bytesAt o (toLE 8 (s.word w.laddr 8)))).1
          else (s.coreWrite w.src (bytesAt lo (toLE 8 (s.word w.addr 8)))).1
        (1 < w.left → exec (.remoteWordArrival w.tgt w.src) s = .next { u with mesh := s.mesh.map fun y => if y = w then next u else y })
        ∧ (w.left = 1 → w.refused = 0 → w.nowhere = 0 → exec (.remoteWordArrival w.tgt w.src) s = .next
            ((({ u with mesh := s.mesh.erase w } : State).updCore w.src fun q =>
              { q with sb := q.sb.filter fun r => !(r.uid == w.uid && r.cseq == w.cseq) }).complete w.src w.slot w.uid w.cseq none)))
      ∧ (s.remoteOk w.src t o 8 w.write = false → w.write = true → 1 < w.left →
        let u := s.updCore t fun q => { q with winRefused := satAdd 32 q.winRefused 1 }
        exec (.remoteWordArrival w.tgt w.src) s = .next { u with mesh := s.mesh.map fun y => if y = w then
          { next u with refused := w.refused + 1, firstBad := if w.refused = 0 then w.addr else w.firstBad } else y }))))
  ∧ (
  (∀ (s : State) (c k pn : Nat) (f : SFields),
    let x := s.slot c k
    let im := f.imm.toNat
    let off := natBits im 27 20 * 64
    let len := min (natBits im 19 12 * 64 + 64) (16384 - off)
    let dst := (srcA x f).toNat
    let t := fun (fr : Option Nat) => (⟨c, k, x.uid.getD 0, x.cseq, none, pn, off, len, dst, fr⟩ : Touch)
    let issued := fun (u : State) =>
      SlotIssued x (u.slot c k) (fun q => ⟨q, 0x25, 0, false, 1, [], none, .none⟩) (x.pc + 8) x.cy [] ∧ ∀ a, u.rd a = s.rd a
    s.issues c k 0x25 f (srcRegs f) [] → dst + len ≤ coreBytes → (s.core c).lsHeld (coreBase c + dst) len true = false →
    s.touchPage (s.slotJob c k) (natBits im 31 28) (srcB x f).toNat = some pn → (s.core c).sb.length < 256 →
    (∀ j fr, s.frameOf pn = some (j, fr) → (fr.st = .pinned ∨ (fr.st = .resident ∧ (s.slotJob c k).be = true)) →
      ∃ u, exec (.kget c k f) s = .next u
        ∧ u.knl = { s.knl with
            touches := s.knl.touches ++ [t (some j)], hits := satAdd 32 s.knl.hits 1
            frames := Tab.upd {} s.knl.frames j fun y => { y with ref := true, reads := y.reads + 1 } }
        ∧ issued u)
    ∧ (s.frameOf pn = none → (s.slotJob c k).be = true → s.knl.waiting.contains (.page pn) = false →
      ∃ u, exec (.kget c k f) s = .next u
        ∧ u.knl = { s.knl with
            touches := s.knl.touches ++ [t none], waiting := s.knl.waiting ++ [.page pn], misses := satAdd 32 s.knl.misses 1 }
        ∧ issued u))
  ∧ (∀ (s : State) (k : Nat) (u : Touch),
    let fr := Tab.get {} s.knl.frames k
    let lo := 16384 * k + u.off
    fr.reads ≠ 0 → fr.st ≠ .filling → fr.st ≠ .free →
    (s.knl.touches.find? fun t => t.frame == some k && t.chan.isNone) = some u →
    let ended := State.updCore { s with knl := { s.knl with touches := s.knl.touches.erase u } } u.core fun q =>
      { q with sb := q.sb.filter fun r => !(r.uid == u.uid && r.cseq == u.cseq) }
    let cut := (lineAddrs lo (lo + u.len)).find? fun o => s.yardCut u.core o
    (cut = none → s.yardBadIn lo (lo + u.len) = [] → s.yardWeakIn lo (lo + u.len) = [] →
      exec (.kennelReadDone k) s = .next (((ended.readEnds k).coreWriteUe u.core
        (bytesAt u.dst (s.yard.mem.read lo u.len)) (some (s.owner u.core).dom)).complete u.core u.slot u.uid u.cseq none))
    ∧ (∀ o, cut = some o → exec (.kennelReadDone k) s = .next
      ((ended.readEnds k).complete u.core u.slot u.uid u.cseq (some (.dataError (yardBase + o)))))))

/-- R229 to R231, R233, R448: TADD, TSET and TWAIT of a tally in the range of the task's domain, and refused ones, which are counted and
recorded; a WAIT that has been met completes, and a refused one never does. The operations that reach a tally together, none lost and none
twice: the largest SET takes the place of the value, then the sum of the ADDs is added; past 0xFFFF_FFFF the value stays there, SAT_CNT
goes up once and one record is written. Every WAIT and trigger is then tested. A failed tally refuses ADDs. The model's readings: the
immediate in place of RB (log entry 15), TWAIT holding the next issue (21), n and v modulo 2^32 (22), and the earlier work of the task that
an ADD waits for (181). -/
def Obligations.TallyInstructionsAndOperations : Prop :=
  (
  ∀ (s : State) (c k : Nat) (f : SFields),
    let x := s.slot c k
    let n := (srcA x f).toNat
    let v := (srcB x f).toNat % 2 ^ 32
    let d := s.slotDom c k
    (∀ p ∈ ([(.tadd c k f, 0x28, false), (.tset c k f, 0x29, true)] : List (Instr × Nat × Bool)),
      let op : TOp := ⟨n, p.2.2, v, d, x.uid, x.cseq⟩
      s.issues c k p.2.1 f (srcRegs f) [] →
      ∃ t, exec p.1 s = .next t ∧ SlotIssued x (t.slot c k) (plainEntry p.2.1 1 [] .none) (x.pc + 8) x.cy []
        ∧ { t with cores := s.cores } =
          (if s.tallyLost op = true then s
           else if n < tallies ∧ s.ownsTally d n = true then { s with tly := { s.tly with ops := s.tly.ops ++ [op] } }
           else s.tallyRefuse d n))
    ∧ (s.issues c k 0x2A f (srcRegs f) [] →
      let refused := s.waitRefused d n
      ∃ t, exec (.twait c k f) s = .next t ∧ (t.slot c k).wait =
          some ⟨x.cseq, n, v, refused, !refused && decide (v ≤ s.tallyVal n) && !s.ownPending (x.uid.getD 0) n x.cseq⟩
        ∧ (t.slot c k).cseq = x.cseq + 1 ∧ { t with cores := s.cores } = (if refused = true then s.tallyRefuse d n else s))
    ∧ (s.waitRefused d n = true ↔ ¬ (n < tallies ∧ s.ownsTally d n = true) ∨ s.tallyFailed n = true)
    ∧ s.tallyRefuse d n = ({ s with tly := { s.tly with refused := satAdd 32 s.tly.refused 1 } } : State).record 3 2 (some d) 7 0
        (tallyAddr n % 2 ^ 48) (n % 2 ^ 18)
    ∧ (∀ w uid, s.hasSlot c k = true → s.slotTabs c k = true → x.wait = some w → x.uid = some uid →
        (w.sat = true → w.refused = false → ∃ t, exec (.waitComplete c k) s = .next t ∧ (t.slot c k).wait = none
          ∧ (t.slot c k).ret = x.ret.map (fun e => if e.cseq = w.cseq then { e with complete := true } else e)
          ∧ { t with cores := s.cores } = s)
        ∧ (w.sat = false ∨ w.refused = true → exec (.waitComplete c k) s = .next s)))
  ∧ (
  (∀ (v : Nat) (l m : List TOp),
    let sets := l.filter (·.isSet)
    let sum := ((l.filter fun o => !o.isSet).map (·.n)).sum
    (l.Perm m → tallyNew v l = tallyNew v m)
    ∧ (sets = [] → (tallyNew v l).1 = min (v + sum) 0xFFFFFFFF ∧ ((tallyNew v l).2 = true ↔ 0xFFFFFFFF < v + sum))
    ∧ (∀ o ∈ sets, (∀ p ∈ sets, p.n ≤ o.n) →
      (tallyNew v l).1 = min (o.n + sum) 0xFFFFFFFF ∧ ((tallyNew v l).2 = true ↔ 0xFFFFFFFF < o.n + sum)))
  ∧ (∀ (s : State) (k n : Nat),
    let ops := pickOps s k n [] s.tly.ops
    s.tly.ops.Perm (ops ++ dropOps s.tly.ops ops) ∧ ops.length ≤ n
    ∧ (∀ o ∈ ops, o.tally = k ∧ s.opFree o = true
      ∧ ∀ u, o.uid = some u → s.tly.ops.find? (fun p => p.uid == some u && p.tally == k) = some o)
    ∧ (0 < n → (∃ o ∈ s.tly.ops, o.tally = k ∧ o.uid = none) → ops ≠ [])
    ∧ (k < tallies → ops = [] → exec (.tallyOpEffect k n) s = .next s)
    ∧ (k < tallies → ops ≠ [] → s.tallyFailed k = false ∨ (∃ o ∈ ops, o.isSet = true) →
      let r := tallyNew (s.tallyVal k) ops
      let u : State := { s with tly := { s.tly with
        ops := dropOps s.tly.ops ops
        failed := s.tly.failed.filter (· ≠ k)
        val := Tab.set 0 s.tly.val k r.1
        satCnt := if r.2 = true then satAdd 32 s.tly.satCnt 1 else s.tly.satCnt } }
      exec (.tallyOpEffect k n) s = .next
        ((if r.2 = true then u.record 3 2 (ops.head?.map (·.dom)) 7 0 (tallyAddr k % 2 ^ 48) k else u).testWaits k))
    ∧ (k < tallies → ops ≠ [] → s.tallyFailed k = true → (∀ o ∈ ops, o.isSet = false) → s.tallyVal k < 2 ^ 32 →
      Tab.wf 0 s.tly.val = true →
      exec (.tallyOpEffect k n) s = .next ((ops.foldl (fun (t : State) o => t.tallyRefuse o.dom k)
        { s with tly := { s.tly with ops := dropOps s.tly.ops ops } }).testWaits k)))
  ∧ (∀ (s : State) (k : Nat),
    let t := s.testWaits k
    (∀ c j w, s.slotTabs c j = true → (s.slot c j).wait = some w →
      (t.slot c j).wait = some { w with sat := w.sat || (decide (w.tally = k) && !w.refused && !s.tallyFailed k && decide (w.n ≤ s.tallyVal k)
        && !s.ownPending ((s.slot c j).uid.getD 0) k w.cseq) })
    ∧ (∀ uid y, s.task uid = some y →
      t.task uid = some (if y.st = .waiting ∧ y.trigTally = k ∧ y.trigSat = false ∧ s.tallyFailed k = false ∧ y.trigN ≤ s.tallyVal k
        then { y with trigSat := true, release := s.dt } else y))
    ∧ t.tly = s.tly ∧ { t with cores := s.cores, sched := s.sched, yrd := s.yrd } = s))

/-- R212, R214: a task block of SPAWN that meets every condition makes its tasks. -/
def Obligations.SpawnMakesTasks : Prop :=
  ∀ (s : State) (c k : Nat) (f : SFields),
    let x := s.slot c k
    let a := (srcA x f).toNat
    let b := TaskBlock.ofNat (s.word a 40)
    let d := s.slotDom c k
    s.issues c k 0x2B f [f.ra.toNat] [] → a % 64 = 0 → coreBase c ≤ a → a + 40 ≤ coreBase c + coreBytes →
    s.sound a 40 = true → s.blockRefusal d b = none → s.blockRoom d b = true →
    ∃ t, exec (.spawn c k f) s = .next t
      ∧ t.sched.tasks = s.sched.tasks ++ (List.range (b.countM1 + 1)).map (s.newTask d b)
      ∧ t.sched.nextUid = s.sched.nextUid + b.countM1 + 1
      ∧ SlotIssued x (t.slot c k) (plainEntry 0x2B 1 [] .none) (x.pc + 8) x.cy []
      ∧ { t with cores := s.cores, sched := { t.sched with tasks := s.sched.tasks, nextUid := s.sched.nextUid } } = s

/-- R94, R96, R97, R113: the solve control under SOLVE, OUTER, INNER, PRECSWAP and FINISH. -/
def Obligations.SolveControlInstructions : Prop :=
  ∀ (s : State) (c k : Nat) (f : SFields),
    let x := s.slot c k
    let sc := x.sc
    let a := (srcA x f).toNat
    let v := s.word a 64
    let sb := natBits v 511 464
    let ns := natBits v 463 460
    (s.issues c k 0x30 f [f.ra.toNat] [] → sc.solved = false → a % 64 = 0 → s.taskRange c (s.slotDom c k) a 64 = true →
        natBits v 353 352 < 2 → sb % 16 = 0 → s.taskRange c (s.slotDom c k) sb (16 * ns) = true → s.sound a 64 = true →
        s.sound sb (16 * ns) = true → spbOk v (schedOk none ((List.range ns).map fun i => s.word (sb + 16 * i) 16)) = true →
      ∃ t, exec (.solve c k f) s = .next t ∧ (t.slot c k).sc = SolveCtl.ofSpb v
        ∧ SlotIssued x (t.slot c k) (plainEntry 0x30 4 [] .solve) (x.pc + 8) x.cy [])
    ∧ (s.issues c k 0x31 f [] [] → sc.solved = true →
      ∃ t, exec (.outer c k f) s = .next t
        ∧ (sc.outCnt ≠ sc.capOut → (t.slot c k).sc = { sc with outCnt := sc.outCnt + 1, inCnt := 0 }
          ∧ SlotIssued x (t.slot c k) (plainEntry 0x31 1 [] .outer) (x.pc + 8) x.cy [])
        ∧ (sc.outCnt = sc.capOut → (t.slot c k).stopIssue = true
          ∧ SlotIssued x (t.slot c k) (plainEntry 0x31 1 [] .cap) (x.pc + 8) x.cy []))
    ∧ (s.issues c k 0x32 f [] [] → sc.solved = true →
      ∃ t, exec (.inner c k f) s = .next t
        ∧ (sc.inCnt ≠ sc.capIn → (t.slot c k).sc = { sc with inCnt := sc.inCnt + 1 })
        ∧ (sc.inCnt = sc.capIn → (t.slot c k).sc = sc)
        ∧ SlotIssued x (t.slot c k) (plainEntry 0x32 1 [] (if sc.inCnt = sc.capIn then .none else .inner)) (x.pc + 8)
            (decide (sc.inCnt = sc.capIn)) [])
    ∧ (s.issues c k 0x33 f [] [] → sc.solved = true → sc.stgDone = true →
      ∃ t, exec (.precswap c k f) s = .next t
        ∧ (t.slot c k).sc = { sc with psel := !sc.psel, stgDone := false, swapped := true }
        ∧ SlotIssued x (t.slot c k) (plainEntry 0x33 1 [] .none) (x.pc + 8) x.cy [])
    ∧ (s.issues c k 0x35 f [] [] →
      ∃ t, exec (.finish c k f) s = .next t ∧ (t.slot c k).stopIssue = true
        ∧ SlotIssued x (t.slot c k) (plainEntry 0x35 2 [] (.finish (f.imm.toNat % 16))) (x.pc + 8) x.cy [])

/-! ### Engine commands and retirement -/

/-- R65, R81, R157, R256: every engine command that passes its checks enters its engine's queue and the scoreboard. -/
def Obligations.EngineCommandsEnterTheirQueues : Prop :=
  ∀ (s : State) (c k : Nat) (f : LFields),
    ∀ p ∈ ([ (.spmv c k f, specSpmv), (.vscale c k f, specVscale), (.dgemm c k f, specDgemm), (.bdapply c k f, specBdapply),
             (.formk c k f, specFormk), (.fact c k f, specFact), (.invblk c k f, specInvblk), (.vadd c k f, specVadd),
             (.vsub c k f, specVsub), (.vmul c k f, specVmul), (.vmadd c k f, specVmadd), (.vclr c k f, specVclr),
             (.vcopy c k f, specVcopy), (.vcvt c k f, specVcvt), (.vsel c k f, specVsel), (.vclamp c k f, specVclamp),
             (.vneg c k f, specVneg), (.vabs c k f, specVabs), (.shift c k f, specShift), (.vdot c k f, specVdot),
             (.vmaxabs c k f, specVmaxabs), (.vsumh c k f, specVsumh), (.rspmv c k f, specRspmv), (.rmul c k f, specRmul),
             (.lmatv c k f, specLmatv), (.rdot c k f, specRdot) ] : List (Instr × CmdSpec)),
      s.issuesCmd c k p.2 f →
      ∃ t m, exec p.1 s = .next t ∧ CmdIssued s t c k p.2 (s.mkCmd c k p.2 f) m

/-- R82, R141, R253, R254: an instruction with a reserved field, or a field outside its range, takes its CSEQ, reaches no engine, writes
nothing, and stops issue: every short instruction, every engine command and COMMIT. That a RND field outside HF24 is reserved where it is
not 0 (log entry 12), and a fraction length of 63 (13), is the model's reading. -/
def Obligations.ReservedFieldsStopIssue : Prop :=
  ∀ (s : State) (c k : Nat),
    let stops := fun (i : Instr) (opc : Nat) => ∃ t, exec i s = .next t ∧ (t.slot c k).stopIssue = true ∧ OnlySlot s t c k
      ∧ SlotIssued (s.slot c k) (t.slot c k) (fun n => ⟨n, opc, 0, true, 1, [], some .malformed, .none⟩) (s.slot c k).pc (s.slot c k).cy []
    (∀ (f : SFields),
      let odd := decide (f.rd.toNat % 2 = 1)
      let cmp := f.i || decide (5 < f.imm.toNat)
      let q63 := decide (f.imm.toNat % 64 = 63)
      ∀ p ∈ ([ (.nop c k f, 0x00, false), (.add c k f, 0x01, false), (.sub c k f, 0x02, false), (.addc c k f, 0x03, false),
             (.subb c k f, 0x04, false), (.setcy c k f, 0x05, false), (.clrcy c k f, 0x06, false), (.and c k f, 0x07, false),
             (.or c k f, 0x08, false), (.xor c k f, 0x09, false), (.shl c k f, 0x0A, false), (.shr c k f, 0x0B, false),
             (.sar c k f, 0x0C, false), (.cmplt c k f, 0x0D, false), (.cmpltu c k f, 0x0E, false), (.cmpeq c k f, 0x0F, false),
             (.mulu c k f, 0x10, odd), (.muls c k f, 0x11, odd), (.divu c k f, 0x12, odd), (.divs c k f, 0x13, odd),
             (.li c k f, 0x14, false), (.lih c k f, 0x15, false), (.sel c k f, 0x16, false), (.swap c k f, 0x17, f.i),
             (.hadd c k f, 0x18, false), (.hsub c k f, 0x19, false), (.hmul c k f, 0x1A, false), (.hdiv c k f, 0x1B, false),
             (.hsqrt c k f, 0x1C, false), (.hcmp c k f, 0x1D, cmp), (.hcvti c k f, 0x1E, q63), (.hcvtf c k f, 0x1F, q63),
             (.ld32 c k f, 0x20, false), (.ld64 c k f, 0x21, false), (.st32 c k f, 0x22, false), (.st64 c k f, 0x23, false),
             (.xmove c k f, 0x24, false), (.kget c k f, 0x25, false), (.wopen c k f, 0x26, false), (.wclose c k f, 0x27, false),
             (.tadd c k f, 0x28, false), (.tset c k f, 0x29, false), (.twait c k f, 0x2A, false), (.spawn c k f, 0x2B, false),
             (.br c k f, 0x2C, false), (.bnz c k f, 0x2D, false), (.bz c k f, 0x2E, false), (.bcy c k f, 0x2F, false),
             (.solve c k f, 0x30, false), (.outer c k f, 0x31, false), (.inner c k f, 0x32, false), (.precswap c k f, 0x33, false),
             (.finish c k f, 0x35, false), (.corenum c k f, 0x36, false) ] : List (Instr × Nat × Bool)),
        s.atIssue c k (shortWord p.2.1 f) none →
        (f.res ≠ 0 ∨ p.2.2 = true ∨ (if 0x18 ≤ p.2.1 ∧ p.2.1 ≤ 0x1F then 1 < f.rnd.toNat else f.rnd ≠ 0)) → stops p.1 p.2.1)
    ∧ (∀ (f : LFields),
      (∀ p ∈ ([ (.spmv c k f, specSpmv), (.vscale c k f, specVscale), (.dgemm c k f, specDgemm), (.bdapply c k f, specBdapply),
                (.formk c k f, specFormk), (.fact c k f, specFact), (.invblk c k f, specInvblk), (.vadd c k f, specVadd),
                (.vsub c k f, specVsub), (.vmul c k f, specVmul), (.vmadd c k f, specVmadd), (.vclr c k f, specVclr),
                (.vcopy c k f, specVcopy), (.vcvt c k f, specVcvt), (.vsel c k f, specVsel), (.vclamp c k f, specVclamp),
                (.vneg c k f, specVneg), (.vabs c k f, specVabs), (.shift c k f, specShift), (.vdot c k f, specVdot),
                (.vmaxabs c k f, specVmaxabs), (.vsumh c k f, specVsumh), (.rspmv c k f, specRspmv), (.rmul c k f, specRmul),
                (.lmatv c k f, specLmatv), (.rdot c k f, specRdot) ] : List (Instr × CmdSpec)),
        s.atIssue c k (longWord0 p.2.opc f) (some (longWord1 f)) →
        (f.res ≠ 0 ∨ 1 < f.rnd.toNat ∨ (∃ o ∈ [f.op0, f.op1, f.op2, f.op3], (resolve (s.slotJob c k) (s.slot c k) o).isWrong = true)
          ∨ (p.2.e = .lte ∧ s.var.coreLte c = false) ∨ decodeBad p.2.e p.2.kinds (s.mkCmd c k p.2 f) = true) → stops p.1 p.2.opc)
      ∧ (s.atIssue c k (longWord0 0x34 f) (some (longWord1 f)) →
        (f.res ≠ 0 ∨ 1 < f.rnd.toNat ∨ f.scl ≠ 0 ∨ f.preg ≠ 0
          ∨ ∃ o ∈ [f.op0, f.op1, f.op2, f.op3], (resolve (s.slotJob c k) (s.slot c k) o).isWrong = true) → stops (.commit c k f) 0x34))

/-- R65, R119, R120, R140, R147, R224, R254, R256, R259, R432: a free engine starts the command next in order once its core has the
credits (one of a yield in progress, else of the LC task with the earliest deadline, else the oldest), and stages the lines that the
command reads as they stand then. When a command completes its writes are visible, it is off its
engine and out of the scoreboard, its scalar is in its register, and it can retire; one that has received an uncorrectable line retires
with DATA_ERROR. A command still running after 8,192 cycles stops; no byte that it does not write changes, and its entry carries the
abort. R37, R45, R57, R66, R70, R99 to R103, R112, R131, R501, R502: what the element-wise commands, VDOT, SPMV and FACT make of their
operands: the exact element rounded once and stored with its flags; the sum of the products; the groups of a pattern program, each
placed on the accumulator's grid and added in order; the pivots, L and dinv of each stage. That all lines of a command are staged at its start
(log entry 25), that each write of an aborted command is kept or not by a free value (42), that two HQ formats agree (27), that a scalar
source is read in the format of OP0 (28), and the rows that a fault leaves written (170), are the model's choices and readings; a unit in
error in its operand buffer is told by its staged address (221). -/
def Obligations.EngineCommandsStartAndEnd : Prop :=
  (∀ (s : State) (c : Nat) (e : Engine),
    let q := ((s.core c).eng e).queue
    let head := fun (m : ECmd) => (q.find? fun y => y.slot == m.slot) = some m
    let yields := fun (m : ECmd) => ((s.core c).slot m.slot).yield.isSome = true
    let lc := fun (m : ECmd) => ∃ t, s.task m.uid = some t ∧ t.be = false
    let due := fun (m : ECmd) => ((s.task m.uid).bind (·.deadline)).getD 0
    let older := fun (m y : ECmd) => m.order < y.order ∨ (m.order = y.order ∧ m.slot ≤ y.slot)
    (s.nextCmd c e = none ↔ q = [])
    ∧ ∀ m, s.nextCmd c e = some m → head m
      ∧ ((∃ y, head y ∧ yields y) → yields m ∧ ∀ y, head y → yields y → older m y)
      ∧ ((∀ y, head y → ¬ yields y) → (∃ y, head y ∧ lc y) →
        lc m ∧ ∀ y, head y → lc y → due m < due y ∨ (due m = due y ∧ m.slot ≤ y.slot))
      ∧ ((∀ y, head y → ¬ yields y) → (∀ y, head y → ¬ lc y) → ∀ y, head y → older m y))
  ∧ (
  (∀ sp ∈ [specSpmv, specVscale, specDgemm, specBdapply, specFormk, specFact, specInvblk, specVadd, specVsub, specVmul, specVmadd, specVclr,
      specVcopy, specVcvt, specVsel, specVclamp, specVneg, specVabs, specShift, specVdot, specVmaxabs, specVsumh, specRspmv, specRmul,
      specLmatv, specRdot], ∀ (m : ECmd) (x : Cmd), m.opc = sp.opc →
    m.result (specOf m.opc) x = if m.refuse then { refuse := true, dur := 2 } else sp.run x)
  ∧ (∀ (r : Rnd) (w : Nat) (g rb : Int) (nonneg : Bool), 0 < w →
    let low : Int := -2 ^ (w - 1)
    let high : Int := 2 ^ (w - 1) - 1
    (∀ x : Dy, let k := (x.round r g).1
      storeInt r w g rb nonneg (.num x) =
        if k < low then (low, [fSat, fRange])
        else if high < k then (high, [fSat, fRange])
        else (k, (if (rb ≠ -128 ∧ (2 : Rat) ^ rb ≤ |(k : Rat) * 2 ^ g|) ∨ (nonneg = true ∧ k < 0) then [fRange] else [])
          ++ (if x.val ≠ 0 ∧ k = 0 then [fUnder] else [])))
    ∧ (∀ n, storeInt r w g rb nonneg (.sat n) = (if n = true then low else high, [fSat, fRange])
      ∧ storeInt r w g rb nonneg (.inf n) = (if n = true then low else high, [fSat, fRange]))
    ∧ storeInt r w g rb nonneg .nan = (0, [fInvalid]))
  ∧ (∀ (r : Rnd) (fmt : Nat) (cexp : Int) (l : List XV),
    let e := chooseFine r fmt cexp l
    let fits := fun (e : Nat) => ∀ v ∈ l, v = .nan ∨ ∃ x, v = .num x ∧ (x.round r (lsbExp fmt 0 cexp e)).1.natAbs ≤ (if fmt = 3 then 127 else 32767)
    ((∃ i, i < 16 ∧ fits i) → e < 16 ∧ fits e ∧ ∀ i, i < 16 → fits i → i ≤ e) ∧ ((∀ i, i < 16 → ¬ fits i) → e = 0))
  ∧ (∀ (t : TDesc) (m : Rd) (i : Nat), isHQ t.fmt = true →
    ∃ v, t.val m i = .num v ∧ v.val = (sgn (elemBits t.fmt) (Rd.le m (t.addr i) (elemBits t.fmt / 8)) : Rat) / 2 ^ t.frac)
  ∧ (∀ (x : Cmd) (d : TDesc) (q : Nat → Nat → Rat), x.o0 = .tensor d → d.ok x.c veFmts = true → isHQ d.fmt = true →
    let w := elemBits d.fmt
    let val := fun (op i : Nat) => match x.op op with
      | .tensor t => t.val x.m i
      | .scalar _ v => scalarVal d.fmt d.frac v
      | _ => .nan
    let grid := fun (v : Dy) => ((v.round x.rnd (-(d.frac : Int))).1 : Rat) * 2 ^ (-(d.frac : Int))
    let picked := fun (r : Nat) (z : Rat) => ∃ v, scalarVal d.fmt d.frac (Tab.get 0 x.g r).toNat = .num v ∧ z = v.val
    ∀ p ∈ ([ (specVadd, [1, 2], fun a b _ z => z = a + b), (specVsub, [1, 2], fun a b _ z => z = a - b),
             (specVmul, [1, 2], fun a b _ z => z = a * b),
             (specVmadd, [1, 2, 3], fun a b c z => ∃ v : Dy, v.val = b * c ∧ z = a + grid v),
             (specVclr, [], fun _ _ _ z => z = 0), (specVcopy, [1], fun a _ _ z => z = a), (specVcvt, [1], fun a _ _ z => z = a),
             (specVsel, [1, 2], fun a b _ z => picked (if a = b then x.param 9 5 else x.param 4 0) z),
             (specVclamp, [1, 2, 3], fun a b c z => z = if a < b then b else if c < a then c else a),
             (specVneg, [1], fun a _ _ z => z = -a), (specVabs, [1], fun a _ _ z => z = |a|) ]
             : List (CmdSpec × List Nat × (Rat → Rat → Rat → Rat → Prop))),
      (∀ op ∈ p.2.1, match x.op op with
        | .tensor t => t.ok x.c veFmts = true ∧ d.n ≤ t.n
        | .scalar _ _ => True
        | _ => False) →
      (∀ f ∈ srcFmts x d.fmt p.2.1, ∀ g ∈ srcFmts x d.fmt p.2.1,
        f = g ∨ (isHQ f = true ∧ isHQ g = true ∧ p.1.opc ≠ 0x87 ∧ p.1.opc ≠ 0x88)) →
      (∀ op ∈ p.2.1, ∀ i, i < d.n → ∃ v, val op i = .num v ∧ v.val = q op i) →
      ∃ z : Nat → Dy, (∀ i, i < d.n → p.2.2 (q 1 i) (q 2 i) (q 3 i) (z i).val)
        ∧ (let r := p.1.run x
          let st := fun i => storeInt x.rnd w (-(d.frac : Int)) d.rb d.nonneg (.num (z i))
          r.refuse = false ∧ r.fault = false ∧ r.reg = none ∧ r.dur = ceilDiv d.n (lanesOf x)
          ∧ r.writes = (List.range d.n).map (fun i => ⟨bytesAt (d.addr i) (toLE (w / 8) (wrapN w (st i).1)), none⟩)
          ∧ r.evs = (List.range d.n).flatMap fun i => (st i).2.map fun f => (f, i)))
  ∧ (∀ (x : Cmd) (d a b : TDesc), x.o0 = .tensor d → x.o1 = .tensor a → x.o2 = .tensor b →
    (∀ t ∈ [d, a, b], t.ok x.c veFmts = true ∧ t.fmt = fmtHF24 ∧ d.n ≤ t.n) →
    ∀ p ∈ ([(specVadd, hfAdd x.rnd), (specVsub, hfSub x.rnd), (specVmul, hfMul x.rnd)] : List (CmdSpec × (Nat → Nat → Nat × List Nat))),
      let r := p.1.run x
      let h := fun i => p.2 (a.raw x.m i % 2 ^ 24) (b.raw x.m i % 2 ^ 24)
      r.refuse = false ∧ r.fault = false
      ∧ r.writes = (List.range d.n).map (fun i => ⟨bytesAt (d.addr i) (toLE 4 (h i).1), none⟩)
      ∧ r.evs.Perm ((List.range d.n).flatMap fun i => (h i).2.map fun f => (f, i)))
  ∧ (∀ (x : Cmd) (a b : TDesc), x.o1 = .tensor a → x.o2 = .tensor b →
    a.ok x.c [fmtHQ16, fmtHQ32, fmtHQ64] = true → b.ok x.c [fmtHQ16, fmtHQ32, fmtHQ64] = true → a.fmt = b.fmt → a.n ≤ b.n →
    let r := specVdot.run x
    let p := fun i => sgn (elemBits a.fmt) (a.raw x.m i) * sgn (elemBits a.fmt) (b.raw x.m i)
    let st := storeInt x.rnd 64 (-(x.param 31 26 : Int)) (-128) false
      (.num ⟨((List.range a.n).map p).sum, -((a.frac + b.frac : Nat) : Int)⟩)
    r.refuse = false ∧ r.fault = false ∧ r.writes = [] ∧ r.dur = ceilDiv a.n (lanesOf x) + 5
    ∧ (((List.range a.n).map fun i => (p i).natAbs).sum < 2 ^ 63 →
      r.reg = some (BitVec.ofInt 64 st.1) ∧ r.evs = st.2.map fun f => (f, 0))
    ∧ (a.n = 1 → 2 ^ 63 ≤ p 0 → r.reg = some (BitVec.ofInt 64 (2 ^ 63 - 1)) ∧ r.evs = [(fSat, 0), (fRange, 0)])))
  ∧ (
  (∀ (b : Int) (gs : List (List Dy)) (g : List Dy),
    accumulate b [] = .num ⟨0, b⟩
    ∧ (dySum g).val = (g.map Dy.val).sum
    ∧ (∀ n, accumulate b gs = .sat n → accumulate b (gs ++ [g]) = .sat n)
    ∧ (∀ y, accumulate b gs = .num ⟨y, b⟩ →
      let z := y + ((dySum g).round .rto b).1
      accumulate b (gs ++ [g]) = if z < -2 ^ 63 then .sat true else if 2 ^ 63 ≤ z then .sat false else .num ⟨z, b⟩)
    ∧ ((∃ n, accumulate b gs = .sat n) ∨ ∃ y, accumulate b gs = .num ⟨y, b⟩))
  ∧ (∀ (h : PHead) (m : Rd) (a : Nat) (last : Option Nat) (next nx : Nat) (segs : List PSeg),
    let cw := Rd.le m a 8
    let lane := fun (l : Nat) => Rd.le m (a + 8 + 2 * l) 2
    let valid := (List.range 64).filter fun l => natBit (lane l) 15
    let seg := fun (l : Nat) => ((List.range (l + 1)).filter fun i => decide (i ≠ 0) && natBit (lane i) 14).length
    patRecord h m a last next = some (segs, nx) →
    natBits cw 49 0 = 0 ∧ valid ≠ [] ∧ nx = next + valid.length ∧ nx ≤ h.nnz
    ∧ segs.length = seg 63 + 1 ∧ segs.length ≤ 16 ∧ natBits cw 63 50 + segs.length ≤ h.nrows
    ∧ segs.map (·.row) = (List.range segs.length).map (natBits cw 63 50 + ·)
    ∧ segs.flatMap (·.prods) = valid.zipIdx.map (fun p => (next + p.2, natBits (lane p.1) 13 0))
    ∧ (∀ i sg, segs[i]? = some sg → sg.prods.length = (valid.filter fun l => seg l == i).length)
    ∧ (∀ l, l < 64 → natBits (lane l) 13 0 < h.ncols ∧ (natBit (lane l) 14 = true → natBit (lane l) 15 = true))
    ∧ (∀ r, last = some r → if natBit (lane 0) 14 = true then r < natBits cw 63 50 else natBits cw 63 50 = r))
  ∧ (∀ (h : PHead) (m : Rd) (a n i next : Nat) (last : Option PSeg),
    let r := patRecord h m (a + 32 + 136 * i) (last.map (·.row)) next
    (patWalk h m a 0 i last next = ([], if next = h.nnz then none else some i))
    ∧ (r = none → patWalk h m a (n + 1) i last next = ([], some i))
    ∧ (∀ segs nx, r = some (segs, nx) →
      let mine := segs.map fun sg => { sg with start := ((last.filter (·.row == sg.row)).map (·.start)).getD i }
      let rest := patWalk h m a n (i + 1) mine.getLast? nx
      patWalk h m a (n + 1) i last next = (mine ++ rest.1, rest.2)))
  ∧ (∀ (x : Cmd) (d v xv : TDesc), x.o0 = .tensor d → x.o1 = .tensor v → x.o2 = .tensor xv →
    d.ok x.c [fmtHQ32, fmtHB16] = true → v.ok x.c [fmtHB16] = true → xv.ok x.c [fmtHB16, fmtHQ32] = true →
    let r := specSpmv.run x
    let h := patHead x.m x.preg
    let walk := patWalk h x.m x.preg h.nrec 0 none 0
    let shaped := patOk x.c x.m x.preg = true ∧ d.dim0 = h.nrows ∧ xv.dim0 = h.ncols ∧ v.dim0 = h.nnz ∧ v.dim1 = 1 ∧ v.dim2 = 1
    let rows := match walk.2 with
      | none => h.nrows
      | some b => rowsWritten h walk.1 (some b)
    let sum := fun (i : Nat) => accumulate x.scl ((walk.1.filter fun sg => sg.row == i).map fun sg =>
      sg.prods.map fun p => (at_ (v.dys x.m) p.1).mul (at_ (xv.dys x.m) p.2))
    let st := fun i => storeInt x.rnd 32 (-(d.frac : Int)) d.rb d.nonneg (sum i)
    (¬ shaped → r.refuse = true ∧ r.writes = [])
    ∧ (shaped → r.refuse = false ∧ (r.fault = true ↔ walk.2 ≠ none)
      ∧ r.dur = (match walk.2 with | none => h.nrec | some b => min (b + 1) h.nrec)
      ∧ (d.fmt = fmtHQ32 → rows ≤ d.n →
        r.writes = (List.range rows).map (fun i => ⟨bytesAt (d.addr i) (toLE 4 (wrapN 32 (st i).1)), none⟩)
        ∧ r.evs = (List.range rows).flatMap fun i => (st i).2.map fun f => (f, i))))
  ∧ (∀ (h : PHead) (segs : List PSeg) (b : Nat),
    (b = h.nrec → rowsWritten h segs (some b) = h.nrows)
    ∧ (b ≠ h.nrec → ∀ l, segs.getLast? = some l → ∀ i, i < rowsWritten h segs (some b) ↔ ∃ sg ∈ segs, i ≤ sg.row ∧ sg.start < l.start)))
  ∧ (
  (∀ (tau delta d : Dy) (fB fI ix : Nat),
    let r := pivotRule tau delta fB fI ix d
    let kind := if |d.val| ≤ tau.val then (if d.val = 0 then 1 else 2) else if |d.val| ≤ (2 : Rat) ^ ((fI : Int) - 31) then 3 else 0
    let st := storeInt .rto 32 (-(fB : Int)) (-128) false (.num (if d.val < 0 then delta.neg else delta))
    r.2.1 = kind ∧ (kind = 0 → r.1 = d ∧ r.2.2 = [])
    ∧ (kind ≠ 0 → r.1 = ⟨st.1, -(fB : Int)⟩ ∧ r.2.2 = st.2.map fun f => (f, ix)))
  ∧ (∀ (st : TDesc) (tau delta : Dy) (fI k n j : Nat) (s : FactSt), j < n →
    let t := factCol st tau delta fI k n s j
    let p := pivotRule tau delta st.frac fI (st.ix j j k) (s.b j j)
    let stored := fun (v : Dy) => (⟨(storeInt .rto 32 (-(st.frac : Int)) (-128) false (.num v)).1, -(st.frac : Int)⟩ : Dy)
    (∀ i, j < i → i < n → t.l i j = stored ((s.b i j).mul (t.dinv j)))
    ∧ (∀ i c, j < c → c ≤ i → i < n → t.b i c = stored ((s.b i c).sub ((t.l i j).mul (s.b c j))))
    ∧ (∀ i c, ¬ (j < c ∧ c ≤ i ∧ i < n) → t.b i c = s.b i c)
    ∧ (∀ i c, c ≠ j ∨ i ≤ j ∨ n ≤ i → t.l i c = s.l i c)
    ∧ (∀ q, q ≠ j → t.dinv q = s.dinv q)
    ∧ t.piv = s.piv ++ (if p.2.1 = 0 then [] else [⟨k, j, p.2.1⟩])
    ∧ (p.1.val ≠ 0 → p.1.e = -(st.frac : Int) → p.1.m.natAbs ≤ 2 ^ 31 → st.frac ≤ 62 → fI ≤ 62 →
      let y := 1 / p.1.val * 2 ^ fI
      let o := if (⌊y⌋ : Rat) = y ∨ ⌊y⌋ % 2 = 1 then ⌊y⌋ else ⌊y⌋ + 1
      t.dinv j = ⟨max (-2 ^ 31) (min (2 ^ 31 - 1) o), -(fI : Int)⟩))
  ∧ (∀ (x : Cmd) (st : TDesc), x.o0 = .tensor st → st.ok x.c [fmtHQ32] = true →
    let r := specFact.run x
    let k0 := x.param 7 0
    let n := x.param 15 8
    let b := x.param 21 16
    let fI := x.param 27 22
    let shaped := st.dim0 = b ∧ st.dim1 = b ∧ k0 + n ≤ st.dim2 ∧ b ≠ 0 ∧ fI ≤ 62
    let stage := fun (k : Nat) => (List.range b).foldl (factCol st ⟨sgn 32 x.sc.tau, -30⟩ ⟨sgn 32 x.sc.delta, -30⟩ fI k b)
      ⟨fun i j => at_ (st.dys x.m) (st.ix j i k), fun _ _ => Dy.zero, fun _ => Dy.zero, [], []⟩
    let cell := fun (v : Dy) (i c k : Nat) => (⟨bytesAt (st.addr (st.ix c i k)) (toLE 4 (wrapN 32 v.m)), none⟩ : Wr)
    (¬ shaped → r.refuse = true ∧ r.writes = [])
    ∧ (shaped → r.refuse = false ∧ r.fault = false ∧ r.dur = n * b * (2 + 4 * ceilDiv b 16)
      ∧ (∀ w, w ∈ r.writes ↔ ∃ k, k0 ≤ k ∧ k < k0 + n ∧
          ((∃ i c, c < i ∧ i < b ∧ w = cell ((stage k).l i c) i c k) ∨ ∃ i, i < b ∧ w = cell ((stage k).dinv i) i i k))
      ∧ r.pivots = (List.range n).flatMap fun i => (stage (k0 + i)).piv)))
  ∧ (
  ∀ (s s' : State) (c : Nat) (e : Engine) (m : ECmd),
    let u := s'.stageCmd c e m
    let r := m.result (specOf m.opc) (m.cmd c (s'.coreRd c) [])
    let got := (s'.core c).stage c r.lines
    c < s.var.cores → ((s.core c).eng e).run = none → s.ras.fence.contains c = false → s.nextCmd c e = some m →
    s.creditRequest c e = (.start, s') →
    exec (.engineCommandStart c e) s = .next
      (({ u with pwr := { u.pwr with waiting := u.pwr.waiting.erase ⟨c, e, m.uid, m.cseq⟩ } } : State).noteFall c)
    ∧ ((s'.core c).bad = [] → (s'.core c).weak = [] →
      u = s'.updCore c fun k => k.setEng e
        { run := some { m with
            started := s'.dt, line := none, got := got, dur := if r.refuse || r.fault then r.dur else max r.dur (staging e r) }
          queue := (k.eng e).queue.erase m
          buf := got.filter fun p => (r.lines.drop (r.lines.length - bufLines e)).contains (p.1 / 64) }))
  ∧ (
  ∀ (s : State) (c : Nat) (e : Engine) (m : ECmd),
    let r := (m.made c).1
    let w := s.coreWrite c (s.landing c r.writes)
    let u := w.1.leave c e m
    c < s.var.cores → ((s.core c).eng e).run = some m → m.dur ≤ 8192 →
    (m.line = none → w.2 = [] →
      exec (.engineCommandComplete c e []) s = .next
        ((if u.cmdLive c m then u.updSlot c m.slot fun x =>
            Slot.cmdDone (match m.reg, r.reg with
              | some g, some v => x.setReg g v
              | _, _ => x) m r (if r.refuse || r.fault then some .malformed else none)
          else u).noteFall c))
    ∧ (∀ l, m.line = some l → s.slotTabs c m.slot = true →
      ∃ t, exec (.engineCommandComplete c e []) s = .next t
        ∧ ((t.core c).eng e).run = none
        ∧ (t.core c).sb = (s.core c).sb.filter (fun r => !(r.uid == m.uid && r.cseq == m.cseq))
        ∧ (s.cmdLive c m = true → ∀ r ∈ (t.slot c m.slot).ret, r.cseq = m.cseq → r.complete = true ∧ r.fault = some (.dataError l))))
  ∧ (
  ∀ (s : State) (c : Nat) (e : Engine) (m : ECmd),
    let r := (m.made c).1
    c < s.var.cores → ((s.core c).eng e).run = some m → 8192 < m.dur → s.memsOk = true → s.slotTabs c m.slot = true →
    (∀ p ∈ r.writes, ∀ b ∈ p.addrs, coreBase c ≤ b) → (s.core c).bad = [] →
    ∃ t, exec (.commandAbort c (e, [])) s = .next t
      ∧ ((t.core c).eng e).run = none
      ∧ (t.core c).sb = (s.core c).sb.filter (fun r => !(r.uid == m.uid && r.cseq == m.cseq))
      ∧ (∀ a, (∀ p ∈ r.writes, a ∉ p.addrs) → t.rd a = s.rd a)
      ∧ (s.cmdLive c m = true → ∀ y ∈ (t.slot c m.slot).ret, y.cseq = m.cseq →
          y.complete = true ∧ y.fault = (match m.line with
            | some l => some (.dataError l)
            | none => some .aborted)))

/-- R20, R62, R63, R81, R84, R94, R118, R119, R124 to R128, R133, R139, R141: an instruction that retires enters its flags, which are sticky,
and its entry in the exception record; at or after its task's deadline none retires. The terminating events of one retirement, in their order. What SOLVE, OUTER, INNER, FACT, COMMIT and
FINISH do as they retire. COMMIT starts a copy of z, z_c and y into the half that is not active; the copy completes with every byte
there. The model's readings: OUTER and INNER are counted for the result record as they retire (log entry 179), k modulo 2^16 (224), a later
COMMIT that names another CIB (225). -/
def Obligations.RetirementsTakeEffect : Prop :=
  (
  ∀ (s : State) (c k : Nat) (e : RetEntry),
    let x := s.slot c k
    s.retires c k e → e.fault = none → raises fRange e.evs = false → e.act = .none →
    ∃ t, exec (.retire c k) s = .next t
      ∧ (t.slot c k).flags = e.evs.foldl (fun a v => a ||| 2 ^ v.flag) x.flags
      ∧ (t.slot c k).exc = x.exc.enter e ∧ (t.slot c k).lastRet = x.lastRet + 1 ∧ (t.slot c k).ret = x.ret.tail
      ∧ { t.slot c k with flags := x.flags, exc := x.exc, lastRet := x.lastRet, ret := x.ret } = x
      ∧ OnlySlot s t c k)
  ∧ (
  ∀ (s : State) (c k : Nat) (e : RetEntry),
    let u := s.updSlot c k fun x =>
      { x with ret := x.ret.tail, lastRet := x.lastRet + 1, flags := enterFlags x.flags e.evs, exc := x.exc.enter e }
    s.retires c k e →
    (∀ l, e.fault = some (.dataError l) → exec (.retire c k) s = .next (u.terminate c k 7 5 e.cseq (some l)))
    ∧ (e.fault = some .malformed → exec (.retire c k) s = .next (u.terminate c k 9 4 e.cseq none))
    ∧ (e.fault = some .aborted → exec (.retire c k) s = .next (u.terminate c k 9 7 e.cseq none))
    ∧ (e.fault = none → e.act = .none → raises fRange e.evs = true →
        exec (.retire c k) s = .next (u.terminate c k 5 4 e.cseq none))
    ∧ (e.fault = none → e.act = .outer → raises fRange e.evs = false → exec (.retire c k) s = .next
        (u.updSlot c k fun x => { x with sc := { x.sc with outDone := x.sc.outDone + 1 } }))
    ∧ (e.fault = none → e.act = .inner → raises fRange e.evs = false → exec (.retire c k) s = .next
        (u.updSlot c k fun x => { x with sc := { x.sc with innerDone := (x.sc.innerDone + 1) % 2 ^ 32 } }))
    ∧ (e.fault = none → e.act = .cap → raises fRange e.evs = false →
        exec (.retire c k) s = .next (u.terminate c k 1 1 e.cseq none)))
  ∧ (
  ∀ (s : State) (c k uid d : Nat) (t : Task), s.hasSlot c k = true → (s.slot c k).uid = some uid → s.task uid = some t →
    t.deadline = some d → d ≤ s.dt → exec (.retire c k) s = .next s)
  ∧ (
  ∀ (s : State) (c k : Nat) (e : RetEntry),
    let sc := (s.slot c k).sc
    let u := s.updSlot c k fun x =>
      { x with ret := x.ret.tail, lastRet := x.lastRet + 1, flags := enterFlags x.flags e.evs, exc := x.exc.enter e }
    let invalid := natBit (enterFlags (s.slot c k).flags e.evs) fInvalid
    let headed := fun (n : SolveCtl) => (u.updSlot c k fun x => { x with sc := n }).writeHeader c k
    s.retires c k e → e.fault = none → raises fRange e.evs = false →
    (e.act = .solve → exec (.retire c k) s = .next (u.updSlot c k fun x => { x with sc := { x.sc with retired := true } }))
    ∧ (∀ l, e.act = .pivots l → exec (.retire c k) s = .next (u.updSlot c k fun x => { x with sc := { x.sc with
        pivCnt := satAdd 32 x.sc.pivCnt l.length
        pivFirst := x.sc.pivFirst.orElse fun _ => l.head?.map fun p => (e.cseq, p) } }))
    ∧ (∀ j, e.act = .commit j →
        (invalid = true → exec (.retire c k) s = .next (u.terminate c k 6 4 e.cseq none))
        ∧ (invalid = false → sc.committed = false → exec (.retire c k) s = .next (headed { sc with
            committed := true, cv := true, active := 0, np0 := j.np, np1 := 0, k0 := j.k, k1 := 0, cib := j.cib, lastHalf := 0 }))
        ∧ (invalid = false → sc.committed = true →
          let better := decide (sgn 64 j.np < sgn 64 (if sc.active = 0 then sc.np0 else sc.np1))
          exec (.retire c k) s = .next (headed { sc with
            np0 := if j.half = 0 then j.np else sc.np0, k0 := if j.half = 0 then j.k else sc.k0
            np1 := if j.half = 0 then sc.np1 else j.np, k1 := if j.half = 0 then sc.k1 else j.k
            active := if sc.cv = false ∨ better = true then j.half else sc.active
            cv := true, cib := j.cib, lastHalf := j.half })))
    ∧ (∀ op, e.act = .finish op →
        let solve := sc.retired && decide (sc.method < 2)
        let wrong := decide (op ≠ 0) || (solve && !sc.committed)
        (wrong = true → exec (.retire c k) s = .next (u.terminate c k 9 4 e.cseq none))
        ∧ (wrong = false → sc.retired = true → invalid = true → exec (.retire c k) s = .next (u.terminate c k 6 4 e.cseq none))
        ∧ (wrong = false → (sc.retired && invalid) = false →
          exec (.retire c k) s = .next ((if solve = true ∧ ¬ (sc.cv = true ∧ sc.active = sc.lastHalf) then
            headed { sc with active := sc.lastHalf, cv := true } else u).terminate c k 0 0 e.cseq none))))
  ∧ (
  (∀ (s : State) (c k : Nat) (f : LFields) (j : CommitJob),
    let x := s.slot c k
    let regs := operandRegs f.op0 ++ operandRegs f.op1 ++ operandRegs f.op2 ++ [natBits f.param.toNat 9 5, natBits f.param.toNat 4 0]
    s.atIssue c k (longWord0 0x34 f) (some (longWord1 f)) → f.res = 0 → f.rnd.toNat ≤ 1 → f.scl = 0 → f.preg = 0 →
    (∀ o ∈ [f.op0, f.op1, f.op2, f.op3], (resolve (s.slotJob c k) x o).isWrong = false) → s.held c k regs [] = false →
    (∀ e ∈ x.ret, e.opc ≠ 0x34) → commitJob s c k f = some j →
    ∃ t, exec (.commit c k f) s = .next t ∧ (t.slot c k).copy = some j
      ∧ (∀ p, p ∈ (t.slot c k).copyHold ↔ ∃ r ∈ (s.core c).sb, p = (r.uid, r.cseq) ∧ r.write = true
          ∧ ∃ q ∈ [(j.z, 4 * x.sc.nVar), (j.zc, 4 * x.sc.mCon), (j.y, 4 * x.sc.mCon)], r.lo < (q.1 + q.2 + 63) / 64 ∧ q.1 / 64 < r.hi)
      ∧ SlotIssued x (t.slot c k) (fun n => ⟨n, 0x34, 0, false, 3, [], none, .commit j⟩) (x.pc + 16) x.cy []
      ∧ ∀ a, t.rd a = s.rd a)
  ∧ (∀ (s : State) (c k : Nat) (j : CommitJob),
    let x := s.slot c k
    let n := 4 * x.sc.nVar
    let m := 4 * x.sc.mCon
    let h := j.cib + 64 + j.half * x.sc.halfBytes
    let parts := [(j.z, n, h), (j.zc, m, h + lineUp n), (j.y, m, h + lineUp n + lineUp m)]
    s.hasSlot c k = true → s.slotTabs c k = true → s.memsOk = true → x.copy = some j → s.copyHeld c k = false → j.cib % 64 = 0 →
    (∀ p ∈ parts, coreBase c ≤ p.1 ∧ p.1 + p.2.1 ≤ coreBase c + coreBytes ∧ coreBase c ≤ p.2.2
      ∧ p.2.2 + lineUp p.2.1 ≤ coreBase c + coreBytes
      ∧ (s.core c).badIn (lineAddr (p.1 - coreBase c)) (lineUp (p.1 - coreBase c + p.2.1)) = []
      ∧ (s.core c).weakIn (lineAddr (p.1 - coreBase c)) (lineUp (p.1 - coreBase c + p.2.1)) = []) →
    ∃ t, exec (.commitCopyComplete c k) s = .next t ∧ (t.slot c k).copy = none
      ∧ (∀ p ∈ parts, ∀ i, i < p.2.1 → t.rd (p.2.2 + i) = s.rd (p.1 + i))
      ∧ (∀ e ∈ (t.slot c k).ret, ∀ i, e.act = .commit i → e.complete = true ∧ e.fault = none)))

/-! ### The life of a task -/

/-- R27, R118, R120, R135, R137, R138, R142, R215, R380: the first terminating event of a task counts: it fixes status, cause, time and
stop, its queued commands leave every queue, and the task drains; a later event of the same task changes nothing. What a stop cycle does
to a task that runs, is parked or is pending; a drained task ends. A task ends with its record in place, then one ADD to its completion
tally, then its event. The model's readings: which lines of its half an abandoned commit copy has written is free (log entry 222), an ADD
that waits for what will never be written is dropped (223), the counts of the record are those of retired instructions (179). -/
def Obligations.TasksEndInOrder : Prop :=
  (
  ∀ (s : State) (c k uid st ca cs : Nat) (l : Option Nat), s.slotTabs c k = true → (s.slot c k).uid = some uid →
    ((s.slot c k).term.isSome = true → s.terminate c k st ca cs l = s)
    ∧ ((s.slot c k).term = none →
        let t := s.terminate c k st ca cs l
        let never := (s.core c).queuedOf uid ++ if (s.slot c k).copy.isSome then [(s.slot c k).commitCseq] else []
        (t.slot c k).term = some ⟨st, ca, s.dt, cs, l⟩ ∧ (t.slot c k).stopIssue = true
        ∧ { t.slot c k with
            term := none, stopIssue := (s.slot c k).stopIssue, wait := (s.slot c k).wait, copy := (s.slot c k).copy,
            yield := (s.slot c k).yield } = s.slot c k
        ∧ (∀ e, ((t.core c).eng e).run = ((s.core c).eng e).run
            ∧ ((t.core c).eng e).queue = ((s.core c).eng e).queue.filter fun m => m.uid ≠ uid)
        ∧ (∀ v y, t.task v = some y → v = uid → y.st = .draining c k)
        ∧ t.tly.ops = (s.tly.ops.filter fun o => !(o.uid == some uid && !o.isSet && never.any fun n => decide (n < o.cseq)))
        ∧ ((s.slot c k).copy = none → (∀ a, t.rd a = s.rd a)
          ∧ { t with cores := s.cores, tly := { t.tly with ops := s.tly.ops }, sched := { t.sched with tasks := s.sched.tasks } } = s)
        ∧ (∀ j, (s.slot c k).copy = some j → s.memsOk = true →
          let n := (s.slot c k).sc.halfBytes
          let h := j.cib + 64 + j.half * n
          coreBase c ≤ h → ∀ a, ¬ (h ≤ a ∧ a < h + n) → t.rd a = s.rd a)))
  ∧ (
  ∀ (s : State) (uid d : Nat) (t : Task), s.task uid = some t →
    (t.deadline = some d → d ≤ s.dt + 4000 →
      (∀ c k, t.st = .running c k →
        let u := s.retireReady c k
        let sc := (u.slot c k).sc
        let st := if sc.retired ∧ sc.method < 2 ∧ sc.committed ∧ sc.cv then 2 else 3
        exec (.deadlineStop uid) s = .next (u.terminate c k st 2 ((u.slot c k).lastRet - 1) none)
        ∧ ((s.slot c k).canRetire = false ∨ ((s.slot c k).uid = some uid ∧ d ≤ s.dt) → u = s))
      ∧ (∀ c p, t.st = .parked c → (s.core c).parkedOf uid = some p →
        let sc := p.slot.sc
        let st := if sc.retired ∧ sc.method < 2 ∧ sc.committed ∧ sc.cv then 2 else 3
        exec (.deadlineStop uid) s = .next
          ((s.updCore c fun q => { q with parked := q.parked.filter fun r => r.slot.uid ≠ some uid }).endTask t p.slot
            ⟨st, 2, s.dt, p.slot.lastRet - 1, none⟩))
      ∧ ((t.st = .waiting ∨ t.st = .ready) →
        exec (.undispatchedDeadline uid) s = .next (s.endTask { t with tDisp := 0 } {} ⟨3, 3, s.dt, 0, none⟩)))
    ∧ (∀ c k m, t.st = .draining c k → (s.slot c k).term = some m → s.drained c uid = true →
      exec (.taskDrainComplete uid) s = .next (((s.freeSlot c k).endTask t (s.slot c k) m).noteFall c)))
  ∧ (
  ∀ (s : State) (t : Task) (x : Slot) (m : Term),
    let w := s.writeAt t.dom t.result (resultRecord t x m)
    let a := if t.doneV then w.tallyAdd t.dom t.doneTally 1 else w
    let st := finalStatus x.sc m.status
    let p := if natBits (s.domevt t.dom) 63 62 = 2 ∨ (natBits (s.domevt t.dom) 63 62 = 1 ∧ st ≠ 0)
      then a.post t.dom (natBits (s.domevt t.dom) 61 60) 2 (m.cause * 16 + st) t.job t.taskId else a
    s.endTask t x m = ({ p with sched := { p.sched with tasks := p.sched.tasks.filter fun u => u.uid ≠ t.uid } } : State).fenceProgress
    ∧ (resultRecord t x m).length = 96
    ∧ (m.status < 16 → m.cause < 16 → x.sc.active < 2 → x.sc.k0 < 65536 → x.sc.k1 < 65536 → x.sc.pivCnt < 2 ^ 32 → t.taskId < 2 ^ 32 →
      let v := leNat (resultRecord t x m)
      natBits v 271 268 = finalStatus x.sc m.status ∧ natBits v 267 264 = m.status ∧ natBits v 263 260 = m.cause
      ∧ natBits v 303 272 = t.taskId ∧ natBits v 335 304 = m.stopCseq % 2 ^ 32 ∧ natBits v 383 352 = (x.sc.pivFirst.map (·.1)).getD 0 % 2 ^ 32
      ∧ natBits v 415 384 = x.sc.pivCnt ∧ natBits v 447 416 = x.sc.innerDone % 2 ^ 32 ∧ natBits v 463 448 = x.sc.outDone % 65536
      ∧ natBits v 703 640 = t.tDisp % 2 ^ 64 ∧ natBits v 767 704 = m.t % 2 ^ 64))

/-- R215 to R220: release of a triggered task, with every task that the same operation satisfied; a relative deadline counts from the
release. Dispatch places one task by the scheduler's order, with the registers of a task that starts. The order: LC tasks first, the packs
by PACK_LO, in each the earliest deadline, on the lowest core with a free slot; then BE tasks, the domains in round robin, in each the
earliest queue time, on the lowest core that the task fits. -/
def Obligations.TasksAreReleasedAndDispatched : Prop :=
  (
  ∀ (s : State) (uid : Nat) (t : Task), s.task uid = some t → t.st = .waiting → t.trigSat = true → s.stopDue t = false →
    exec (.taskRelease uid) s = .next { s with sched := { s.sched with tasks := s.sched.tasks.map fun u =>
      if u.st = .waiting ∧ u.trigSat = true ∧ u.trigTally = t.trigTally ∧ u.release = t.release ∧ s.stopDue u = false then
        { u with
          st := .ready, queueTime := u.release
          deadline := if u.dlmode = 1 then some ((u.release + u.dlval) % 2 ^ 64) else u.deadline }
      else u } })
  ∧ (
  ∀ (s : State) (t : Task) (c k : Nat),
    (s.lcChoice = some (t, c, k) ∨ (s.lcChoice = none ∧ s.beChoice = some (t, c, k))) → s.slotTabs c k = true →
    s.task t.uid = some t →
    let j := s.job t.job
    ∃ u, exec .taskDispatch s = .next u
      ∧ u.task t.uid = some { t with st := .running c k, tDisp := s.dt }
      ∧ (u.slot c k).uid = some t.uid
      ∧ (∀ r, (u.slot c k).reg r =
          if r = 0 then BitVec.ofNat 64 t.arg else if r = 1 then BitVec.ofNat 64 t.taskId
          else if r = 2 then BitVec.ofNat 64 (t.deadline.getD 0) else if r = 3 then BitVec.ofNat 64 t.release else 0)
      ∧ (u.slot c k).pc = 32 * j.ndesc + 8 * j.entries.getD t.entry 0
      ∧ (u.slot c k).cy = false ∧ (u.slot c k).cseq = 0 ∧ (u.slot c k).flags = 0 ∧ (u.slot c k).sc.solved = false
      ∧ (u.slot c k).stop = t.deadline.map (· - 4000)
      ∧ u.sched.rrDom = (if s.lcChoice.isSome then s.sched.rrDom else (t.dom + 1) % 16)
      ∧ ∀ a, u.rd a = s.rd a)
  ∧ (
  ∀ (s : State), Tab.wf ({} : Job) s.sched.jobs = true →
    let le := fun (x y : Nat × Nat) => x.1 < y.1 ∨ (x.1 = y.1 ∧ x.2 ≤ y.2)
    let due := fun (t : Task) => (t.deadline.getD 0, t.release)
    let since := fun (t : Task) => (t.queueTime, t.uid)
    let slotOf := fun (c k : Nat) => k < 8 ∧ (s.slot c k).uid = none ∧ ∀ i, i < k → (s.slot c i).uid ≠ none
    let packFull := fun (j : Nat) => ∀ b ∈ s.packCores j, s.dispatchSlot b = none
    (∀ t c k, s.lcChoice = some (t, c, k) →
      t ∈ s.readyTasks ∧ t.be = false ∧ (∀ u ∈ s.readyTasks, u.be = false → u.job = t.job → le (due t) (due u))
      ∧ c ∈ s.packCores t.job ∧ s.coreOpen c = true ∧ slotOf c k ∧ (∀ b ∈ s.packCores t.job, b < c → s.dispatchSlot b = none)
      ∧ (∀ u ∈ s.readyTasks, u.be = false → u.job ∈ s.lcJobs → (s.job u.job).packLo < (s.job t.job).packLo → packFull u.job))
    ∧ (s.lcChoice = none → ∀ u ∈ s.readyTasks, u.be = false → u.job ∈ s.lcJobs → packFull u.job)
    ∧ (∀ t c k, s.beChoice = some (t, c, k) →
      t ∈ s.readyTasks ∧ t.be = true ∧ (∀ u ∈ s.readyTasks, u.be = true → u.dom = t.dom → le (since t) (since u))
      ∧ c < s.var.cores ∧ s.beFits t c = true ∧ (∀ b, b < c → s.beFits t b = false) ∧ slotOf c k
      ∧ ∃ i, i < 16 ∧ t.dom = (s.sched.rrDom + i) % 16
        ∧ ∀ i', i' < i → ∀ h, s.headBe ((s.sched.rrDom + i') % 16) = some h → s.bePlace h = none)
    ∧ (∀ t c, s.beFits t c = true ↔
      s.coreOpen c = true ∧ (∃ k, slotOf c k) ∧ (s.owner c).dom = t.dom ∧ (∀ p ∈ (s.core c).parked, t.queueTime < p.at_)
      ∧ (let bound := ((s.boundTasks c).filter (·.be)).length
         if (s.owner c).pack = true then s.firstLc (s.owner c).job = none ∧ bound < 8 else bound < 16)
      ∧ ((∃ g, (s.core c).segOf t.job = some g) ∨ (s.boundBeJobs c).length < 8)))

/-- R221, R225 to R228, R251, R252: yields, slices, the saving of a context, its resumption, and the start of tasks when their segment is in
place, with the units in error that it then holds. The model's readings: a task that ends or yields already is passed over (log entry
235), the charge of a resumed task's slot is covered (182), SEGMENT_FILL_COMPLETE tells the errors that come later too (231). -/
def Obligations.YieldsSlicesAndSegments : Prop :=
  (∀ (s : State) (j c k : Nat),
    let cs := s.packCores j
    (s.job j).be = false → (s.firstLc j).isSome = true → (∀ b ∈ cs, s.dispatchSlot b = none) →
    (∀ b ∈ cs, ∀ i, i < 8 → ∀ y, (s.slot b i).yield = some y → y.1 = true) →
    (cs.find? fun b => (List.range 8).any (s.canYield b)) = some c →
    k < 8 → s.canYield c k = true → (∀ i, k < i → i < 8 → s.canYield c i = false) →
    exec (.beYieldForLc j) s = .next (s.updSlot c k fun x => { x with yield := some (false, s.dt) }))
  ∧ (∀ (s : State) (uid c k : Nat) (t : Task),
    let x := s.slot c k
    let end_ := x.sliceFrom + (x.sliceLen - x.sliceUsed)
    let waits := (s.headBe t.dom).any fun h => (s.bePlace h).isNone
    s.task uid = some t → t.st = .running c k → t.be = true → x.yield = none → x.term = none → end_ ≤ s.dt →
    exec (.beSliceEnd uid) s = .next
      (if waits ∧ (s.core c).parked.length < 8 then s.updSlot c k fun x => { x with yield := some (true, end_) }
       else s.updSlot c k fun x => { x with sliceLen := 1000 * (s.job t.job).slice, sliceUsed := 0, sliceFrom := s.dt }))
  ∧ (∀ (s : State) (uid c k from_ : Nat) (sl : Bool) (t : Task),
    let x := s.slot c k
    let slice := 1000 * (s.job t.job).slice
    let saved := if sl then { x with yield := none, sliceUsed := 0, sliceLen := max (slice - (s.dt - from_)) 1000 }
      else { x with yield := none, sliceUsed := x.sliceUsed + (s.dt - x.sliceFrom) }
    s.task uid = some t → t.st = .running c k → x.yield = some (sl, from_) → x.term = none → x.ret = [] → x.remote = none →
    (s.core c).parked.length < 8 →
    ∃ u, exec (.yieldContextSave uid) s = .next u
      ∧ u = ((((if sl then { s with sched := { s.sched with
              ovrCnt := Tab.upd 0 s.sched.ovrCnt t.dom fun n => satAdd 24 n 1
              ovrNs := Tab.upd 0 s.sched.ovrNs t.dom fun n => satAdd 40 n (s.dt - from_) } } else s).freeSlot c k).updCore c fun q =>
            { q with parked := q.parked ++ [⟨saved, (s.core c).winsOf k, s.dt⟩] }).updTask uid fun t =>
          { t with st := .parked c, queueTime := s.dt }).noteFall c)
  ∧ (∀ (s : State) (c k uid : Nat) (p : Parked) (rest : List Parked),
    let o := s.owner c
    c < s.var.cores → (s.core c).parked = p :: rest → p.slot.uid = some uid → (s.core c).freeSlotNo = some k →
    (o.pack = true → s.firstLc o.job = none) → (∀ h, s.headBe o.dom = some h → p.at_ ≤ h.queueTime) →
    (s.task uid).any s.stopDue = false → s.ras.fence.contains c = false → o.scrub = false →
    exec (.parkedResume c) s = .next
      (((s.updCore c fun q => (({ q with parked := rest }).updSlot k fun _ => { p.slot with sliceFrom := s.dt }).reopen k p.wins).updTask
        uid fun t => { t with st := .running c k }).slotCredits c))
  ∧ (∀ (s : State) (c seg : Nat) (g : Seg) (upset : List (Nat × Bool)), c < s.var.cores → seg < 9 →
      Tab.get none (s.core c).segs seg = some g →
    Tab.wf ({} : Core) s.cores = true → Tab.wf ({} : Slot) (s.core c).slots = true →
    let start := fun (x : Slot) => if x.uid.isSome ∧ x.seg = seg then { x with started := true } else x
    let bad := (upset.filter fun p => !p.2).map (·.1)
    let weak := (upset.filter (·.2)).map (·.1)
    ∃ u, exec (.segmentFillComplete c seg upset) s = .next u
      ∧ (∀ k, u.slot c k = start (s.slot c k))
      ∧ (u.core c).parked = (s.core c).parked.map (fun p => { p with slot := start p.slot })
      ∧ (u.core c).segs = Tab.set none (s.core c).segs seg (some (if g.filling = true then
          { g with filling := false, bad := bad, weak := weak } else { g with bad := g.bad ++ bad, weak := g.weak ++ weak }))
      ∧ { u with cores := s.cores } = s)

/-! ### Host rings, doorbells, events -/

/-- R23, R371, R373, R375, R469: a ring reads the descriptor at HEAD, accepts it when its OWN bit is 1, and completes it by two writes: its
status with OWN still 1, then OWN cleared, with which WB advances and the event is posted; one that needs the store waits until it is
ready. T_DONE and the event's T are the DT of the completion. The two writes as two commands are the model's reading (log entry 205), and LOCK and set-up control as
they stand at the acceptance too (242). -/
def Obligations.HostDescriptorsAreCarriedOut : Prop :=
  ∀ (s : State) (d r : Nat), d < 16 → r < 16 →
    let x := s.ring d r
    (x.en = true → x.state = 1 → x.head ≠ x.tail → x.cur = none → x.reading = false → x.stall = false →
      s.fnReachAt x.fn (x.base + 64 * x.head) 64 = true →
      exec (.sqDescriptorFetch d r) s = .next
        ((s.sendRead x.fn (x.base + 64 * x.head) 64).updRing d r fun y => { y with reading := true }))
    ∧ (∀ bs, x.reading = true → x.en = true → (bs.getD 63 0).toNat / 128 % 2 = 1 →
      ∃ h : HostCmd, h.index = x.head ∧ h.bytes = bs.take 48 ∧ h.seq = s.hif.accepted ∧ h.locked = s.sec.lock
        ∧ h.ctl = (s.hif.holder == some x.fn)
        ∧ exec (.sqDescriptorReturn d r (.data bs)) s = .next
            (State.updRing { s with hif := { s.hif with accepted := s.hif.accepted + 1 } } d r fun y =>
              { y with reading := false, again := false, head := (y.head + 1) % (y.nM1 + 1), cur := some h })
        ∧ (h.st = if s.boot.store = false ∧ (h.cls = 3 ∨ (h.cls = 2 ∧ h.op = 0x10)) then .fresh
            else if h.hres ≠ 0 then .done h.hres 0 s.dt else match h.badOp with
            | some e => .done 0 e s.dt
            | none => .fresh))
    ∧ (∀ bs, x.reading = true → x.en = true → (bs.getD 63 0).toNat / 128 % 2 = 0 →
      exec (.sqDescriptorReturn d r (.data bs)) s = .next
        (s.updRing d r fun y => { y with reading := false, again := false, stall := !x.again }))
    ∧ (∀ h, s.accepts d r 0 none h → h.body = 0 → exec (.hostNop d r) s = .next (s.setCmd (ringKey d r) (.done 0 0 s.dt)))
    ∧ (∀ h e v t, x.cur = some h → h.st = .done e v t → x.mute = false → s.fnReachAt x.fn (x.base + 64 * h.index + 48) 16 = true →
      exec (.hostDescriptorComplete d r true) s = .next
        ((s.updFn x.fn fun f => { f with mem := f.mem.write (x.base + 64 * h.index + 48) (statusBytes t h.index r e v) }).setCmd
          (ringKey d r) (.written e v t))
      ∧ natBits (leNat (statusBytes t h.index r e v)) 127 127 = 1)
    ∧ (∀ h e v t, x.cur = some h → h.st = .written e v t → x.mute = false →
      s.fnReachAt x.fn (x.base + 64 * h.index + 48 + 15) 1 = true →
      let w := ((s.updRing d r fun y => { y with cur := none, mute := false }).updFn x.fn fun f =>
        { f with mem := f.mem.write (x.base + 64 * h.index + 48 + 15) [ownByte t] }).updRing d r fun y =>
          { y with wb := (h.index + 1) % (y.nM1 + 1), state := if y.en then y.state else 0 }
      exec (.hostDescriptorComplete d r true) s = .next
        (if x.evt = 1 ∨ (x.evt = 2 ∧ (e ≠ 0 ∨ v % 256 ≠ 0)) then
          w.postAt t d x.eq 1 (if e ≠ 0 then e else v % 256) h.tag (r * 65536 + h.index) else w)
      ∧ (ownByte t).toNat < 128
      ∧ (ownByte t).toNat = leNat (statusBytes t h.index r e v) / 2 ^ 120 % 128)

/-- R370, R374, R377, R388, R278: where a ring halts: a failed read or write of host memory, or a function that cannot be reached; it takes
no more descriptors, and one it has accepted completes without a status. A read of host memory without a completion ends as a failed read of
its requester. That a copy without a completion ends its command as a failed read is the model's reading (log entry 116), and so is the
result of a JOB_LOAD whose read fails, where R209 gives none (61). -/
def Obligations.FailedReadsHaltTheirRequesters : Prop :=
  (
  ∀ (s : State) (d r : Nat), d < 16 → r < 16 →
    let x := s.ring d r
    (x.mayRead = true → s.fnReachAt x.fn (x.base + 64 * x.head) 64 = false → exec (.sqDescriptorFetch d r) s = .next (s.haltRing d r 1))
    ∧ (∀ e, (∀ bs, e ≠ .data bs) → x.reading = true → x.en = true →
      exec (.sqDescriptorReturn d r e) s = .next (s.haltRing d r 1))
    ∧ (∀ h e v t ok, x.cur = some h → x.mute = false →
      (h.st = .done e v t ∧ (ok = false ∨ s.fnReachAt x.fn (x.base + 64 * h.index + 48) 16 = false)
        ∨ h.st = .written e v t ∧ (ok = false ∨ s.fnReachAt x.fn (x.base + 64 * h.index + 48 + 15) 1 = false)) →
      exec (.hostDescriptorComplete d r ok) s = .next ((s.updRing d r fun y => { y with cur := none, mute := false }).haltRing d r 2))
    ∧ (∀ h e v t ok, x.cur = some h → (h.st = .done e v t ∨ h.st = .written e v t) → x.mute = true →
      exec (.hostDescriptorComplete d r ok) s = .next (s.updRing d r fun y => { y with cur := none, mute := false }))
    ∧ (∀ n, (s.evq d x.eq).en = false → Tab.wf ({} : Ring) s.hif.rings = true →
      s.haltRing d r n = s.updRing d r fun y =>
        { y with state := 2, hrsn := n, reading := false, again := false, stall := false, mute := y.cur.isSome }))
  ∧ (
  (∀ (s : State) (d r : Nat), d < 16 → r < 16 →
    (let x := s.ring d r
     x.reading = true → x.en = true → exec (.pcieCompletionTimeout (.ring d r)) s = .next (s.haltRing d r 1))
    ∧ (∀ h, s.accepts d r 5 (some 2) h → s.sec.fuseJob = none → s.secTurn h = true → h.field 311 288 = 0 → h.field 271 64 = 0 →
      h.ctl = true →
      let sent := s.sendRead (s.ring d r).fn (h.field 63 0) (h.field 287 272)
      exec (.pcieCompletionTimeout (.copy d r)) s = .next
        (({ sent with sec := { sent.sec with nonce := none } } : State).cmdDone (ringKey d r) 9)))
  ∧ (∀ (s : State) (n : Nat), n < 128 →
    ((s.chan n).st = .fetch → (s.chan n).wb = none → ((s.chan n).space = 1 ∨ (s.chan n).space = 2) →
      exec (.pcieCompletionTimeout (.chan n)) s = .next (s.chanHaltPlain n 8 3 1 0))
    ∧ (∀ b, (s.chan n).st = .run → (s.chan n).burst = some b → b.granted.isSome = true → b.bad = none →
      (b.sspace = 1 ∨ b.sspace = 2) → s.burstReach b = true → s.burstCut n b = false → s.burstRecheck (s.chan n) b = none →
      exec (.pcieCompletionTimeout (.chan n)) s = .next (s.burstRetry n b))))

/-- R369, R370, R412: a doorbell of a host driver of its domain: tails, heads and tally ADDs that a ring, a queue or a tally takes. -/
def Obligations.DoorbellsAreTaken : Prop :=
  ∀ (s : State) (fn : Fn) (d : Nat) (v : Word), d < 16 → s.fnAnswers fn = true →
    (s.isDriver fn d = true → s.ideBlocks fn = false →
      (∀ r, r < 16 → v.toNat ≤ (s.ring d r).nM1 → exec (.sqTailWrite fn d r v true) s = .next
        (s.updRing d r fun x => { x with tail := v.toNat, stall := false, again := x.reading }))
      ∧ (∀ r, r < 16 → (s.ring d r).nM1 < v.toNat → exec (.sqTailWrite fn d r v true) s = .next
        (s.record 4 0 (some d) 8 (fnNum fn) 0 0))
      ∧ (∀ q, q < 4 → v.toNat ≤ (s.evq d q).nM1 →
        exec (.eqHeadWrite fn d q v true) s = .next (s.updEvq d q fun x => { x with head := v.toNat }))
      ∧ (∀ q, q < 4 → (s.evq d q).nM1 < v.toNat → exec (.eqHeadWrite fn d q v true) s = .next
        (s.record 4 0 (some d) 8 (fnNum fn) 0 0))
      ∧ (∀ k, k = natBits v.toNat 49 32 → natBits v.toNat 63 50 = 0 →
        exec (.tallyAdd fn d v true) s = .next
          (s.tallyIssue ⟨k, false, natBits v.toNat 31 0, d, none, 0⟩)))
    ∧ ((s.isDriver fn d = false ∨ s.ideBlocks fn = true) → ∀ q ide, q < 4 →
      exec (.sqTailWrite fn d q v ide) s = .next s.filtered ∧ exec (.eqHeadWrite fn d q v ide) s = .next s.filtered
      ∧ exec (.tallyAdd fn d v ide) s = .next s.filtered)
    ∧ (s.ideReq fn = true → ∀ q, q < 4 →
      exec (.sqTailWrite fn d q v false) s = .next s.filtered ∧ exec (.eqHeadWrite fn d q v false) s = .next s.filtered
      ∧ exec (.tallyAdd fn d v false) s = .next s.filtered)
    ∧ (s.ideReq fn = false → ∀ q, q < 4 →
      exec (.sqTailWrite fn d q v false) s = exec (.sqTailWrite fn d q v true) s
      ∧ exec (.eqHeadWrite fn d q v false) s = exec (.eqHeadWrite fn d q v true) s
      ∧ exec (.tallyAdd fn d v false) s = exec (.tallyAdd fn d v true) s)

/-- R380 to R383, R388: an entry posted to an enabled queue with room stands in host memory with its queue's phase, and its function is
signalled; a queue whose memory cannot be reached is disabled; a full queue loses the entry and says so in the next; the interval of a queue
ends with one message if entries came. The model's readings: a message with MSI-X disabled or masked becomes pending (log entry 209), and an
event that silences its function disables its queue (210). -/
def Obligations.EventsArePosted : Prop :=
  (∀ (s : State) (t d q kind code aux id : Nat),
    let e := s.evq d q
    s.post d q kind code aux id = s.postAt s.dt d q kind code aux id
    ∧     (e.en = false → s.postAt t d q kind code aux id = s)
    ∧ (e.en = true → e.tail ≤ e.nM1 → e.head ≤ e.nM1 → (e.tail + 1) % (e.nM1 + 1) = e.head →
      s.postAt t d q kind code aux id = s.updEvq d q fun y => { y with lost := satAdd 32 y.lost 1, lostf := true })
    ∧ (e.en = true → e.tail ≤ e.nM1 → e.head ≤ e.nM1 → (e.tail + 1) % (e.nM1 + 1) ≠ e.head →
      s.fnReachAt e.fn (e.base + 16 * e.tail) 16 = false →
      s.postAt t d q kind code aux id = s.updEvq d q fun y => { y with en := false, itEnd := none, itPend := false })
    ∧ (e.en = true → e.tail ≤ e.nM1 → e.head ≤ e.nM1 → (e.tail + 1) % (e.nM1 + 1) ≠ e.head →
      s.fnReachAt e.fn (e.base + 16 * e.tail) 16 = true →
      s.postAt t d q kind code aux id =
        (((s.updFn e.fn fun f => { f with mem := f.mem.write (e.base + 16 * e.tail) (eventEntry e.phase e.lostf kind code aux id t) }).updEvq
          d q fun y => { y with
            tail := (e.tail + 1) % (e.nM1 + 1)
            phase := if e.tail = e.nM1 then !e.phase else e.phase
            lostf := false }).signalEq d q))
    ∧ (kind < 64 → code < 256 → aux < 65536 → id < 2 ^ 32 → t < 2 ^ 64 →
      let n := leNat (eventEntry e.phase e.lostf kind code aux id t)
      natBits n 63 0 = t ∧ natBits n 95 64 = id ∧ natBits n 111 96 = aux ∧ natBits n 119 112 = code
      ∧ natBits n 125 120 = kind ∧ natBit n 126 = e.lostf ∧ natBit n 127 = e.phase))
  ∧ (∀ (s : State) (d q t : Nat),
    let e := s.evq d q
    d < 16 → q < 4 → e.itEnd = some t → t ≤ s.dt →
    exec (.eqItimeExpiry d q) s = .next
      (if e.itPend then (s.msix e.fn e.vec).updEvq d q fun x => { x with itEnd := some (s.dt + 1000 * e.itime), itPend := false }
       else s.updEvq d q fun x => { x with itEnd := none }))
  ∧ (∀ (s : State) (fn : Fn) (n : Nat), n < 64 → natBit (s.fnSt fn).msixMask n = true → natBit (s.fnSt fn).msixPend n = true →
    s.fnAnswers fn = true → s.ideBlocks fn = false → s.sec.statusMode = false → (s.fnSt fn).cfg.msixEn = true →
    (s.fnSt fn).cfg.fnMask = false → s.fnReachAt fn (Tab.get 0 (s.fnSt fn).msixAddr n) 4 = true →
    ∃ t, exec (.msixVectorUnmask fn n) s = .next t ∧ natBit (t.fnSt fn).msixMask n = false ∧ natBit (t.fnSt fn).msixPend n = false
      ∧ t.fnSt (fnOther fn) = s.fnSt (fnOther fn)
      ∧ (t.fnSt fn).msixSent = Tab.upd 0 (s.fnSt fn).msixSent n (· + 1))

/-! ### Scheduler commands -/

/-- R212, R213, R215: TASK_SUBMIT makes the instances of a block that meets every condition, as one event. The model's readings: an argument
block of 64 bytes (log entry 24), the order of the checks (53), tally numbers and values modulo 2^32 (22). -/
def Obligations.SubmittedTasksEnterTheQueue : Prop :=
  ∀ (s : State) (d r : Nat) (h : HostCmd),
    let b := TaskBlock.ofNat h.body
    s.accepts d r 1 none h →
    (s.blockRefusal d b = none → s.blockRoom d b = true →
      ∃ t : State, exec (.taskSubmit d r) s = .next (t.cmdDone (ringKey d r) 0)
        ∧ t.sched.tasks = s.sched.tasks ++ (List.range (b.countM1 + 1)).map (s.newTask d b)
        ∧ t.sched.nextUid = s.sched.nextUid + b.countM1 + 1
        ∧ { t with sched := { t.sched with tasks := s.sched.tasks, nextUid := s.sched.nextUid } } = s)
    ∧ (s.blockRoom d b = false → s.blockRefusal d b ≠ some 1 → exec (.taskSubmit d r) s = .next (s.cmdDone (ringKey d r) 2))
    ∧ (∀ e, s.blockRoom d b = true → s.blockRefusal d b = some e → exec (.taskSubmit d r) s = .next (s.cmdDone (ringKey d r) e))

/-- R209, R210, R238, R240: JOB_LOAD claims a handle, a slice or a pack, and its models, and sends the read of its image; R247, R248, R410,
R431: the image, once verified, makes the job LOADED when its code frame and its pages are in place and the cores of an LC job's pack hold
their floors. That a load whose floors are not held yet stays LOADING, and the row JOB_LOAD_COMPLETE tries it again, is the model's choice
(log entry 214). The model's readings: a short image (log entry 54), when references rise (55), a read that fails (61), a code frame's place
in the queue of fills (190). -/
def Obligations.JobsAreLoaded : Prop :=
  (∀ (s : State) (d r j : Nat) (h : HostCmd),
    let be := natBit h.body 303
    let hi := h.field 295 288
    let lo := h.field 287 280
    let models := modelsField h.body
    let x : Job := { st := .loading, be := be, dom := d, ring := ringKey d r, xlen := h.xlen, models := models
                     packHi := if be then 0 else hi, packLo := if be then 0 else lo
                     slice := if be then (if h.field 271 256 = 0 then 100 else h.field 271 256) else 0 }
    s.accepts d r 2 (some 0x10) h → s.boot.store = true → sopUnused 0x10 h.body = false → h.field 63 0 % 64 = 0 →
    s.loadFirst d be hi lo models = 0 → s.freeJob = some j →
    ∃ t u : State, exec (.jobLoad d r) s = .next t
      ∧ t = (u.sendRead (s.ring d r).fn (h.field 63 0) h.xlen).setCmd (ringKey d r) (.busy j)
      ∧ u.sched.jobs = Tab.set {} s.sched.jobs j x
      ∧ u.sched.cmap = (if be then s.sched.cmap else (List.range (hi + 1 - lo)).foldl
          (fun m i => Tab.upd {} m (lo + i) fun o => { o with pack := true, job := j }) s.sched.cmap)
      ∧ u.knl.models = x.named.foldl (fun l id => Tab.upd {} l id fun m => { m with refs := m.refs + 1 }) s.knl.models
      ∧ { u with
          sched := { u.sched with jobs := s.sched.jobs, cmap := s.sched.cmap }
          knl := { u.knl with models := s.knl.models } } = s)
  ∧ (∀ (s : State) (j : Nat) (bs : List Byte),
    let job := s.job j
    let img := cut bs 0 job.xlen
    let e := s.imgReason job.be job.xlen job.models img
    j < 256 → job.st = .loading →
    (∀ r, job.verified = true → exec (.jobLoadComplete j r) s = .next ((s.jobFrame j).jobLoaded j))
    ∧ (job.verified = false → s.fnReachAt (s.ringAt job.ring).fn (s.cmdSrc job.ring) job.xlen = true →
      (e = 0 → s.pinRoom job.dom (s.loadPins j) = true →
        exec (.jobLoadComplete j (.data bs)) s = .next ((s.jobVerified j img).jobLoaded j))
      ∧ (e = 0 → s.pinRoom job.dom (s.loadPins j) = false →
        exec (.jobLoadComplete j (.data bs)) s = .next ((s.jobDrop j).cmdDone job.ring 7))
      ∧ (e ≠ 0 → exec (.jobLoadComplete j (.data bs)) s = .next ((s.jobDrop j).cmdDone job.ring (8 + 65536 * e)))))
  ∧ (∀ (s : State) (j : Nat),
    let job := s.job j
    let cs := if job.be then [] else s.packCores j
    let loaded := fun (v : State) =>
      let w := cs.foldl (fun s c => s.updCore c fun k => { k with segs := Tab.set none k.segs 0 (some { job := j, filling := false }) })
        (v.updJob j fun x => { x with st := .loaded })
      ({ w with sec := { w.sec with m6 := Config.sha3_384 (w.sec.m6 ++ job.prehash ++
          [BitVec.ofNat 8 job.dom, BitVec.ofNat 8 j, BitVec.ofNat 8 (bit job.be)]) } } : State).cmdDone job.ring (256 * j)
    let g := s.grantFloors cs
    ((job.frame = none ∨ (job.be = false ∧ job.named.all s.allPinned = false)) → s.jobLoaded j = s)
    ∧ (job.frame.isSome = true → (job.be = true ∨ job.named.all s.allPinned = true) →
      (cs.all s.floorHeld = true → s.jobLoaded j = loaded s)
      ∧ (cs.all s.floorHeld = false → cs.all g.floorHeld = true → s.jobLoaded j = loaded g)
      ∧ (cs.all s.floorHeld = false → cs.all g.floorHeld = false → s.jobLoaded j = g)))

/-- R118, R209, R235 to R237, R251, R276: JOB_UNLOAD of a job with no task, and the FELL commands. What a FELL does to one task of its job:
a running one takes the KILLED event, a parked or pending one ends, one that drains is left. The answers to a FELL or an UNLOAD in states
that R209 does not list are the model's readings (log entry 56). -/
def Obligations.JobsAreFelledAndUnloaded : Prop :=
  (
  ∀ (s : State) (d r : Nat) (h : HostCmd),
    let key := ringKey d r
    let j := h.field 311 304
    let job := s.job j
    (s.accepts d r 2 (some 0x11) h → sopUnused 0x11 h.body = false → job.dom = d → (job.st = .loaded ∨ job.st = .felled) →
      s.sched.tasks.any (·.job = j) = false →
      let u := (s.jobChans j).foldl (fun s n => (s.chanAbort n).updChan n fun x => { x with cfg := x.cfg &&& ~~~ (BitVec.ofNat 64 (2 ^ 55)) }) s
      exec (.jobUnload d r) s = .next
        (if job.be then (u.jobDrop j).cmdDone key 0
         else ((u.packCores j).foldl (fun s c => s.noteFall c) (u.jobDrop j)).leashRecompute.cmdDone key 0))
    ∧ (s.accepts d r 2 (some 0x12) h → sopUnused 0x12 h.body = false → job.dom = d → job.st = .loaded →
      let uids := (s.sched.tasks.filter (·.job = j)).map (·.uid)
      let u := (s.jobChans j).foldl State.chanAbort (uids.foldl State.fellOne (s.updJob j fun x => { x with st := .felling }))
      let chans := (s.jobChans j).filter fun n => (u.chan n).abort || (u.chan n).wb.isSome
      exec (.fellJob d r) s = .next
        (({ u with sched := { u.sched with fells := u.sched.fells ++ [⟨key, true, j, uids, chans⟩] } } : State).setCmd key (.busy j)))
    ∧ (s.accepts d r 2 (some 0x13) h → sopUnused 0x13 h.body = false → job.dom = d → job.st = .loaded →
      let uids := (s.sched.tasks.filter fun t => t.job = j && t.taskId = h.field 255 224).map (·.uid)
      let u := uids.foldl State.fellOne s
      exec (.fellTask d r) s = .next
        (if uids = [] then s.cmdDone key 0
         else ({ u with sched := { u.sched with fells := u.sched.fells ++ [⟨key, false, j, uids, []⟩] } } : State).setCmd key (.busy j)))
    ∧ (∀ f, hasRing d r = true → (s.sched.fells.find? fun f => f.ring = key) = some f →
      (∀ u ∈ f.uids, s.task u = none) → (∀ n ∈ f.chans, (s.chan n).abort = false ∧ (s.chan n).wb = none) →
      let u := { s with sched := { s.sched with fells := s.sched.fells.filter fun x => x.ring ≠ key } }
      exec (.fellComplete d r) s = .next
        ((if f.whole then u.updJob f.job fun x => { x with st := .felled } else u).cmdDone key 0)))
  ∧ (
  ∀ (s : State) (uid : Nat),
    (s.task uid = none → s.fellOne uid = s)
    ∧ ∀ t, s.task uid = some t →
      (∀ c k, t.st = .running c k →
        let u := s.retireReady c k
        s.fellOne uid = u.terminate c k 8 6 ((u.slot c k).lastRet - 1) none ∧ ((s.slot c k).canRetire = false → u = s))
      ∧ ((∃ c k, t.st = .draining c k) → s.fellOne uid = s)
      ∧ ((t.st = .waiting ∨ t.st = .ready) → s.fellOne uid = s.endTask { t with tDisp := 0 } {} ⟨8, 6, s.dt, 0, none⟩)
      ∧ (∀ c p, t.st = .parked c → (s.core c).parkedOf t.uid = some p → s.fellOne uid =
          (s.updCore c fun q => { q with parked := q.parked.filter fun r => r.slot.uid ≠ some t.uid }).endTask t p.slot
            ⟨8, 6, s.dt, p.slot.lastRet - 1, none⟩))

/-- R176 to R180, R199, R206, R239: ASSIGN closes its cores, or sends its granules to the scrub engine, in increasing number, those of the
Kennel once their frames are free; a scrubbed unit is zero and belongs to its new domain. The model's readings: the order of ASSIGN's
refusals (log entry 57), Kennel granules assigned again (58), units whose scrub failed (59), when a core enters the scrub state (60), and
LOCK and set-up control as at the acceptance (242). -/
def Obligations.UnitsAreScrubbedAndAssigned : Prop :=
  (∀ (s : State) (d r : Nat) (h : HostCmd),
    let kind := h.field 311 310
    let first := h.field 303 292
    let n := h.field 291 280 + 1
    let units := (List.range n).map (first + ·)
    let a : AssignCmd := ⟨ringKey d r, kind, natBit h.body 309, natBit h.body 308, h.field 307 304, units, false, units⟩
    let u := ({ s with sched := { s.sched with assigns := s.sched.assigns ++ [a] } } : State).setCmd (ringKey d r) (.busy 0)
    s.accepts d r 2 (some 0x14) h → h.field 279 0 = 0 → h.ctl = true →
    s.assignBusy (kind ≠ 0) units = false →
    (kind = 0 → first + n ≤ s.var.cores → (∀ c ∈ units, s.ras.fence.contains c = false) →
      let v := units.foldl (fun s c => s.updOwner c fun o => { o with closing := true }) u
      let on := (v.sched.tasks.filter fun t => match t.st with
        | .running c _ => units.contains c
        | .parked c => units.contains c
        | _ => false).map (·.uid)
      exec (.assign d r) s = .next (if natBit h.body 308 then on.foldl State.fellOne v else v))
    ∧ ((kind = 1 ∨ kind = 2) → first + n ≤ s.var.granules → (∀ g ∈ units, (s.gran g).knl = false) →
      exec (.assign d r) s = .next
        ((units.foldl (fun s g => s.updGran g fun x => { x with scrub := true }) u).doomGranules [] units))
    ∧ ((kind = 1 ∨ kind = 2) → first + n ≤ s.var.granules →
      let kn := units.filter fun g => (s.gran g).knl
      let rest := units.filter fun g => !(s.gran g).knl
      exec (.assign d r) s = .next
        ((rest.foldl (fun s g => s.updGran g fun x => { x with scrub := true })
          (kn.foldl (fun s g => s.updGran g fun x => { x with leaving := true }) u)).doomGranules kn rest)))
  ∧ (∀ (s : State) (rest : List Nat),
    let gone := (s.sched.ymap.filter fun p => p.2.leaving && (List.range 4).all fun i =>
      (Tab.get {} s.knl.frames (4 * p.1 + i)).st == .free).map (·.1)
    ∃ all : List Nat, all.Perm (gone ++ rest) ∧ all.Pairwise (· ≤ ·)
      ∧ s.leaveWith rest = (all.foldl (fun s g => s.updGran g fun x => { x with leaving := false, scrub := true }) s).scrubAdd
          (all.map fun g => (true, g)))
  ∧ (∀ (s : State) (c : Nat),
    let o := s.owner c
    c < s.var.cores → o.closing = true → o.scrub = false → (∃ a ∈ s.sched.assigns, a.kind = 0 ∧ a.units.contains c = true) →
    s.coreIdle c = true → (∀ p ∈ s.ras.fencing, p.1 ≠ c) →
    exec (.coreScrubStart c) s = .next ((s.updOwner c fun o => { o with scrub := true }).scrubAdd [(false, c)]))
  ∧ (∀ (s : State) (c : Nat) (a : AssignCmd),
    c < s.var.cores → s.sec.scrubBusy = some (false, c) → (s.sched.assigns.find? fun a => a.names false c) = some a →
    let f := { s with sec := { s.sec with scrubBusy := none } }
    exec (.coreScrubComplete c true) s = .next
      (((f.scrubNext.updCore c fun k => { k with
          mem := [], bad := [], weak := [], wins := [], sb := [], segs := [], se := {}, dbe := {}, ve := {}, ru := {}, lte := {} }).updOwner c fun _ =>
        if a.valid then { valid := true, dom := a.dom } else {}).unitDone false c false))
  ∧ (∀ (s : State) (c : Nat), c < s.var.cores → s.sec.scrubBusy = some (false, c) →
    let f := ({ s with sec := { s.sec with scrubBusy := none, scrubFailed := satAdd 16 s.sec.scrubFailed 1 } } : State).ueMet
      2 none 0 c (coreBase c)
    exec (.coreScrubComplete c false) s = .next (f.scrubNext.fenceStart c 2))
  ∧ (∀ (s : State) (g : Nat) (a : AssignCmd),
    g < s.var.granules → s.sec.scrubBusy = some (true, g) → (s.sched.assigns.find? fun a => a.names true g) = some a →
    s.memsOk = true →
    let lo := 65536 * g
    let f := ({ s with sec := { s.sec with scrubBusy := none } } : State).scrubNext
    let z := s.yard.mem.zero lo (lo + 65536)
    exec (.granuleScrubComplete g true) s = .next
      ((({ f with yard := ⟨z, s.yard.bad.filter fun b => b < lo || lo + 65536 ≤ b, s.yard.weak.filter fun b => b < lo || lo + 65536 ≤ b⟩ }
          : State).updGran g fun _ =>
        if !a.valid then {} else if a.kind = 2 then { valid := true, knl := true } else { valid := true, dom := a.dom }).unitDone
          true g false)
    ∧ ∀ i, Tab.get 0 z i = if lo ≤ i ∧ i < lo + 65536 then 0 else Tab.get 0 s.yard.mem i)

/-! ### The Kennel -/

/-- R188, R190, R199 to R202, R404, R405: LOAD takes the lowest free identifier and the lowest free store frames; its copy, when complete,
writes the pages and makes the directory entries valid. PIN, UNPIN, EVICT and UNLOAD of a loaded model of the ring's domain, and what
refuses each, a directory line that is not good or cannot be written among it: it is counted and recorded. That fields of LOAD only must be
0 elsewhere is the model's reading (log entry 233). More readings: the order of the checks (log entry 62), EVICT and UNPIN of pages in a
read (63), the model identifier in the status of a refused command (234), lines whose counter stands at its end (188), a waiting command
whose model is unloaded (189). -/
def Obligations.ModelsAreLoadedAndUnloaded : Prop :=
  (
  (∀ (s : State) (d r id : Nat) (errs : List LineErr) (h : HostCmd),
    let base := h.field 291 272
    let n := h.field 271 256 + 1
    let pin := natBit h.body 0
    let pick := pickStore s.knl.sframes s.var.storeFrames 0 n
    s.accepts d r 3 (some 1) h → s.boot.store = true → knlReserved h.body = false → h.field 307 296 = 0 →
    let lines := pick.1.map verLine ++ pick.2.map verLine ++ (List.range n).map fun i => dirLine (base + i)
    h.field 127 64 % 64 = 0 → s.loadRes d base n pin pick.1 = 0 → s.freeModel = some id →
    s.lvtCan lines = true → s.tableRun errs lines = ⟨[], none⟩ →
    ∃ t : State, exec (.knlLoad d ⟨r, errs⟩) s = .next ((t.sendRead (s.ring d r).fn (h.field 127 64) (n * 16384)).setCmd (ringKey d r) (.busy id))
      ∧ t.knl.models = Tab.set {} s.knl.models id { valid := true, pnBase := base, npages := n, dom := d, hpin := pin, loading := true }
      ∧ t.knl.sframes = pick.1.foldl (fun t f => Tab.upd {} t f fun x => { x with bound := true, lastver := x.lastver + 1 })
          (pick.2.foldl (fun t f => Tab.upd {} t f fun x => { x with retired := true }) s.knl.sframes)
      ∧ t.knl.frames = s.knl.frames ∧ { t with knl := s.knl } = s)
  ∧ (∀ (s : State) (d r id : Nat) (errs : List LineErr) (h : HostCmd) (bs : List Byte),
    let m := s.model id
    let n := m.npages
    let p := s.putPages m bs
    let u := (State.lvtBump { p with knl := { p.knl with
        dir := m.pages.foldl (fun t pn => Tab.upd {} t pn fun e => { e with valid := true }) p.knl.dir } }
      (m.pages.map dirLine)).updModel id fun m => { m with
        loading := false, digest := Config.shake256 32 ((List.range (n * 16384)).map fun k => bs.getD k 0) }
    hasRing d r = true → (s.ring d r).cur = some h → h.st = .busy id → h.cls = 3 → h.op = 1 → m.loading = true →
    s.fnReachAt (s.ring d r).fn (h.field 127 64) (n * 16384) = true → s.lvtCan (m.pages.map dirLine) = true →
    s.tableRun errs (m.pages.map dirLine) = ⟨[], none⟩ →
    (m.hpin = false → exec (.knlLoadCopyComplete d ⟨r, errs⟩ (.data bs)) s = .next (u.cmdDone (ringKey d r) (256 * id)))
    ∧ (m.hpin = true →
      exec (.knlLoadCopyComplete d ⟨r, errs⟩ (.data bs)) s = .next (u.knlAwait (ringKey d r) true id))))
  ∧ (
  ∀ (s : State) (d r op : Nat) (errs : List LineErr) (h : HostCmd),
    let key := ringKey d r
    let id := h.field 307 296
    let m := s.model id
    let ok := fun (l : List Nat) => (s.tableRun errs l).bad = none ∧ s.lvtCan l = true
    let met := fun (l : List Nat) => s.tableRead (s.tableRun errs l)
    s.accepts d r 3 (some op) h → s.boot.store = true → knlReserved h.body = false → h.field 291 256 = 0 → h.field 127 64 = 0 →
    natBit h.body 0 = false → m.valid = true → m.loading = false → (∀ w ∈ s.knl.cmds, w.isLoad = true → w.id ≠ id) → m.dom = d →
    (op = 2 →
      let l := (s.pinStale id true).map dirLine
      ((m.pinned = true ∨ s.pinRoom d m.npages = true) → ok l → exec (.knlPin d ⟨r, errs⟩) s = .next
          (((((met l).updModel id fun m => { m with hpin := true }).restate id).setCmd key (.busy id)).knlAwait key false id))
      ∧ ((m.pinned = true ∨ s.pinRoom d m.npages = true) → ¬ ok l →
        exec (.knlPin d ⟨r, errs⟩) s = .next ((met l).cmdDone key (7 + 256 * id)))
      ∧ (m.pinned = false → s.pinRoom d m.npages = false → exec (.knlPin d ⟨r, errs⟩) s = .next (s.cmdDone key (5 + 256 * id))))
    ∧ (op = 3 →
      let l := if m.jpins = 0 then (s.pinStale id false).map dirLine else []
      exec (.knlUnpin d ⟨r, errs⟩) s = .next
        (if ok l then (((met l).updModel id fun m => { m with hpin := false }).restate id).cmdDone key (256 * id)
         else (met l).cmdDone key (7 + 256 * id)))
    ∧ (op = 4 → exec (.knlEvict d r) s = .next
        ((s.doomPages fun f => m.has f.pn && (f.st == .resident || (f.st == .filling && !m.pinned))).cmdDone key (256 * id)))
    ∧ (op = 5 →
      let l := m.pages.map dirLine
      (m.pinned = false → m.refs = 0 → exec (.knlUnload d ⟨r, errs⟩) s = .next
        (if ok l then ((met l).unloadModel id).cmdDone key (256 * id) else (met l).cmdDone key (7 + 256 * id)))
      ∧ ((m.pinned = true ∨ 0 < m.refs) → exec (.knlUnload d ⟨r, errs⟩) s = .next (s.cmdDone key (6 + 256 * id)))))
  ∧ (
  ∀ (s : State) (r : LineRun),
    (r.bad = none → r.fixed = [] → s.tableRead r = s)
    ∧ (∀ i f, r.fixed = [] → r.bad = some (i, f) →
      let n := if f then satAdd 16 s.sec.forge 1 else s.sec.forge
      let u := { s with sec := { s.sec with tagfail := satAdd 16 s.sec.tagfail 1, forge := n } }
      let o := s.var.tableOff i
      n < 256 → s.tableRead r = u.ueMet 0 none 2 (s.var.channelOf o) (storeBase + o)))

/-- R192, R193, R195, R248: what has waited longest takes a frame, a page for its fill, one of 64 at a time, or a job for its code; the
page's bytes, as its lines open under its version, then stand in the frame, and the touches that wait read it. R186, R401, R402, R405: a
line of a store frame opens as it was put, and its tag and check symbols hold; up to 2 erroneous bytes of a line are corrected, more are
read a second time. That more than 2 erroneous bytes make the tag not match is the model's reading (log entry 185). So is the outcome of a
directory line that is not good (187), the order of code frames and pages (190), and lines of a frame whose copy is not complete (216, 217).
-/
def Obligations.PagesAreFilled : Prop :=
  (∀ (s u : State) (pn k : Nat) (rest : List Want),
    s.knl.waiting = .page pn :: rest → s.fills < 64 → s.boot.store = true → s.takeFrame = some (k, u) →
    exec .kennelFillStart s = .next
      (State.updFrame { u with knl := { u.knl with waiting := rest } } k fun _ =>
        { st := .filling, pn := pn, ent := Tab.get {} u.knl.dir pn }))
  ∧ (∀ (s u : State) (j : Nat) (rest : List Want), s.knl.waiting = .code j :: rest → s.takeCode j = some u →
    exec .kennelFillStart s = .next { u with knl := { u.knl with waiting := rest } })
  ∧ (∀ (s : State) (k id : Nat) (m : Model) (errs : List LineErr),
    let f := Tab.get {} s.knl.frames k
    let w := (s.yardWrite (bytesAt (16384 * k) (s.pageBytes f.ent))).1
    let n := (s.knl.touches.filter fun t => t.pn = f.pn ∧ t.frame = none).length
    f.st = .filling → f.doomed = false → f.gone = false → s.modelOf f.pn = some (id, m) → s.fillEnd f.pn f.ent errs = ⟨[], none⟩ →
    exec (.kennelFillComplete k errs) s = .next (State.knlFilled
      { w with knl := { w.knl with
          frames := Tab.upd {} s.knl.frames k fun f =>
            { f with st := if (s.model id).pinned then .pinned else .resident, ref := true, reads := f.reads + n }
          touches := s.knl.touches.map fun t => if t.pn = f.pn ∧ t.frame = none then { t with frame := some k } else t } } f.pn)
    ∧ (∀ i, i < 16384 → s.memsOk = true → s.yardBadIn (16384 * k) (16384 * k + 16384) = [] →
      Tab.get 0 w.yard.mem (16384 * k + i) =
        (s.openLine (f.ent.sframe * 16384 + 64 * (i / 64)) f.ent.version).getD (i % 64) 0))
  ∧ (∀ (s : State) (pn : Nat) (e : DirEnt) (errs : List LineErr), Tab.get {} s.knl.dir pn = e →
    let fault := fun (i : Nat) => s.lineFault (s.fillOff pn e i) (if i = 256 then s.lvtOf (dirLine pn) else e.version)
    let told := fun (i : Nat) => errs.find? fun x => x.line == i
    let good := fun (i : Nat) => fault i = none ∧ ∀ x, told i = some x → byteErrs x.first ≤ 2 ∨ byteErrs x.second ≤ 2
    let r := s.fillEnd pn e errs
    ((∀ i, i ≤ 256 → good i) → r.bad = none
      ∧ ∀ i, i ∈ r.fixed ↔ i ≤ 256 ∧ ∃ x, told i = some x
        ∧ 0 < byteErrs (if byteErrs x.first ≤ 2 then x.first else x.second))
    ∧ (∀ i, i < 256 → good 256 → (∀ j, j < i → good j) →
      (∀ f, fault i = some f → r.bad = some (i, f))
      ∧ (∀ x, fault i = none → told i = some x → 2 < byteErrs x.first → 2 < byteErrs x.second → r.bad = some (i, x.clean))))
  ∧ (∀ (s : State) (f i v : Nat) (l : List Byte), f < s.var.storeFrames → i < 256 → l.length = 64 → s.memsOk = true →
    let o := f * 16384 + 64 * i
    (s.putLine o v l).openLine o v = l ∧ (s.putLine o v l).lineFault o v = none)

/-- R192, R193, R199: a fill takes the lowest FREE frame that no ASSIGN takes out of the Kennel, when there is one. Else the clock hand
moves over the frames in increasing number from where it stands, wrapping: it skips those that are pinned, in a fill or read, clears the
REF of those that have it, and stops on the first that has not. A frame is freed only when no read of it is in progress: dooming a page
in a read leaves its frame until the last read ends. -/
def Obligations.FramesAreChosenAndKept : Prop :=
  (
  ∀ (s : State), Tab.wf ({} : GranOwn) s.sched.ymap = true → Tab.wf ({} : Frame) s.knl.frames = true →
    let fr := fun (k : Nat) => Tab.get {} s.knl.frames k
    let usable := fun (k : Nat) => (s.gran (k / 4)).knl = true ∧ (s.gran (k / 4)).leaving = false ∧ (s.gran (k / 4)).scrub = false
    let free := fun (k : Nat) => usable k ∧ (fr k).st = .free
    let out := fun (k : Nat) => usable k ∧ (fr k).st = .resident ∧ (fr k).reads = 0
    -- the order in which the hand meets the frames
    let before := fun (i j : Nat) => (s.knl.hand ≤ i ∧ j < s.knl.hand) ∨ ((s.knl.hand ≤ i ↔ s.knl.hand ≤ j) ∧ i < j)
    (∀ k, k ∈ s.usableFrames ↔ usable k)
    ∧ (s.takeFrame = none ↔ ∀ k, ¬ free k ∧ ¬ out k)
    ∧ (∀ k u, s.takeFrame = some (k, u) →
      ((∃ j, free j) → free k ∧ (∀ j, free j → k ≤ j) ∧ u = s)
      ∧ ((∀ j, ¬ free j) → out k
        ∧ u.knl.hand = k + 1 ∧ u.knl.victims = satAdd 32 s.knl.victims 1
        ∧ ((∃ j, out j ∧ (fr j).ref = false) →
          (fr k).ref = false ∧ (∀ j, out j → (fr j).ref = false → j = k ∨ before k j)
          ∧ ∀ j, (out j ∧ before j k → Tab.get {} u.knl.frames j = { fr j with ref := false })
            ∧ (¬ (out j ∧ before j k) → Tab.get {} u.knl.frames j = fr j))
        ∧ ((∀ j, out j → (fr j).ref = true) →
          (∀ j, out j → j = k ∨ before k j)
          ∧ ∀ j, (out j ∧ j ≠ k → Tab.get {} u.knl.frames j = { fr j with ref := false })
            ∧ (¬ (out j ∧ j ≠ k) → Tab.get {} u.knl.frames j = fr j))
        ∧ { u with knl := { u.knl with frames := s.knl.frames, hand := s.knl.hand, victims := s.knl.victims } } = s)))
  ∧ (
  ∀ (s : State) (pick : Frame → Bool) (k : Nat), Tab.wf ({} : Frame) s.knl.frames = true →
    let x := Tab.get {} s.knl.frames k
    let y := Tab.get {} (s.doomPages pick).knl.frames k
    y = if pick x = true ∧ x.st = .resident ∧ x.reads = 0 then {}
        else if pick x = true ∧ (x.st = .resident ∨ x.st = .filling) then { x with doomed := true } else x)

/-! ### Set-up registers -/

/-- R7, R13, R361 to R363, R412: every row that is a write of a set-up register is that write at its register's address; one that does not
pass the filter changes nothing but the count of filtered accesses. The registers of absent cores, loops, plant I/O and twin read zero and
take no write; that the filter comes first there too is the model's reading (log entry 112). So is what offsets that no table names do
(113). -/
def Obligations.RegisterWritesPassTheFilter : Prop :=
  ∀ (s : State) (fn : Fn) (d r q n u addr : Nat) (p : Part) (v : Word) (v32 : BitVec 32),
    ∀ x ∈ ([ (.sqEnable fn d r p v, decide (d < 16) && decide (r < 16), 0x102000 + 0x200 * d + 0x20 * r, p, v),
             (.sqDisable fn d r p v, decide (d < 16) && decide (r < 16), 0x102000 + 0x200 * d + 0x20 * r, p, v),
             (.eqEnable fn d q p v, decide (d < 16) && decide (q < 4), 0x106000 + 0x100 * d + 0x20 * q, p, v),
             (.hifClaim fn, true, 0x100000, .full, 1), (.hifRelease fn, true, 0x100000, .full, 2), (.hifTake fn, true, 0x100000, .full, 4),
             (.hifFndomWrite fn p v, true, 0x100008, p, v),
             (.hifRstArm fn, true, 0x100010, .full, 0xA5), (.hifRstStart fn, true, 0x100010, .full, 0x5A),
             (.yrdEnable fn n, decide (n < 128), 0x700018 + 0x40 * n, .full, 1), (.yrdDisable fn n, decide (n < 128), 0x700018 + 0x40 * n, .full, 0),
             (.yrdDoorbell fn n, decide (n < 128), 0x700018 + 0x40 * n, .full, 3), (.yrdAbort fn n, decide (n < 128), 0x700018 + 0x40 * n, .full, 5),
             (.yrdCtlClr fn, true, 0x704008, .full, 1),
             (.loopDvalidSet fn n p v, decide (n < 4096), 0xA00000 + 0x100 * n, p, v),
             (.loopDvalidClear fn n p v, decide (n < 4096), 0xA00000 + 0x100 * n, p, v),
             (.loopBaseWrite fn p v, true, 0xB00000, p, v), (.loopCtlClr fn, true, 0xB00010, .full, 1),
             (.canRecover fn n, decide (n < 8), 0xC30008 + 0x100 * n, .full, 1),
             (.ringEnable fn n p v, decide (n < 64), 0xC20000 + 0x20 * n, p, v),
             (.captureEnable fn n p v, decide (n < 16), 0xC50000 + 0x20 * n, p, v),
             (.dinEnable fn n p v, decide (n < 32), 0xC60000 + 0x10 * n, p, v),
             (.pioOwnWrite fn u p v, decide (u < 764), 0xC00000 + 8 * u, p, v),
             (.discEnable fn p v, true, 0xD00018, p, v), (.discDisable fn p v, true, 0xD00018, p, v),
             (.timeEpochWrite fn p v, true, 0xD00008, p, v), (.timeFreqWrite fn v32, true, 0xD00010, .lo, BitVec.ofNat 64 v32.toNat),
             (.secSetupLock fn p v, true, 0xE00008, p, v),
             (.tlyDrangeWrite fn d p v, decide (d < 16), 0x600000 + 8 * d, p, v),
             (.knlDrangeWrite fn d p v, decide (d < 16), 0x300100 + 8 * d, p, v),
             (.coreConfClr fn n, decide (n < 256), 0x400090 + 0x1000 * n, .full, 1),
             (.knlCtlClr fn, true, 0x300018, .full, 1), (.schedCtlClr fn, true, 0x203100, .full, 1),
             (.twinCfgWrite fn p v, true, 0xF20000, p, v), (.twinClaim fn, true, 0xF20008, .full, 1),
             (.twinRelease fn, true, 0xF20008, .full, 2), (.twinStandby fn, true, 0xF20008, .full, 4),
             (.twinHandover fn, true, 0xF20008, .full, 8),
             (.registerWrite fn (.bar0 (8 * addr)) p v true, decide (8 * addr < 0x110000) || decide (0x111000 ≤ 8 * addr), 8 * addr, p, v) ]
             : List (Instr × Bool × Nat × Part × Word)), x.2.1 = true →
      (s.reaches fn x.2.2.1 = true → x.2.2.1 < 0x1000000 →
        exec x.1 s = .next (s.writeReg fn x.2.2.1 (partMask x.2.2.2.1) x.2.2.2.2.toNat))
      ∧ (s.fnAnswers fn = true → s.ideBlocks fn = true ∨ (s.allowed fn x.2.2.1 = false ∧ x.2.2.1 < 0x1000000) →
        exec x.1 s = .next { s with hif := { s.hif with filt := satAdd 16 s.hif.filt 1 } })
      ∧ (s.fnAnswers fn = false → exec x.1 s = .next s)
      ∧ (s.ideReq fn = false → exec (.registerWrite fn (.bar0 addr) p v false) s = exec (.registerWrite fn (.bar0 addr) p v true) s)
      ∧ (s.fnAnswers fn = true → s.ideReq fn = true → exec (.registerWrite fn (.bar0 addr) p v false) s = .next s.filtered)
      ∧ (∀ a k w, (0x400000 + 0x1000 * s.var.cores ≤ a ∧ a < 0x500000)
          ∨ (s.var.acts = false ∧ ((0xA00000 ≤ a ∧ a < 0xD00000) ∨ (0xF20000 ≤ a ∧ a < 0x1000000))) →
        s.readReg a = 0 ∧ s.writeReg fn a k w = s)

/-- R14, R325, R361 to R363, R368, R369: a write changes the writable bits that it carries, and no other bit. Whom a register of each kind
is given to. An access that decodes nowhere is counted, and a write is logged as an Unsupported Request; what a read returns, the reads of
TIME_DT by halves among it. The model's readings: the log of an Unsupported Request (log entry 110), the one row that is a read of a host
(111), undecoded offsets (113), BAR2 in the row of undecoded accesses (206), and the stream of an access (211). -/
def Obligations.RegistersAndTheirOwners : Prop :=
  (
  ∀ (old : Word) (k rw v i : Nat), i < 64 →
    (regMerge old k rw v).getLsbD i = if natBit k i && natBit rw i then natBit v i else old.getLsbD i)
  ∧ (
  ∀ (s : State) (fn : Fn),
    (∀ a ∈ [0, 8, 0x100000, 0x100010, 0x100018], s.allowed fn a = true)
    ∧ (∀ a ∈ [0x100008, 0x100020, 0x300018, 0x600000, 0xB00000, 0xD00018, 0xE00008, 0xF00000, 0xF10000, 0xF20000, 0x203100],
        s.allowed fn a = (s.hif.holder == some fn))
    ∧ (∀ d r, d < 16 → r < 16 → s.allowed fn (0x102000 + 0x200 * d + 0x20 * r) = (s.isDriver fn d || s.hif.holder == some fn))
    ∧ (∀ n d, n < 128 → ((s.chan n).dvalid = true ∧ (s.chan n).dom = d →
          s.allowed fn (0x700018 + 0x40 * n) = (s.isDriver fn d || s.hif.holder == some fn))
        ∧ ((s.chan n).dvalid = false → s.allowed fn (0x700018 + 0x40 * n) = (s.hif.holder == some fn)))
    ∧ (∀ n, n < 4096 → s.allowed fn (0xA00000 + 0x100 * n) =
        (if (s.loopSlot n).dvalid then s.isDriver fn (s.loopSlot n).dom || s.hif.holder == some fn else s.hif.holder == some fn))
    ∧ (∀ u, u < 764 → s.allowed fn (0xC00000 + 8 * u) = (match s.pioDom u with
        | some d => s.isDriver fn d || s.hif.holder == some fn
        | none => s.hif.holder == some fn))
    ∧ (∀ k, k < 262144 → s.allowed fn (0x800000 + 8 * k) = (match s.tallyDom k with
        | some d => s.isDriver fn d
        | none => s.hif.holder == some fn)))
  ∧ (
  ∀ (s : State) (fn : Fn), s.fnAnswers fn = true → s.ideBlocks fn = false →
    let ur : State := { s with hif := { s.hif with ur := satAdd 16 s.hif.ur 1 } }
    let shows := fun (t : State) (v : Nat) => t.updFn fn fun f => { f with rdata := some v }
    let latch := fun (l : Option Nat) => ({ s with time := match fn with
        | .a => { s.time with latchA := l }
        | .b => { s.time with latchB := l } } : State)
    (∀ a n w, bar0Decodes a n = false →
      exec (.bar0UndecodedAccess fn false a n w true) s = .next
        (ur.updFn fn fun f => if w then f.logUr (Config.tlpHeader (fnNum fn) a n) else { f with rdata := none }))
    ∧ (∀ a n, exec (.bar0UndecodedAccess fn true a n false true) s = .next (shows s 0)
      ∧ exec (.timeDtLowRead fn (.bar2 a) true) s = .next (shows s 0)
      ∧ (s.ideReq fn = true → exec (.bar0UndecodedAccess fn true a n false false) s = .next (shows s.filtered 0)
        ∧ exec (.timeDtLowRead fn (.bar2 a) false) s = .next (shows s.filtered 0))
      ∧ (bar2Decodes a n = false → exec (.bar0UndecodedAccess fn true a n true true) s = .next
          (if s.isDriver fn (a / 65536 % 16) then ur else s.filtered)))
    ∧ (∀ a p, a % 8 = 0 → a + 8 ≤ 0x1000000 → (a < 0x110000 ∨ 0x111000 ≤ a) → a ≠ 0xD00000 →
      exec (.timeDtLowRead fn (.bar0 a p) true) s = .next
        (if s.allowed fn a then shows s (partOf p (s.readReg a)) else shows s.filtered 0))
    ∧ (s.hif.holder = some fn → s.sec.statusMode = false →
      exec (.timeDtLowRead fn (.bar0 0xD00000 .lo) true) s = .next (shows (latch (some (s.dt / 2 ^ 32 % 2 ^ 32))) (s.dt % 2 ^ 32))
      ∧ exec (.timeDtLowRead fn (.bar0 0xD00000 .hi) true) s = .next (shows (latch none) ((match fn with
          | .a => s.time.latchA
          | .b => s.time.latchB).getD (s.dt / 2 ^ 32 % 2 ^ 32)))))

/-- R364, R365, R389: set-up control and the two-step full reset. With LOCK 1 a CLAIM, a RELEASE and a write of HIF_FNDOM do nothing; a TAKE
has its effect. The model's readings: RSTANY when the holder changes (log entry 107), and HIF_RST written by a function that may not (115).
-/
def Obligations.SetUpControlIsClaimed : Prop :=
  ∀ (s : State) (fn : Fn), s.fnAnswers fn = true → s.ideBlocks fn = false → s.sec.statusMode = false →
    (s.sec.lock = false →
      (s.hif.holder = none → exec (.hifClaim fn) s = .next { s with hif := { s.hif with holder := some fn, rstany := false } })
      ∧ (∀ h, s.hif.holder = some h → h ≠ fn → exec (.hifClaim fn) s = .next s ∧ exec (.hifRelease fn) s = .next s)
      ∧ (s.hif.holder = some fn → exec (.hifRelease fn) s = .next { s with hif := { s.hif with holder := none } })
      ∧ (∀ v, s.hif.holder = some fn →
        let a := v.toNat % 65536
        let b := v.toNat / 65536 % 65536
        let t := { s with hif := { s.hif with doma := a, domb := b } }
        s.hif.doma < 65536 → s.hif.domb < 65536 →
        exec (.hifFndomWrite fn .full v) s = .next
          ((t.haltFn .a (s.hif.doma - (s.hif.doma &&& a)) 4).haltFn .b (s.hif.domb - (s.hif.domb &&& b)) 4)))
    ∧ (s.sec.lock = true →
      exec (.hifClaim fn) s = .next s ∧ exec (.hifRelease fn) s = .next s
      ∧ ∀ p v, s.hif.holder = some fn → exec (.hifFndomWrite fn p v) s = .next s)
    ∧ (∀ h, s.hif.holder = some h → h ≠ fn → (s.fnSt h).ls ≠ 2 → (s.fnSt h).downSince + 100000000 ≤ s.dt →
      exec (.hifTake fn) s = .next
        { s with hif := { s.hif with holder := some fn, rstany := if s.sec.lock = true then s.hif.rstany else false } })
    ∧ (∀ h, s.hif.holder = some h → ((s.fnSt h).ls = 2 ∨ s.dt < (s.fnSt h).downSince + 100000000) →
      exec (.hifTake fn) s = .next
        (if h = fn ∧ s.sec.lock = false then { s with hif := { s.hif with rstany := false } } else s))
    ∧ ((s.hif.holder = some fn ∨ s.hif.rstany = true ∨ s.hif.holder = none) →
      exec (.hifRstArm fn) s = .next { s with hif := { s.hif with armed := some (fn, s.dt + 1000000) } }
      ∧ ∀ t, s.hif.armed = some (fn, t) → s.dt < t → exec (.hifRstStart fn) s = .next (s.fullReset (2 + fnNum fn) 0))
    ∧ (∀ f t, s.hif.armed = some (f, t) → t ≤ s.dt → exec .hifRstArmExpiry s = .next { s with hif := { s.hif with armed := none } })

/-- R374, R377, R383: a ring or an event queue of a domain of its function starts empty when it is enabled; a ring that is disabled
completes the descriptor it has accepted. The other fields of a write whose EN is refused are the model's reading (log entry 106). -/
def Obligations.RingsAndQueuesAreEnabled : Prop :=
  ∀ (s : State) (fn : Fn) (d r q : Nat) (v : Word), d < 16 → r < 16 → q < 4 →
    let x := s.ring d r
    let e := s.evq d q
    let w := (regMerge (BitVec.ofNat 64 x.cfgReg) (partMask .full) (rwMask [(60, 56), (15, 0)]) v.toNat).toNat
    let z := (regMerge (BitVec.ofNat 64 e.cfgReg) (partMask .full) (rwMask [(62, 48), (15, 0)]) v.toNat).toNat
    (s.reaches fn (0x102000 + 0x200 * d + 0x20 * r) = true → x.en = false → natBit v.toNat 63 = true →
      x.base % 64 = 0 → s.isDriver (fnOfBool (natBit w 60)) d = true → Tab.wf ({} : Ring) s.hif.rings = true →
      exec (.sqEnable fn d r .full v) s = .next (s.updRing d r fun _ =>
        { x with
          en := true, state := 1, fn := fnOfBool (natBit w 60), eq := natBits w 59 58, evt := natBits w 57 56, nM1 := natBits w 15 0
          wb := x.head, tail := x.head, reading := false, again := false, stall := false }))
    ∧ (s.reaches fn (0x102000 + 0x200 * d + 0x20 * r) = true → x.en = true → natBit v.toNat 63 = false →
      exec (.sqDisable fn d r .full v) s = .next (s.updRing d r fun y =>
        { y with
          en := false, state := if y.cur.isSome && y.state == 1 then 1 else 0, reading := false, again := false, stall := false }))
    ∧ (s.reaches fn (0x106000 + 0x100 * d + 0x20 * q) = true → e.en = false → natBit v.toNat 63 = true →
      e.base % 64 = 0 → s.isDriver (fnOfBool (natBit z 62)) d = true → natBits z 15 0 ≠ 0 → Tab.wf ({} : EvQ) s.hif.eqs = true →
      exec (.eqEnable fn d q .full v) s = .next (s.updEvq d q fun _ =>
        { e with
          en := true, fn := fnOfBool (natBit z 62), vec := natBits z 61 56, itime := natBits z 55 48, nM1 := natBits z 15 0
          tail := 0, head := 0, phase := true, itEnd := none, itPend := false }))

/-- R17, R156, R190, R203, R232, R252, R310 to R312, R316 to R318, R322, R325 to R327, R336, R340, R347, R349 to R351, R424: what writes of
the registers of device time, of set-up, of the counters of the tallies, the Kennel, the cores and the scheduler, of the loop engine and of
plant I/O do. The address in the record of an ignored TLY_DRANGE is the model's reading (log entry 238). So are V as EN of a field (83),
what an input keeps when it is enabled (94, 97), and an EPOCH write before an edge of the same ns (194). -/
def Obligations.SetUpRegistersTakeEffect : Prop :=
  (
  ∀ (s : State) (fn : Fn) (v : Word),
    let x := s.time
    (s.reaches fn 0xD00018 = true → s.var.acts = true →
      let y := { x with pol := natBit v.toNat 59, dly := natBits v.toNat 47 32 }
      (natBit v.toNat 63 = true → x.disc = .free → exec (.discEnable fn .full v) s = .next { s with time :=
        { y with en := true, disc := .acquire, lastEdge := none, nok := 0 } })
      ∧ (natBit v.toNat 63 = false → exec (.discDisable fn .full v) s = .next { s with time :=
        { y with en := false, disc := .free, rate := rateClamp x.freq, edge := none } }))
    ∧ (s.reaches fn 0xD00008 = true → exec (.timeEpochWrite fn .full v) s = .next { s with time := { x with
        epoch := v, lastStep := v.toInt - x.epoch.toInt, tbi := (x.tbi + 1) % 65536
        disc := if x.disc = .free ∨ x.disc = .acquire then x.disc else .track
        nok := if x.disc = .free ∨ x.disc = .acquire then x.nok else 0 } })
    ∧ (∀ u : BitVec 32, s.reaches fn 0xD00010 = true → s.var.acts = true →
      exec (.timeFreqWrite fn u) s = .next
        (if x.disc = .free then { s with time := { x with freq := u.toInt, rate := rateClamp u.toInt } } else s))
    ∧ (s.reaches fn 0xE00008 = true → s.sec.lock = false → natBits v.toNat 62 61 = 0 →
      exec (.secSetupLock fn .full v) s = .next { s with sec := { s.sec with
        lock := natBit v.toNat 63, ideA := false, ideB := false } })
    ∧ (s.sec.lock = true → s.reaches fn 0xE00008 = true → exec (.secSetupLock fn .full v) s = .next s)
    ∧ (∀ d, d < 16 → s.reaches fn (0x600000 + 8 * d) = true → s.sec.lock = false →
      let w := regMerge (Tab.get 0 s.tly.drange d) (partMask .full) (rwMask [(50, 32), (17, 0)]) v.toNat
      let t : State := { s with tly := { s.tly with drange := Tab.set 0 s.tly.drange d w } }
      let bad := 262144 < natBits w.toNat 50 32 ∨ ∃ e < 16, e ≠ d ∧ rangesMeet w.toNat (Tab.get 0 s.tly.drange e).toNat = true
      (¬ bad → exec (.tlyDrangeWrite fn d .full v) s = .next
        { t with tly := { t.tly with val := t.tly.val.filter fun p => s.tallyDom p.1 = t.tallyDom p.1 } })
      ∧ (bad → exec (.tlyDrangeWrite fn d .full v) s = .next
        (s.record 4 0 (some d) 7 0 (0x800000 + 8 * natBits w.toNat 17 0) (natBits w.toNat 17 0))))
    ∧ (∀ d, d < 16 → s.reaches fn (0x300100 + 8 * d) = true → s.sec.lock = false →
      let w := regMerge (Tab.get 0 s.knl.drange d) (partMask .full) (rwMask [(61, 48), (44, 24), (19, 0)]) v.toNat
      exec (.knlDrangeWrite fn d .full v) s = .next
        (if 1048576 < natBits w.toNat 44 24 then s.record 4 0 (some d) 9 0 (0x300100 + 8 * d) 0
         else { s with knl := { s.knl with drange := Tab.set 0 s.knl.drange d w } }))
    ∧ (∀ c, c < s.var.cores → s.reaches fn (0x400090 + 0x1000 * c) = true →
      exec (.coreConfClr fn c) s = .next (s.updCore c fun k => { k with narrowWait := 0, poolWait := 0, sbHold := 0, winRefused := 0 }))
    ∧ (s.reaches fn 0x300018 = true →
      exec (.knlCtlClr fn) s = .next { s with knl := { s.knl with hits := 0, misses := 0, victims := 0, fillFail := 0 } })
    ∧ (s.reaches fn 0x203100 = true → exec (.schedCtlClr fn) s = .next s.schedClr))
  ∧ (
  ∀ (s : State) (fn : Fn) (n : Nat) (v : Word), s.var.acts = true →
    let v63 := natBit v.toNat 63
    (∀ x, x = s.loopSlot n → n < 4096 → s.reaches fn (0xA00000 + 0x100 * n) = true → s.hif.holder = some fn →
      let y := { x with cfg := v }
      (x.live = false → x.st = .disabled → v63 = true →
        exec (.loopDvalidSet fn n .full v) s = .next (s.updLoop n fun _ => { y with st := .open_, safeDue := true }))
      ∧ (x.live = false → x.st ≠ .disabled → v63 = false →
        exec (.loopDvalidClear fn n .full v) s = .next (s.updLoop n fun _ => { y with
          st := .disabled, queue := [], arrived := [], safeDue := false }))
      ∧ (x.live = true → exec (.loopDvalidClear fn n .full v) s = .next
        ((s.updLoop n fun z => { z with wign := satAdd 16 z.wign 1 }).record 4 0 (some x.dom) 4 n (0xA00000 + 0x100 * n) 0)))
    ∧ (s.reaches fn 0xB00000 = true →
      (s.liveLoops = [] → s.sec.lock = true → exec (.loopBaseWrite fn .full v) s = .next s)
      ∧ (s.liveLoops = [] → s.sec.lock = false → let u := s.arrivals none; exec (.loopBaseWrite fn .full v) s = .next { u with
        loop := { u.loop with base := v, frozen := [] }
        pio := { u.pio with
          pwms := Tab.mapAll {} u.pio.pwms fun _ x => { x with start := none, rise := none, fall := none, active := false } } })
      ∧ (s.liveLoops ≠ [] → exec (.loopBaseWrite fn .full v) s = .next (s.record 4 0 none 4 0 0xB00000 0)))
    ∧ (s.reaches fn 0xB00010 = true → exec (.loopCtlClr fn) s = .next { s with loop := { s.loop with
        slots := Tab.mapAll {} s.loop.slots fun _ x => { x with lateCnt := 0, skipCnt := 0, pushRef := 0, wign := 0 } } })
    ∧ (n < 8 → s.reaches fn (0xC30008 + 0x100 * n) = true → (s.can n).bstate = 2 →
      exec (.canRecover fn n) s = .next (s.updCan n fun x => { x with recovering := true }))
    ∧ (n < 64 → s.reaches fn (0xC20000 + 0x20 * n) = true → natBit (s.rxRing n).a.toNat 63 = false → v63 = true →
      10 ≤ natBits (s.rxRing n).b.toNat 26 23 → natBits (s.rxRing n).b.toNat 26 23 ≤ 14 → 8 ≤ natBits (s.rxRing n).b.toNat 22 16 →
      exec (.ringEnable fn n .full v) s = .next (s.updRxRing n fun x =>
        { x with a := regMerge (s.rxRing n).a (partMask .full) rwRingA v.toNat, frames := 0, full := 0, refused := 0, waiting := [] }))
    ∧ (n < 16 → s.reaches fn (0xC50000 + 0x20 * n) = true → natBit (s.cap n).cfg.toNat 63 = false → v63 = true →
      let c := regMerge (s.cap n).cfg (partMask .full) rwCap v.toNat
      exec (.captureEnable fn n .full v) s = .next
        (if capEnableBad c.toNat = true then (s.updCap n fun x => { x with cfg := enOff c }).pioRecord 4 1 (uCap n) (0xC50000 + 0x20 * n)
         else s.updCap n fun x => { x with
           cfg := c, lastEdge := none, prevCal := none, good := none, errRun := 0, status := []
           pinA := { x.pinA with level := x.pinA.raw }, pinB := { x.pinB with level := x.pinB.raw } }))
    ∧ (n < 32 → s.reaches fn (0xC60000 + 0x10 * n) = true → natBit (s.din n).cfg.toNat 63 = false → v63 = true →
      let c := regMerge (s.din n).cfg (partMask .full) rwDin v.toNat
      exec (.dinEnable fn n .full v) s = .next
        (if dinEnableBad c.toNat = true then (s.updDin n fun x => { x with cfg := enOff c }).pioRecord 4 1 (uDin n) (0xC60000 + 0x10 * n)
         else s.updDin n fun x => { x with cfg := c, rawAt := s.dt, filt := false, filtAt := none, stuck := false }))
    ∧ (n < 764 → s.reaches fn (0xC00000 + 8 * n) = true → s.hif.holder = some fn → natBit (s.pioCfg n) 63 = false →
      s.unitNamed n = false →
      let t := { s with pio := { s.pio with own := Tab.upd 0 s.pio.own n fun w => regMerge w (partMask .full) (maskBits 63 59) v.toNat } }
      exec (.pioOwnWrite fn n .full v) s = .next
        (if t.pioDom n = s.pioDom n then t
         else { t with sec := { t.sec with keys := t.sec.keys.filter fun k => k.unit ≠ n } })))

/-- R16: if hardware sets a W1C bit in the same cycle as a write of 1 clears it, the bit ends as 1; else the write clears it, and a write
of 0 leaves it. PIO_CAPSn.OVS, of each of the 16 capture inputs, is the one W1C bit of the register tables. -/
def Obligations.CoincidingSetsPrevail : Prop :=
  ∀ (s : State) (fn : Fn) (n : Nat), n < 16 → s.var.acts = true → s.reaches fn (0xC50010 + 0x20 * n) = true →
    Tab.wf ({} : CapSt) s.pio.caps = true →
    ((s.cap n).ovs = true → exec (.overspeedClear fn n true) s = .next s)
    ∧ exec (.overspeedClear fn n false) s = .next (s.updCap n fun x => { x with ovs := false })
    ∧ (∀ p v, natBit (partMask p) 63 = false ∨ natBit v.toNat 63 = false →
      exec (.registerWrite fn (.bar0 (0xC50010 + 0x20 * n)) p v true) s = .next s)

/-! ### The Yarder -/

/-- R262 to R268, R275 to R277, R280 to R283, R439, R442: a channel fetches the descriptor at HEAD, carries out its instructions in order
and ends it by two writes, the status and then OWN; an ABORT met meanwhile halts it with one event. EN, the doorbell and ABORT of a channel
of the Yarder, and its counters. That one event shows the end and the halt together is the model's reading (log entry 236). More readings:
the class and code of each record (log entry 65), BAD_INSTR with a write-back (66), ABORT in FETCH (67), a fetch that is not retried (68),
the word shown (70), a status place that may not be written (73), two writes at the end (191); how much of a burst stands at EN 0 is free
(69). -/
def Obligations.ChannelsRunTheirDescriptors : Prop :=
  (
  ∀ (s : State) (n : Nat), n < 128 →
    let h := s.chan n
    let w := h.wd h.word
    let at_ := fun opc => h.st = .run ∧ h.word < 6 ∧ yOpc w = opc ∧ h.passDone = none ∧ h.wb = none
    (h.st = .idle → h.poll ≠ 0 → h.pollFrom + 1000 * h.poll ≤ s.dt →
      exec (.yrdPollExpiry n) s = .next (s.updChan n fun x => { x with st := .fetch }))
    ∧ (∀ resp bs, h.st = .fetch → h.wb = none → s.fetchDesc n resp = some bs →
      let ws := (List.range 6).map fun i => leNat ((bs.drop (8 * i)).take 8)
      let u := s.descRead n
      (natBit (bs.getD 63 0).toNat 7 = false →
        exec (.yrdDescriptorFetch n resp) s = .next (u.updChan n fun x => { x with st := .idle, pollFrom := s.dt }))
      ∧ (natBit (bs.getD 63 0).toNat 7 = true → yBadDescriptor ws = false → Tab.wf ({} : Chan) s.yrd.chans = true →
        exec (.yrdDescriptorFetch n resp) s = .next (u.updChan n fun _ =>
          { h with
            st := .run, w := ws.map (BitVec.ofNat 64 ·), word := 0, iter := 0, passDone := none, retriesMax := 0, burst := none })))
    ∧ (∀ resp, h.st = .fetch → h.wb = none → s.fetchDesc n resp = none → exec (.yrdDescriptorFetch n resp) s = .next
        ((if s.descMet n resp = true then s.descRead n else s).chanHaltPlain n 8 3 1 0))
    ∧ (∀ resp bs, spaceFn h.space = none → (s.fetchDesc n resp = some bs ↔ (∃ x, resp = .data x)
        ∧ s.chanCheck h h.descAt 64 = none ∧ s.rangeCut h.descAt 64 = false ∧ s.firstBad h.descAt 64 = none ∧ bs = s.rdBytes h.descAt 64))
    ∧ (at_ 1 → exec (.yrdMove n) s = .next ((s.updChan n fun x => { x with passDone := some 0 }).formBurst n))
    ∧ (at_ 2 → exec (.yrdLoop n) s = .next (s.updChan n fun x =>
        if h.iter < natBits w 11 0 then { x with iter := x.iter + 1, word := natBits w 59 57 } else { x with word := x.word + 1 }))
    ∧ (at_ 3 → let t := natBits w 58 41
      let v := if natBit w 59 then (h.exp + natBits w 31 0) % 2 ^ 32 else natBits w 31 0
      (s.waitRefused h.dom t = true → exec (.yrdWait n) s = .next ((s.tallyRefuse h.dom t).updChan n fun x =>
        { x with st := .waiting, waitN := some v, waitRefused := true, waitSat := false }))
      ∧ (s.waitRefused h.dom t = false → s.waitMet t v = true → exec (.yrdWait n) s = .next (s.updChan n fun x =>
        { x with st := .run, word := x.word + 1, waitN := none, waitSat := false, exp := if natBit w 59 then v else x.exp }))
      ∧ (s.waitRefused h.dom t = false → s.waitMet t v = false → exec (.yrdWait n) s = .next (s.updChan n fun x =>
        { x with st := .waiting, waitN := some v, waitRefused := false, waitSat := false })))
    ∧ (h.st = .waiting → h.waitSat = true → h.wb = none → exec (.yrdWaitSatisfied n) s = .next (s.updChan n fun x =>
        { x with
          st := .run, word := x.word + 1, waitN := none, waitSat := false
          exp := if natBit w 59 then h.waitN.getD 0 else x.exp }))
    ∧ (at_ 4 → exec (.yrdSignal n) s = .next
        ((s.tallyIssue ⟨natBits w 58 41, natBit w 59, natBits w 31 0, h.dom, none, 0⟩).updChan n fun x => { x with word := x.word + 1 }))
    ∧ (∀ errs fin, (fin = true ∧ at_ 5 ∨ fin = false ∧ (at_ 0 ∨ (h.st = .run ∧ h.passDone = none ∧ h.wb = none ∧ 6 ≤ h.word))) →
      let i := if 6 ≤ h.word then ((yStarts (h.w.map (·.toNat)) 6 0).getLast?).getD 5 else h.word
      exec (if fin then .yrdEnd n errs else .yrdEmpty n errs) s = .next ((s.updChan n fun x =>
        { x with wb := some { yres := 0, residue := 0, word := i, fin := if fin then .idle else .fetch, ended := s.dt } }).wbStep n errs))
    ∧ (∀ errs, h.wb.isSome = true → exec (.yrdEnd n errs) s = .next (s.wbStep n errs) ∧ exec (.yrdEmpty n errs) s = .next (s.wbStep n errs))
    ∧ (∀ b, h.wb = some b →
      (∀ t, b.own = none → s.ringWrite n 48 (yStatus b.ended b.residue h.iter (min h.retriesMax 7) b.word b.yres) = some t →
        s.wbStep n 0 = t.updChan n fun x => { x with wb := some { b with own := some (BitVec.ofNat 8 (natBits b.ended 62 56)) } })
      ∧ (∀ t top, b.own = some top → s.ringWrite n 63 [top] = some t → h.abort = false →
        let u := t.updChan n fun x => { x with head := (x.head + 1) % (x.nM1 + 1), wb := none }
        (b.fin = .fetch → s.wbStep n 0 =
          (u.chanEvent b.ended n b.yres b.word h.head 1).updChan n fun x => { x with st := .fetch, pollFrom := t.dt })
        ∧ (b.fin = .idle → s.wbStep n 0 =
          (u.chanEvent b.ended n b.yres b.word h.head 2).updChan n fun x => { x with st := .idle, pollFrom := t.dt })
        ∧ (∀ a, b.fin = .halt a → s.wbStep n 0 = (u.chanEvent b.ended n b.yres b.word h.head 3).chanHalted n b.yres a))
      ∧ (∀ t top, b.own = some top → s.ringWrite n 63 [top] = some t → h.abort = true → (b.fin = .fetch ∨ b.fin = .idle) →
        let u := t.updChan n fun x => { x with head := (x.head + 1) % (x.nM1 + 1), wb := none }
        s.wbStep n 0 = (u.chanEvent b.ended n b.yres b.word h.head 3).chanHalted n 1 true)
      ∧ ((b.own = none ∧ s.ringWrite n 48 (yStatus b.ended b.residue h.iter (min h.retriesMax 7) b.word b.yres) = none
          ∨ ∃ top, b.own = some top ∧ s.ringWrite n 63 [top] = none) →
        s.wbStep n 0 = s.chanHaltPlain n 2 3 1 b.word)
      ∧ (∀ errs, (h.space = 1 ∨ h.space = 2) → h.retry < errs → s.wbStep n errs =
        State.chanHaltPlain { s with yrd := { s.yrd with retried := satAdd 32 s.yrd.retried h.retry } } n 2 3 1 b.word)))
  ∧ (
  ∀ (s : State) (fn : Fn) (n : Nat), n < 128 → s.reaches fn (0x700018 + 0x40 * n) = true →
    let h := s.chan n
    (h.st = .disabled → s.chanBad h = false → Tab.wf ({} : Chan) s.yrd.chans = true →
      exec (.yrdEnable fn n) s = .next (s.updChan n fun _ => { h with en := true, st := .fetch, bytes := 0 }))
    ∧ (h.st = .disabled → s.chanBad h = true →
      exec (.yrdEnable fn n) s = .next ((s.updChan n fun x => { x with en := true }).chanHaltPlain n 9 4 1 0))
    ∧ (h.st ≠ .disabled → h.burst = none → h.wb = none → ∃ t : State, exec (.yrdDisable fn n) s = .next t
      ∧ (Tab.wf ({} : Chan) s.yrd.chans = true → t.chan n =
        { h with
          en := false, st := .disabled, w := [], word := 0, iter := 0, passDone := none, abort := false, waitN := none
          waitSat := false, waitRefused := false, retriesMax := 0, burst := none }))
    ∧ ((h.st = .idle ∨ h.st = .halted) → h.en = true → Tab.wf ({} : Chan) s.yrd.chans = true →
      exec (.yrdDoorbell fn n) s = .next (s.updChan n fun _ => { h with st := .fetch }))
    ∧ (h.st ≠ .disabled → h.en = true → Tab.wf ({} : Chan) s.yrd.chans = true →
      exec (.yrdAbort fn n) s = .next (s.chanAbort n))
    ∧ (h.st = .waiting → h.wb = none → s.chanAbort n = s.chanHalt n 1 0 true)
    ∧ (s.reaches fn 0x704008 = true →
      exec (.yrdCtlClr fn) s = .next { s with yrd := { s.yrd with retried := 0, halts := 0 } }))

/-- R270 to R273, R278, R388, R442: the arbiter gives a burst slot to the ready channel of the highest priority, round robin among equals; a
burst's bytes reach their destination and its pass goes on; a burst whose ranges fail the check is not carried out. The model's readings:
sources of the model space outside its ranges (log entry 64), a device burst answered with an error (71), when a page is touched (72), a
PUSH or SEND word covered in part (74). -/
def Obligations.BurstsAreGrantedAndWritten : Prop :=
  (∀ (s : State) (host : Bool), Tab.wf ({} : Chan) s.yrd.chans = true →
    let ready := fun (n : Nat) =>
      let h := s.chan n
      h.st = .run ∧ h.abort = false ∧ h.wb = none ∧ ∃ b, h.burst = some b ∧ b.isHost = host ∧ b.granted = none
        ∧ (b.bad.isSome = true ∨ b.sspace ≠ 3 ∨ s.chanLc h = true ∨ b.page = none ∨ (s.chanFrame n).isSome = true)
    ((∃ n, ready n) → (s.arbiter host).isSome = true)
    ∧ ∀ n h, s.arbiter host = some (n, h) →
      let start := Tab.get 0 s.yrd.rr (bit host * 8 + h.prio)
      h = s.chan n ∧ ready n ∧ (∀ m, ready m → (s.chan m).prio ≤ h.prio)
      ∧ ∀ m, ready m → (s.chan m).prio = h.prio → (start ≤ n → start ≤ m → n ≤ m) ∧ (n < start → m < start ∧ n ≤ m))
  ∧ (∀ (s : State) (host : Bool) (i n : Nat) (h : Chan) (b : Burst),
    let base := if host then 16 else 0
    let g := { s with yrd := { s.yrd with rr := Tab.set 0 s.yrd.rr (bit host * 8 + h.prio) (n + 1) } }
    ((List.range 16).find? fun i => (Tab.get none s.yrd.slots (base + i)).isNone) = some i →
    s.arbiter host = some (n, h) → h.burst = some b →
    (s.burstCheck h b = none → s.burstReach b = true →
      let v := if b.sspace = 3 ∧ s.chanLc h = true then
          (match b.page with
            | some pn => g.touch ⟨0, 0, 0, 0, some n, pn, natBits b.src 13 0, b.len, b.dst, none⟩
            | none => g)
        else g
      let v := match spaceFn b.sspace with
        | some fn => v.sendRead fn b.src b.len
        | none => v
      exec (.yrdBurstGrant host) s = .next
        (({ v with yrd := { v.yrd with slots := Tab.set none v.yrd.slots (base + i) (some n) } } : State).updChan n fun x =>
          { x with burst := some { b with granted := some (base + i) } }))
    ∧ (∀ y a, s.burstCheck h b = some (y, a) → b.page = none ∨ y ≠ 6 →
      exec (.yrdBurstGrant host) s = .next ((g.checkRecord n y a).chanHalt n y h.left false))
    ∧ (∀ a pn, s.burstCheck h b = some (6, a) → b.page = some pn →
      exec (.yrdBurstGrant host) s = .next (((g.countHit pn).checkRecord n 6 a).chanHalt n 6 h.left false))
    ∧ (s.burstCheck h b = none → s.burstReach b = false →
      exec (.yrdBurstGrant host) s = .next ((g.checkRecord n 3 0).chanHalt n 3 h.left false)))
  ∧ (∀ (s : State) (n : Nat) (b : Burst),
    n < 128 → (s.chan n).burst = some b → b.granted.isSome = true → s.burstReach b = true →
    (∀ e, s.burstCut n b = true → exec (.yrdBurstComplete n e) s = .next (s.burstRetry n b))
    ∧ (∀ e y a, s.burstCut n b = false → s.burstRecheck (s.chan n) b = some (y, a) →
      exec (.yrdBurstComplete n e) s = .next ((s.checkRecord n y a).burstFails n y))
    ∧ (s.burstCut n b = false → s.burstRecheck (s.chan n) b = none → b.bad = none →
      (∀ bs l sk ix, s.burstBad n b = some (l, sk, ix) →
        exec (.yrdBurstComplete n (.data bs)) s = .next ((s.ueMet 0 (some (s.chan n).dom) sk ix l).burstFails n 5))
      ∧ (∀ bs, s.burstBad n b = none →
        let u := if b.sspace = 3 ∧ b.page = none then s.chanRecord n 3 3 (if b.dspace = 0 then b.dst else 0) else s.burstSeen n b
        let data := if b.sspace = 1 ∨ b.sspace = 2 then (List.range b.len).map (bs.getD · 0)
          else if b.sspace = 0 then s.rdBytes b.src b.len
          else match s.chanFrame n with
            | some k => s.yard.mem.read (16384 * k + natBits b.src 13 0) b.len
            | none => List.replicate b.len 0
        (∀ fn, spaceFn b.dspace = some fn → exec (.yrdBurstComplete n (.data bs)) s = .next
          ((u.updFn fn fun f => { f with mem := f.mem.write b.dst data }).burstDone n b))
        ∧ (b.dspace = 0 → (u.devWrite b.dst data).2 = [] →
          exec (.yrdBurstComplete n (.data bs)) s = .next ((u.devWrite b.dst data).1.burstDone n b))
        ∧ (3 ≤ b.dspace → exec (.yrdBurstComplete n (.data bs)) s = .next ((u.portWrite b.dspace b.dst data).burstDone n b)))
      ∧ (∀ e, (∀ bs, e ≠ .data bs) → b.isHost = false ∨ e ≠ .ur → exec (.yrdBurstComplete n e) s = .next (s.burstRetry n b))))
  ∧ (∀ (ss ds src dst left : Nat), 0 < left →
    let l := burstLen ss ds src dst left
    0 < l ∧ l ≤ 4096 ∧ l ≤ left
    ∧ ((ss = 1 ∨ ss = 2) → src / 4096 = (src + l - 1) / 4096) ∧ ((ds = 1 ∨ ds = 2) → dst / 4096 = (dst + l - 1) / 4096)
    ∧ (ss = 3 → src / 16384 = (src + l - 1) / 16384))

/-! ### The loop engine -/

/-- R35, R300 to R305, R310, R314, R316: loop commands act on all the slots they name; pushes join the queue of a slot. A push
that breaks a rule is refused whole; one that is accepted replaces the entries from its first OPEN on; at an outer sample the loop drops
the entries whose window is over or whose successor is open, takes the head if it is open, and is exhausted otherwise; an entry with an
uncorrectable error is dropped and counted (R448). The order of CLOSE's checks (log
entry 76), a second OPEN that keeps the first one's instant (77), and that what comes while frozen instants wait is taken after them (193),
are the model's readings. -/
def Obligations.LoopCommandsAndTrajectories : Prop :=
  (
  ∀ (s : State) (d r : Nat) (h : HostCmd),
    let first := h.field 311 300
    let n := h.field 299 288 + 1
    let slots := (List.range n).map (first + ·)
    let key := ringKey d r
    first + n ≤ 4096 → h.field 287 0 = 0 → (∀ i ∈ slots, (s.loopSlot i).st ≠ .disabled ∧ (s.loopSlot i).dom = d) →
    (s.accepts d r 4 (some 0x30) h → (∀ i ∈ slots, (s.loopSlot i).st = .open_) → (∀ i ∈ slots, s.loopCfgOk i slots = true) →
      (∀ k < 2000, occAt (s.liveLoops.map (·.2) ++ slots.map s.loopSlot) k ≤ 256) →
      (∀ i ∈ slots, (s.loopSlot i).spsrc = 1 → (s.loopSlot (s.loopSlot i).parent).runs = true ∨ (s.loopSlot i).parent ∈ slots) →
      let t := slots.foldl (fun s i => s.updLoop i fun x => { x with st := .armed, tAcc := s.dt, hcnt := 0, openAt := none }) s
      exec (.loopClose d r) s = .next
        { t.setCmd key (.busy 0x30) with loop := { t.loop with cmds := t.loop.cmds ++ [⟨key, 0x30, slots⟩] } })
    ∧ (s.accepts d r 4 (some 0x30) h → (∃ i ∈ slots, (s.loopSlot i).st ≠ .open_) →
      exec (.loopClose d r) s = .next (s.cmdDone key 1))
    ∧ (s.accepts d r 4 (some 0x31) h → (∀ i ∈ slots, (s.loopSlot i).live = true) →
      let t := slots.foldl (fun s i => s.updLoop i fun x => { x with openAt := some (x.openAt.getD s.dt) }) s
      exec (.loopOpen d r) s = .next
        { t.setCmd key (.busy 0x31) with loop := { t.loop with cmds := t.loop.cmds ++ [⟨key, 0x31, slots⟩] } })
    ∧ (s.accepts d r 4 (some 0x32) h → (∀ i ∈ slots, (s.loopSlot i).st = .tripped) →
      exec (.loopResume d r) s = .next
        ((slots.foldl (fun s i => s.updLoop i fun x => { x with st := .open_, cause := 0 }) s).cmdDone key 0))
    ∧ (s.accepts d r 4 (some 0x33) h →
      exec (.loopQclear d r) s = .next
        ((slots.foldl (fun s i => s.updLoop i fun x =>
          if s.loop.frozen = [] then { x with queue := [], skipCnt := satAdd 16 x.skipCnt x.queue.length }
          else { x with arrived := x.arrived ++ [(s.dt, none)] }) s).cmdDone key 0)))
  ∧ (
  (∀ (s : State) (n : Nat) (v : Word),
    let x := s.loopSlot n
    let l := (List.range (natBits v.toNat 6 0)).map fun i => trajOf (leNat (x.staging.read (32 * i) 32)) i
    n < 4096 → s.var.acts = true →
    exec (.trajectoryPush n v) s = .next
      (if x.pushBad v.toNat l then (s.updLoop n fun y => { y with pushRef := satAdd 16 y.pushRef 1 }).loopEvent n
       else if s.loop.frozen = [] then s.updLoop n fun y => y.push l s.dt
       else s.updLoop n fun y => { y with arrived := y.arrived ++ [(s.dt, some l)] }))
  ∧ (∀ (x : LoopSlot) (v : Nat) (l : List Traj), x.pushBad v l = true ↔ natBits v 6 0 = 0 ∨ 64 < natBits v 6 0 ∨ natBits v 63 7 ≠ 0
    ∨ x.st = .disabled ∨ (∃ e ∈ l, e.cl ≤ e.op) ∨ (∃ i a b, l[i]? = some a ∧ l[i + 1]? = some b ∧ a.cl ≠ b.op)
    ∨ ∃ e ∈ l, ∃ w, natBits w 22 15 = 255 ∧
        (x.law < 2 ∧ w ∈ [e.v0, e.v1, e.v2] ∨ 2 ≤ x.law ∧ (w = e.v3 ∨ w ∈ [e.v0, e.v1, e.v2].take x.nx)))
  ∧ (∀ (w i : Nat), trajOf w i = ⟨natBits w 63 0, natBits w 127 64, natBits w 151 128, natBits w 183 160, natBits w 215 192,
      natBits w 247 224, i, false⟩)
  ∧ (∀ (x : LoopSlot) (a : Traj) (l : List Traj) (t : Nat),
    let queue := x.queue.filter (fun e => decide (e.op < a.op)) ++ (a :: l).filter fun e => decide (t < e.cl)
    x.push (a :: l) t = { x with
      queue := queue.take 64
      skipCnt := satAdd 16 x.skipCnt ((x.queue.filter fun e => decide (a.op ≤ e.op)).length + (queue.drop 64).length)
      lateCnt := satAdd 16 x.lateCnt ((a :: l).filter fun e => decide (e.cl ≤ t)).length })
  ∧ (∀ (x : LoopSlot) (bound : Option Nat), (x.arrive bound).arrived = x.arrived.filter fun p => !(bound.all fun b => decide (p.1 ≤ b)))
  ∧ (∀ (x : LoopSlot) (p : Nat × Option (List Traj)) (l : List (Nat × Option (List Traj))), x.arrived = p :: l →
    x.arrive none = (match p.2 with
      | some ts => LoopSlot.arrive { x.push ts p.1 with arrived := l } none
      | none => LoopSlot.arrive { x with queue := [], skipCnt := satAdd 16 x.skipCnt x.queue.length, arrived := l } none))
  ∧ (∀ (l : List Traj) (t : Nat),
    let r := dropStale t l
    (∀ b, r.1.head? = some b → t < b.cl ∧ b.bad = false)
    ∧ (∀ b, r.1[1]? = some b → t < b.op ∧ b.bad = false)
    ∧ r.1.length + r.2 = l.length
    ∧ ((∀ b ∈ l, b.bad = false) → r.1 = l.drop r.2
      ∧ ∀ i b, i < r.2 → l[i]? = some b → b.cl ≤ t ∨ ∃ n, l[i + 1]? = some n ∧ n.op ≤ t))
  ∧ (∀ (b : Traj) (l : List Traj) (t : Nat), b.bad = true →
    dropStale t (b :: l) = ((dropStale t l).1, (dropStale t l).2 + 1)
    ∧ ∀ a, a.bad = false → dropStale t (a :: b :: l) = ((dropStale t (a :: l)).1, (dropStale t (a :: l)).2 + 1))
  ∧ (∀ (x : LoopSlot) (t : Nat),
    let r := dropStale t x.queue
    let skip := satAdd 16 x.skipCnt r.2
    (∀ a l, r.1 = a :: l → a.op ≤ t →
      let late := decide (x.ageLim ≠ 0 ∧ x.ageLim ≤ a.p)
      x.consume t = ({ x with queue := l, cur := some a, late := late, exh := false, skipCnt := skip }, late && !x.late, false))
    ∧ ((∀ a, r.1.head? = some a → t < a.op) →
      (x.exhTrip = true → x.consume t = ({ x with queue := r.1, skipCnt := skip }, false, true))
      ∧ (x.exhTrip = false → ∀ c, x.cur = some c →
        let ref := fun (i : Nat) => x.rlast.getD i 0
        x.consume t = ({ x with
          queue := r.1, skipCnt := skip, exh := true
          cur := some (if x.law < 2 then { c with v0 := ref 0, v1 := 0 } else { c with v0 := ref 0, v1 := ref 1, v2 := ref 2 }) },
          !x.exh, false)))))

/-- R287, R290, R293, R296 to R299, R308, R324: as device time passes a grid instant its inputs are frozen; the loops that are due take a
sample of the inputs as they stood then: the trips in their order, the references with their ramp, the integrator with its clamp, the law,
the limits, and Heel; their outputs are committed 1,000 ns and 19.53125 ns a sample later. The event of a trip carries the cause it tripped
with (R306, R380). That device time passes when the queue is empty, and the instant is frozen then, is the model's
choice (log entries 6, 82); outputs take values again at the next commit with AUTH 1 (158), SAFE 3 drives the safe level (80). -/
def Obligations.LoopsSampleAndCommit : Prop :=
  (∀ (s : State) (k : Nat),
    let u : State := { s.tickDie with time := s.time.tick.settle }
    let t := s.loop.base.toNat + 5000 * k
    s.pending = [] → s.time.running = true → s.var.acts = true → s.dt = t → u.dt = t + 1 →
    step s = .next (u.freezeAt k t).ringsFlush
    ∧ (u.freezeAt k t).loop.frozen = s.loop.frozen ++
        [⟨t, k, s.pio.own, (u.latchCaps t).pio.caps, s.pio.rxf, s.pio.dins⟩])
  ∧ (∀ (s : State) (f : Frozen) (rest : List Frozen),
    let due := (s.loop.slots.filter fun p => p.2.due f.k f.t).map (·.1)
    let p := due.foldl (sweepOne (s.seen f) f.k f.t) (s, ⟨f.t, f.k, 0, [], [], [], []⟩)
    let t : State := { p.1 with loop := { p.1.loop with sweep := some p.2, frozen := rest } }
    s.loop.frozen = f :: rest → s.loop.sweep = none →
    exec .gridInstant s = .next ((t.arrivals (rest.head?.map (·.t))).loopProgress)
    ∧ p.2.n = due.length ∧ p.2.t = f.t)
  ∧ (∀ (w : Sweep), 100000 * w.commitAt < 100000 * (w.t + 1000) + 1953125 * w.n + 100000
      ∧ 100000 * (w.t + 1000) + 1953125 * w.n ≤ 100000 * w.commitAt)
  ∧ (∀ (s : State) (w : Sweep), s.loop.sweep = some w → w.commitAt ≤ s.dt →
    let a := ({ s with loop := { s.loop with sweep := none } } : State).authAtCommit
    let opens := (a.loop.slots.filter fun p => p.2.live && p.2.openAt.any (fun b => decide (b + 5000 ≤ w.t))).map (·.1)
    let safes := (a.loop.slots.filter fun p => p.2.safeDue).map (·.1)
    let o1 := safes.foldl (fun s n => (s.loopSafe n).updLoop n fun x => { x with safeDue := false }) a
    let o2 := (w.outs.filter fun p => !opens.contains p.1).foldl (fun s p => s.loopCommit p.1 p.2) o1
    let o3 := w.trips.foldl (fun s p => s.loopSafe p.1) o2
    let o4 := opens.foldl (fun s n => (s.loopSafe n).updLoop n fun x => { x with st := .open_, openAt := none }) o3
    let e1 := w.outerSlots.foldl (fun s n => (s.loopOuter n).snapshot n) (o4.mapsDue w.k s.dt)
    let e2 := w.evSlots.foldl State.loopEvent e1
    let e3 := w.trips.foldl (fun s p =>
      s.post (s.loopSlot p.1).dom (natBits (s.domevt (s.loopSlot p.1).dom) 57 56) 4 p.2 0 p.1) e2
    exec .loopCommit s = .next e3.loopProgress)
  ∧ (∀ (x : LoopSlot) (k t : Nat), x.due k t = true ↔ (x.st = .armed ∧ x.tAcc + 5000 ≤ t ∨ x.st = .ramp ∨ x.st = .closed)
    ∧ 0 < x.period ∧ k % x.period = x.phase)
  ∧ (∀ (x : LoopSlot) (raws : List (Option Int)) (stuck ok : Bool) (u j t : Nat),
    let y := if x.st = .armed then { x with st := if x.rampN = 0 then .closed else .ramp } else x
    let c := if j = 0 ∧ x.spsrc = 0 then y.consume t else (y, false, false)
    let trips := fun (z : LoopSlot) (cause : Nat) => (({ z with st := .tripped, cause := cause, openAt := none } : LoopSlot), 1)
    let z := c.1.compute (x.st == .armed) (raws.map (·.getD 0)) u j
    x.sample raws stuck ok u j t =
      if x.bad = true then trips y 5
      else if x.spsrc = 1 ∧ ok = false then trips y 6
      else if none ∈ raws then trips y 3
      else if stuck = true then trips y 4
      else if c.2.2 = true then trips c.1 2
      else (z, bit c.2.1 + bit (z.st == .tripped)))
  ∧ (∀ (x : LoopSlot) (first : Bool) (raws : List Int) (pu j : Nat), raws.length = x.nm → 0 < x.nm → (x.law = 2 → x.spsrc = 0) →
    let c := x.cur.getD ⟨0, 0, 0, 0, 0, 0, 0, false⟩
    let mea := fun (i : Nat) => hAdd (hMul (hCvt (raws.getD i 0)) (hfLo (x.msc i))) (hfHi (x.msc i))
    let x0 := if first then (List.range x.nm).map mea else x.x0
    let m := if first then 0 else x.m
    let usat := if first then 0 else x.usat
    let acc := if first then x.i0.toInt else x.integ
    let ref := fun (i : Nat) => if x.spsrc = 1 then pu else if x.spsrc = 2 then hfLo x.osc
      else if x.law < 2 then hAdd c.v0 (hMul (hCvt j) c.v1) else [c.v0, c.v1, c.v2].getD i 0
    let r := fun (i : Nat) => if x.st = .ramp then
        hAdd (x0.getD i 0) (hMul (hDiv (hCvt m) (hCvt x.rampN)) (hSub (ref i) (x0.getD i 0))) else ref i
    let ff := if x.spsrc = 1 ∨ x.spsrc = 2 then 0 else if x.law < 2 then c.v2 else c.v3
    let e := hSub (r 0) (mea 0)
    let inc := qOfH x.ifrac (hMul (hfLo x.g0) e)
    let held := x.aw = true ∧ ((0 < usat ∧ 0 < inc) ∨ (usat < 0 ∧ inc < 0))
    let next := if held then acc else max x.imin.toInt (min x.imax.toInt (acc + inc))
    let yprev := if first then mea 0 else x.yprev
    let der := if first then 0 else x.d
    let d := if x.law = 1 then hAdd (hMul (hfHi x.g1) der) (hMul (hfLo x.g1) (hSub yprev (mea 0))) else der
    let p := if x.law < 2 then hAdd ff (hMul (hfHi x.g0) e)
      else (List.range x.nm).foldl (fun a i => hAdd a (hMul (x.gain i) (hSub (r i) (mea i)))) ff
    let q := hAdd p (hOfQ x.ifrac next)
    let out := if x.law = 1 then hAdd q d else q
    let low := hfCmp 0 out (hfLo x.lim)
    let high := hfCmp 4 out (hfHi x.lim)
    let h := if hfCmp 1 (e % 2 ^ 23) (hfHi x.heel) = true then 0 else satAdd 16 x.hcnt 1
    x.compute first raws pu j =
      if hfVal e = .nan ∨ hfVal out = .nan then { x with st := .tripped, cause := 5, openAt := none }
      else if x.htime < h then { x with hcnt := h, st := .tripped, cause := 1, openAt := none }
      else { x with
        u := if low then hPosZero (hfLo x.lim) else if high then hPosZero (hfHi x.lim) else out
        usat := if low then -1 else if high then 1 else 0
        usatBit := low || high
        e := e, integ := next, d := d, x0 := x0, hcnt := h
        ihold := decide (held ∨ next ≠ acc + inc)
        yprev := if x.law = 1 then mea 0 else yprev
        rlast := (List.range x.nm).map r
        m := if x.st = .ramp then m + 1 else m
        st := if x.st = .ramp ∧ m + 1 = x.rampN then .closed else x.st })
  ∧ (∀ (x : LoopSlot) (first : Bool) (raws : List Int) (pu j : Nat), x.imin.toInt ≤ x.i0.toInt → x.i0.toInt ≤ x.imax.toInt →
    x.imin.toInt ≤ x.integ → x.integ ≤ x.imax.toInt →
    x.imin.toInt ≤ (x.compute first raws pu j).integ ∧ (x.compute first raws pu j).integ ≤ x.imax.toInt)

/-! ### Plant I/O and device time -/

/-- R323, R331 to R341, R471: what a received frame does: a bad one is counted, a foreign one of gPTP is counted by the PTP Instance, one
that MACsec or CANsec turns away is counted, and a good one gives its fields and goes to the ring of the first rule or filter that matches,
in the order of T_END; the ring writes it with its record to its slot, or drops and counts it where no slot is free or a byte would leave
the domain's granules; a value stamped at or before an instant whose samples are still to be computed is seen there; link changes and the recovery of a CAN
controller. That a frame can be told from its corrected T_END on is the model's choice (log entry 193), that it waits in its ring until
device time has passed its T_END by the largest RXLAT (195), and that a gPTP frame comes as two rows (197). Readings: FLEN (84), the VLAN
tag (85), frames of gPTP and the rules (86), CANsec (87), fault confinement (93), the replay window (199). -/
def Obligations.FramesAreReceived : Prop :=
  (∀ (s : State) (m : Nat) (fr : EthFrame), m < 4 → s.var.acts = true →
    (∀ up, let t := s.updMac m fun x => { x with link := up }
      exec (.ethernetLinkChange m up) s = .next
        (if t.ptpPort m = true ∧ s.ptpPort m = false then { t with time := { t.time with
          nextSync := Tab.set 0 t.time.nextSync m 0, nextAnn := Tab.set 0 t.time.nextAnn m 0 } } else t))
    ∧ (s.pioOn (uMac m) = true → (s.mac m).link = true → fr.tEnd - s.rxLat m ≤ s.dt →
      let c := (s.mac m).cfg.toNat
      let len := fr.bytes.length + 4
      let good := fr.fcsOk = true ∧ fr.pause = false ∧ 64 ≤ len ∧ len ≤ natBits c 59 46 ∧ len ≤ 9216
      let p := ethParse fr.bytes
      let plain := natBit c 45 = false ∨ p.1 = 0x88F7 ∨ p.1 = 0x888E
      (¬ good → exec (.ethernetFrameReceived m fr) s = .next (s.updMac m fun x => { x with rxErr := satAdd 16 x.rxErr 1 }))
      ∧ (good → plain → exec (.ethernetFrameReceived m fr) s = .next (s.ethAccept m fr.bytes fr false))
      ∧ (good → ¬ plain → exec (.ethernetFrameReceived m fr) s = .next
          (match s.openSecured (uMac m) (Config.macsecOpen (s.rxKeys (uMac m)) fr.bytes) with
            | none => s.updMac m fun x => { x with secDrop := satAdd 16 x.secDrop 1 }
            | some (bs, u) => u.ethAccept m bs fr true)))
    ∧ (∀ bs secv,
      let p := ethParse bs
      let f := s.feedFields m p.1 p.2.2 (fr.tEnd - s.rxLat m)
      s.ethAccept m bs fr secv = match (f.mac m).rule p.1 p.2.1 with
        | some r => f.ringFrame r ⟨bs, fr.tStart - s.rxLat m, fr.tEnd - s.rxLat m, fr.bytes.length + 4, uMac m, secv⟩
        | none => f.updMac m fun x => { x with noRule := satAdd 16 x.noRule 1 })
    ∧ (∀ kind, exec (.gptpForeignReceived m kind) s = .next
        (if s.ptpPort m = true ∧ kind ∈ [gSync, gFollowUp, gAnnounce] then
          { s with time := { s.time with foreign := satAdd 16 s.time.foreign 1 } } else s)))
  ∧ (∀ (x : MacSt) (etype : Nat) (vid : Option Nat),
    let w := fun (r : Nat) => (Tab.get 0 x.rules r).toNat
    let hit := fun (r : Nat) => natBit (w r) 63 = true ∧ (natBit (w r) 62 = true → vid = some (natBits (w r) 61 50))
      ∧ (natBit (w r) 49 = true → etype = natBits (w r) 48 33)
    (∀ r, r < 8 → hit r → (∀ i, i < r → ¬ hit i) → x.rule etype vid = some (natBits (w r) 32 27))
    ∧ ((∀ r, r < 8 → ¬ hit r) → x.rule etype vid = none))
  ∧ (∀ (x : CanSt) (ide : Bool) (ident : Nat),
    let a := fun (r : Nat) => (Tab.get 0 x.fltA r).toNat
    let hit := fun (r : Nat) => natBit (a r) 63 = true ∧ ide = natBit (a r) 62
      ∧ (ident ^^^ natBits (a r) 61 33) &&& natBits (Tab.get 0 x.fltB r).toNat 28 0 = 0
    (∀ r, r < 8 → hit r → (∀ i, i < r → ¬ hit i) → x.filter ide ident = some (natBits (a r) 32 27))
    ∧ ((∀ r, r < 8 → ¬ hit r) → x.filter ide ident = none))
  ∧ (∀ (s : State) (n : Nat) (fr : CanFrame), n < 8 → s.var.acts = true → s.pioOn (uCan n) = true → (s.can n).bstate ≠ 2 →
    fr.tEnd ≤ s.dt →
    let c := (s.can n).cfg.toNat
    let g := s.updCan n fun x => x.confine x.tec (if 127 < x.rec_ then 120 else x.rec_ - 1)
    let opened := g.openSecured (uCan n) (Config.cansecOpen (g.rxKeys (uCan n)) (canHeader fr false fr.data.length) fr.data)
    (fr.fmt = 0 ∨ (fr.fmt = 1 ∧ natBit c 62 = true) ∨ (fr.fmt = 2 ∧ natBit c 61 = true ∧ natBit c 60 = false) →
      let ident := if fr.fmt = 2 then fr.ident % 2048 else fr.ident
      let f := g.feedFields (uCan n) ident fr.data fr.tEnd
      exec (.canFrameReceived n fr) s = .next (match (f.can n).filter (fr.ide && fr.fmt != 2) ident with
        | some r => f.ringFrame r
            ⟨canHeader fr false fr.data.length ++ fr.data, fr.tStart, fr.tEnd, 16 + fr.data.length, uCan n, false⟩
        | none => f.updCan n fun x => { x with noFlt := satAdd 16 x.noFlt 1 }))
    ∧ (fr.fmt = 2 → natBit c 61 = true → natBit c 60 = true → fr.secured = false ∨ opened = none →
      exec (.canFrameReceived n fr) s = .next (g.updCan n fun x => { x with secDrop := satAdd 16 x.secDrop 1 }))
    ∧ (∀ data u, fr.fmt = 2 → natBit c 61 = true → natBit c 60 = true → fr.secured = true → opened = some (data, u) →
      let f := u.feedFields (uCan n) (fr.ident % 2048) data fr.tEnd
      exec (.canFrameReceived n fr) s = .next (match (f.can n).filter false (fr.ident % 2048) with
        | some r => f.ringFrame r
            ⟨canHeader fr true data.length ++ data, fr.tStart, fr.tEnd, 16 + fr.data.length, uCan n, true⟩
        | none => f.updCan n fun x => { x with noFlt := satAdd 16 x.noFlt 1 }))
    ∧ (∀ k, exec (.canBusError n k) s = .next (s.updCan n fun x => x.confine x.tec (x.rec_ + k))))
  ∧ (∀ (s : State) (f port key : Nat) (bs : List Byte) (tEnd : Nat) (z : Frozen) (v : Int), f < 256 →
    let x := s.rxField f
    let mask := if port < 4 then natBits x.b.toNat 15 0 else natBits x.b.toNat 28 0
    let want := if port < 4 then natBits x.b.toNat 47 32 else natBits x.b.toNat 60 32
    s.pioOn (uRxf f) = true → natBits x.a.toNat 62 59 = port → natBits x.a.toNat 57 56 ≠ 3 → key &&& mask = want &&& mask →
    x.take bs = some v → s.loop.frozen = [z] → Tab.wf ({} : RxField) s.pio.rxf = true → Tab.wf ({} : RxField) z.rxf = true →
    let t := s.feedField f port key bs tEnd
    (t.rxField f).val = some (v, tEnd)
    ∧ (tEnd ≤ z.t → (t.loop.frozen.map fun z => (Tab.get {} z.rxf f).val) = [some (v, tEnd)])
    ∧ (z.t < tEnd → t.loop.frozen = [z]))
  ∧ (∀ (s : State) (u sc an pn : Nat) (bs : List Byte) (k : PioKey),
    (s.sec.keys.find? fun k => k.unit == u && !k.tx && k.sc == sc && k.an == an) = some k →
    s.openSecured u (some (bs, sc, an, pn)) =
      if k.pn ≤ pn + Config.replayWindow u sc then some (bs, s.setPn k (max k.pn (pn + 1))) else none)
  ∧ (∀ (f : RxFrame) (l : List RxFrame), l.Pairwise (fun a b => b.before a = false) →
    (f.insert l).Pairwise (fun a b => b.before a = false) ∧ (f.insert l).Perm (f :: l))
  ∧ (∀ (f g : RxFrame), f.before g = true ↔ f.tEnd < g.tEnd ∨ (f.tEnd = g.tEnd ∧ f.srcu < g.srcu))
  ∧ (∀ (s : State) (n : Nat) (f : RxFrame), Tab.wf ({} : RxRing) s.pio.rings = true →
    let l := f.insert (s.rxRing n).waiting
    (s.pioOn (uRing n) = false → s.ringFrame n f = s)
    ∧ (∀ gone keep, s.pioOn (uRing n) = true → l = gone ++ keep → (∀ g ∈ gone, g.tEnd + s.rxLatMax < s.dt) →
      (∀ g, keep.head? = some g → s.dt ≤ g.tEnd + s.rxLatMax) →
      s.ringFrame n f = gone.foldl (fun s g => s.ringPut n g) (s.updRxRing n fun x => { x with waiting := keep })))
  ∧ (∀ (s : State) (n d : Nat) (f : RxFrame), s.pioDom (uRing n) = some d →
    let x := s.rxRing n
    let a := x.a.toNat
    let b := x.b.toNat
    let slots := natBits a 55 48 + 1
    let size := 2 ^ natBits b 26 23
    let slot := natBits a 47 0 + x.frames % slots * size
    let off := 8 * natBits b 22 16
    let len := min f.bytes.length (size - off)
    let rec_ := rxRecord f.tStart f.tEnd x.frames len f.flen f.srcu (decide (len < f.bytes.length)) f.secv
    let free := natBit b 45 = true →
      ((x.frames : Int) - (s.tallyVal (natBits b 44 27) : Int)) % 2 ^ 32 < (slots : Int)
    let inside := yardBase ≤ slot ∧ s.yardRangeOk d (slot - yardBase) 64 = true
      ∧ (0 < len → s.yardRangeOk d (slot - yardBase + off) len = true)
    let w := s.yardWrite (bytesAt (slot - yardBase) rec_ ++ bytesAt (slot - yardBase + off) (f.bytes.take len))
    (natBit a 63 = false → s.ringPut n f = s)
    ∧ (natBit a 63 = true → ¬ free → s.ringPut n f = s.updRxRing n fun x => { x with full := satAdd 16 x.full 1 })
    ∧ (natBit a 63 = true → free → ¬ inside →
      s.ringPut n f = (s.updRxRing n fun x => { x with refused := satAdd 16 x.refused 1 }).pioRecord 3 0 (uRing n) (slot % 2 ^ 48))
    ∧ (natBit a 63 = true → free → inside → w.2 = [] →
      s.ringPut n f = (w.1.updRxRing n fun x => { x with frames := x.frames + 1 }).tallyAdd d (natBits b 63 46) 1))
  ∧ (∀ (tStart tEnd w len flen srcu : Nat) (trunc secv : Bool), len < 2 ^ 14 → flen < 2 ^ 14 → srcu < 2 ^ 10 →
    let l := rxRecord tStart tEnd w len flen srcu trunc secv
    let r := leNat l
    l.length = 64 ∧ natBits r 511 448 = tStart % 2 ^ 64 ∧ natBits r 447 384 = tEnd % 2 ^ 64 ∧ natBits r 383 352 = w % 2 ^ 32
    ∧ natBits r 351 338 = len ∧ natBits r 337 324 = flen ∧ natBits r 323 314 = srcu ∧ natBit r 313 = trunc ∧ natBit r 312 = secv
    ∧ natBits r 311 0 = 0)
  ∧ (∀ (s : State) (y : Nat) (l : List Byte), memOk s.yard.mem = true → s.yard.bad = [] →
    let t := s.yardWrite (bytesAt y l)
    t.2 = [] ∧ t.1.yard.mem.read y l.length = l
    ∧ ∀ i, i < y ∨ y + l.length ≤ i → Tab.get 0 t.1.yard.mem i = Tab.get 0 s.yard.mem i)
  ∧ (∀ (s : State) (n : Nat), n < 8 → s.pioOn (uCan n) = true → (s.can n).recovering = true → (s.can n).bstate = 2 →
    exec (.canBusOffRecovered n) s = .next
      ((s.dropBusOff (4 + n)).updCan n fun x => { x with recovering := false, bstate := 0, tec := 0, rec_ := 0 }))
  ∧ (∀ (x : CanSt) (t r : Nat), (x.confine t r).bstate = if 255 < t then 2 else if 127 < t ∨ 127 < r then 1 else 0)

/-- R320, R333, R336, R343 to R346, R494: a SEND word puts its frame into its queue; a free port takes the frame that is next: on
Ethernet the map frame due first, else the head of the lowest queue, on CAN the due frame that wins arbitration; a controller in bus-off
discards what is due and sends nothing; what the end of a transmission does, and where a frame that is to be retried goes; a queue frame
that misses its CLOSE is counted. Which frames fit a port (log entry 88), the packet numbers of a key (92) and fault confinement (93) are the model's readings. -/
def Obligations.FramesAreSent : Prop :=
  (∀ (s : State) (q : Nat) (w : Word), q < 32 →
    let x := s.txQueue q
    let f := x.staging.txFrame false q
    (s.var.acts = true → (s.pioDom (uQueue q)).isSome = true →
      exec (.send q w) s = .next (s.updTxQueue q fun y =>
        if w = 1 ∧ s.frameFits (queuePort q) f = true ∧ x.frames.length < 16 then { y with frames := y.frames ++ [f] }
        else { y with refused := satAdd 32 y.refused 1 }))
    ∧ ((s.pioDom (uQueue q)).isSome = true → exec (.queueFrameLate q) s = .next (s.updTxQueue q fun y =>
        { y with
          frames := y.frames.filter fun f => decide (f.close = 0 ∨ s.dt + 1 < f.close)
          late := satAdd 32 y.late (y.frames.filter fun f => decide (f.close ≠ 0 ∧ f.close ≤ s.dt + 1)).length })))
  ∧ (∀ (s : State) (port : Nat) (f : TxFrame) (bs : List Byte), port < 12 → s.portFree port = true → s.busOff port = false →
    s.nextFrame port = some f → s.wire port f = some bs → Tab.wf none s.pio.txing = true → Tab.wf [] s.pio.lastSent = true →
    ∃ t : State, exec (.portTransmitStart port) s = .next t
      ∧ s.sec.sensed.done = true ∧ Tab.get none t.pio.txing port = some f ∧ Tab.get [] t.pio.lastSent port = bs
      ∧ { t with pio := s.pio, sec := s.sec } = s ∧ t.sec = (s.countTx port f).sec
      ∧ (f.isMap = true → t.pio.queues = s.pio.queues ∧ t.pio.maps = Tab.upd {} s.pio.maps f.idx fun x => { x with due := none })
      ∧ (f.isMap = false → t.pio.maps = s.pio.maps ∧ t.pio.queues = Tab.upd {} s.pio.queues f.idx fun x => { x with frames := x.frames.erase f }))
  ∧ (∀ (s : State) (port : Nat), Tab.wf ({} : TxMap) s.pio.maps = true → Tab.wf ({} : TxQueue) s.pio.queues = true →
    let map := fun (m : Nat) (f : TxFrame) =>
      (s.txMap m).due = some f ∧ (s.txMap m).port = port ∧ s.pioOn (uMap m) = true ∧ s.frameFits port f = true
    let may := fun (q : Nat) (f : TxFrame) => queuePort q = port ∧ (s.pioDom (uQueue q)).isSome = true ∧ f ∈ (s.txQueue q).frames
      ∧ f.due ≤ s.dt ∧ (f.close = 0 ∨ s.dt < f.close)
    let head := fun (q : Nat) (f : TxFrame) => may q f ∧ (s.txQueue q).frames.head? = some f
    (port < 4 →
      ((∃ m f, map m f) → ∃ m f, s.nextFrame port = some f ∧ map m f
        ∧ ∀ n g, map n g → f.due < g.due ∨ (f.due = g.due ∧ m ≤ n))
      ∧ ((∀ m f, ¬ map m f) → (∃ q f, head q f) → ∃ q f, s.nextFrame port = some f ∧ head q f ∧ ∀ r g, head r g → q ≤ r)
      ∧ ((∀ m f, ¬ map m f) → (∀ q f, ¬ head q f) → s.nextFrame port = none))
    ∧ (4 ≤ port →
      ((∃ m f, map m f) ∨ (∃ q f, may q f) → ∃ f, s.nextFrame port = some f
        ∧ (∀ m g, map m g → f.arb ≤ g.arb) ∧ (∀ q g, may q g → f.arb ≤ g.arb)
        ∧ ((∃ m, map m f) ∨ ∃ q, may q f ∧ (∀ m g, map m g → f.arb < g.arb) ∧ ∀ r g, may r g → r < q → f.arb < g.arb))
      ∧ ((∀ m f, ¬ map m f) → (∀ q f, ¬ may q f) → s.nextFrame port = none)))
  ∧ (∀ (f g : TxFrame),
    let ext := fun (f : TxFrame) => f.h 365 365 = 1
    let base := fun (f : TxFrame) => if f.h 365 365 = 1 then f.h 364 354 else f.h 346 336
    (base f < base g → f.arb < g.arb)
    ∧ (base f = base g → ¬ ext f → ext g → f.arb < g.arb)
    ∧ (base f = base g → ext f → ext g → f.h 353 336 < g.h 353 336 → f.arb < g.arb))
  ∧ (∀ (s : State) (port : Nat), port < 12 → s.portFree port = true → s.busOff port = true →
    exec (.portTransmitStart port) s = .next (s.dropBusOff port))
  ∧ (∀ (s : State) (port q m : Nat), Tab.wf ({} : TxQueue) s.pio.queues = true → Tab.wf ({} : TxMap) s.pio.maps = true →
    let t := s.dropBusOff port
    (queuePort q = port → (s.pioDom (uQueue q)).isSome = true →
      (t.txQueue q).frames = (s.txQueue q).frames.filter (fun f => decide (s.dt < f.due))
      ∧ (t.txQueue q).late = satAdd 32 (s.txQueue q).late ((s.txQueue q).frames.filter fun f => decide (f.due ≤ s.dt)).length)
    ∧ (queuePort q ≠ port ∨ s.pioDom (uQueue q) = none → t.txQueue q = s.txQueue q)
    ∧ (s.pioOn (uMap m) = true → (s.txMap m).port = port → (s.txMap m).due.isSome = true →
      t.txMap m = { s.txMap m with due := none, ovr := satAdd 16 (s.txMap m).ovr 1 })
    ∧ (s.pioOn (uMap m) = false ∨ (s.txMap m).port ≠ port ∨ (s.txMap m).due = none → t.txMap m = s.txMap m))
  ∧ (∀ (s : State) (port : Nat) (f : TxFrame) (e : TxEnd), port < 12 → Tab.get none s.pio.txing port = some f →
    let g : State := { s with pio := { s.pio with txing := Tab.set none s.pio.txing port none } }
    let done := fun (s : State) => ({ s with pio := { s.pio with sentFrames := Tab.upd 0 s.pio.sentFrames port (· + 1) } } : State)
    let bad := g.updCan (port - 4) fun x => x.confine (x.tec + 8) x.rec_
    exec (.portTransmitEnd port e) s = .next
      (if port < 4 then done g
      else if s.pioDom (uCan (port - 4)) = none then (if e = .sent then done g else g)
      else match e with
        | .sent => done (g.updCan (port - 4) fun x => x.confine (x.tec - 1) x.rec_)
        | .arbLost => g.retryTx f
        | .error => (if bad.busOff port then bad.dropBusOff port else bad).retryTx f))
  ∧ (∀ (s : State) (f : TxFrame),
    let x := s.txMap f.idx
    let lost := x.due.isSome = true ∨ s.busOff x.port = true ∨ (natBit x.cfg.toNat 62 = true ∧ s.loop.auth = false)
    let late := (f.close ≠ 0 ∧ f.close ≤ s.dt) ∨ s.busOff (queuePort f.idx) = true
    (f.isMap = true → s.retryTx f = if s.pioDom (uMap f.idx) = none then s
      else s.updTxMap f.idx fun x => if lost then { x with ovr := satAdd 16 x.ovr 1 } else { x with due := some f })
    ∧ (f.isMap = false → s.retryTx f = if s.pioDom (uQueue f.idx) = none then s
      else s.updTxQueue f.idx fun x => if late then { x with late := satAdd 32 x.late 1 } else { x with frames := f :: x.frames }))

/-- R347, R348, R350 to R352: the pins of an encoder pass its filter, its count and its overspeed error, the index, and SENT messages. A
digital input takes a level that has held for its filter time, counts a shorter one, and is STUCK after its limit; PWM periods and their
edges, by the value last committed and the period as it stands. The model's readings: which phase leads as COUNT goes up, and its start
(log entry 198, 95), the exact halves of SENT durations (96) and its slow channel (200), an input that is enabled (94, 97), on-times of 0
and of a whole period (98), and the odd ns of a centred one (99). -/
def Obligations.InputsAreCapturedAndFiltered : Prop :=
  (
  ∀ (s : State) (n : Nat), n < 16 → s.var.acts = true → s.pioOn (uCap n) = true →
    let x := s.cap n
    let mode := natBits x.cfg.toNat 62 61
    (∀ a b t, mode = 0 → t ≤ s.dt → Tab.wf ({} : CapSt) s.pio.caps = true →
      exec (.encoderTransition n a b t) s = .next
        (((s.encSettle n t).updCap n fun y => { y with pinA := y.pinA.set a t, pinB := y.pinB.set b t }).encSettle n t))
    ∧ (∀ t, mode = 0 → natBit x.cfg.toNat 58 = true → t ≤ s.dt →
      exec (.encoderIndexEdge n t) s = .next ((s.encSettle n t).updCap n fun y => y.setCount 0 t))
    ∧ (∀ msg, mode = 1 → msg.tEnd ≤ s.dt →
      let r := Config.freeValue s.freeCtr
      let u := ({ s with freeCtr := s.freeCtr + 1 } : State).updCap n fun y => { y with prevCal := some msg.cal }
      let st := (sentNibble msg.cal (msg.nibbles.headD 0) (natBit r 0)).getD 0
      exec (.sentMessageEnd n msg) s = .next (match x.sentDecode msg r with
        | some (a, b) => u.updCap n fun y =>
            { y with
              good := some (a, b, msg.tEnd), errRun := 0, status := (st :: y.status).take 18
              slow := (Config.sentSlow ((st :: y.status).take 18)).orElse fun _ => y.slow }
        | none => u.updCap n fun y => { y with serr := satAdd 16 y.serr 1, errRun := y.errRun + 1, status := [] })))
  ∧ (∀ (x : CapSt) (a b : Bool) (t : Nat),
    let y := (x.edge a b t).1
    let fast := (a ≠ x.pinA.level ∧ b ≠ x.pinB.level) ∨ ∃ l, x.lastEdge = some l ∧ t < l + 10
    (a ≠ x.pinA.level → b = x.pinB.level → y.count = wrapN 32 ((x.count : Int) + if a = b then -1 else 1))
    ∧ (a = x.pinA.level → b ≠ x.pinB.level → y.count = wrapN 32 ((x.count : Int) + if a = b then 1 else -1))
    ∧ (a ≠ x.pinA.level → b ≠ x.pinB.level → y.count = x.count)
    ∧ y.pinA.level = a ∧ y.pinB.level = b ∧ y.lastEdge = some t
    ∧ (fast → (x.edge a b t).2 = true ∧ y.ovs = true) ∧ (¬ fast → (x.edge a b t).2 = false ∧ y.ovs = x.ovs))
  ∧ (∀ (x : CapSt) (t : Nat), x.pinB.raw = x.pinB.level →
    (x.pinA.raw ≠ x.pinA.level → x.pinA.since + x.filterNs ≤ t →
      (x.settle t).1 = (x.edge x.pinA.raw x.pinB.level (x.pinA.since + x.filterNs)).1)
    ∧ (x.pinA.raw = x.pinA.level ∨ t < x.pinA.since + x.filterNs → x.settle t = (x, 0)))
  ∧ (
  (∀ (s : State) (i : Nat), i < 32 → s.var.acts = true → s.pioOn (uDin i) = true →
    let x := s.din i
    let act := x.raw != natBit x.cfg.toNat 62
    (∀ lvl t, x.raw ≠ lvl → t ≤ s.dt →
      exec (.dinRawEdge i lvl t) s = .next
        ((if act = x.filt then s
          else if x.rawAt + natBits x.cfg.toNat 61 42 ≤ t then s.dinFilter i act x.rawAt
          else s.updDin i fun y => { y with glitch := satAdd 32 y.glitch 1 }).updDin i fun y => { y with raw := lvl, rawAt := t }))
    ∧ (act ≠ x.filt → x.rawAt + natBits x.cfg.toNat 61 42 ≤ s.dt →
      exec (.dinFilterExpiry i) s = .next (s.dinFilter i act x.rawAt))
    ∧ (s.stuckAt i s.dt = true → x.stuck = false →
      let u := (s.updDin i fun y => { y with stuck := true }).pioRecord 5 1 (uDin i) 0
      exec (.dinStuckExpiry i) s = .next
        (if natBit x.cfg.toNat 24 then u.pioTally (uDin i) (natBits x.cfg.toNat 23 6) else u)))
  ∧ (∀ (s : State) (o : Nat), o < 16 → s.pwmLive o = true →
    (exec (.pwmOnTimeEnd o) s = .next (s.updPwm o fun x =>
      let up := if x.rise.any (· ≤ s.dt) then true else x.active
      { x with
        rise := x.rise.filter (s.dt < ·), fall := x.fall.filter (s.dt < ·)
        active := if x.fall.any (· ≤ s.dt) then false else up }))
    ∧ ((s.pwm o).start ≠ some (s.pwmStart o) → Tab.wf ({} : PwmSt) s.pio.pwms = true →
      let x := s.pwm o
      let c := x.pend.getD x.c
      let per := natBits x.cfg.toNat 59 32
      let on := per * c / 65536
      ∃ (t : State) (lead : Nat), exec (.pwmPeriodStart o) s = .next t
        ∧ (natBit x.cfg.toNat 62 = false → lead = 0)
        ∧ (natBit x.cfg.toNat 62 = true → lead = (per - on) / 2 ∨ lead = (per - on + 1) / 2)
        ∧ { t with pio := { t.pio with pwms := s.pio.pwms }, freeCtr := s.freeCtr } = s
        ∧ (∀ p, p ≠ o → t.pwm p = s.pwm p)
        ∧ t.pwm o = { x with
            c := c, pend := none, start := some (s.pwmStart o), active := decide (0 < on ∧ lead = 0)
            rise := if 0 < on ∧ 0 < lead then some (s.pwmStart o + lead) else none
            fall := if 0 < on ∧ lead + on < per then some (s.pwmStart o + lead + on) else none })))

/-- R321 to R323, R325 to R327, R329, R331: a timebase cycle; the discipline of the timebase by PPS edges and its holdover; the timing
outputs. The messages that the PTP Instance sends on a port and those it answers, keeps or discards. An edge stamped with the ns that DT
shows takes its servo step once that ns has passed (R355; log entry 194). The model's readings: TBI modulo 2^16 (log entry 100), and an
output edge whose instant was passed by 1 ns (101). -/
def Obligations.TimeIsKeptAndSent : Prop :=
  (
  (∀ (x : Time), x.frac < 2 ^ 40 → x.dt + 2 < 2 ^ 64 → -109951162 ≤ x.rate → x.rate ≤ 109951162 →
    let y := x.tick
    y.frac < 2 ^ 40 ∧ ((y.dt : Int) * 2 ^ 40 + y.frac = (x.dt : Int) * 2 ^ 40 + x.frac + 2 ^ 40 + x.rate)
    ∧ { y with dt := x.dt, frac := x.frac } = x)
  ∧ (∀ (s : State) (t : Nat), s.var.acts = true → s.time.en = true →
    let x := s.time
    let p : Int := ((t : Int) - x.dly + x.epoch.toInt) % 1000000000
    let phi : Int := if p < 500000000 then p else p - 1000000000
    let far := ∀ l, x.lastEdge = some l → l + 900000000 ≤ t
    (far → t < s.dt → x.disc = .acquire → exec (.ppsInEdge (t, !x.pol)) s = .next { s with time :=
        { x with
          phi := phi, acc := satAdd 32 x.acc 1, lastEdge := some t, edge := none, epoch := BitVec.ofInt 64 (x.epoch.toInt - phi)
          lastStep := -phi, tbi := (x.tbi + 1) % 65536, nok := 0, disc := .track } })
    ∧ (far → t < s.dt → (x.disc = .track ∨ x.disc = .locked ∨ x.disc = .holdover) →
      let f := rateClamp (x.freq - roundDiv (phi * 2 ^ 40) 16000000000)
      let k := if phi.natAbs ≤ 100 then x.nok + 1 else 0
      let d := if x.disc = .track then (if 16 ≤ k then Disc.locked else .track)
        else if x.disc = .locked then (if 1000 < phi.natAbs then .track else .locked) else .track
      exec (.ppsInEdge (t, !x.pol)) s = .next { s with time :=
        { x with
          phi := phi, acc := satAdd 32 x.acc 1, lastEdge := some t, edge := none, freq := f, disc := d
          nok := if x.disc = .locked ∧ 1000 < phi.natAbs then 0 else k
          rate := rateClamp (f - roundDiv (phi * 2 ^ 40) 2000000000) } })
    ∧ (far → t = s.dt → exec (.ppsInEdge (t, !x.pol)) s = .next { s with time :=
        { x with acc := satAdd 32 x.acc 1, lastEdge := some t, edge := some t } })
    ∧ (x.edge = some t → x.settle = if t < s.dt then ({ x with edge := none } : Time).servo t else x)
    ∧ (¬ far → t ≤ s.dt → exec (.ppsInEdge (t, !x.pol)) s = .next { s with time := { x with rej := satAdd 16 x.rej 1 } })
    ∧ exec (.ppsInEdge (t, x.pol)) s = .next s)
  ∧ (∀ (s : State), (s.time.disc = .track ∨ s.time.disc = .locked) → (∀ l, s.time.lastEdge = some l → l + 1500000000 < s.dt) →
    exec .holdoverTimeout s = .next { s with time :=
      { s.time with disc := .holdover, rate := max (-109951162) (min 109951162 s.time.freq), hold := satAdd 16 s.time.hold 1 } })
  ∧ (∀ (s : State), s.var.acts = true → s.time.ppsHigh = false → s.time.clkHigh = false → s.time.pen = true → s.time.ten = true →
    s.time.ptp % 1000000000 = 0 →
    exec .ppsOutEdge s = .next { s with time :=
      { s.time with ppsHigh := true, ppsFall := s.dt + s.time.pw, clkHigh := true, clkFall := s.dt + 50 } })
  ∧ (∀ (s : State), s.var.acts = true → s.time.ppsHigh = true → s.time.ppsFall ≤ s.dt → s.time.clkHigh = true → s.time.clkFall ≤ s.dt →
    exec .ppsOutEdge s = .next { s with time := { s.time with ppsHigh := false, clkHigh := false } }))
  ∧ (
  ∀ (s : State) (m : Nat), m < 4 → s.ptpPort m = true →
    let x := s.time
    let msg := fun (k : Nat) (v : List Nat) => (⟨m, k, v, s.gFrame m k v⟩ : Gptp)
    let send := fun (l : List Gptp) => ({ s with time := { x with sent := x.sent ++ l } } : State)
    let out := wrapN 80 (x.ptp + (natBits (s.mac m).cfg.toNat 31 20 : Nat))
    (Tab.get 0 x.nextSync m ≤ s.dt → exec (.gptpSyncTimer m) s = .next { s with time := { x with
        sent := x.sent ++ [msg 0 [], msg 8 [out, x.tbi, wrapN 96 x.lastStep]]
        nextSync := Tab.set 0 x.nextSync m (s.dt + logInterval x.lsync) } })
    ∧ (Tab.get 0 x.nextAnn m ≤ s.dt → exec (.gptpAnnounceTimer m) s = .next { s with time := { x with
        sent := x.sent ++ [msg 11 [x.prio1, x.prio2,
          if x.disc = .locked then 6 else if x.disc = .holdover then 7 else 248,
          if x.disc = .locked ∨ x.disc = .holdover then 0x20 else 0xA0, s.clockIdentity]]
        nextAnn := Tab.set 0 x.nextAnn m (s.dt + logInterval x.lann) } })
    ∧ (Tab.get 0 x.nextPdelay m ≤ s.dt → exec (.gptpPdelayReqTimer m) s = .next { s with time := { x with
        sent := x.sent ++ [msg 2 [out]], nextPdelay := Tab.set 0 x.nextPdelay m (s.dt + 1000000000) } })
    ∧ (∀ q t, t ≤ s.dt → let at_ : Nat := t - natBits (s.mac m).cfg.toNat 43 32
      exec (.gptpPdelayReqReceived m q t) s = .next (send [msg 3 [q, wrapN 80 ((at_ : Int) + x.epoch.toInt)], msg 10 [q, out]])
      ∧ exec (.gptpPdelayRespReceived m q t) s = .next { s with time := { x with pdelay := Tab.set [] x.pdelay m [q, at_] } })
    ∧ (∀ k v, (s.gFrame m k v).take 6 = [0x01, 0x80, 0xC2, 0x00, 0x00, 0x0E]
      ∧ (∀ i, i < 6 → (s.gFrame m k v).getD (6 + i) 0 = BitVec.ofNat 8 ((s.mac m).addr.toNat / 256 ^ (5 - i)))
      ∧ ((s.gFrame m k v).drop 12).take 2 = [0x88, 0xF7] ∧ (s.gFrame m k v).drop 14 = Config.gptpBody k m s.clockIdentity v)
    ∧ (∀ k, k = 0 ∨ k = 8 ∨ k = 11 →
        exec (.gptpForeignReceived m k) s = .next { s with time := { x with foreign := satAdd 16 x.foreign 1 } }))

/-! ### Functions, security, power, errors -/

/-- R356, R377, R387 to R389, R411, R469: what a tunnel that comes up or is lost, a reset of a function and a change of its power state
do: its configuration space, its link, its rings and its queues. A function that is not ready yet takes no configuration request, and a
stream has one address association. LS after a loss (log entry 108), MSI-X bits among the reset values (104), and that a host's settings
come with these rows (207) are the model's choices. -/
def Obligations.FunctionsComeAndGo : Prop :=
  ∀ (s : State) (fn : Fn),
    let f := s.fnSt fn
    let gone := fun (t : State) => t.countLinkDown.haltFn fn 65535 3
    let put := fun (t : State) (bme : Bool) (cfg : CfgSpace) =>
      t.updFn fn fun x => { x with bme := bme && x.ready, cfg := if x.ready then cfg.oneEach else x.cfg }
    (∀ gen bme cfg, f.ls ≠ 2 → s.boot.inReset = false → 4 ≤ s.boot.step →
      exec (.tunnelUp fn gen bme cfg) s = .next (((put s bme cfg).updFn fn fun x =>
        { x with ls := 2, gen := min (max gen 1) 3, bmeNext := bme, cfgNext := cfg.oneEach }).postDevice 8 2 0 (fnNum fn)))
    ∧ (f.ls = 2 → ∃ ls, (ls = 0 ∨ ls = 1) ∧
      exec (.tunnelLoss fn) s = .next ((gone ((({ s with freeCtr := s.freeCtr + 1 } : State).updFn fn fun x =>
        { x with ls := ls, gen := if ls = 0 then 0 else x.gen, downSince := s.dt }).cfgResetFn fn)).postDevice 8 ls 0 (fnNum fn)))
    ∧ (∀ bme cfg, f.ls = 2 → exec (.hotReset fn bme cfg) s = .next (put ((gone (s.cfgResetFn fn)).disarm fn) bme cfg))
    ∧ (f.ls = 2 → f.d3 = false → f.ready = true →
      exec (.d3hotEntry fn) s = .next (gone (s.updFn fn fun x => { x with d3 := true })))
    ∧ (f.ready = false → exec (.d3hotEntry fn) s = .next s)
    ∧ (∀ cfg : CfgSpace, cfg.oneEach.assoc.length ≤ 2 ∧ cfg.oneEach.assoc.Pairwise (fun x y => x.stream ≠ y.stream)
      ∧ (∀ x ∈ cfg.oneEach.assoc, x ∈ cfg.assoc) ∧ { cfg.oneEach with assoc := cfg.assoc } = cfg)
    ∧ (∀ bme cfg, f.d3 = true → exec (.d3hotExit fn bme cfg) s = .next (put (s.cfgResetFn fn) bme cfg))
    ∧ (f.bme = true → exec (.busMasterClear fn) s = .next ((s.updFn fn fun x => { x with bme := false }).haltFn fn 65535 3))
    ∧ (∀ p v ide, let put := fun r => exec (.registerWrite fn (.cfg r) p v ide) s
      let w := v.toNat % 2 ^ 32
      let set := fun (g : CfgSpace → CfgSpace) => Host.Outcome.next (s.updFn fn fun x => { x with cfg := g x.cfg })
      (f.ready = false ∨ f.ls ≠ 2 → ∀ r, put r = .next s)
      ∧ (f.ready = true → f.ls = 2 →
        put (.header 4) = (if natBit v.toNat 2 = true then .next (s.updFn fn fun x => { x with bme := true })
          else exec (.busMasterClear fn) s)
        ∧ (natBits w 1 0 = 3 → put (.pm 4) = exec (.d3hotEntry fn) s)
        ∧ (natBits w 1 0 = 0 → put (.pm 4) = if f.d3 = true then .next (s.cfgResetFn fn) else .next s)
        ∧ (∃ u, put (.aer 4) = .next (s.updFn fn fun x => { x with aerUnc := u })
          ∧ ∀ i, i < 32 → natBit u i = (natBit f.aerUnc i && !natBit v.toNat i))
        ∧ (f.msixPend = 0 →
          put (.pcie 8) = set (fun c => { c with mps := natBits w 7 5, extTag := natBit w 8, mrrs := natBits w 14 12 })
          ∧ put (.pcie 0x28) = set (fun c => { c with cto := w % 16 })
          ∧ put (.msix 0) = set (fun c => { c with msixEn := natBit w 31, fnMask := natBit w 30 })
          ∧ put (.aer 8) = set (fun c => { c with aerMask := w }) ∧ put (.aer 0xC) = set (fun c => { c with aerSev := w })
          ∧ put (.aer 0x14) = set (fun c => { c with aerCorMask := w }))))
    ∧ (let r := (s.cfgResetFn fn).fnSt fn
      r.bme = false ∧ r.d3 = false ∧ r.cfg = {} ∧ r.aerUnc = 0 ∧ r.aerCor = 0 ∧ r.msixMask = 2 ^ 64 - 1 ∧ r.msixPend = 0
      ∧ r.msixAddr = f.msixAddr ∧ r.msixData = f.msixData)
    ∧ ((s.cfgResetFn fn).fnSt (fnOther fn)) = s.fnSt (fnOther fn)

/-- R360, R416 to R420: the nonce, and what an accepted token of each kind does; a token that fails a check spends the nonce too. The
model's readings: the order of the checks (log entry 123), a token whose read fails (124), the DSN (125), a row for each KIND (126), unused
fields (127), NONCE whose write fails (128), levels of DEBUG (129), REVOKE (130), and LOCK and set-up control at the acceptance (242). -/
def Obligations.TokensAreAccepted : Prop :=
  ∀ (s : State) (d r : Nat) (h : HostCmd), s.sec.fuseJob = none →
    let key := ringKey d r
    (∀ rnd ok, s.accepts d r 5 (some 1) h → s.secTurn h = true → h.field 311 288 = 0 → h.field 271 64 = 0 → h.field 287 272 = 32 →
      ok = true → s.fnReachAt (s.ring d r).fn (h.field 63 0) 32 = true →
      let n := cut rnd 0 32
      exec (.nonce d r rnd ok) s = .next ((({ s with sec := { s.sec with nonce := some n } } : State).updFn (s.ring d r).fn fun f =>
        { f with mem := f.mem.write (h.field 63 0) n }).cmdDone key 0))
    ∧ (s.accepts d r 5 (some 2) h → s.secTurn h = true → h.field 311 288 = 0 → h.field 271 64 = 0 →
      h.ctl = true →
      let sent := s.sendRead (s.ring d r).fn (h.field 63 0) (h.field 287 272)
      let spent := ({ sent with sec := { sent.sec with nonce := none } } : State)
      let f := s.fuses
      let prog := fun (g : Fuses) => (({ spent with sec := { spent.sec with fuseJob := some ⟨key, g⟩ } } : State).setCmd key (.busy 0))
      let len := h.field 287 272
      (∀ bs uds, s.fnReachAt (s.ring d r).fn (h.field 63 0) len = true → let t := cut bs 0 len
        let ok := fun (x : TokenRule) => tkKind t = x.kind ∧ x.check s s.sec.nonce t len = 0
        let p := tkPayload t
        (ok ruleProvision → exec (.tokenProvision d r (.data bs) uds) s = .next
          (prog ({ f with uds := orBytes f.uds (cut uds 0 32), dsn := f.dsn ||| tkDsn t }.lcTo 1)))
        ∧ (ok ruleOwn → ∃ g : Fuses, exec (.tokenOwn d r (.data bs)) s = .next (prog (g.lcTo 2))
          ∧ g.oset = f.oset ||| ownMask p ∧ { g with okey := f.okey, oset := f.oset } = f
          ∧ (Tab.wf [] f.okey = true → (∀ i k, (ownSlots p)[i]? = some k →
              Tab.get [] g.okey k = orBytes (Tab.get [] f.okey k) (cut p (32 + 32 * i) 32))
            ∧ ∀ k, k ∉ ownSlots p → Tab.get [] g.okey k = Tab.get [] f.okey k))
        ∧ (ok ruleSeal → exec (.tokenSeal d r (.data bs)) s = .next (prog (f.lcTo 3)))
        ∧ (ok ruleReturn → exec (.tokenReturn d r (.data bs)) s = .next (prog ({ f with orev := 255 }.lcTo 4)))
        ∧ (ok ruleScrap → exec (.tokenScrap d r (.data bs)) s = .next (prog ({ f with uds := List.replicate 32 0xFF }.lcTo 5)))
        ∧ (ok ruleDebug → exec (.tokenDebug d r (.data bs)) s = .next
          (({ spent with sec := { spent.sec with dbgp := dbgLevel p } } : State).cmdDone key 0))
        ∧ (ok ruleRevoke → exec (.tokenRevoke d r (.data bs)) s = .next
          (prog { f with orev := f.orev ||| revOwner p, mrev := f.mrev ||| revMaker p }))
        ∧ (∀ e, tkKind t = 3 → ruleSeal.check s s.sec.nonce t len = e → e ≠ 0 →
          exec (.tokenSeal d r (.data bs)) s = .next (spent.cmdDone key e)))
      ∧ (∀ e, (∀ bs, e ≠ .data bs) ∨ s.fnReachAt (s.ring d r).fn (h.field 63 0) len = false →
        exec (.tokenSeal d r e) s = .next (spent.cmdDone key 9)))
    ∧ (s.accepts d r 5 (some 2) h → s.secTurn h = true → h.field 311 288 = 0 → h.field 271 64 = 0 → h.ctl = false →
      ∀ e, exec (.tokenSeal d r e) s = .next (s.cmdDone key 1))
    ∧ (∀ rnd, s.accepts d r 5 (some 1) h → s.secTurn h = true → h.field 311 288 = 0 → h.field 271 64 = 0 → h.field 287 272 = 32 →
      ∃ v, v < 10 ∧ exec (.nonce d r rnd false) s = .next
        (({ s with freeCtr := s.freeCtr + 1, sec := { s.sec with nonce := some (cut rnd 0 32) } } : State).cmdDone key v))
    ∧ (s.accepts d r 5 (some 3) h → s.secTurn h = true → h.field 311 128 = 0 → h.field 63 0 = 0 → h.ctl = true →
      (s.lc = 1 ∨ s.lc = 2) → h.locked = false →
      let g := { s.fuses with safe := s.fuses.safe ||| h.field 127 64 }
      exec (.fuseSafe d r) s = .next
        (({ s with sec := { s.sec with fuseJob := some ⟨key, g⟩ } } : State).setCmd key (.busy 0)))
    ∧ (s.secTurn h = true ↔ ∀ p ∈ s.hif.rings, ∀ g, p.2.cur = some g → g.cls = 5 → g.st = .fresh → h.seq ≤ g.seq)

/-- R360, R413, R414, R417, R420: fuses that have been programmed and verified take effect at the next full reset; after FUSE_FAIL each bit
that was to rise has risen or not, and no other has changed; keys of plant I/O units. Which bits have risen is free (log entry 131); the
order of KEY_INSTALL's checks and a transmit key of a MAC with SC not 0 are the model's readings (133). -/
def Obligations.FusesAndKeysAreWritten : Prop :=
  (∀ (s : State) (key : Nat) (f : Fuses), s.sec.fuseJob = some ⟨key, f⟩ →
    exec (.fuseProgrammingComplete true) s = .next
      (({ s with fuses := f, sec := { s.sec with fuseJob := none, pend := f.lcNow } } : State).cmdDone key 0).forgeAsk
    ∧ ∃ (g : Fuses) (k : Nat), exec (.fuseProgrammingComplete false) s = .next
        (({ s with freeCtr := k, fuses := g, sec := { s.sec with fuseJob := none, pend := g.lcNow } } : State).cmdDone key 6).forgeAsk
      ∧ (let o := s.fuses
        let mid := fun (a b c : Nat) => a &&& c = a ∧ c ||| (a ||| b) = a ||| b
        let mids := fun (a b c : List Byte) => ∀ i, a.getD i 0 &&& c.getD i 0 = a.getD i 0
          ∧ c.getD i 0 ||| (a.getD i 0 ||| b.getD i 0) = a.getD i 0 ||| b.getD i 0
        mids o.uds f.uds g.uds ∧ mid o.dsn f.dsn g.dsn ∧ mid o.lc0 f.lc0 g.lc0 ∧ mid o.lc1 f.lc1 g.lc1 ∧ mid o.lc2 f.lc2 g.lc2
        ∧ mid o.mrev f.mrev g.mrev ∧ mid o.oset f.oset g.oset ∧ mid o.orev f.orev g.orev ∧ mid o.safe f.safe g.safe
        ∧ g.svn = o.svn ∧ g.pfix = o.pfix
        ∧ (Tab.wf [] o.okey = true → ∀ i < 8, mids (Tab.get [] o.okey i) (Tab.get [] f.okey i) (Tab.get [] g.okey i))))
  ∧ (∀ (a b c i : Nat), i < 5 → natBit (a &&& b ||| a &&& c ||| b &&& c) i = true →
    (∀ j, i < j → j < 5 → natBit (a &&& b ||| a &&& c ||| b &&& c) j = false) → lcStateOf a b c = i + 1)
  ∧ (∀ (s : State) (d r : Nat) (h : HostCmd) (x : Spdm) (bs o : List Byte), s.sec.fuseJob = none → s.accepts d r 5 (some 4) h →
    s.secTurn h = true → h.field 293 288 = 0 → h.field 271 128 = 0 → h.field 127 96 = 0 → s.var.acts = true →
    s.sec.sessions.find? (fun x => x.fn == (s.ring d r).fn && x.sid == h.field 95 64) = some x →
    let u := h.field 311 300
    let sc := h.field 299 297
    let an := h.field 296 295
    let tx := natBit h.body 294
    u < 12 → s.pioDom u = some d →
    let del : State := { s with sec := { s.sec with
      keys := s.sec.keys.filter fun k => !(k.unit == u && k.sc == sc && k.an == an && k.tx == tx) } }
    let read := s.fnReachAt (s.ring d r).fn (h.field 63 0) 88
    let sent := s.sendRead (s.ring d r).fn (h.field 63 0) 88
    let del' : State := { sent with sec := del.sec }
    (h.field 287 272 = 0 → exec (.keyInstall d r (.data bs)) s = .next (del.cmdDone (ringKey d r) 0))
    ∧ (h.field 287 272 = 88 → read = false → exec (.keyInstall d r (.data bs)) s = .next (s.cmdDone (ringKey d r) 9))
    ∧ (h.field 287 272 = 88 → read = true → Config.aesUnwrap (Config.kdf x.secret (ascii "KT") 32) (cut bs 0 88) = some o →
      keyObjOk u sc tx o = true →
      let put : State := { del' with sec := { del.sec with keys := del.sec.keys ++ [⟨u, sc, an, tx, o, fieldAt o 52 8⟩] } }
      exec (.keyInstall d r (.data bs)) s = .next
        ((if tx = true ∧ u < 4 then put.updMac u fun y => { y with txBlocked := false } else put).cmdDone (ringKey d r) 0))
    ∧ (h.field 287 272 = 88 → read = true → Config.aesUnwrap (Config.kdf x.secret (ascii "KT") 32) (cut bs 0 88) = none →
      exec (.keyInstall d r (.data bs)) s = .next
        (({ sent with sec := { s.sec with unwrapf := satAdd 16 s.sec.unwrapf 1 } } : State).cmdDone (ringKey d r) 5)))
  ∧ (∀ (u sc : Nat) (tx : Bool) (o : List Byte), keyObjOk u sc tx o = true →
    let c := fieldAt o 32 1
    c ≤ 5 ∧ (c ≠ 1 → c ≠ 3 → fieldAt o 16 16 = 0) ∧ (u < 4 ↔ c ≤ 3))

/-- R406 to R408, R411, R412, R421: what the responder of a function answers, the requests that set its connection up among them, and its
sessions. Keys of IDE streams are programmed, set going and stopped; debug access within the level in force. The model's readings: the
requests that set a connection up come with GET_DIGESTS (log entry 204), encodings of SPDM (134, 203), ends of sessions (135), K_SET_STOP
(136), Secure streams (109), the rights of a debug level (137) and what full debug shows (212). -/
def Obligations.AttestationAndDebug : Prop :=
  (
  ∀ (s : State) (fn : Fn), s.spdmUp fn = true →
    let say := fun (t : State) (code : Nat) (body sig : List Byte) =>
      ({ t with sec := { t.sec with answers := t.sec.answers ++ [⟨fn, code, body, sig⟩] } } : State)
    let signed := fun (t : State) (code : Nat) (chal body : List Byte) =>
      say t code body (Config.ed448Sign t.sec.aliasSeed (Config.spdmToSign code chal body))
    (let e := say s 0x7F [] [];
      exec (.spdmRequestRefused fn) s = .next { e with sec := { e.sec with spdmerr := satAdd 16 e.sec.spdmerr 1 } })
    ∧ (∀ c, s.chain = some c →
      (∀ t q, q.foldl (fun x r => x.spdmSetup fn r) s = t → t.chain = some c →
        exec (.spdmGetDigests fn q) s = .next (say t 1 (Config.sha3_384 c) []))
      ∧ exec (.spdmGetCertificate fn 0) s = .next (say s 2 c [])
      ∧ (∀ ch, exec (.spdmChallenge fn 0 ch) s = .next (signed s 3 ch (Config.sha3_384 c)))
      ∧ (∀ i b ch, s.blocks i = some b → exec (.spdmGetMeasurements fn i ch) s = .next (signed s 0x60 ch b))
      ∧ (∀ ch, (s.sessions fn).length < 2 → ∃ x : Spdm, x.fn = fn ∧ x.beat = s.dt
          ∧ exec (.spdmKeyExchange fn 0 ch) s = .next
            (signed { s with freeCtr := s.freeCtr + 1, sec := { s.sec with sessions := s.sec.sessions ++ [x] } } 0x64 ch (toLE 4 x.sid))
          ∧ (s.sec.sessions.length < 5 → (∀ y ∈ s.sec.sessions, y.sid < 2 ^ 32) → ∀ y ∈ s.sec.sessions, y.sid ≠ x.sid)))
    ∧ s.spdmSetup fn .version = say (s.updFn fn fun x => { x with spdmVer := none, spdmAlg := false }) 4 [0x12, 0x13] []
    ∧ (∀ v, ((v = 0x12 ∨ v = 0x13) → s.spdmSetup fn (.capabilities v) = say (s.updFn fn fun x => { x with spdmVer := some v }) 0x61
        (toLE 4 spdmCaps) [])
      ∧ (¬ (v = 0x12 ∨ v = 0x13) → s.spdmSetup fn (.capabilities v) = s.spdmRefuse fn))
    ∧ (∀ n, (s.session fn n).isSome = true →
      let gone : State := { s with sec := { s.sec with sessions := s.sec.sessions.filter fun x => !(x.fn == fn && x.sid == n) } }
      let with_ := fun (f : Spdm → Spdm) =>
        ({ s with sec := { s.sec with sessions := s.sec.sessions.map fun x => if x.fn == fn && x.sid == n then f x else x } } : State)
      exec (.spdmEndSession fn n) s = .next (say gone 0x6C [] [])
      ∧ exec (.spdmHeartbeatTimeout fn n) s = .next gone
      ∧ exec (.spdmHeartbeat fn n) s = .next (say (with_ fun x => { x with beat := s.dt }) 0x68 [] [])
      ∧ exec (.spdmKeyUpdate fn n) s = .next (say (with_ fun x => { x with updates := x.updates + 1 }) 0x69 [] [])))
  ∧ (
  (∀ (s : State) (fn : Fn) (n st ks sub : Nat), s.spdmUp fn = true → (s.session fn n).isSome = true →
    exec (.ideKmQuery fn n) s = .next (s.answer fn 0x7E
      (0 :: (s.sec.streams.filter fun x => x.fn == fn).map fun x => BitVec.ofNat 8 x.stream))
    ∧ (st < 256 → ks < 2 → sub < 6 →
      (∀ key, key.length = 32 → (s.ideStream fn st).isSome = true ∨ (s.sec.streams.filter fun x => x.fn == fn).length < 2 →
        let x := (s.ideStream fn st).getD ⟨fn, st, [], []⟩
        exec (.ideKmKeyProg fn n st ks sub key) s = .next ((s.putStream
          { x with keys := (x.keys.filter fun k => !(k.1 == ks && k.2.1 == sub)) ++ [(ks, sub, key)] }).answer fn 0x7E [2]))
      ∧ (∀ x, s.ideStream fn st = some x →
        (x.keys.any (fun k => k.1 == ks && k.2.1 == sub) = true →
          exec (.ideKmKSetGo fn n st ks sub) s = .next ((s.putStream
            { x with going := (x.going.filter fun p => p.2 ≠ sub) ++ [(ks, sub)] }).answer fn 0x7E [5]))
        ∧ (let t := s.putStream { x with
            going := x.going.filter fun p => p ≠ (ks, sub), keys := x.keys.filter fun k => !(k.1 == ks && k.2.1 == sub) }
          exec (.ideKmKSetStop fn n st ks sub) s = .next
            ((if s.ideBlocks fn = false ∧ t.ideBlocks fn = true then t.haltFn fn 65535 3 else t).answer fn 0x7E [5])))))
  ∧ (∀ (s : State), 4 ≤ s.boot.step → s.boot.inReset = false →
    (∀ c, 1 ≤ s.sec.dbg → c < s.var.cores → s.ras.fence.contains c = false →
      exec (.debugAccess (.halt c)) s = .next (s.updCore c fun k => { k with halted := true, steps := 0 })
      ∧ exec (.debugAccess (.resume c)) s = .next (s.updCore c fun k => { k with halted := false, steps := 0 })
      ∧ ((s.core c).halted = true → exec (.debugAccess (.step c)) s = .next (s.updCore c fun k => { k with steps := k.steps + 1 })))
    ∧ (∀ a o, 1 ≤ s.sec.dbg → a % 8 = 0 → s.place a = .yard o → s.yardBadIn o (o + 8) = [] →
      exec (.debugAccess (.readMem a)) s = .next (s.debugGives (leNat (s.rdBytes a 8))))
    ∧ (∀ a, a % 8 = 0 → a < 0x1000000 → debugNeed a ≤ s.sec.dbg → exec (.debugAccess (.readReg a)) s = .next (s.debugGives (s.readReg a)))
    ∧ (∀ x, exec (.debugAccess (.readSec x)) s =
        .next (if 2 ≤ s.sec.dbg then (s.secItem x).foldl State.debugGives s else s))
    ∧ s.secItem .fuses = [s.fuses.dsn, s.fuses.mrev, s.fuses.oset, s.fuses.orev, s.fuses.svn, s.fuses.safe]
    ∧ (s.lc = 0 → s.secItem .nboot = [])
    ∧ (s.sec.dbg = 0 → ∀ c a, exec (.debugAccess (.halt c)) s = .next s ∧ exec (.debugAccess (.readMem a)) s = .next s
      ∧ exec (.debugAccess (.readReg 0xE00020)) s = .next s)))

/-- R428 to R434, R436 to R438: the credits and demands of Leash; the rail stands at what the highest step allowed requires; a raise takes one island up one step within C_tot; a decided step
and a moved rail take effect, and C_tot and the falls of demand follow at once. The coolant reports, the limit of the TMC, the junction
temperature and the thermal trip. That a command's credits still owed are granted by the rows LEASH_RECOMPUTE and LEASH_RAISE is the
model's choice (log entry 215). Readings: a budget below PFIX (139), when the rail moves (140), the order of raises (141), the limits of
TMCCAP (142), one POWER record for each low condition (143), frames in transmission at a trip (157). -/
def Obligations.PowerAndTemperature : Prop :=
  (
  (∀ (ma step mv : Nat), ma * stepTenths step * mv ≤ credits ma step mv * 3900000
      ∧ credits ma step mv * 3900000 < ma * stepTenths step * mv + 3900000)
  ∧ (∀ (s : State) (mv : Nat), s.ctotAt mv ≤ 840)
  ∧ (∀ (s : State), exec .leashRecompute s = .next s.leashRecompute
    ∧ (s.leashRecompute.pwr.lowv = true ↔
      s.pwr.lowv = true ∨ s.ctotAt (railMv (railOf s.fmaxEff)) < s.fsumAt (railMv (railOf s.fmaxEff)))
    ∧ { s.leashRecompute with cores := s.cores, pwr := s.pwr, ras := s.ras } = s)
  ∧ (∀ (s : State) (t : Nat), s.pwr.lowv = true → s.pwr.fitSince = some t → t + 100000000 ≤ s.dt →
    exec .lowvExit s = .next
      ({ s with pwr := { s.pwr with lowv := false, floordef := false, fitSince := none } } : State).leashRecompute)
  ∧ (∀ (s : State),
    let u := s.settle
    (u.credWaits ≠ [] → exec .leashRaise s = .next u)
    ∧ (∀ c, u.credWaits = [] →
      ((u.liveCores.filter fun c => (u.core c).isFloor) ++ u.liveCores.filter fun c => !(u.core c).isFloor).find? u.canRaise = some c →
      let st := (u.core c).stepDecided + 1
      exec .leashRaise s = .next ((u.setGrant c (max (u.core c).grant (u.need c none st))).setStep c st)
      ∧ st ≤ u.capStep c ∧ railOf st ≤ u.pwr.rail ∧ u.gsum < u.pwr.ctot
      ∧ u.need c none st ≤ (u.core c).grant + min (u.pwr.ctot - u.gsum) (u.room true)))
  ∧ (∀ (s : State), s.liveCores ≠ [] → (∀ c ∈ s.liveCores, railOf (s.capStep c) ≤ s.railTarget)
    ∧ ∃ c ∈ s.liveCores, s.railTarget = railOf (s.capStep c))
  ∧ (∀ (s : State) (c : Nat), s.pwr.hot = true →
    (s.core c).isFloor = false → s.capStep c = 0)
  ∧ (∀ (s : State) (c g lim : Nat), (s.core c).grant ≤ ((s.raiseGrant c g lim).core c).grant
    ∧ ((s.raiseGrant c g lim).core c).grant ≤ (s.core c).grant + lim)
  ∧ (∀ (s : State) (c t : Nat), c < s.var.cores → (s.core c).fallAt = some t → t + 1000 ≤ s.dt →
    let k := s.core c
    exec (.grantHysteresisExpiry c) s = .next
      ((s.setGrant c (min k.grant (max (s.need c none k.stepDecided) (k.grant - s.room false)))).noteFall c))
  ∧ (∀ (s : State) (c st : Nat), c < s.var.cores → (s.core c).stepNext = some st →
    let sure := railOf st ≤ s.pwr.rail ∧ ∀ r, s.pwr.railNext = some r → railOf st ≤ r
    (sure → exec (.islandStepChange c) s = .next (s.updCore c fun k => { k with step := st, stepNext := none }).settle)
    ∧ (¬ sure → exec (.islandStepChange c) s = .next s))
  ∧ (∀ (s : State), s.settle.pwr.ctot = s.settle.ctotAt s.settle.mv)
  ∧ (∀ (s : State) (c : Nat), Tab.wf ({} : Core) s.cores = true → c ∈ s.liveCores →
    ((s.settle.core c).fallAt.isSome = true ↔ s.settle.need c none (s.settle.core c).stepDecided < (s.settle.core c).grant))
  ∧ (∀ (s : State) (r : Nat), s.pwr.railNext = some r →
    exec .coreRailMoveComplete s = .next ({ s with pwr := { s.pwr with rail := r, railNext := none } } : State).leashRecompute))
  ∧ (
  (∀ (s : State) (tin tout : Int) (flow pto : Nat), s.boot.inReset = false → 4 ≤ s.boot.step → -128 ≤ tin → tin < 128 → -128 ≤ tout →
    tout < 128 → flow < 256 → pto < 256 →
    let low := 65 < tin ∨ flow < 25
    let u := if low ∧ s.pwr.derLow = false then s.record 7 0 none 12 0 0 0 else s
    exec (.tmcReport tin tout flow pto) s = .next ({ u with pwr := { u.pwr with
      tin := (BitVec.ofInt 8 tin).toNat, tout := (BitVec.ofInt 8 tout).toNat, flow := flow, pto := pto
      derLow := decide low, lastReport := s.dt
      der := if low then 60 else if tin ≤ 60 then 100 else 100 - 4 * (tin - 60).toNat } } : State).leashRecompute)
  ∧ (∀ (s : State), s.pwr.lastReport + 50000000 ≤ s.dt →
    exec .tmcReportTimeout s = .next ({ s with pwr := { s.pwr with der := 60 } } : State).leashRecompute)
  ∧ (∀ (s : State) (w : Nat), 60 ≤ w → w ≤ 300 → s.boot.inReset = false → 4 ≤ s.boot.step →
    exec (.tmccapWrite w) s = .next ({ s with pwr := { s.pwr with tmccap := w } } : State).leashRecompute)
  ∧ (∀ (s : State) (l : List Int) (tj : Int), highest l = some tj →
    (s.boot.inReset = false →
      let u := { s with pwr := { s.pwr with tj := tj, coolSince := if tj ≤ 100 then some (s.pwr.coolSince.getD s.dt) else none } }
      exec (.junctionSensorRead l) s = .next
        (if 105 ≤ tj ∧ s.pwr.hot = false then
          (({ u with pwr := { u.pwr with hot := true } } : State).record 8 0 none 12 0 0 0).leashRecompute
         else u))
    ∧ (s.boot.inReset = true → tj ≤ 95 →
      exec (.junctionSensorRead l) s = .next { s with boot := { s.boot with holds := s.boot.holds.filter (· ≠ 1) } }))
  ∧ (∀ (s : State) (t : Nat), s.pwr.hot = true → s.pwr.coolSince = some t → t + 10000000 ≤ s.dt →
    exec .hotClear s = .next ({ s with pwr := { s.pwr with hot := false } } : State).leashRecompute)
  ∧ (∀ (s : State), s.pwr.tripped = false → s.boot.inReset = false → 3 ≤ s.boot.step →
    exec .thermalTrip s = .next
      ((({ s with pwr := { s.pwr with tripped := true } } : State).goSafe.record 8 1 none 12 0 0 0).askTmc 8 1))
  ∧ (∀ (l : List Int) (tj : Int), highest l = some tj ↔ tj ∈ l ∧ ∀ x ∈ l, x ≤ tj))

/-- R186, R405, R439 to R443, R446 to R450: the error log; the patrol; corrections; mesh links; islands, slices and channels that fail. A
line of the store is told good, corrected or not by its own state and by the errors of its codeword; an entry of a loop's queue that cannot
be corrected is marked alone (R448). The model's choices: the unit of a line that holds an error (log entry 146) and a correction told with
the read that meets it (183). Readings: each correction makes a record (145), the source of a FATAL of the mesh island (147), the records of
a retrain (148), and more than 2 erroneous bytes make the tag not match (185). -/
def Obligations.ErrorsAreMetAndRecorded : Prop :=
  (∀ (s : State) (r : ErrRec) (rest : List ErrRec), s.ras.queue = r :: rest →
    let x := { s.ras with queue := rest }
    (∀ n, s.ras.newest = some n →
      (n.cls = r.cls ∧ n.code = r.code ∧ n.skind = r.skind ∧ n.sidx = r.sidx ∧ n.addr = r.addr ∧ r.t < n.t + 1000000) →
      exec .rasRecordLog s = .next { s with ras :=
        { x with log := Tab.set none x.log (n.seq % 1024) (some { n with count := min (n.count + 1) 65535 }) } })
    ∧ ((∀ n, s.ras.newest = some n → n.joins r = false) →
      exec .rasRecordLog s = .next (({ s with ras :=
        { x with
          log := Tab.set none x.log (s.ras.next % 1024) (some { r with seq := s.ras.next })
          next := (s.ras.next + 1) % 2 ^ 32 } } : State).postDevice 6 r.cls 0 s.ras.next)))
  ∧ (∀ (s : State) (t : PatrolTarget) (sk ix a det : Nat) (dom : Option Nat), s.patrolAt t = some (sk, ix, a, det, dom) →
    s.patrolSkips t = false →
    (∀ ch j, t = .storeLine ch j → ∀ r, exec (.patrolStep t r) s = .next (match lineEnd (s.patrolFault t) r.storeErrs 0 with
        | .good => s
        | .fixed => s.corrected none sk ix a det dom
        | .bad f => (s.lineNotGood f).patrolUncorrectable t sk ix a det dom))
    ∧ ((∀ ch j, t ≠ .storeLine ch j) →
        (s.patrolStands t = .clean → exec (.patrolStep t .clean) s = .next s)
        ∧ (∀ r, (r = .uncorrectable ∨ s.patrolStands t = .uncorrectable) →
          exec (.patrolStep t r) s = .next (s.patrolUncorrectable t sk ix a det dom)))
    ∧ (∀ c l, t = .coreLine c l → (s.core c).badIn (64 * l) (64 * l + 64) = [] →
        let stand := (s.core c).weakIn (64 * l) (64 * l + 64)
        let u := stand.foldl (fun s b => s.coreFix c b dom) s
        let other := fun (k : Core) => k.weak.filter fun b => !stand.contains b
        (stand ≠ [] → (∀ r, r = .clean ∨ r = .corrected false →
            exec (.patrolStep t r) s = .next (u.updCore c fun k => { k with weak := other k }))
          ∧ exec (.patrolStep t (.corrected true)) s = .next (u.updCore c fun k => { k with weak := other k ++ stand }))
        ∧ (stand = [] → ∃ b, 64 * l ≤ b ∧ b < 64 * l + 64 ∧
          let v := State.coreFix { s with freeCtr := s.freeCtr + 1 } c b dom
          exec (.patrolStep t (.corrected false)) s = .next (v.updCore c fun k => k)
          ∧ ∃ left, (left = [] ∨ left = [b]) ∧ exec (.patrolStep t (.corrected true)) s =
            .next (State.updCore { v with freeCtr := v.freeCtr + 1 } c fun k => { k with weak := k.weak ++ left })))
    ∧ (∀ i l, t = .yardLine i l →
        let lo := 64 * (l * s.var.slices + i)
        let stand := s.yardWeakIn lo (lo + 64)
        let u := stand.foldl (fun s b => s.yardFix b dom) s
        let other := u.yard.weak.filter fun b => !stand.contains b
        s.yardBadIn lo (lo + 64) = [] → stand ≠ [] →
        exec (.patrolStep t (.corrected false)) s = .next { u with yard := { u.yard with weak := other } }
        ∧ exec (.patrolStep t (.corrected true)) s = .next { u with yard := { u.yard with weak := other ++ stand } })
    ∧ (∀ n i w, t = .trajEntry n i w → exec (.patrolStep t .uncorrectable) s = .next
        ((({ s with ras := { s.ras with ue := satAdd 32 s.ras.ue 1 } } : State).record 2 1 dom sk ix a det).updLoop n fun x =>
          { x with queue := x.queue.modify i fun e => { e with bad := true } }))
    ∧ ((∀ c l, t ≠ .coreLine c l) → (∀ i l, t ≠ .yardLine i l) → (∀ ch j, t ≠ .storeLine ch j) → s.patrolStands t ≠ .uncorrectable →
        ∀ raced, exec (.patrolStep t (.corrected raced)) s = .next (s.correctedIn sk (patrolWord t a) none sk ix a det dom)))
  ∧ (∀ (s : State) (kind word : Nat) (core : Option Nat) (sk ix a det : Nat) (dom : Option Nat),
      let l := s.ras.corrected.filter fun p => decide (s.dt < p.2.2 + 1000000000)
      let key := word * 2 ^ 20 + ix
      let u := ({ s with ras := { s.ras with ce := satAdd 32 s.ras.ce 1, corrected := l ++ [(kind, key, s.dt)] } } : State).record
        1 0 dom sk ix a det
      s.correctedIn kind word core sk ix a det dom =
        (if (l.filter fun p => p.1 = kind && p.2.1 = key).length < 7 then u
         else match core with
           | some c => (u.record 1 1 dom sk ix a det).fenceStart c 0
           | none => u.record 1 1 dom sk ix a det))
  ∧ (∀ (s : State) (c code : Nat), s.ras.fence.Nodup → (s.fenceDone c code).ras.fence.Nodup ∧ c ∈ (s.fenceDone c code).ras.fence
    ∧ (c ∈ s.ras.fence → s.fenceDone c code = s))
  ∧ (∀ (s : State) (f : FlitFail), f.link < 4 * s.var.cores → s.ras.linkDown.contains f.link = false →
    exec (.meshFlitCrcFail f) s = .next { s with ras := { s.ras with linkFails := Tab.upd 0 s.ras.linkFails f.link fun n =>
      if 8 ≤ n then n else if f.again then n + 1 else 1 } })
  ∧ (∀ (s : State) (link : Nat), link < 4 * s.var.cores → s.ras.linkDown.contains link = false →
    (8 ≤ Tab.get 0 s.ras.linkFails link →
      exec (.meshLinkRetrainDone link true) s = .next (({ s with ras :=
        { s.ras with linkFails := Tab.set 0 s.ras.linkFails link 0, linkRetrains := Tab.set 0 s.ras.linkRetrains link 0 } } : State).record
          6 0 none 6 link 0 0)
      ∧ (let n := Tab.get 0 s.ras.linkRetrains link + 1
        let u := ({ s with ras := { s.ras with linkRetrains := Tab.set 0 s.ras.linkRetrains link n } } : State).record 6 0 none 6 link 0 0
        exec (.meshLinkRetrainDone link false) s = .next
          (if n < 3 then u else ({ u with ras := { u.ras with linkDown := link :: u.ras.linkDown } } : State).fatal 0 6 link 0)))
    ∧ (Tab.get 0 s.ras.linkFails link < 8 → ∀ ok, exec (.meshLinkRetrainDone link ok) s = .next s))
  ∧ (∀ (s : State),
    exec (.islandHandshakeFault .mesh) s = .next (s.fatal 2 10 0 0)
    ∧ (∀ c, c < s.var.cores → s.ras.fence.contains c = false → exec (.islandHandshakeFault (.core c)) s = .next (s.coreFault c))
    ∧ (∀ i, i < s.var.slices → exec (.sliceOrChannelStopsAnswering (.slice i)) s = .next (s.fatal 3 1 i 0))
    ∧ (∀ i, i < s.var.channels → exec (.sliceOrChannelStopsAnswering (.channel i)) s = .next (s.fatal 3 2 i 0)))

/-! ### The twin -/

/-- R442, R452 to R454: how the Knago link is paired, kept, resent on, lost and sought again; heartbeats and snapshots. That the third
retrain in a row that does not get a frame through takes the link LOST is the model's reading (log entry 227), and that a snapshot is
applied when it comes (156). -/
def Obligations.TheKnagoLinkPairs : Prop :=
  ∀ (s : State),
    let x := s.twin
    let lk := fun (t : State) (l : Link) =>
      ({ t with twin := { t.twin with link := l, linkAt := t.dt, handing := t.twin.handing && l == .paired } } : State)
    let res := fun (t : State) (r : Nat) => if t.boot.step = 9 then { t with boot := { t.boot with step := 10, twinres := r } } else t
    (∀ dsn side pid, x.link = .search → x.silent = false →
      (pid.toNat = x.pairid → side ≠ x.side →
        exec (.knagoHelloReceived dsn side pid) s = .next
          (let t := res (lk s .paired) 1
           { t with twin := { t.twin with pdsn := dsn, lastFrame := s.dt } }))
      ∧ ((pid.toNat ≠ x.pairid ∨ side = x.side) →
        exec (.knagoHelloReceived dsn side pid) s = .next (res ((lk s .mismatch).record 9 0 none 13 0 0 0) 3)))
    ∧ (x.link = .paired →
      exec .knagoLossOfSignal s = .next
        (let t := lk s .lost
         ({ t with twin := { t.twin with lostAt := some s.dt } } : State).tryTakeover)
      ∧ (x.lastFrame + 50000 ≤ s.dt → exec .knagoFrameTimeout s = .next (lk s .lost))
      ∧ (let same := x.frameOf = x.out.length
        let n := (if same then x.frameErrs else 0) + 1
        let r := if same then x.retrains else 0
        let y : Twin := { x with resend := satAdd 16 x.resend 1, frameErrs := n, frameOf := x.out.length, retrains := r }
        exec .knagoFrameError s = .next (if n < 8 then { s with twin := y }
          else if r < 3 then ({ s with twin := { y with frameErrs := 0, retrains := r + 1 } } : State).record 6 0 none 13 0 0 0
          else lk { s with twin := { y with frameErrs := 0, retrains := 0 } } .lost))
      ∧ (∀ dsn side pid, exec (.knagoHelloReceived dsn side pid) s = .next { s with twin := { x with lastFrame := s.dt } })
      ∧ (x.lastBeat + 10000 ≤ s.dt → x.silent = false →
        exec .knagoHeartbeatSend s = .next { s with twin := { x with
          lastBeat := s.dt, snapQ := x.snapQ.drop 40
          out := x.out ++ ⟨1, [x.ast.num]⟩ :: (x.snapQ.take 40).map fun q => ⟨2, snapVals q⟩ } })
      ∧ (∀ a, a < 3 → exec (.knagoHeartbeatReceived a) s = .next { s with twin := { x with past := a, lastFrame := s.dt } })
      ∧ (∀ q, x.ast = .standby → (s.loopSlot q.slot).runs = true → q.slot < 4096 →
        let l := s.loopSlot q.slot
        let y := { l with
          st := if q.state = 4 then .closed else l.st
          integ := sgn 64 q.i, d := q.d, yprev := q.yprev, usat := q.usat, m := q.m, hcnt := q.hcnt
          cur := l.cur.map fun t => { t with p := q.curp } }
        exec (.snapshotReceived q) s = .next (({ s with twin := { x with
          lastFrame := s.dt, snapAdopt := if y = l then x.snapAdopt else satAdd 16 x.snapAdopt 1 } } : State).updLoop q.slot fun _ => y)))
    ∧ (x.link = .search → x.linkAt + 1000000000 ≤ s.dt → exec .knagoSearchTimeout s = .next (res (lk s .lost) 2))
    ∧ ((x.link = .lost ∨ x.link = .mismatch) → x.linkAt + 100000000 ≤ s.dt →
      exec .knagoSearchRetry s = .next s.search ∧ s.search.twin.link = .search)

/-- R295, R453, R457 to R459, R461: claims, grants, hand-overs and the takeover; TWIN_CFG and the commands of TWIN_CTL. Each row is stated
with the effect that its event has in every state of authority. That an active tray stays ACTIVE from HANDOVER to the partner's
acknowledgement, where R457's table has STANDBY and R461 has it stay ACTIVE, is the model's reading (log entry 228); so are the half-open
window of R458 (218), the parts of the takeover condition (150), the two rows of TWIN_AUTH_IN's rise (151), and that a TWIN_CFG write of
MODE 3 is ignored (152). -/
def Obligations.AuthorityPasses : Prop :=
  (
  ∀ (s : State),
    let x := s.twin
    let seen : State := { s with twin := { x with lastFrame := s.dt } }
    (∀ side, exec (.claimMessageReceived side) s = .next
      (if x.link ≠ .paired then s
       else if (x.ast = .off ∨ x.ast = .standby) ∧ (x.claimAt = none ∨ (x.side = true ∧ side = false)) then seen.kmsg 5 [] else seen))
    ∧ (x.link = .paired → exec .grantReceived s = .next
      (if (∃ t, x.claimAt = some t ∧ s.dt < t + 100000) ∧ x.ast = .off ∧ x.mode = 2 ∧ x.pin = false then
        { s with twin := { x with ast := .active, authNext := some true, claimAt := none, lastFrame := s.dt } }
       else seen))
    ∧ (∀ t, x.claimAt = some t → exec .claimTimeout s = .next
      (if t + 100000 ≤ s.dt then ({ s with twin := { x with claimAt := none } } : State).record 9 1 none 13 0 0 0 else s))
    ∧ (x.link = .paired → exec .handoverReceived s = .next
      (if x.ast = .standby then
        (({ s with twin := { x with lastFrame := s.dt, handoverAt := some s.dt } } : State).kmsg 7 []).tryTakeover
       else seen))
    ∧ (x.link = .paired → exec .handoverAckReceived s = .next
      (if x.handing = true ∧ x.ast = .active then
        { s with twin := { x with handing := false, ast := .standby, authNext := some false, lastFrame := s.dt } }
       else seen))
    ∧ (x.link ≠ .paired → exec .grantReceived s = .next s ∧ exec .handoverReceived s = .next s ∧ exec .handoverAckReceived s = .next s)
    ∧ (exec .twinAuthInFall s = .next
      (if s.var.acts = false then s
       else if x.ast = .standby then ({ s with twin := { x with pin := false, fallAt := some s.dt } } : State).tryTakeover
       else { s with twin := { x with pin := false } }))
    ∧ (∀ t, x.fallAt = some t → x.ast = .standby → exec .takeoverWindowEnd s = .next
      (if t + 20000 ≤ s.dt then ({ s with twin := { x with fallAt := none } } : State).record 9 2 none 13 0 0 0 else s))
    ∧ (exec .twinAuthInContention s = .next
      (if s.var.acts = false then s
       else if x.pin = false then { s with twin := { x with pin := true, pinAt := s.dt } }
       else if s.dt < x.pinAt + 800 then s
       else if x.ast = .active ∧ x.side = true then s.authOff.record 9 3 none 13 0 0 0
       else s))
    ∧ (∀ t, x.fallAt = some t → x.ast = .standby →
      let met := ∃ h, (x.handoverAt = some h ∨ x.lostAt = some h) ∧ t ≤ h + 100000 ∧ h < t + 20000
      (met → x.takeover = true → s.tryTakeover.twin.ast = .active ∧ s.tryTakeover.loop.auth = true)
      ∧ (met → x.takeover = false → s.tryTakeover = { s with twin := { x with fallAt := none } })
      ∧ (¬ met → s.tryTakeover = s)))
  ∧ (
  ∀ (s : State) (fn : Fn) (v : Word), s.var.acts = true →
    let x := s.twin
    (s.reaches fn 0xF20000 = true → s.sec.lock = false → x.ast = .off → ∀ part,
      let w := regMerge x.cfg (partMask part) rwTwinCfg v.toNat
      natBits w.toNat 63 62 ≠ 3 →
      let u : State := { s with twin := { x with cfg := w } }
      let t := if part = .lo then u else u.linkTo .down
      exec (.twinCfgWrite fn part v) s = .next (if natBits w.toNat 63 62 = 2 ∧ s.boot.ptp = true then t.search else t))
    ∧ (s.reaches fn 0xF20000 = true → (s.sec.lock = true ∨ x.ast ≠ .off) → exec (.twinCfgWrite fn .full v) s = .next s)
    ∧ (s.reaches fn 0xF20008 = true →
      (x.ast = .off → s.pwr.tripped = false →
        (x.mode = 1 → x.pin = false →
          exec (.twinClaim fn) s = .next { s with twin := { x with ast := .active, authNext := some true, claimAt := none } })
        ∧ (x.mode = 2 → x.link = .paired → x.pin = false →
          exec (.twinClaim fn) s = .next (({ s with twin := { x with claimAt := some s.dt } } : State).kmsg 4 [bit x.side]))
        ∧ (x.pin = true ∨ (x.mode ≠ 1 ∧ (x.mode ≠ 2 ∨ x.link ≠ .paired)) →
          exec (.twinClaim fn) s = .next { s with twin := { x with claimAt := some s.dt } }))
      ∧ (x.ast ≠ .off → exec (.twinClaim fn) s = .next s)
      ∧ (exec (.twinRelease fn) s = .next (if x.ast = .off then s else { s with twin := { x with
          ast := .off, authNext := if s.loop.auth = true ∨ x.authNext = some true then some false else none
          handing := false, fallAt := none } }))
      ∧ (exec (.twinStandby fn) s = .next (if x.ast = .off ∧ x.mode = 2 ∧ x.link = .paired then
          { s with twin := { x with ast := .standby, claimAt := none } } else s))
      ∧ (exec (.twinHandover fn) s = .next (if x.ast = .active ∧ x.link = .paired ∧ x.past = 1 then
          ({ s with twin := { x with handing := true } } : State).kmsg 6 [] else s))))

/-- R171, R178, R233, R439, R455, R456: digest comparison: a trigger, the digest of its region, the partner's digest, the verdict, and the
timeout. The model's readings: OVERRUN counts without the one in process (log entry 154), the checks of a slot (155), a trigger tally that
is refused (229), and a region that cannot be read when the digest is formed (230). -/
def Obligations.DigestsAreCompared : Prop :=
  ∀ (s : State) (n : Nat), n < 64 →
    let x := s.cmp n
    (s.var.acts = true → x.dvalid = true → x.refused = false → s.waitMet x.trig (x.exp + 1) = true → x.exp + 1 < 2 ^ 32 →
      let u := (s.updCmp n fun y => { y with exp := x.exp + 1 }).cmpArm n
      exec (.compareTrigger n) s = .next
        (if x.stage = 0 then u.cmpStart n [x.exp + 1]
         else if 4 ≤ x.pend.length then u.cmpResult n (x.exp + 1) 5 [] []
         else u.updCmp n fun y => { y with pend := y.pend ++ [x.exp + 1] }))
    ∧ (s.cmpArm n = if s.waitRefused x.dom x.trig = true then (s.updCmp n fun y => { y with refused := true }).tallyRefuse x.dom x.trig
        else s.updCmp n fun y => { y with refused := false })
    ∧ (x.stage = 1 →
      let o := x.addr - yardBase
      let d := Config.shake256 32 (toLE 1 n ++ toLE 4 x.seq ++ s.yard.mem.read o (64 * x.len))
      (s.cmpRegionOk x = true → s.yardBadIn o (o + 64 * x.len) = [] →
        let u := (s.yardRead o (o + 64 * x.len) (some x.dom)).updCmp n fun y => { y with own := d, stage := 2, at_ := s.dt }
        exec (.compareDigestFormed n) s = .next
          (if s.twin.link = .paired then (u.kmsg 3 ([n, x.seq] ++ d.map (·.toNat))).cmpMeet n else u.cmpEnd n 3 []))
      ∧ (s.cmpRegionOk x = false → exec (.compareDigestFormed n) s = .next (s.cmpEnd n 4 []))
      ∧ (∀ b l, s.cmpRegionOk x = true → s.yardBadIn o (o + 64 * x.len) = b :: l → exec (.compareDigestFormed n) s = .next
          ((s.ueMet 0 (some x.dom) 1 (s.slice b) (lineAddr (yardBase + b))).cmpEnd n 4 [])))
    ∧ (∀ v : Word, x.dvalid = false → s.cmpWrite n 3 (partMask .full) v.toNat =
        s.updCmp n fun y => { y with exp := natBits v.toNat 63 32, seq := natBits v.toNat 63 32 })
    ∧ (∀ (q : BitVec 32) dig, s.twin.link = .paired → x.dvalid = true → x.seq ≤ q.toNat → (∀ p, x.partner = some p → p.1 ≤ q.toNat) →
      exec (.partnerDigestReceived n q dig) s = .next
        ((({ s with twin := { s.twin with lastFrame := s.dt } } : State).updCmp n fun y =>
          { y with partner := some (q.toNat, cut dig 0 32) }).cmpMeet n))
    ∧ (x.stage = 2 → x.at_ + 1000 * x.timeout ≤ s.dt → exec (.compareTimeout n) s = .next (s.cmpEnd n 2 []))
    ∧ (∀ q d, x.partner = some (q, d) → x.stage = 2 → q = x.seq →
      s.cmpMeet n = if s.dt < x.at_ + 1000 * x.timeout then
        (s.updCmp n fun y => { y with partner := none }).cmpEnd n (if d = x.own then 0 else 1) d else s)
    ∧ (∀ seq res own other, yardBase ≤ x.res → x.res % 32 = 0 → s.yardRangeOk x.dom (x.res - yardBase) 96 = true →
      let r := cut own 0 32 ++ cut other 0 32 ++ toLE 4 seq ++ toLE 4 res ++ toLE 8 s.dt ++ List.replicate 16 0
      let u := (s.yardWrite (bytesAt (x.res - yardBase) r)).1.updCmp n fun y => { y with lastres := res }
      s.cmpResult n seq res own other =
        (if res = 0 then u.tallyAdd x.dom x.okt 1
         else ({ u with twin := { u.twin with miss := satAdd 16 u.twin.miss 1 } } : State).tallyAdd x.dom x.misst 1))

/-! ### Bring-up and reset -/

/-- R204, R451, R462 to R471: the steps of bring-up, in their order; a power-on resets the whole tray. The model's readings: the TRNG's
failure (log entry 117), a firmware image (118), seeds in BLANK (119), a TCR of another length or out of its ranges (159), POWER_GOOD with
and without a power loss before it (161, 240), STEP while step 8 runs beside step 7 (164), discovery (153), and the widths of M3 (121). -/
def Obligations.BringUpRunsInSteps : Prop :=
  ∀ (s : State),
    let b := s.boot
    (exec .powerGood s = .next (let t := s.railsOff
      { t with boot := { t.boot with
        tcr := t.boot.tcrBytes, pg := true, railFaults := 0, railWait := false, step := 1, fatalRuns := 0
        cause := if b.pg = true then 0 else b.cause, tmcrsn := if b.pg = true then 0 else b.tmcrsn } }))
    ∧ (let t := s.railsOff
      t.pio = {} ∧ t.twin = {} ∧ t.knl = {} ∧ t.sec = { dbgp := s.sec.dbgp } ∧ t.cores = [] ∧ t.time = {} ∧ t.ras = {} ∧ t.hif.holder = none
      ∧ t.boot.rails = 0 ∧ t.boot.step = 0 ∧ t.boot.inReset = false ∧ t.boot.holds = [] ∧ t.boot.tcrBytes = b.tcrBytes
      ∧ t.boot.tmcFences = b.tmcFences ∧ t.hif.a.mem = s.hif.a.mem ∧ t.hif.b.mem = s.hif.b.mem ∧ t.pending = s.pending
      ∧ (s.sec.fuseJob = none → t.fuses = s.fuses))
    ∧ (b.pg = true → b.step = 1 → b.rails < 4 →
      exec .railInRange s = .next { s with boot := { b with rails := b.rails + 1, step := if b.rails = 3 then 2 else 1 } })
    ∧ (b.railWait = true → exec .railRetry s = .next { s with boot := { b with railWait := false, step := 1, tcr := b.tcrBytes } })
    ∧ (∀ (tin : Int) flow der, (tin ≤ 65 ∧ 25 ≤ flow ∧ der = 100) ∨ (¬ (tin ≤ 65 ∧ 25 ≤ flow) ∧ tin ≤ 75 ∧ 10 ≤ flow ∧ der = 60) →
      (b.inReset = false → b.step = 2 → b.pg = true → exec (.coolantCheck tin flow) s = .next
        { s with boot := { b with step := 3, coolOk := true }, pwr := { s.pwr with der := der } })
      ∧ (b.inReset = true → exec (.coolantCheck tin flow) s = .next { s with boot := { b with coolOk := true } }))
    ∧ (∀ bs, bs.length = 48 → exec (.tcrWrite bs) s = .next { s with boot := { b with tcrBytes := tcrFenced bs b.tmcFences } }
      ∧ (tcrFenced bs b.tmcFences).length = 48
      ∧ (∀ i j, i < 32 → j < 8 → ((tcrFenced bs b.tmcFences).getD i 0).getLsbD j =
          ((bs.getD i 0).getLsbD j || b.tmcFences.contains (8 * i + j)))
      ∧ ∀ i, 32 ≤ i → (tcrFenced bs b.tmcFences).getD i 0 = bs.getD i 0)
    ∧ (∀ c0 c1 rnd, b.step = 3 → b.inReset = false → b.pg = true →
      let q := s.senseFuses
      let ks := if q.lc = 0 then cut rnd 0 32 else Config.kdf s.fuses.uds (ascii "SES" ++ cut rnd 0 32) 32
      let p : State := { q with sec := { q.sec with
        nboot := cut rnd 0 32, kses := ks, kxts := Config.kdf ks (ascii "XTS") 64, ktag := Config.kdf ks (ascii "TAG") 32 } }
      let bad := fun (t : State) => ({ t with sec := { t.sec with result := 2, statusMode := true } } : State).step4
      (q.lc = 5 → ∀ ok, exec (.bootRomRun c0 c1 rnd ok) s = .next (bad q))
      ∧ (q.lc ≠ 5 → exec (.bootRomRun c0 c1 rnd true) s = .next
        (if p.fwOk c0 = true then (p.startFirmware 0 c0).step4 else if p.fwOk c1 = true then (p.startFirmware 1 c1).step4 else bad p)))
    ∧ (∀ failed, b.step = 4 → b.inReset = false →
      let cs := ((List.range 16).map (16 * b.stands + ·)).filter fun c => failed.contains c || b.tcrFence c
      let t := cs.foldl State.fenceAtBoot s
      exec (.standStart failed) s = .next { t with boot :=
        { t.boot with stands := t.boot.stands + 1, step := if t.boot.stands + 1 = t.var.stands then 5 else 4 } })
    ∧ (b.step = 5 → b.inReset = false → b.tcrOk = true →
      ∃ t : State, exec .timebaseStart s = .next t ∧ t.time = { s.time with running := true, dt := 0, frac := 0 }
        ∧ t.pwr.tmccap = b.tcrCap ∧ t.twin.cfg = regMerge 0 (maskBits 63 0) rwTwinCfg b.tcrTwin ∧ t.boot = { b with step := 6 })
    ∧ (∀ fn, 6 ≤ b.step → b.inReset = false → (s.fnSt fn).ls = 2 → (s.fnSt fn).ready = false →
      let t := s.updFn fn fun f => { f with ready := true, bme := f.bmeNext, cfg := f.cfgNext }
      exec (.functionConfigReady fn) s = .next { t with boot :=
        { b with step := if (s.fnSt (fnOther fn)).ready = true then max 7 b.step else b.step } })
    ∧ (6 ≤ b.step → b.inReset = false → b.store = false → exec .storeReady s = .next ({ s with boot :=
        { b with store := true, tStore := s.dt / 1000 % 2 ^ 32, step := max 8 b.step } } : State).beginAgain)
    ∧ (b.store = true → b.ptp = false → b.inReset = false →
      let t : State := { s with boot := { b with ptp := true, step := max 9 b.step } }
      exec .ptpInstanceStart s = .next
        (if s.var.acts = true ∧ s.twin.mode = 2 ∧ s.twin.link = .down then t.search else t))

/-- R438, R463, R464, R470, R473, R474, R477, R480: what resets the die, what the reset leaves of it, and how the die is released again; what
comes during a hold adds to it and starts no reset, and among sources of one cycle CAUSE is that of the first in R480's order; an input that falls on once the rails are off takes the TMC's supply.
The model's
readings: the watchdog's own clock (log entry 163), power losses (161, 240), the TMC's reasons and the bring-ups that count as ended FATAL
(162, 239), sources of one cycle (241), fuses in programming (132). -/
def Obligations.FullResetsBeginAndEnd : Prop :=
  ∀ (s : State),
    let b := s.boot
    let held := fun (x : Boot) (h : Nat) => ({ x with holds := if x.holds.contains h then x.holds else x.holds ++ [h] } : Boot)
    (∀ n g, (1000 ≤ n ∨ (900 ≤ n ∧ g = true)) → exec (.resetNPulse n g) s = .next (s.fullReset 1 0))
    ∧ (∀ n g, n < 900 → exec (.resetNPulse n g) s = .next s)
    ∧ (∀ n, n ≤ 6 → n ≠ 1 → 3 ≤ b.step → exec (.tmcFullReset n) s = .next (s.fullReset 4 n))
    ∧ (3 ≤ b.step → exec (.tmcFullReset 1) s = .next { s.fullReset 4 1 with boot := held (s.fullReset 4 1).boot 1 })
    ∧ (b.inReset = true → ∀ cause n, s.fullReset cause n =
        (if b.justReset = true ∧ causeRank cause < causeRank b.cause then
          { s with boot := { b with cause := cause, tmcrsn := if cause = 4 then n else 0 } }
         else s))
    ∧ (causeRank 1 < causeRank 4 ∧ causeRank 4 < causeRank 5 ∧ causeRank 5 < causeRank 2 ∧ causeRank 2 < causeRank 3)
    ∧ (b.inReset = false → s.watchdogDue = true → exec .watchdogExpiry s = .next (s.fullReset 5 0))
    ∧ (b.inReset = true → exec .watchdogExpiry s = .next (if b.wdDue then s.fullReset 5 0 else s))
    ∧ (s.watchdogDue = true ↔ 4 ≤ b.step ∧ (b.wdRestart + 250000000 ≤ b.wdNow ∨ 3 ≤ b.wdFails ∨ 3 ≤ b.wdFailsK ∨ 3 ≤ b.wdFailsL
        ∨ (s.ras.asks ≠ [] ∧ s.ras.askAt + 50000000 ≤ b.wdNow)))
    ∧ (b.pg = true → exec .inputUndervoltage s = .next
        { s.fullReset 4 4 with boot := { held (s.fullReset 4 4).boot 2 with pg := false } })
    ∧ (b.pg = true ∨ b.rails ≠ 0 → exec .inputBrownout s = .next
      (let t := s.railsOff;
       { t with boot := { t.boot with pg := false, railWait := false, cause := 4, tmcrsn := 4 } }))
    ∧ (b.pg = false → b.rails = 0 → exec .inputBrownout s = .next { s with boot := { b with cause := 0, tmcrsn := 0 } })
    ∧ (b.rails ≠ 0 ∨ (b.pg = true ∧ b.step ≠ 0) → exec .railFault s = .next
      (let t := s.railsOff;
       { t with boot :=
        { t.boot with
          railFaults := b.railFaults + 1, railWait := b.railFaults == 0 && b.pg, cause := 4, tmcrsn := 5
          tmcEvents := b.tmcEvents ++ [5] } }))
    ∧ (b.inReset = true → b.holds = [] → b.coolOk = true → exec .fullResetRelease s = .next { s with
        boot := { b with inReset := false, tcr := b.tcrBytes }, pio := { s.pio with txOff := false }
        twin := { s.twin with silent := false } })
    ∧ (b.inReset = true → b.holds ≠ [] ∨ b.coolOk = false → exec .fullResetRelease s = .next s)
    ∧ (4 ≤ b.step → b.inReset = false →
      exec .watchdogRestart s = .next { s with boot := { b with wdRestart := b.wdNow } }
      ∧ ∀ x y z, exec (.watchdogProbe x y z) s = .next { s with boot :=
          { b with
            wdFails := if x then 0 else b.wdFails + 1, wdFailsK := if y then 0 else b.wdFailsK + 1
            wdFailsL := if z then 0 else b.wdFailsL + 1 } })
    ∧ exec .tmcRestart s = .next s
    ∧ (b.inReset = false → 3 ≤ b.step → ∀ cause n,
      let t := s.fullReset cause n
      t.cores = [] ∧ t.knl = { store := s.knl.store } ∧ t.boot.wdDue = s.watchdogDue ∧ t.loop = {} ∧ t.sched = {} ∧ t.tly = {} ∧ t.ras = {} ∧ t.time = {} ∧ t.yrd = {}
      ∧ t.hif.holder = none ∧ t.hif.rings = [] ∧ t.hif.eqs = [] ∧ t.boot.inReset = true ∧ t.boot.step = 3 ∧ t.boot.cause = cause
      ∧ t.boot.tmcrsn = (if cause = 4 then n else 0)
      ∧ (let fatal := (cause = 4 ∧ n = 2) ∨ (cause = 5 ∧ ∃ x, (0x0B, x) ∈ s.ras.asks)
        let up := b.step = 10 ∨ (b.step = 9 ∧ s.twin.link ≠ .search)
        (fatal → ¬ up → t.boot.fatalRuns = b.fatalRuns + 1) ∧ (¬ fatal ∨ up → t.boot.fatalRuns = 0)
        ∧ t.boot.holds = if 3 ≤ t.boot.fatalRuns then [3] else [])
      ∧ t.pio.txOff = true ∧ t.twin.silent = true ∧ t.hif.a.mem = s.hif.a.mem ∧ t.hif.b.mem = s.hif.b.mem
      ∧ (s.sec.fuseJob = none → t.fuses = s.fuses) ∧ t.sec.sensed = s.sec.sensed ∧ t.pending = s.pending)

/-! ### The tray as a whole -/

/-- A step carries out the command at the front of the queue with the queue's rest. With nothing in the queue a cycle of the timebase passes
once it runs: DT advances, a PPS edge whose ns has passed takes its servo step, a grid instant that DT passes is frozen, and the frames of the
receive rings whose end has passed are written. The watchdog's clock runs from the release of the die on (R477). That these come in a step of
their own, and the watchdog's clock, are the model's choices (log entries 6, 163). -/
def Obligations.StepRunsTheFrontCommand : Prop :=
  ∀ (s : State),
    (∀ c rest, step { s with pending := c :: rest } = exec c { s with pending := rest })
    ∧ (s.pending = [] → s.time.running = false → step s = .next s.tickDie)
    ∧ s.tickDie = { s with boot := { s.boot with
        justReset := false, wdNow := if s.boot.inReset = true ∨ s.boot.step < 3 then s.boot.wdNow else s.boot.wdNow + 1 } }
    ∧ (s.pending = [] → s.time.running = true →
      let u : State := { s.tickDie with time := s.time.tick.settle }
      step s = .next (match u.gridPassed s.dt with
        | some p => (u.freezeAt p.1 p.2).ringsFlush
        | none => u.ringsFlush))

/-- What the state after reset holds. That it is the die just released after power-on, with the fuses of log entry 2, is the model's choice
(log entries 1 to 4). -/
def Obligations.ResetLeavesTheTrayIdle : Prop :=
  State.reset.memsOk = true ∧ State.reset.tabsOk = true ∧ State.reset.pending = []
  ∧ (∀ a, State.reset.rd a = 0) ∧ (∀ c k r, (State.reset.slot c k).reg r = 0) ∧ (∀ k, State.reset.tallyVal k = 0)
  ∧ (∀ d r, (State.reset.ring d r).en = false ∧ (State.reset.ring d r).cur = none) ∧ (∀ d q, (State.reset.evq d q).en = false)
  ∧ (∀ n, (State.reset.chan n).st = .disabled) ∧ (∀ n, (State.reset.loopSlot n).st = .disabled)
  ∧ State.reset.hif.holder = none ∧ State.reset.loop.auth = false ∧ State.reset.twin.ast = .off ∧ State.reset.twin.link = .down
  ∧ State.reset.sec.sessions = [] ∧ State.reset.sec.nonce = none ∧ State.reset.ras.queue = [] ∧ State.reset.sched.tasks = []
  ∧ State.reset.boot.step = 3 ∧ State.reset.boot.inReset = false

/-- Every command that names units of this tray is carried out: none faults and none is refused. That a row whose condition does not hold
leaves the state as it is, and a unit that another variant has takes no effect, are the model's choices (log entries 7, 11). -/
def Obligations.WellFormedCommandsComplete : Prop :=
  ∀ (i : Instr) (s : State), i.wf s.var.cores = true → ∃ t, exec i s = .next t

/-- Every step keeps the memories of the tray and of its hosts in canonical form: addresses strictly rising and no entry equal to what an
unlisted address reads as. Every step keeps all other tables of the state in that form too: register files, staging windows, operand buffers,
maps, queues, counters. R17: SEC_SETUP.LOCK, once set, stays set on every step but one with which the die is reset: a full reset, or the
loss of its rails. -/
def Obligations.StepsKeepMemoriesCanonical : Prop :=
  (∀ (s t : State), s.memsOk = true → step s = .next t → t.memsOk = true)
  ∧ (∀ (s t : State), s.tabsOk = true → step s = .next t → t.tabsOk = true)
  ∧ (∀ (s t : State), s.sec.lock = true → step s = .next t →
    t.sec.lock = true ∨ (t.cores = [] ∧ t.sec.sessions = [] ∧ (t.boot.inReset = true ∨ t.boot.step < 3)))
end

