-- ==== Sys2Proof/Laws/Tab.lean ====
section
/-!
SUPPORT. The laws of sparse tables: a read after a write, and every operation keeps the canonical form. The canonical form is also said
as `Tab.Above`, which induction handles.
-/

namespace Sys2Proof.Machine

/-- Every key of a table is at least `b`, the keys rise strictly, and no value is the default. -/
def Tab.Above {α : Type} (d : α) : Nat → Tab α → Prop
  | _, [] => True
  | b, (k, v) :: t => b ≤ k ∧ v ≠ d ∧ Tab.Above d (k + 1) t

variable {α : Type} [DecidableEq α] {d : α}

omit [DecidableEq α] in
theorem Tab.Above.mono {b b' : Nat} (h : b' ≤ b) : ∀ {t : Tab α}, Tab.Above d b t → Tab.Above d b' t
  | [], _ => trivial
  | (_, _) :: _, ⟨h1, h2⟩ => ⟨h.trans h1, h2⟩

theorem Tab.wf_cons_iff {k : Nat} {v : α} {t : Tab α} : Tab.wf d ((k, v) :: t) = true ↔ v ≠ d ∧ Tab.Above d (k + 1) t := by
  induction t generalizing k v with
  | nil => simp [Tab.wf, Tab.Above]
  | cons p t ih =>
    obtain ⟨k', v'⟩ := p
    simp only [Tab.wf, Bool.and_eq_true, decide_eq_true_eq, ih, Tab.Above, Nat.succ_le_iff]
    tauto

/-- The canonical form, as a property that induction handles. -/
theorem Tab.wf_iff {t : Tab α} : Tab.wf d t = true ↔ Tab.Above d 0 t := by
  cases t with
  | nil => simp [Tab.wf, Tab.Above]
  | cons p t => obtain ⟨k, v⟩ := p; simp [Tab.wf_cons_iff, Tab.Above]

omit [DecidableEq α] in
theorem Tab.get_below {t : Tab α} {b i : Nat} (h : Tab.Above d b t) (hi : i < b) : Tab.get d t i = d := by
  induction t generalizing b with
  | nil => rfl
  | cons p t ih =>
    obtain ⟨k, v⟩ := p
    obtain ⟨hk, -, ht⟩ := h
    have : i ≠ k := by omega
    simp only [Tab.get, if_neg this]
    exact ih ht (by omega)

theorem Tab.Above.set {t : Tab α} {b i : Nat} (x : α) (h : Tab.Above d b t) (hi : b ≤ i) : Tab.Above d b (Tab.set d t i x) := by
  induction t generalizing b with
  | nil => by_cases hx : x = d <;> simp [Tab.set, hx, Tab.Above, hi]
  | cons p t ih =>
    obtain ⟨k, v⟩ := p
    obtain ⟨hk, hv, ht⟩ := h
    simp only [Tab.set]
    split_ifs with h1 h2 h3 h4
    · exact ⟨hk, hv, ht⟩
    · exact ⟨hi, h2, by omega, hv, ht⟩
    · exact ht.mono (by omega)
    · exact ⟨hi, h4, h3 ▸ ht⟩
    · exact ⟨hk, hv, ih ht (by omega)⟩

/-- A write keeps the canonical form. -/
theorem Tab.wf_set {t : Tab α} (h : Tab.wf d t = true) (i : Nat) (x : α) : Tab.wf d (Tab.set d t i x) = true :=
  Tab.wf_iff.2 ((Tab.wf_iff.1 h).set x (Nat.zero_le i))

theorem Tab.wf_upd {t : Tab α} (h : Tab.wf d t = true) (i : Nat) (f : α → α) : Tab.wf d (Tab.upd d t i f) = true :=
  Tab.wf_set h i _

theorem Tab.get_set_above {t : Tab α} {b i j : Nat} {x : α} (h : Tab.Above d b t) :
    Tab.get d (Tab.set d t i x) j = if j = i then x else Tab.get d t j := by
  induction t generalizing b with
  | nil => by_cases hx : x = d <;> simp +contextual [Tab.set, hx, Tab.get]
  | cons p t ih =>
    obtain ⟨k, v⟩ := p
    obtain ⟨hk, hv, ht⟩ := h
    have hlow : ∀ l, l ≤ k → Tab.get d t l = d := fun l hl => Tab.get_below ht (by omega)
    rcases lt_trichotomy i k with hik | rfl | hik
    · by_cases hx : x = d
      · by_cases hj : j = i
        · subst hj; simp [Tab.set, hik, hx, Tab.get, hik.ne, hlow j hik.le]
        · simp [Tab.set, hik, hx, hj]
      · simp [Tab.set, hik, hx, Tab.get]
    · by_cases hx : x = d
      · by_cases hj : j = i
        · subst hj; simp [Tab.set, hx, hlow j le_rfl]
        · simp [Tab.set, hx, hj, Tab.get]
      · by_cases hj : j = i <;> simp [Tab.set, hx, hj, Tab.get]
    · have h1 : ¬ i < k := by omega
      have h2 : ¬ i = k := by omega
      simp only [Tab.set, if_neg h1, if_neg h2, Tab.get, ih ht]
      by_cases hj : j = k
      · have : ¬ j = i := by omega
        rw [if_pos hj, if_neg this, if_pos hj]
      · rw [if_neg hj, if_neg hj]

/-- A read after a write: the value written at its key, what was there at every other key. -/
theorem Tab.get_set {t : Tab α} (h : Tab.wf d t = true) (i j : Nat) (x : α) :
    Tab.get d (Tab.set d t i x) j = if j = i then x else Tab.get d t j := Tab.get_set_above (Tab.wf_iff.1 h)

theorem Tab.get_set_self {t : Tab α} (h : Tab.wf d t = true) (i : Nat) (x : α) : Tab.get d (Tab.set d t i x) i = x := by
  rw [Tab.get_set h, if_pos rfl]

theorem Tab.get_set_ne {t : Tab α} (h : Tab.wf d t = true) {i j : Nat} (hj : j ≠ i) (x : α) :
    Tab.get d (Tab.set d t i x) j = Tab.get d t j := by rw [Tab.get_set h, if_neg hj]

theorem Tab.get_upd {t : Tab α} (h : Tab.wf d t = true) (i j : Nat) (f : α → α) :
    Tab.get d (Tab.upd d t i f) j = if j = i then f (Tab.get d t i) else Tab.get d t j := Tab.get_set h i j _

theorem Tab.Above.filterMap {t : Tab α} {b : Nat} (f : Nat → α → α) (h : Tab.Above d b t) : Tab.Above d b (Tab.mapAll d t f) := by
  induction t generalizing b with
  | nil => trivial
  | cons p t ih =>
    obtain ⟨k, v⟩ := p
    obtain ⟨hk, hv, ht⟩ := h
    have := ih ht
    simp only [Tab.mapAll, List.filterMap_cons] at this ⊢
    split_ifs with hx
    · exact this.mono (by omega)
    · exact ⟨hk, hx, this⟩

/-- Changing every listed entry keeps the canonical form. -/
theorem Tab.wf_mapAll {t : Tab α} (h : Tab.wf d t = true) (f : Nat → α → α) : Tab.wf d (Tab.mapAll d t f) = true :=
  Tab.wf_iff.2 ((Tab.wf_iff.1 h).filterMap f)

/-- A read after changing every entry by a function that keeps the default. -/
theorem Tab.get_mapAll {t : Tab α} (f : Nat → α → α) (hf : ∀ i, f i d = d) (h : Tab.wf d t = true) (j : Nat) :
    Tab.get d (Tab.mapAll d t f) j = f j (Tab.get d t j) := by
  replace h := Tab.wf_iff.1 h
  revert h
  generalize 0 = b
  intro h
  induction t generalizing b with
  | nil => simp [Tab.mapAll, Tab.get, hf]
  | cons p t ih =>
    obtain ⟨k, v⟩ := p
    obtain ⟨hk, hv, ht⟩ := h
    have e := ih _ ht
    simp only [Tab.mapAll, List.filterMap_cons] at e ⊢
    by_cases hj : j = k
    · subst hj
      have hz : Tab.get d t j = d := Tab.get_below ht (Nat.lt_succ_self j)
      split_ifs with hx
      · rw [e, hz, hf]; simp [Tab.get, hx]
      · simp [Tab.get]
    · split_ifs with hx
      · rw [e]; simp [Tab.get, hj]
      · simp only [Tab.get, if_neg hj]; exact e

omit [DecidableEq α] in
theorem Tab.Above.filter {t : Tab α} {b : Nat} (p : Nat × α → Bool) (h : Tab.Above d b t) : Tab.Above d b (t.filter p) := by
  induction t generalizing b with
  | nil => trivial
  | cons q t ih =>
    obtain ⟨k, v⟩ := q
    obtain ⟨hk, hv, ht⟩ := h
    simp only [List.filter_cons]
    split_ifs
    · exact ⟨hk, hv, ih ht⟩
    · exact (ih ht).mono (by omega)

/-- Dropping entries keeps the canonical form. -/
theorem Tab.wf_filter {t : Tab α} (h : Tab.wf d t = true) (p : Nat × α → Bool) : Tab.wf d (t.filter p) = true :=
  Tab.wf_iff.2 ((Tab.wf_iff.1 h).filter p)

/-- A read after dropping the entries of some keys. -/
theorem Tab.get_filter {t : Tab α} (h : Tab.wf d t = true) (p : Nat → Bool) (j : Nat) :
    Tab.get d (t.filter fun q => p q.1) j = if p j then Tab.get d t j else d := by
  replace h := Tab.wf_iff.1 h
  revert h
  generalize 0 = b
  intro h
  induction t generalizing b with
  | nil => simp [Tab.get]
  | cons q t ih =>
    obtain ⟨k, v⟩ := q
    obtain ⟨hk, hv, ht⟩ := h
    have e := ih _ ht
    by_cases hj : j = k
    · subst hj
      have hz : Tab.get d t j = d := Tab.get_below ht (Nat.lt_succ_self j)
      cases hp : p j
      · rw [List.filter_cons_of_neg (by simpa using hp), e]; simp [hp]
      · rw [List.filter_cons_of_pos (by simpa using hp)]; simp [Tab.get]
    · cases hp : p k
      · rw [List.filter_cons_of_neg (by simpa using hp), e]; simp [Tab.get, hj]
      · rw [List.filter_cons_of_pos (by simpa using hp)]; simp only [Tab.get, if_neg hj]; exact e

/-- Tables of equal reads are equal: the form is canonical. -/
theorem Tab.ext_get {t u : Tab α} (ht : Tab.wf d t = true) (hu : Tab.wf d u = true) (h : ∀ i, Tab.get d t i = Tab.get d u i) : t = u := by
  replace ht := Tab.wf_iff.1 ht
  replace hu := Tab.wf_iff.1 hu
  revert ht hu
  generalize 0 = b
  intro ht hu
  induction t generalizing b u with
  | nil =>
    cases u with
    | nil => rfl
    | cons q u => have := h q.1; simp [Tab.get] at this; exact absurd this.symm hu.2.1
  | cons p t ih =>
    obtain ⟨k, v⟩ := p
    cases u with
    | nil => have := h k; simp [Tab.get] at this; exact absurd this ht.2.1
    | cons q u =>
      obtain ⟨k', v'⟩ := q
      obtain ⟨hk, hv, ht⟩ := ht
      obtain ⟨hk', hv', hu⟩ := hu
      have hkk : k = k' := by
        rcases lt_trichotomy k k' with hlt | he | hlt
        · have := h k
          rw [Tab.get_below (b := k') (t := (k', v') :: u) ⟨le_rfl, hv', hu⟩ hlt] at this
          simp [Tab.get] at this
          exact absurd this hv
        · exact he
        · have := h k'
          rw [Tab.get_below (b := k) (t := (k, v) :: t) ⟨le_rfl, hv, ht⟩ hlt] at this
          simp [Tab.get] at this
          exact absurd this.symm hv'
      subst hkk
      have hvv : v = v' := by have := h k; simpa [Tab.get] using this
      subst hvv
      congr 1
      refine ih (b := k + 1) ?_ ht hu
      intro i
      by_cases hi : i = k
      · subst hi; rw [Tab.get_below ht (Nat.lt_succ_self i), Tab.get_below hu (Nat.lt_succ_self i)]
      · have := h i; simpa [Tab.get, hi] using this

end Sys2Proof.Machine
end

