-- ==== Sys2Proof/Laws/State.lean ====
section
/-!
SUPPORT. What each update of one unit changes and leaves, field by field; and the reads of a unit after it is changed.
-/

namespace Sys2Proof.Machine

variable (s : State)

/-! ### updCore -/

@[simp] theorem State.updCore_pending (c : Nat) (f : Core → Core) : (s.updCore c f).pending = s.pending := rfl
@[simp] theorem State.updCore_freeCtr (c : Nat) (f : Core → Core) : (s.updCore c f).freeCtr = s.freeCtr := rfl
@[simp] theorem State.updCore_id (c : Nat) (f : Core → Core) : (s.updCore c f).id = s.id := rfl
@[simp] theorem State.updCore_fuses (c : Nat) (f : Core → Core) : (s.updCore c f).fuses = s.fuses := rfl
@[simp] theorem State.updCore_time (c : Nat) (f : Core → Core) : (s.updCore c f).time = s.time := rfl
@[simp] theorem State.updCore_hif (c : Nat) (f : Core → Core) : (s.updCore c f).hif = s.hif := rfl
@[simp] theorem State.updCore_sched (c : Nat) (f : Core → Core) : (s.updCore c f).sched = s.sched := rfl
@[simp] theorem State.updCore_yard (c : Nat) (f : Core → Core) : (s.updCore c f).yard = s.yard := rfl
@[simp] theorem State.updCore_mesh (c : Nat) (f : Core → Core) : (s.updCore c f).mesh = s.mesh := rfl
@[simp] theorem State.updCore_knl (c : Nat) (f : Core → Core) : (s.updCore c f).knl = s.knl := rfl
@[simp] theorem State.updCore_tly (c : Nat) (f : Core → Core) : (s.updCore c f).tly = s.tly := rfl
@[simp] theorem State.updCore_yrd (c : Nat) (f : Core → Core) : (s.updCore c f).yrd = s.yrd := rfl
@[simp] theorem State.updCore_loop (c : Nat) (f : Core → Core) : (s.updCore c f).loop = s.loop := rfl
@[simp] theorem State.updCore_pio (c : Nat) (f : Core → Core) : (s.updCore c f).pio = s.pio := rfl
@[simp] theorem State.updCore_sec (c : Nat) (f : Core → Core) : (s.updCore c f).sec = s.sec := rfl
@[simp] theorem State.updCore_pwr (c : Nat) (f : Core → Core) : (s.updCore c f).pwr = s.pwr := rfl
@[simp] theorem State.updCore_ras (c : Nat) (f : Core → Core) : (s.updCore c f).ras = s.ras := rfl
@[simp] theorem State.updCore_twin (c : Nat) (f : Core → Core) : (s.updCore c f).twin = s.twin := rfl
@[simp] theorem State.updCore_boot (c : Nat) (f : Core → Core) : (s.updCore c f).boot = s.boot := rfl

/-! ### updSlot -/

@[simp] theorem State.updSlot_pending (c k : Nat) (f : Slot → Slot) : (s.updSlot c k f).pending = s.pending := rfl
@[simp] theorem State.updSlot_freeCtr (c k : Nat) (f : Slot → Slot) : (s.updSlot c k f).freeCtr = s.freeCtr := rfl
@[simp] theorem State.updSlot_id (c k : Nat) (f : Slot → Slot) : (s.updSlot c k f).id = s.id := rfl
@[simp] theorem State.updSlot_fuses (c k : Nat) (f : Slot → Slot) : (s.updSlot c k f).fuses = s.fuses := rfl
@[simp] theorem State.updSlot_time (c k : Nat) (f : Slot → Slot) : (s.updSlot c k f).time = s.time := rfl
@[simp] theorem State.updSlot_hif (c k : Nat) (f : Slot → Slot) : (s.updSlot c k f).hif = s.hif := rfl
@[simp] theorem State.updSlot_sched (c k : Nat) (f : Slot → Slot) : (s.updSlot c k f).sched = s.sched := rfl
@[simp] theorem State.updSlot_yard (c k : Nat) (f : Slot → Slot) : (s.updSlot c k f).yard = s.yard := rfl
@[simp] theorem State.updSlot_mesh (c k : Nat) (f : Slot → Slot) : (s.updSlot c k f).mesh = s.mesh := rfl
@[simp] theorem State.updSlot_knl (c k : Nat) (f : Slot → Slot) : (s.updSlot c k f).knl = s.knl := rfl
@[simp] theorem State.updSlot_tly (c k : Nat) (f : Slot → Slot) : (s.updSlot c k f).tly = s.tly := rfl
@[simp] theorem State.updSlot_yrd (c k : Nat) (f : Slot → Slot) : (s.updSlot c k f).yrd = s.yrd := rfl
@[simp] theorem State.updSlot_loop (c k : Nat) (f : Slot → Slot) : (s.updSlot c k f).loop = s.loop := rfl
@[simp] theorem State.updSlot_pio (c k : Nat) (f : Slot → Slot) : (s.updSlot c k f).pio = s.pio := rfl
@[simp] theorem State.updSlot_sec (c k : Nat) (f : Slot → Slot) : (s.updSlot c k f).sec = s.sec := rfl
@[simp] theorem State.updSlot_pwr (c k : Nat) (f : Slot → Slot) : (s.updSlot c k f).pwr = s.pwr := rfl
@[simp] theorem State.updSlot_ras (c k : Nat) (f : Slot → Slot) : (s.updSlot c k f).ras = s.ras := rfl
@[simp] theorem State.updSlot_twin (c k : Nat) (f : Slot → Slot) : (s.updSlot c k f).twin = s.twin := rfl
@[simp] theorem State.updSlot_boot (c k : Nat) (f : Slot → Slot) : (s.updSlot c k f).boot = s.boot := rfl

/-! ### updOwner -/

@[simp] theorem State.updOwner_pending (c : Nat) (f : CoreOwn → CoreOwn) : (s.updOwner c f).pending = s.pending := rfl
@[simp] theorem State.updOwner_freeCtr (c : Nat) (f : CoreOwn → CoreOwn) : (s.updOwner c f).freeCtr = s.freeCtr := rfl
@[simp] theorem State.updOwner_id (c : Nat) (f : CoreOwn → CoreOwn) : (s.updOwner c f).id = s.id := rfl
@[simp] theorem State.updOwner_fuses (c : Nat) (f : CoreOwn → CoreOwn) : (s.updOwner c f).fuses = s.fuses := rfl
@[simp] theorem State.updOwner_time (c : Nat) (f : CoreOwn → CoreOwn) : (s.updOwner c f).time = s.time := rfl
@[simp] theorem State.updOwner_hif (c : Nat) (f : CoreOwn → CoreOwn) : (s.updOwner c f).hif = s.hif := rfl
@[simp] theorem State.updOwner_cores (c : Nat) (f : CoreOwn → CoreOwn) : (s.updOwner c f).cores = s.cores := rfl
@[simp] theorem State.updOwner_yard (c : Nat) (f : CoreOwn → CoreOwn) : (s.updOwner c f).yard = s.yard := rfl
@[simp] theorem State.updOwner_mesh (c : Nat) (f : CoreOwn → CoreOwn) : (s.updOwner c f).mesh = s.mesh := rfl
@[simp] theorem State.updOwner_knl (c : Nat) (f : CoreOwn → CoreOwn) : (s.updOwner c f).knl = s.knl := rfl
@[simp] theorem State.updOwner_tly (c : Nat) (f : CoreOwn → CoreOwn) : (s.updOwner c f).tly = s.tly := rfl
@[simp] theorem State.updOwner_yrd (c : Nat) (f : CoreOwn → CoreOwn) : (s.updOwner c f).yrd = s.yrd := rfl
@[simp] theorem State.updOwner_loop (c : Nat) (f : CoreOwn → CoreOwn) : (s.updOwner c f).loop = s.loop := rfl
@[simp] theorem State.updOwner_pio (c : Nat) (f : CoreOwn → CoreOwn) : (s.updOwner c f).pio = s.pio := rfl
@[simp] theorem State.updOwner_sec (c : Nat) (f : CoreOwn → CoreOwn) : (s.updOwner c f).sec = s.sec := rfl
@[simp] theorem State.updOwner_pwr (c : Nat) (f : CoreOwn → CoreOwn) : (s.updOwner c f).pwr = s.pwr := rfl
@[simp] theorem State.updOwner_ras (c : Nat) (f : CoreOwn → CoreOwn) : (s.updOwner c f).ras = s.ras := rfl
@[simp] theorem State.updOwner_twin (c : Nat) (f : CoreOwn → CoreOwn) : (s.updOwner c f).twin = s.twin := rfl
@[simp] theorem State.updOwner_boot (c : Nat) (f : CoreOwn → CoreOwn) : (s.updOwner c f).boot = s.boot := rfl

/-! ### updGran -/

@[simp] theorem State.updGran_pending (g : Nat) (f : GranOwn → GranOwn) : (s.updGran g f).pending = s.pending := rfl
@[simp] theorem State.updGran_freeCtr (g : Nat) (f : GranOwn → GranOwn) : (s.updGran g f).freeCtr = s.freeCtr := rfl
@[simp] theorem State.updGran_id (g : Nat) (f : GranOwn → GranOwn) : (s.updGran g f).id = s.id := rfl
@[simp] theorem State.updGran_fuses (g : Nat) (f : GranOwn → GranOwn) : (s.updGran g f).fuses = s.fuses := rfl
@[simp] theorem State.updGran_time (g : Nat) (f : GranOwn → GranOwn) : (s.updGran g f).time = s.time := rfl
@[simp] theorem State.updGran_hif (g : Nat) (f : GranOwn → GranOwn) : (s.updGran g f).hif = s.hif := rfl
@[simp] theorem State.updGran_cores (g : Nat) (f : GranOwn → GranOwn) : (s.updGran g f).cores = s.cores := rfl
@[simp] theorem State.updGran_yard (g : Nat) (f : GranOwn → GranOwn) : (s.updGran g f).yard = s.yard := rfl
@[simp] theorem State.updGran_mesh (g : Nat) (f : GranOwn → GranOwn) : (s.updGran g f).mesh = s.mesh := rfl
@[simp] theorem State.updGran_knl (g : Nat) (f : GranOwn → GranOwn) : (s.updGran g f).knl = s.knl := rfl
@[simp] theorem State.updGran_tly (g : Nat) (f : GranOwn → GranOwn) : (s.updGran g f).tly = s.tly := rfl
@[simp] theorem State.updGran_yrd (g : Nat) (f : GranOwn → GranOwn) : (s.updGran g f).yrd = s.yrd := rfl
@[simp] theorem State.updGran_loop (g : Nat) (f : GranOwn → GranOwn) : (s.updGran g f).loop = s.loop := rfl
@[simp] theorem State.updGran_pio (g : Nat) (f : GranOwn → GranOwn) : (s.updGran g f).pio = s.pio := rfl
@[simp] theorem State.updGran_sec (g : Nat) (f : GranOwn → GranOwn) : (s.updGran g f).sec = s.sec := rfl
@[simp] theorem State.updGran_pwr (g : Nat) (f : GranOwn → GranOwn) : (s.updGran g f).pwr = s.pwr := rfl
@[simp] theorem State.updGran_ras (g : Nat) (f : GranOwn → GranOwn) : (s.updGran g f).ras = s.ras := rfl
@[simp] theorem State.updGran_twin (g : Nat) (f : GranOwn → GranOwn) : (s.updGran g f).twin = s.twin := rfl
@[simp] theorem State.updGran_boot (g : Nat) (f : GranOwn → GranOwn) : (s.updGran g f).boot = s.boot := rfl

/-! ### updJob -/

@[simp] theorem State.updJob_pending (j : Nat) (f : Job → Job) : (s.updJob j f).pending = s.pending := rfl
@[simp] theorem State.updJob_freeCtr (j : Nat) (f : Job → Job) : (s.updJob j f).freeCtr = s.freeCtr := rfl
@[simp] theorem State.updJob_id (j : Nat) (f : Job → Job) : (s.updJob j f).id = s.id := rfl
@[simp] theorem State.updJob_fuses (j : Nat) (f : Job → Job) : (s.updJob j f).fuses = s.fuses := rfl
@[simp] theorem State.updJob_time (j : Nat) (f : Job → Job) : (s.updJob j f).time = s.time := rfl
@[simp] theorem State.updJob_hif (j : Nat) (f : Job → Job) : (s.updJob j f).hif = s.hif := rfl
@[simp] theorem State.updJob_cores (j : Nat) (f : Job → Job) : (s.updJob j f).cores = s.cores := rfl
@[simp] theorem State.updJob_yard (j : Nat) (f : Job → Job) : (s.updJob j f).yard = s.yard := rfl
@[simp] theorem State.updJob_mesh (j : Nat) (f : Job → Job) : (s.updJob j f).mesh = s.mesh := rfl
@[simp] theorem State.updJob_knl (j : Nat) (f : Job → Job) : (s.updJob j f).knl = s.knl := rfl
@[simp] theorem State.updJob_tly (j : Nat) (f : Job → Job) : (s.updJob j f).tly = s.tly := rfl
@[simp] theorem State.updJob_yrd (j : Nat) (f : Job → Job) : (s.updJob j f).yrd = s.yrd := rfl
@[simp] theorem State.updJob_loop (j : Nat) (f : Job → Job) : (s.updJob j f).loop = s.loop := rfl
@[simp] theorem State.updJob_pio (j : Nat) (f : Job → Job) : (s.updJob j f).pio = s.pio := rfl
@[simp] theorem State.updJob_sec (j : Nat) (f : Job → Job) : (s.updJob j f).sec = s.sec := rfl
@[simp] theorem State.updJob_pwr (j : Nat) (f : Job → Job) : (s.updJob j f).pwr = s.pwr := rfl
@[simp] theorem State.updJob_ras (j : Nat) (f : Job → Job) : (s.updJob j f).ras = s.ras := rfl
@[simp] theorem State.updJob_twin (j : Nat) (f : Job → Job) : (s.updJob j f).twin = s.twin := rfl
@[simp] theorem State.updJob_boot (j : Nat) (f : Job → Job) : (s.updJob j f).boot = s.boot := rfl

/-! ### updTask -/

@[simp] theorem State.updTask_pending (u : Nat) (f : Task → Task) : (s.updTask u f).pending = s.pending := rfl
@[simp] theorem State.updTask_freeCtr (u : Nat) (f : Task → Task) : (s.updTask u f).freeCtr = s.freeCtr := rfl
@[simp] theorem State.updTask_id (u : Nat) (f : Task → Task) : (s.updTask u f).id = s.id := rfl
@[simp] theorem State.updTask_fuses (u : Nat) (f : Task → Task) : (s.updTask u f).fuses = s.fuses := rfl
@[simp] theorem State.updTask_time (u : Nat) (f : Task → Task) : (s.updTask u f).time = s.time := rfl
@[simp] theorem State.updTask_hif (u : Nat) (f : Task → Task) : (s.updTask u f).hif = s.hif := rfl
@[simp] theorem State.updTask_cores (u : Nat) (f : Task → Task) : (s.updTask u f).cores = s.cores := rfl
@[simp] theorem State.updTask_yard (u : Nat) (f : Task → Task) : (s.updTask u f).yard = s.yard := rfl
@[simp] theorem State.updTask_mesh (u : Nat) (f : Task → Task) : (s.updTask u f).mesh = s.mesh := rfl
@[simp] theorem State.updTask_knl (u : Nat) (f : Task → Task) : (s.updTask u f).knl = s.knl := rfl
@[simp] theorem State.updTask_tly (u : Nat) (f : Task → Task) : (s.updTask u f).tly = s.tly := rfl
@[simp] theorem State.updTask_yrd (u : Nat) (f : Task → Task) : (s.updTask u f).yrd = s.yrd := rfl
@[simp] theorem State.updTask_loop (u : Nat) (f : Task → Task) : (s.updTask u f).loop = s.loop := rfl
@[simp] theorem State.updTask_pio (u : Nat) (f : Task → Task) : (s.updTask u f).pio = s.pio := rfl
@[simp] theorem State.updTask_sec (u : Nat) (f : Task → Task) : (s.updTask u f).sec = s.sec := rfl
@[simp] theorem State.updTask_pwr (u : Nat) (f : Task → Task) : (s.updTask u f).pwr = s.pwr := rfl
@[simp] theorem State.updTask_ras (u : Nat) (f : Task → Task) : (s.updTask u f).ras = s.ras := rfl
@[simp] theorem State.updTask_twin (u : Nat) (f : Task → Task) : (s.updTask u f).twin = s.twin := rfl
@[simp] theorem State.updTask_boot (u : Nat) (f : Task → Task) : (s.updTask u f).boot = s.boot := rfl

/-! ### updChan -/

@[simp] theorem State.updChan_pending (n : Nat) (f : Chan → Chan) : (s.updChan n f).pending = s.pending := rfl
@[simp] theorem State.updChan_freeCtr (n : Nat) (f : Chan → Chan) : (s.updChan n f).freeCtr = s.freeCtr := rfl
@[simp] theorem State.updChan_id (n : Nat) (f : Chan → Chan) : (s.updChan n f).id = s.id := rfl
@[simp] theorem State.updChan_fuses (n : Nat) (f : Chan → Chan) : (s.updChan n f).fuses = s.fuses := rfl
@[simp] theorem State.updChan_time (n : Nat) (f : Chan → Chan) : (s.updChan n f).time = s.time := rfl
@[simp] theorem State.updChan_hif (n : Nat) (f : Chan → Chan) : (s.updChan n f).hif = s.hif := rfl
@[simp] theorem State.updChan_sched (n : Nat) (f : Chan → Chan) : (s.updChan n f).sched = s.sched := rfl
@[simp] theorem State.updChan_cores (n : Nat) (f : Chan → Chan) : (s.updChan n f).cores = s.cores := rfl
@[simp] theorem State.updChan_yard (n : Nat) (f : Chan → Chan) : (s.updChan n f).yard = s.yard := rfl
@[simp] theorem State.updChan_mesh (n : Nat) (f : Chan → Chan) : (s.updChan n f).mesh = s.mesh := rfl
@[simp] theorem State.updChan_knl (n : Nat) (f : Chan → Chan) : (s.updChan n f).knl = s.knl := rfl
@[simp] theorem State.updChan_tly (n : Nat) (f : Chan → Chan) : (s.updChan n f).tly = s.tly := rfl
@[simp] theorem State.updChan_loop (n : Nat) (f : Chan → Chan) : (s.updChan n f).loop = s.loop := rfl
@[simp] theorem State.updChan_pio (n : Nat) (f : Chan → Chan) : (s.updChan n f).pio = s.pio := rfl
@[simp] theorem State.updChan_sec (n : Nat) (f : Chan → Chan) : (s.updChan n f).sec = s.sec := rfl
@[simp] theorem State.updChan_pwr (n : Nat) (f : Chan → Chan) : (s.updChan n f).pwr = s.pwr := rfl
@[simp] theorem State.updChan_ras (n : Nat) (f : Chan → Chan) : (s.updChan n f).ras = s.ras := rfl
@[simp] theorem State.updChan_twin (n : Nat) (f : Chan → Chan) : (s.updChan n f).twin = s.twin := rfl
@[simp] theorem State.updChan_boot (n : Nat) (f : Chan → Chan) : (s.updChan n f).boot = s.boot := rfl

/-! ### updLoop -/

@[simp] theorem State.updLoop_pending (n : Nat) (f : LoopSlot → LoopSlot) : (s.updLoop n f).pending = s.pending := rfl
@[simp] theorem State.updLoop_freeCtr (n : Nat) (f : LoopSlot → LoopSlot) : (s.updLoop n f).freeCtr = s.freeCtr := rfl
@[simp] theorem State.updLoop_id (n : Nat) (f : LoopSlot → LoopSlot) : (s.updLoop n f).id = s.id := rfl
@[simp] theorem State.updLoop_fuses (n : Nat) (f : LoopSlot → LoopSlot) : (s.updLoop n f).fuses = s.fuses := rfl
@[simp] theorem State.updLoop_time (n : Nat) (f : LoopSlot → LoopSlot) : (s.updLoop n f).time = s.time := rfl
@[simp] theorem State.updLoop_hif (n : Nat) (f : LoopSlot → LoopSlot) : (s.updLoop n f).hif = s.hif := rfl
@[simp] theorem State.updLoop_sched (n : Nat) (f : LoopSlot → LoopSlot) : (s.updLoop n f).sched = s.sched := rfl
@[simp] theorem State.updLoop_cores (n : Nat) (f : LoopSlot → LoopSlot) : (s.updLoop n f).cores = s.cores := rfl
@[simp] theorem State.updLoop_yard (n : Nat) (f : LoopSlot → LoopSlot) : (s.updLoop n f).yard = s.yard := rfl
@[simp] theorem State.updLoop_mesh (n : Nat) (f : LoopSlot → LoopSlot) : (s.updLoop n f).mesh = s.mesh := rfl
@[simp] theorem State.updLoop_knl (n : Nat) (f : LoopSlot → LoopSlot) : (s.updLoop n f).knl = s.knl := rfl
@[simp] theorem State.updLoop_tly (n : Nat) (f : LoopSlot → LoopSlot) : (s.updLoop n f).tly = s.tly := rfl
@[simp] theorem State.updLoop_yrd (n : Nat) (f : LoopSlot → LoopSlot) : (s.updLoop n f).yrd = s.yrd := rfl
@[simp] theorem State.updLoop_pio (n : Nat) (f : LoopSlot → LoopSlot) : (s.updLoop n f).pio = s.pio := rfl
@[simp] theorem State.updLoop_sec (n : Nat) (f : LoopSlot → LoopSlot) : (s.updLoop n f).sec = s.sec := rfl
@[simp] theorem State.updLoop_pwr (n : Nat) (f : LoopSlot → LoopSlot) : (s.updLoop n f).pwr = s.pwr := rfl
@[simp] theorem State.updLoop_ras (n : Nat) (f : LoopSlot → LoopSlot) : (s.updLoop n f).ras = s.ras := rfl
@[simp] theorem State.updLoop_twin (n : Nat) (f : LoopSlot → LoopSlot) : (s.updLoop n f).twin = s.twin := rfl
@[simp] theorem State.updLoop_boot (n : Nat) (f : LoopSlot → LoopSlot) : (s.updLoop n f).boot = s.boot := rfl

/-! ### updRing -/

@[simp] theorem State.updRing_pending (d r : Nat) (f : Ring → Ring) : (s.updRing d r f).pending = s.pending := rfl
@[simp] theorem State.updRing_freeCtr (d r : Nat) (f : Ring → Ring) : (s.updRing d r f).freeCtr = s.freeCtr := rfl
@[simp] theorem State.updRing_id (d r : Nat) (f : Ring → Ring) : (s.updRing d r f).id = s.id := rfl
@[simp] theorem State.updRing_fuses (d r : Nat) (f : Ring → Ring) : (s.updRing d r f).fuses = s.fuses := rfl
@[simp] theorem State.updRing_time (d r : Nat) (f : Ring → Ring) : (s.updRing d r f).time = s.time := rfl
@[simp] theorem State.updRing_sched (d r : Nat) (f : Ring → Ring) : (s.updRing d r f).sched = s.sched := rfl
@[simp] theorem State.updRing_cores (d r : Nat) (f : Ring → Ring) : (s.updRing d r f).cores = s.cores := rfl
@[simp] theorem State.updRing_yard (d r : Nat) (f : Ring → Ring) : (s.updRing d r f).yard = s.yard := rfl
@[simp] theorem State.updRing_mesh (d r : Nat) (f : Ring → Ring) : (s.updRing d r f).mesh = s.mesh := rfl
@[simp] theorem State.updRing_knl (d r : Nat) (f : Ring → Ring) : (s.updRing d r f).knl = s.knl := rfl
@[simp] theorem State.updRing_tly (d r : Nat) (f : Ring → Ring) : (s.updRing d r f).tly = s.tly := rfl
@[simp] theorem State.updRing_yrd (d r : Nat) (f : Ring → Ring) : (s.updRing d r f).yrd = s.yrd := rfl
@[simp] theorem State.updRing_loop (d r : Nat) (f : Ring → Ring) : (s.updRing d r f).loop = s.loop := rfl
@[simp] theorem State.updRing_pio (d r : Nat) (f : Ring → Ring) : (s.updRing d r f).pio = s.pio := rfl
@[simp] theorem State.updRing_sec (d r : Nat) (f : Ring → Ring) : (s.updRing d r f).sec = s.sec := rfl
@[simp] theorem State.updRing_pwr (d r : Nat) (f : Ring → Ring) : (s.updRing d r f).pwr = s.pwr := rfl
@[simp] theorem State.updRing_ras (d r : Nat) (f : Ring → Ring) : (s.updRing d r f).ras = s.ras := rfl
@[simp] theorem State.updRing_twin (d r : Nat) (f : Ring → Ring) : (s.updRing d r f).twin = s.twin := rfl
@[simp] theorem State.updRing_boot (d r : Nat) (f : Ring → Ring) : (s.updRing d r f).boot = s.boot := rfl

/-! ### updEvq -/

@[simp] theorem State.updEvq_pending (d q : Nat) (f : EvQ → EvQ) : (s.updEvq d q f).pending = s.pending := rfl
@[simp] theorem State.updEvq_freeCtr (d q : Nat) (f : EvQ → EvQ) : (s.updEvq d q f).freeCtr = s.freeCtr := rfl
@[simp] theorem State.updEvq_id (d q : Nat) (f : EvQ → EvQ) : (s.updEvq d q f).id = s.id := rfl
@[simp] theorem State.updEvq_fuses (d q : Nat) (f : EvQ → EvQ) : (s.updEvq d q f).fuses = s.fuses := rfl
@[simp] theorem State.updEvq_time (d q : Nat) (f : EvQ → EvQ) : (s.updEvq d q f).time = s.time := rfl
@[simp] theorem State.updEvq_sched (d q : Nat) (f : EvQ → EvQ) : (s.updEvq d q f).sched = s.sched := rfl
@[simp] theorem State.updEvq_cores (d q : Nat) (f : EvQ → EvQ) : (s.updEvq d q f).cores = s.cores := rfl
@[simp] theorem State.updEvq_yard (d q : Nat) (f : EvQ → EvQ) : (s.updEvq d q f).yard = s.yard := rfl
@[simp] theorem State.updEvq_mesh (d q : Nat) (f : EvQ → EvQ) : (s.updEvq d q f).mesh = s.mesh := rfl
@[simp] theorem State.updEvq_knl (d q : Nat) (f : EvQ → EvQ) : (s.updEvq d q f).knl = s.knl := rfl
@[simp] theorem State.updEvq_tly (d q : Nat) (f : EvQ → EvQ) : (s.updEvq d q f).tly = s.tly := rfl
@[simp] theorem State.updEvq_yrd (d q : Nat) (f : EvQ → EvQ) : (s.updEvq d q f).yrd = s.yrd := rfl
@[simp] theorem State.updEvq_loop (d q : Nat) (f : EvQ → EvQ) : (s.updEvq d q f).loop = s.loop := rfl
@[simp] theorem State.updEvq_pio (d q : Nat) (f : EvQ → EvQ) : (s.updEvq d q f).pio = s.pio := rfl
@[simp] theorem State.updEvq_sec (d q : Nat) (f : EvQ → EvQ) : (s.updEvq d q f).sec = s.sec := rfl
@[simp] theorem State.updEvq_pwr (d q : Nat) (f : EvQ → EvQ) : (s.updEvq d q f).pwr = s.pwr := rfl
@[simp] theorem State.updEvq_ras (d q : Nat) (f : EvQ → EvQ) : (s.updEvq d q f).ras = s.ras := rfl
@[simp] theorem State.updEvq_twin (d q : Nat) (f : EvQ → EvQ) : (s.updEvq d q f).twin = s.twin := rfl
@[simp] theorem State.updEvq_boot (d q : Nat) (f : EvQ → EvQ) : (s.updEvq d q f).boot = s.boot := rfl

/-! ### updFn -/

@[simp] theorem State.updFn_pending (fn : Fn) (f : FnSt → FnSt) : (s.updFn fn f).pending = s.pending := by cases fn <;> rfl
@[simp] theorem State.updFn_freeCtr (fn : Fn) (f : FnSt → FnSt) : (s.updFn fn f).freeCtr = s.freeCtr := by cases fn <;> rfl
@[simp] theorem State.updFn_id (fn : Fn) (f : FnSt → FnSt) : (s.updFn fn f).id = s.id := by cases fn <;> rfl
@[simp] theorem State.updFn_fuses (fn : Fn) (f : FnSt → FnSt) : (s.updFn fn f).fuses = s.fuses := by cases fn <;> rfl
@[simp] theorem State.updFn_time (fn : Fn) (f : FnSt → FnSt) : (s.updFn fn f).time = s.time := by cases fn <;> rfl
@[simp] theorem State.updFn_sched (fn : Fn) (f : FnSt → FnSt) : (s.updFn fn f).sched = s.sched := by cases fn <;> rfl
@[simp] theorem State.updFn_cores (fn : Fn) (f : FnSt → FnSt) : (s.updFn fn f).cores = s.cores := by cases fn <;> rfl
@[simp] theorem State.updFn_yard (fn : Fn) (f : FnSt → FnSt) : (s.updFn fn f).yard = s.yard := by cases fn <;> rfl
@[simp] theorem State.updFn_mesh (fn : Fn) (f : FnSt → FnSt) : (s.updFn fn f).mesh = s.mesh := by cases fn <;> rfl
@[simp] theorem State.updFn_knl (fn : Fn) (f : FnSt → FnSt) : (s.updFn fn f).knl = s.knl := by cases fn <;> rfl
@[simp] theorem State.updFn_tly (fn : Fn) (f : FnSt → FnSt) : (s.updFn fn f).tly = s.tly := by cases fn <;> rfl
@[simp] theorem State.updFn_yrd (fn : Fn) (f : FnSt → FnSt) : (s.updFn fn f).yrd = s.yrd := by cases fn <;> rfl
@[simp] theorem State.updFn_loop (fn : Fn) (f : FnSt → FnSt) : (s.updFn fn f).loop = s.loop := by cases fn <;> rfl
@[simp] theorem State.updFn_pio (fn : Fn) (f : FnSt → FnSt) : (s.updFn fn f).pio = s.pio := by cases fn <;> rfl
@[simp] theorem State.updFn_sec (fn : Fn) (f : FnSt → FnSt) : (s.updFn fn f).sec = s.sec := by cases fn <;> rfl
@[simp] theorem State.updFn_pwr (fn : Fn) (f : FnSt → FnSt) : (s.updFn fn f).pwr = s.pwr := by cases fn <;> rfl
@[simp] theorem State.updFn_ras (fn : Fn) (f : FnSt → FnSt) : (s.updFn fn f).ras = s.ras := by cases fn <;> rfl
@[simp] theorem State.updFn_twin (fn : Fn) (f : FnSt → FnSt) : (s.updFn fn f).twin = s.twin := by cases fn <;> rfl
@[simp] theorem State.updFn_boot (fn : Fn) (f : FnSt → FnSt) : (s.updFn fn f).boot = s.boot := by cases fn <;> rfl

/-! ### The scheduler's parts -/

@[simp] theorem State.updOwner_sched_ymap (c : Nat) (f : CoreOwn → CoreOwn) : (s.updOwner c f).sched.ymap = s.sched.ymap := rfl
@[simp] theorem State.updOwner_sched_jobs (c : Nat) (f : CoreOwn → CoreOwn) : (s.updOwner c f).sched.jobs = s.sched.jobs := rfl
@[simp] theorem State.updOwner_sched_tasks (c : Nat) (f : CoreOwn → CoreOwn) : (s.updOwner c f).sched.tasks = s.sched.tasks := rfl
@[simp] theorem State.updOwner_sched_nextUid (c : Nat) (f : CoreOwn → CoreOwn) : (s.updOwner c f).sched.nextUid = s.sched.nextUid := rfl
@[simp] theorem State.updOwner_sched_rrDom (c : Nat) (f : CoreOwn → CoreOwn) : (s.updOwner c f).sched.rrDom = s.sched.rrDom := rfl
@[simp] theorem State.updOwner_sched_spawnRef (c : Nat) (f : CoreOwn → CoreOwn) : (s.updOwner c f).sched.spawnRef = s.sched.spawnRef := rfl
@[simp] theorem State.updOwner_sched_ovrCnt (c : Nat) (f : CoreOwn → CoreOwn) : (s.updOwner c f).sched.ovrCnt = s.sched.ovrCnt := rfl
@[simp] theorem State.updOwner_sched_ovrNs (c : Nat) (f : CoreOwn → CoreOwn) : (s.updOwner c f).sched.ovrNs = s.sched.ovrNs := rfl
@[simp] theorem State.updOwner_sched_assigns (c : Nat) (f : CoreOwn → CoreOwn) : (s.updOwner c f).sched.assigns = s.sched.assigns := rfl
@[simp] theorem State.updOwner_sched_fells (c : Nat) (f : CoreOwn → CoreOwn) : (s.updOwner c f).sched.fells = s.sched.fells := rfl
@[simp] theorem State.updGran_sched_cmap (g : Nat) (f : GranOwn → GranOwn) : (s.updGran g f).sched.cmap = s.sched.cmap := rfl
@[simp] theorem State.updGran_sched_jobs (g : Nat) (f : GranOwn → GranOwn) : (s.updGran g f).sched.jobs = s.sched.jobs := rfl
@[simp] theorem State.updGran_sched_tasks (g : Nat) (f : GranOwn → GranOwn) : (s.updGran g f).sched.tasks = s.sched.tasks := rfl
@[simp] theorem State.updGran_sched_nextUid (g : Nat) (f : GranOwn → GranOwn) : (s.updGran g f).sched.nextUid = s.sched.nextUid := rfl
@[simp] theorem State.updGran_sched_rrDom (g : Nat) (f : GranOwn → GranOwn) : (s.updGran g f).sched.rrDom = s.sched.rrDom := rfl
@[simp] theorem State.updGran_sched_spawnRef (g : Nat) (f : GranOwn → GranOwn) : (s.updGran g f).sched.spawnRef = s.sched.spawnRef := rfl
@[simp] theorem State.updGran_sched_ovrCnt (g : Nat) (f : GranOwn → GranOwn) : (s.updGran g f).sched.ovrCnt = s.sched.ovrCnt := rfl
@[simp] theorem State.updGran_sched_ovrNs (g : Nat) (f : GranOwn → GranOwn) : (s.updGran g f).sched.ovrNs = s.sched.ovrNs := rfl
@[simp] theorem State.updGran_sched_assigns (g : Nat) (f : GranOwn → GranOwn) : (s.updGran g f).sched.assigns = s.sched.assigns := rfl
@[simp] theorem State.updGran_sched_fells (g : Nat) (f : GranOwn → GranOwn) : (s.updGran g f).sched.fells = s.sched.fells := rfl
@[simp] theorem State.updJob_sched_cmap (j : Nat) (f : Job → Job) : (s.updJob j f).sched.cmap = s.sched.cmap := rfl
@[simp] theorem State.updJob_sched_ymap (j : Nat) (f : Job → Job) : (s.updJob j f).sched.ymap = s.sched.ymap := rfl
@[simp] theorem State.updJob_sched_tasks (j : Nat) (f : Job → Job) : (s.updJob j f).sched.tasks = s.sched.tasks := rfl
@[simp] theorem State.updJob_sched_nextUid (j : Nat) (f : Job → Job) : (s.updJob j f).sched.nextUid = s.sched.nextUid := rfl
@[simp] theorem State.updJob_sched_rrDom (j : Nat) (f : Job → Job) : (s.updJob j f).sched.rrDom = s.sched.rrDom := rfl
@[simp] theorem State.updJob_sched_spawnRef (j : Nat) (f : Job → Job) : (s.updJob j f).sched.spawnRef = s.sched.spawnRef := rfl
@[simp] theorem State.updJob_sched_ovrCnt (j : Nat) (f : Job → Job) : (s.updJob j f).sched.ovrCnt = s.sched.ovrCnt := rfl
@[simp] theorem State.updJob_sched_ovrNs (j : Nat) (f : Job → Job) : (s.updJob j f).sched.ovrNs = s.sched.ovrNs := rfl
@[simp] theorem State.updJob_sched_assigns (j : Nat) (f : Job → Job) : (s.updJob j f).sched.assigns = s.sched.assigns := rfl
@[simp] theorem State.updJob_sched_fells (j : Nat) (f : Job → Job) : (s.updJob j f).sched.fells = s.sched.fells := rfl
@[simp] theorem State.updTask_sched_cmap (u : Nat) (f : Task → Task) : (s.updTask u f).sched.cmap = s.sched.cmap := rfl
@[simp] theorem State.updTask_sched_ymap (u : Nat) (f : Task → Task) : (s.updTask u f).sched.ymap = s.sched.ymap := rfl
@[simp] theorem State.updTask_sched_jobs (u : Nat) (f : Task → Task) : (s.updTask u f).sched.jobs = s.sched.jobs := rfl
@[simp] theorem State.updTask_sched_nextUid (u : Nat) (f : Task → Task) : (s.updTask u f).sched.nextUid = s.sched.nextUid := rfl
@[simp] theorem State.updTask_sched_rrDom (u : Nat) (f : Task → Task) : (s.updTask u f).sched.rrDom = s.sched.rrDom := rfl
@[simp] theorem State.updTask_sched_spawnRef (u : Nat) (f : Task → Task) : (s.updTask u f).sched.spawnRef = s.sched.spawnRef := rfl
@[simp] theorem State.updTask_sched_ovrCnt (u : Nat) (f : Task → Task) : (s.updTask u f).sched.ovrCnt = s.sched.ovrCnt := rfl
@[simp] theorem State.updTask_sched_ovrNs (u : Nat) (f : Task → Task) : (s.updTask u f).sched.ovrNs = s.sched.ovrNs := rfl
@[simp] theorem State.updTask_sched_assigns (u : Nat) (f : Task → Task) : (s.updTask u f).sched.assigns = s.sched.assigns := rfl
@[simp] theorem State.updTask_sched_fells (u : Nat) (f : Task → Task) : (s.updTask u f).sched.fells = s.sched.fells := rfl

/-! ### Reads after a change -/

variable {s}

theorem State.core_updCore (h : Tab.wf ({} : Core) s.cores = true) (c c' : Nat) (f : Core → Core) :
    (s.updCore c f).core c' = if c' = c then f (s.core c) else s.core c' := Tab.get_upd h c c' f

theorem State.core_updCore_self (h : Tab.wf ({} : Core) s.cores = true) (c : Nat) (f : Core → Core) :
    (s.updCore c f).core c = f (s.core c) := by rw [core_updCore h, if_pos rfl]

theorem State.wf_updCore (h : Tab.wf ({} : Core) s.cores = true) (c : Nat) (f : Core → Core) :
    Tab.wf ({} : Core) (s.updCore c f).cores = true := Tab.wf_upd h c f

theorem State.wf_updSlot (h : Tab.wf ({} : Core) s.cores = true) (c k : Nat) (f : Slot → Slot) :
    Tab.wf ({} : Core) (s.updSlot c k f).cores = true := wf_updCore h c _

theorem Core.slot_updSlot {k : Core} (h : Tab.wf ({} : Slot) k.slots = true) (i j : Nat) (f : Slot → Slot) :
    (k.updSlot i f).slot j = if j = i then f (k.slot i) else k.slot j := Tab.get_upd h i j f

theorem State.slot_updSlot (h : Tab.wf ({} : Core) s.cores = true) (c k c' k' : Nat) (f : Slot → Slot)
    (hs : Tab.wf ({} : Slot) (s.core c).slots = true) :
    (s.updSlot c k f).slot c' k' = if c' = c ∧ k' = k then f (s.slot c k) else s.slot c' k' := by
  simp only [slot, updSlot, core_updCore h]
  by_cases hc : c' = c
  · subst hc; simp only [if_pos, true_and, Core.slot_updSlot hs]
  · simp [hc]

theorem State.core_updSlot (h : Tab.wf ({} : Core) s.cores = true) (c k c' : Nat) (f : Slot → Slot) :
    (s.updSlot c k f).core c' = if c' = c then (s.core c).updSlot k f else s.core c' := core_updCore h _ _ _

/-- A change of a slot leaves the memory of every core. -/
theorem State.mem_updSlot (h : Tab.wf ({} : Core) s.cores = true) (c k c' : Nat) (f : Slot → Slot) :
    ((s.updSlot c k f).core c').mem = (s.core c').mem := by
  rw [core_updSlot h]; split_ifs with hc
  · subst hc; rfl
  · rfl

/-- What is read through the address map rests on the variant, the memory of every core and the Yard alone. -/
theorem State.rd_congr {t : State} (hv : t.id = s.id) (hy : t.yard.mem = s.yard.mem) (hc : ∀ c, (t.core c).mem = (s.core c).mem) (a : Nat) :
    t.rd a = s.rd a := by
  have hp : t.place a = s.place a := by
    have he : t.var = s.var := by simp only [var, hv]
    simp only [place, he]
  simp only [rd, hp, hy, hc]

end Sys2Proof.Machine
end

