-- ==== Sys2Proof/Laws/Mem.lean ====
section
/-!
SUPPORT. The laws of the byte memories: what a read answers after a write, that every operation over a memory keeps its canonical form,
and that each shared operation of the machine keeps `State.memsOk`.
-/

namespace Sys2Proof.Machine

/-! ### One memory -/

theorem memOk_put {m : Mem} (h : memOk m = true) (a : Nat) (b : Byte) : memOk (m.put a b) = true := Tab.wf_set h a b

theorem memOk_puts {m : Mem} (h : memOk m = true) (w : List (Nat × Byte)) : memOk (m.puts w) = true := by
  induction w generalizing m with
  | nil => exact h
  | cons p w ih => exact ih (memOk_put h p.1 p.2)

theorem memOk_write {m : Mem} (h : memOk m = true) (a : Nat) (l : List Byte) : memOk (m.write a l) = true := memOk_puts h _

theorem memOk_zero {m : Mem} (h : memOk m = true) (lo hi : Nat) : memOk (m.zero lo hi) = true := Tab.wf_filter h _

theorem memOk_writeChecked {u : Nat} {m : Mem} (h : memOk m = true) (bad : List Nat) (w : List (Nat × Byte)) :
    memOk (writeChecked u m bad w).1 = true := memOk_puts h _

/-- A byte read after a byte is written. -/
theorem Mem.get_put {m : Mem} (h : memOk m = true) (a j : Nat) (b : Byte) :
    Tab.get 0 (m.put a b) j = if j = a then b else Tab.get 0 m j := Tab.get_set h a j b

/-- A byte outside the listed writes reads as before. -/
theorem Mem.get_puts_of_notMem {m : Mem} (h : memOk m = true) {w : List (Nat × Byte)} {j : Nat} (hj : ∀ p ∈ w, p.1 ≠ j) :
    Tab.get 0 (m.puts w) j = Tab.get 0 m j := by
  induction w generalizing m with
  | nil => rfl
  | cons p w ih =>
    have h1 := hj p (by simp)
    exact (ih (memOk_put h p.1 p.2) fun q hq => hj q (by simp [hq])).trans
      ((Mem.get_put h p.1 j p.2).trans (if_neg (Ne.symm h1)))

/-- Writing one more byte at the end of the listed writes. -/
theorem Mem.puts_append (m : Mem) (v w : List (Nat × Byte)) : m.puts (v ++ w) = (m.puts v).puts w := List.foldl_append

/-- A byte read after bytes are written from an address upward. -/
theorem Mem.get_write {m : Mem} (h : memOk m = true) (a : Nat) (l : List Byte) (j : Nat) :
    Tab.get 0 (m.write a l) j = if a ≤ j ∧ j < a + l.length then l.getD (j - a) 0 else Tab.get 0 m j := by
  induction l using List.reverseRecOn with
  | nil => rw [if_neg (by simp)]; rfl
  | append_singleton l x ih =>
    have e : m.write a (l ++ [x]) = (m.write a l).put (a + l.length) x := by
      simp only [Mem.write, List.zipIdx_append, List.map_append, Mem.puts_append, Nat.zero_add]; rfl
    rw [e, Mem.get_put (memOk_write h a l), ih]
    simp only [List.length_append, List.length_singleton]
    by_cases hj : j = a + l.length
    · subst hj; rw [if_pos rfl, if_pos (by omega)]; simp
    · rw [if_neg hj]
      by_cases hl : a ≤ j ∧ j < a + l.length
      · rw [if_pos hl, if_pos (by omega), List.getD_append _ _ _ _ (by omega)]
      · rw [if_neg hl, if_neg (by omega)]

/-- A cleared range reads as zero, and every other byte as before. -/
theorem Mem.get_zero {m : Mem} (h : memOk m = true) (lo hi j : Nat) :
    Tab.get 0 (m.zero lo hi) j = if lo ≤ j ∧ j < hi then 0 else Tab.get 0 m j := by
  refine (Tab.get_filter h (fun a => a < lo || hi ≤ a) j).trans ?_
  by_cases hj : lo ≤ j ∧ j < hi
  · rw [if_pos hj, if_neg (by simp; omega)]
  · rw [if_neg hj, if_pos (by simp; omega)]

/-! ### The machine's memories -/

variable {s t : State}

theorem State.memsOk_iff : s.memsOk = true ↔ Tab.wf ({} : Core) s.cores = true ∧ (∀ p ∈ s.cores, memOk p.2.mem = true) ∧
    memOk s.yard.mem = true ∧ memOk s.knl.store = true ∧ memOk s.hif.a.mem = true ∧ memOk s.hif.b.mem = true := by
  simp only [memsOk, Bool.and_eq_true, List.all_eq_true, and_assoc]

/-- States of equal memories are canonical together. -/
theorem State.memsOk_congr (hc : t.cores = s.cores) (hy : t.yard.mem = s.yard.mem) (hk : t.knl.store = s.knl.store)
    (ha : t.hif.a.mem = s.hif.a.mem) (hb : t.hif.b.mem = s.hif.b.mem) : t.memsOk = s.memsOk := by
  simp only [memsOk, hc, hy, hk, ha, hb]

theorem Tab.forall_set {α : Type} [DecidableEq α] {d : α} {P : Nat × α → Prop} {u : Tab α} (h : ∀ p ∈ u, P p) (i : Nat) {x : α}
    (hx : P (i, x)) : ∀ p ∈ Tab.set d u i x, P p := by
  induction u with
  | nil => intro p hp; simp only [Tab.set] at hp; split_ifs at hp <;> simp_all
  | cons q u ih =>
    obtain ⟨k, v⟩ := q
    have hq := h (k, v) (by simp)
    have hu : ∀ p ∈ u, P p := fun p hp => h p (by simp [hp])
    intro p hp
    simp only [Tab.set] at hp
    split_ifs at hp
    · exact h p hp
    · rcases List.mem_cons.1 hp with rfl | hp
      · exact hx
      · exact h p hp
    · exact hu p hp
    · rcases List.mem_cons.1 hp with rfl | hp
      · exact hx
      · exact hu p hp
    · rcases List.mem_cons.1 hp with rfl | hp
      · exact hq
      · exact ih hu p hp

theorem Tab.get_mem_or {α : Type} {d : α} (u : Tab α) (i : Nat) : Tab.get d u i = d ∨ (i, Tab.get d u i) ∈ u := by
  induction u with
  | nil => exact .inl rfl
  | cons q u ih =>
    obtain ⟨k, v⟩ := q
    by_cases hi : i = k
    · subst hi; right; simp [Tab.get]
    · simp only [Tab.get, if_neg hi, List.mem_cons]; exact ih.imp_right .inr

/-- The memory of every core of a canonical state is canonical. -/
theorem State.memOk_core (h : s.memsOk = true) (c : Nat) : memOk (s.core c).mem = true := by
  rcases Tab.get_mem_or (d := ({} : Core)) s.cores c with e | e
  · have : s.core c = {} := e
    rw [this]; rfl
  · exact (memsOk_iff.1 h).2.1 _ e

/-- A change of one core whose memory stays canonical. -/
theorem State.memsOk_updCore (h : s.memsOk = true) (c : Nat) {f : Core → Core} (hf : memOk (f (s.core c)).mem = true) :
    (s.updCore c f).memsOk = true := by
  obtain ⟨h1, h2, h3⟩ := memsOk_iff.1 h
  exact memsOk_iff.2 ⟨wf_updCore h1 c f, Tab.forall_set h2 c hf, h3⟩

/-- A change of one core that leaves its memory. -/
theorem State.memsOk_updCore_mem (h : s.memsOk = true) (c : Nat) {f : Core → Core} (hf : ∀ k, (f k).mem = k.mem) :
    (s.updCore c f).memsOk = true := memsOk_updCore h c (by rw [hf]; exact memOk_core h c)

theorem State.memsOk_updSlot (h : s.memsOk = true) (c k : Nat) (f : Slot → Slot) : (s.updSlot c k f).memsOk = true :=
  memsOk_updCore_mem h c fun _ => rfl

/-- A change of one host function whose memory stays canonical. -/
theorem State.memsOk_updFn (h : s.memsOk = true) (fn : Fn) {f : FnSt → FnSt}
    (hf : memOk (s.fnSt fn).mem = true → memOk (f (s.fnSt fn)).mem = true) : (s.updFn fn f).memsOk = true := by
  obtain ⟨h1, h2, h3, h4, h5, h6⟩ := memsOk_iff.1 h
  cases fn
  · exact memsOk_iff.2 ⟨h1, h2, h3, h4, hf h5, h6⟩
  · exact memsOk_iff.2 ⟨h1, h2, h3, h4, h5, hf h6⟩

/-- A write into core memory keeps every memory canonical. -/
theorem State.memsOk_coreWrite (h : s.memsOk = true) (c : Nat) (w : List (Nat × Byte)) : (s.coreWrite c w).1.memsOk = true :=
  memsOk_updCore h c (memOk_writeChecked (memOk_core h c) _ w)

/-- A write into the Yard keeps every memory canonical. -/
theorem State.memsOk_yardWrite (h : s.memsOk = true) (w : List (Nat × Byte)) : (s.yardWrite w).1.memsOk = true := by
  obtain ⟨h1, h2, h3, h4⟩ := memsOk_iff.1 h
  exact memsOk_iff.2 ⟨h1, h2, memOk_writeChecked h3 _ w, h4⟩

/-! ### Changes that touch no memory -/

@[simp] theorem State.memsOk_updOwner (c : Nat) (f : CoreOwn → CoreOwn) : (s.updOwner c f).memsOk = s.memsOk := rfl
@[simp] theorem State.memsOk_updGran (g : Nat) (f : GranOwn → GranOwn) : (s.updGran g f).memsOk = s.memsOk := rfl
@[simp] theorem State.memsOk_updJob (j : Nat) (f : Job → Job) : (s.updJob j f).memsOk = s.memsOk := rfl
@[simp] theorem State.memsOk_updTask (u : Nat) (f : Task → Task) : (s.updTask u f).memsOk = s.memsOk := rfl
@[simp] theorem State.memsOk_updChan (n : Nat) (f : Chan → Chan) : (s.updChan n f).memsOk = s.memsOk := rfl
@[simp] theorem State.memsOk_updLoop (n : Nat) (f : LoopSlot → LoopSlot) : (s.updLoop n f).memsOk = s.memsOk := rfl
@[simp] theorem State.memsOk_updRing (d r : Nat) (f : Ring → Ring) : (s.updRing d r f).memsOk = s.memsOk := rfl
@[simp] theorem State.memsOk_updEvq (d q : Nat) (f : EvQ → EvQ) : (s.updEvq d q f).memsOk = s.memsOk := rfl
@[simp] theorem State.memsOk_draw : s.draw.2.memsOk = s.memsOk := rfl

@[simp] theorem State.memsOk_recordN (count cls code : Nat) (dom : Option Nat) (skind sidx addr detail : Nat) :
    (s.recordN count cls code dom skind sidx addr detail).memsOk = s.memsOk := by unfold recordN; split_ifs <;> rfl

@[simp] theorem State.memsOk_record (cls code : Nat) (dom : Option Nat) (skind sidx addr detail : Nat) :
    (s.record cls code dom skind sidx addr detail).memsOk = s.memsOk := memsOk_recordN ..

@[simp] theorem State.memsOk_ueMet (code : Nat) (dom : Option Nat) (skind sidx addr : Nat) :
    (s.ueMet code dom skind sidx addr).memsOk = s.memsOk := (memsOk_record ..).trans rfl

@[simp] theorem State.memsOk_askTmc (cls code : Nat) : (s.askTmc cls code).memsOk = s.memsOk := rfl

@[simp] theorem State.memsOk_fatal (code skind sidx addr : Nat) : (s.fatal code skind sidx addr).memsOk = s.memsOk :=
  (memsOk_askTmc ..).trans (memsOk_record ..)

@[simp] theorem State.memsOk_tallyRefuse (d k : Nat) : (s.tallyRefuse d k).memsOk = s.memsOk := (memsOk_record ..).trans rfl

@[simp] theorem State.memsOk_tallyIssue (op : TOp) : (s.tallyIssue op).memsOk = s.memsOk := by
  unfold tallyIssue; split_ifs
  · rfl
  · rfl
  · exact memsOk_tallyRefuse ..

@[simp] theorem State.memsOk_tallyAdd (d k n : Nat) : (s.tallyAdd d k n).memsOk = s.memsOk := memsOk_tallyIssue _

/-! ### Operations that write host memory or end a task -/

theorem State.memsOk_msix (h : s.memsOk = true) (fn : Fn) (vec : Nat) : (s.msix fn vec).memsOk = true := by
  unfold msix; split_ifs
  · exact memsOk_updFn h fn fun hm => hm
  · exact memsOk_updFn h fn fun hm => hm
  · exact h

theorem State.memsOk_signalEq (h : s.memsOk = true) (d q : Nat) : (s.signalEq d q).memsOk = true := by
  simp only [signalEq]
  split_ifs
  · exact memsOk_msix h _ _
  · split
    · exact h
    · rw [memsOk_updEvq]; exact memsOk_msix h _ _

/-- Posting an event keeps every memory canonical. -/
theorem State.memsOk_postAt (h : s.memsOk = true) (t d q kind code aux id : Nat) : (s.postAt t d q kind code aux id).memsOk = true := by
  simp only [postAt]
  split_ifs
  · exact h
  · exact h
  · exact h
  · generalize eventEntry _ _ _ _ _ _ _ = l
    exact memsOk_signalEq ((memsOk_updEvq ..).trans (memsOk_updFn h _ fun hm => memOk_write hm _ l)) d q

theorem State.memsOk_post (h : s.memsOk = true) (d q kind code aux id : Nat) : (s.post d q kind code aux id).memsOk = true :=
  memsOk_postAt h ..

theorem State.memsOk_postDevice (h : s.memsOk = true) (kind code aux id : Nat) : (s.postDevice kind code aux id).memsOk = true := by
  simp only [postDevice]; split_ifs
  · exact memsOk_post h ..
  · exact h

theorem Core.mem_setEng (k : Core) (e : Engine) (x : EngSt) : (k.setEng e x).mem = k.mem := by cases e <;> rfl

theorem Core.mem_dropQueued (k : Core) (uid : Nat) : (k.dropQueued uid).mem = k.mem := by
  simp only [dropQueued, engineAll, List.foldl_cons, List.foldl_nil, mem_setEng]

theorem State.memsOk_pickOne (s : State) (l : List Nat) : (s.pickOne l).2.memsOk = s.memsOk := by
  cases l <;> rfl

/-- What an abandoned commit copy has written keeps the form. -/
theorem State.memsOk_copySome (h : s.memsOk = true) (c : Nat) (sc : SolveCtl) (j : CommitJob) : (s.copySome c sc j).memsOk = true := by
  unfold copySome; exact memsOk_coreWrite h c _

theorem State.memsOk_copyStop (h : s.memsOk = true) (c k : Nat) : (s.copyStop c k).memsOk = true := by
  unfold copyStop
  dsimp only
  split
  · exact h
  · split
    · exact h
    · split
      · exact (memsOk_pickOne ..).trans (memsOk_copySome h ..)
      · split
        · exact (memsOk_ueMet ..).trans ((memsOk_draw ..).trans ((memsOk_pickOne ..).trans (memsOk_copySome h ..)))
        · exact (memsOk_draw ..).trans ((memsOk_pickOne ..).trans (memsOk_copySome h ..))

@[simp] theorem State.memsOk_dropAdds (uid : Nat) (never : List Nat) : (s.dropAdds uid never).memsOk = s.memsOk := rfl

/-- The end of a task keeps the form. -/
theorem State.memsOk_terminate (h : s.memsOk = true) (c k status cause stopCseq : Nat) (derr : Option Nat) :
    (s.terminate c k status cause stopCseq derr).memsOk = true := by
  unfold terminate
  split
  · exact h
  · split_ifs
    · exact h
    · exact memsOk_updSlot (memsOk_updCore_mem ((memsOk_dropAdds ..).trans (memsOk_copyStop h c k)) c fun k => Core.mem_dropQueued k _) c k _

end Sys2Proof.Machine
end

