-- ==== Sys2Proof/Laws/Rows.lean ====
section
/-!
SUPPORT. What the shared rows do once their conditions are met: a write that reaches a register goes to that register's write, a
host descriptor's row acts on the descriptor its ring has accepted, and messages queue on the Knago link.
-/

namespace Sys2Proof.Machine

variable {s : State} {fn : Fn} {a : Nat}

theorem State.ideFilters_true (s : State) (fn : Fn) : s.ideFilters fn true = s.ideBlocks fn := by simp [ideFilters, ideBlocks]

theorem State.answers_of_reaches (h : s.reaches fn a = true) :
    s.fnAnswers fn = true ∧ s.ideBlocks fn = false ∧ s.allowed fn a = true ∧ s.sec.statusMode = false := by
  simp only [reaches, Bool.and_eq_true, Bool.not_eq_true'] at h
  exact ⟨h.1.1.1, h.1.1.2, h.1.2, h.2⟩

/-- A write that reaches a register of BAR0 outside the MSI-X table writes that register. -/
theorem State.regWrite_of_reaches (h : s.reaches fn a = true) (h8 : a % 8 = 0) (hb : a + 8 ≤ 0x1000000)
    (hm : a < 0x110000 ∨ 0x111000 ≤ a) (p : Part) (v : Word) : s.regWrite fn a p v = s.writeReg fn a (partMask p) v.toNat := by
  obtain ⟨h1, h2, h3, -⟩ := answers_of_reaches h
  have hd : bar0Decodes a 8 = true := by simp [bar0Decodes, h8]; omega
  have hm : ¬ (0x110000 ≤ a ∧ a < 0x111000) := by omega
  simp only [regWrite, regWriteIn, State.ideFilters_true, h1, h2, h3, hd, if_neg hm, Bool.not_true, Bool.false_eq_true, if_false]

theorem regRow_of_reaches {ok : Bool} (ho : ok = true) (h : s.reaches fn a = true) (h8 : a % 8 = 0) (hb : a + 8 ≤ 0x1000000)
    (hm : a < 0x110000 ∨ 0x111000 ≤ a) (p : Part) (v : Word) :
    regRow ok fn a p v s = .next (s.writeReg fn a (partMask p) v.toNat) := by
  rw [regRow, if_pos ho, State.regWrite_of_reaches h h8 hb hm]

/-- A write of BAR0 that the filter turns away is counted and changes nothing else (R363). -/
theorem State.regWrite_of_filtered (h1 : s.fnAnswers fn = true) (h2 : s.ideBlocks fn = false) (hd : bar0Decodes a 8 = true)
    (hm : a < 0x110000 ∨ 0x111000 ≤ a) (h3 : s.allowed fn a = false) (p : Part) (v : Word) : s.regWrite fn a p v = s.filtered := by
  have hm : ¬ (0x110000 ≤ a ∧ a < 0x111000) := by omega
  simp only [regWrite, regWriteIn, State.ideFilters_true, h1, h2, h3, hd, if_neg hm, Bool.not_true, Bool.not_false, Bool.false_eq_true, if_false, if_true]

/-- The Yarder's registers. -/
theorem State.writeReg_yrd (hs : s.sec.statusMode = false) (h : 0x700000 ≤ a) (h' : a < 0x800000) (k v : Nat) :
    s.writeReg fn a k v = s.yrdWrite (s.holds fn) (a - 0x700000) k v := by
  unfold writeReg
  simp only [hs, Bool.false_and, Bool.false_eq_true, if_false]
  repeat (first | rw [if_neg (by omega)] | rw [if_pos (by omega)])

/-- The loop engine's registers, on a variant that has one. -/
theorem State.writeReg_loop (hs : s.sec.statusMode = false) (hv : s.var.acts = true) (h : 0xA00000 ≤ a) (h' : a < 0xC00000) (k v : Nat) :
    s.writeReg fn a k v = s.loopWrite (s.holds fn) (a - 0xA00000) k v := by
  unfold writeReg
  simp only [hs, hv, Bool.false_and, Bool.false_eq_true, if_false, if_true]
  repeat (first | rw [if_neg (by omega)] | rw [if_pos (by omega)])

/-- The plant interface's registers, on a variant that has one. -/
theorem State.writeReg_pio (hs : s.sec.statusMode = false) (hv : s.var.acts = true) (h : 0xC00000 ≤ a) (h' : a < 0xD00000) (k v : Nat) :
    s.writeReg fn a k v = s.pioWrite (s.holds fn) (a - 0xC00000) k v := by
  unfold writeReg
  simp only [hs, hv, Bool.false_and, Bool.false_eq_true, if_false, if_true]
  repeat (first | rw [if_neg (by omega)] | rw [if_pos (by omega)])

/-- The timebase's registers. -/
theorem State.writeReg_time (hs : s.sec.statusMode = false) (h : 0xD00000 ≤ a) (h' : a < 0xE00000) (k v : Nat) :
    s.writeReg fn a k v = s.timeWrite (a - 0xD00000) k v := by
  unfold writeReg
  simp only [hs, Bool.false_and, Bool.false_eq_true, if_false]
  repeat (first | rw [if_neg (by omega)] | rw [if_pos (by omega)])

/-- The host interface's registers, HIF_RST apart. -/
theorem State.writeReg_hif (hs : s.sec.statusMode = false) (h : 0x100000 ≤ a) (h' : a < 0x200000) (hr : a ≠ 0x100010) (k v : Nat) :
    s.writeReg fn a k v = s.hifWrite fn (a - 0x100000) k v := by
  unfold writeReg
  simp only [hs, Bool.false_and, Bool.false_eq_true, if_false]
  repeat (first | rw [if_neg (by omega)] | rw [if_pos (by omega)])

/-- A host descriptor's row carries out the descriptor that its ring has accepted. -/
theorem hostRow_of_accepts {d r cls : Nat} {op : Option Nat} {h : HostCmd} (ha : s.accepts d r cls op h) (f : HostCmd → State → State) :
    hostRow d r cls op s f = .next (f h s) := by
  obtain ⟨h1, h2, h3, h4, h5⟩ := ha
  simp only [hostRow, h1, h2, h3, h4, h5, Bool.not_true, Bool.false_eq_true, if_false, and_self, if_true]

/-- Messages queue on the Knago link while it sends. -/
theorem State.kmsg_sends (h : s.twin.silent = false) (kind : Nat) (vals : List Nat) :
    s.kmsg kind vals = { s with twin := { s.twin with out := s.twin.out ++ [⟨kind, vals⟩] } } := by
  rw [kmsg, h]; rfl

theorem State.kmsg_silent (h : s.twin.silent = true) (kind : Nat) (vals : List Nat) : s.kmsg kind vals = s := by rw [kmsg, h]; rfl

/-- Snapshots queue on the Knago link in order. -/
theorem State.foldl_kmsg (l : List Snap) (h : s.twin.silent = false) :
    l.foldl (fun s q => s.kmsg 2 (snapVals q)) s = { s with twin := { s.twin with out := s.twin.out ++ l.map fun q => ⟨2, snapVals q⟩ } } := by
  induction l generalizing s with
  | nil => simp
  | cons q l ih =>
    rw [List.foldl_cons, ih (by rw [kmsg_sends h]; exact h), kmsg_sends h]
    simp

end Sys2Proof.Machine
end

