-- ==== Sys2Proof/Laws/Seq.lean ====
section
/-!
SUPPORT. What the issue of a Sequencer instruction does, once for all of them: when it issues, what its slot holds afterwards, and
that nothing but its slot has changed.
-/

namespace Sys2Proof.Machine

theorem Tab.upd_upd {α : Type} [DecidableEq α] {d : α} {t : Tab α} (h : Tab.wf d t = true) (i : Nat) (f g : α → α) :
    Tab.upd d (Tab.upd d t i f) i g = Tab.upd d t i fun x => g (f x) := by
  refine Tab.ext_get (Tab.wf_upd (Tab.wf_upd h i f) i g) (Tab.wf_upd h i _) fun j => ?_
  simp only [Tab.get_upd (Tab.wf_upd h i f), Tab.get_upd h, if_pos]
  split_ifs <;> rfl

variable {s : State} {c k : Nat}

theorem State.slotTabs_iff : s.slotTabs c k = true ↔
    Tab.wf ({} : Core) s.cores = true ∧ Tab.wf ({} : Slot) (s.core c).slots = true ∧ Tab.wf (0 : Word) (s.slot c k).g = true := by
  simp only [slotTabs, Bool.and_eq_true, and_assoc]

theorem State.updSlot_updSlot (h : s.slotTabs c k = true) (f g : Slot → Slot) :
    (s.updSlot c k f).updSlot c k g = s.updSlot c k fun x => g (f x) := by
  obtain ⟨h1, h2, -⟩ := slotTabs_iff.1 h
  simp only [updSlot, updCore, Tab.upd_upd h1]
  congr 1
  simp only [Tab.upd]
  congr 1
  simp only [Core.updSlot]
  congr 1
  exact Tab.upd_upd h2 k f g

/-- The state after an instruction has taken its CSEQ on a slot changed by `g`, and that slot. -/
theorem State.takeCseq_slot (h : s.slotTabs c k = true) (g : Slot → Slot) (r : Nat → RetEntry) (f : Slot → Slot) :
    ((s.updSlot c k g).takeCseq c k r f).slot c k =
      f { g (s.slot c k) with ret := (g (s.slot c k)).ret ++ [r (g (s.slot c k)).cseq], cseq := (g (s.slot c k)).cseq + 1 } := by
  obtain ⟨h1, h2, -⟩ := slotTabs_iff.1 h
  simp only [takeCseq, slot]
  rw [core_updCore_self (wf_updSlot h1 c k g), core_updSlot h1, if_pos rfl, Core.slot_updSlot (Tab.wf_upd h2 k g), if_pos rfl]
  simp only [Core.slot, Core.updSlot, Tab.get_upd h2, if_pos]

/-- Nothing outside the slot changes when an instruction takes its CSEQ on a slot changed by `g`. -/
theorem State.takeCseq_only (h : s.slotTabs c k = true) (g : Slot → Slot) (r : Nat → RetEntry) (f : Slot → Slot) :
    OnlySlot s ((s.updSlot c k g).takeCseq c k r f) c k := by
  obtain ⟨h1, h2, -⟩ := slotTabs_iff.1 h
  have hc : ∀ c', ((s.updSlot c k g).takeCseq c k r f).core c' = if c' = c then
      ({ (s.core c).updSlot k g with steps := (s.core c).steps - 1 }).updSlot k fun x =>
        f { x with ret := x.ret ++ [r x.cseq], cseq := x.cseq + 1 } else s.core c' := fun c' => by
    simp only [takeCseq]
    rw [core_updCore (wf_updSlot h1 c k g), core_updSlot h1, if_pos rfl, core_updSlot h1]
    split_ifs <;> rfl
  refine ⟨rfl, fun c' => ?_, fun c' k' hk => ?_, ?_⟩
  · rw [hc]; split_ifs with e
    · subst e; rfl
    · rfl
  · simp only [slot, hc]
    split_ifs with e
    · subst e
      have hk : k' ≠ k := by tauto
      simp only [Core.slot, Core.updSlot, Tab.get_upd (Tab.wf_upd h2 k g), Tab.get_upd h2, if_neg hk]
    · rfl
  · refine rd_congr (t := (s.updSlot c k g).takeCseq c k r f) rfl rfl fun c' => ?_
    rw [hc]; split_ifs with e
    · subst e; rfl
    · rfl

/-- A fetch that meets no correctable error leaves the state as it is. -/
theorem State.fetchRead_of_clean {w0 : Nat} {w1 : Option Nat} (h : s.fetchClean c k w0 w1 = true) : s.fetchRead c k w0 w1 = s := by
  cases hs : s.slotSeg c k with
  | none => simp [fetchRead, hs]
  | some g =>
    have hu : ∀ u ∈ fetchUnits (s.slotJob c k).ndesc (s.slot c k).pc w0 w1, u ∉ g.weak := by simpa [fetchClean, hs] using h
    have hn : (fetchUnits (s.slotJob c k).ndesc (s.slot c k).pc w0 w1).filter g.weak.contains = [] :=
      List.filter_eq_nil_iff.2 fun u hm => by simpa using hu u hm
    simp [fetchRead, hs, hn]

/-- A short instruction that issues has its effect and takes its CSEQ. -/
theorem issueShort_issues {opc : Nat} {f : SFields} {rd wr : List Nat} {eff : State → Option Eff} {e : Eff} {bad : Bool}
    (h : s.issues c k opc f rd wr = true) (hb : bad = false) (he : eff s = some e) :
    issueShort c k opc f bad rd wr eff s = .next (e.issued c k opc) := by
  simp only [State.issues, State.atIssue, Bool.and_eq_true, Bool.not_eq_true', decide_eq_true_eq, beq_iff_eq] at h
  obtain ⟨⟨⟨⟨⟨⟨⟨⟨h1, h2⟩, h3⟩, h8⟩, h4⟩, -⟩, h5⟩, h6⟩, h7⟩ := h
  have h4 : ¬ 4294967296 ≤ (s.slot c k).cseq := by omega
  simp [issueShort, h1, h2, h3, h5, h6, h7, hb, he, h4, State.fetchRead_of_clean h8]

theorem State.tabs_of_issues {opc : Nat} {f : SFields} {rd wr : List Nat} (h : s.issues c k opc f rd wr = true) :
    s.slotTabs c k = true := by
  simp only [issues, atIssue, Bool.and_eq_true] at h
  exact h.1.1.1.2

/-- The state after an instruction that changes its slot by `g`: what the slot holds, and that nothing else has changed. -/
theorem Eff.issued_spec (h : s.slotTabs c k = true) (g : Slot → Slot) (cy : Nat) (fl : List Nat) (fa : Option RFault) (act : RetAct)
    (cm : Bool) (pc : Option Nat) (opc : Nat) :
    let t := Eff.issued ⟨s.updSlot c k g, cy, fl, fa, act, cm, pc⟩ c k opc
    let y := g (s.slot c k)
    t.slot c k = { y with
        ret := y.ret ++ [⟨y.cseq, opc, 0, cm, cy, fl.map (fun f => ⟨f, 0⟩), fa, act⟩]
        cseq := y.cseq + 1
        pc := pc.getD (y.pc + 8) }
      ∧ OnlySlot s t c k := by
  exact ⟨State.takeCseq_slot h g _ _, State.takeCseq_only h g _ _⟩

theorem Slot.reg_setReg {x : Slot} (h : Tab.wf (0 : Word) x.g = true) (i r : Nat) (w : Word) :
    (x.setReg i w).reg r = if r = i then w else x.reg r := Tab.get_set h i r w

/-- An instruction that writes one register and issues. -/
theorem issued_setReg (h : s.slotTabs c k = true) (r opc cy : Nat) (fl : List Nat) (w : Word) :
    let t := Eff.issued { s := s.setReg c k r w, cycles := cy, flags := fl } c k opc
    (t.slot c k).reg r = w ∧ Issued s t c k (plainEntry opc cy fl .none) ((s.slot c k).pc + 8) (s.slot c k).cy [r] := by
  obtain ⟨-, -, h3⟩ := State.slotTabs_iff.1 h
  obtain ⟨h1, h2⟩ := Eff.issued_spec h (fun x => x.setReg r w) cy fl none .none true none opc
  have h1 : (Eff.issued { s := s.setReg c k r w, cycles := cy, flags := fl } c k opc).slot c k = { (s.slot c k).setReg r w with
        ret := (s.slot c k).ret ++ [plainEntry opc cy fl .none (s.slot c k).cseq]
        cseq := (s.slot c k).cseq + 1
        pc := (s.slot c k).pc + 8 } := h1
  refine ⟨?_, ⟨fun r' hr => ?_, ?_, ?_, ?_, ?_⟩, ?_, h2⟩
  · rw [h1]; exact (Slot.reg_setReg h3 r r w).trans (if_pos rfl)
  · rw [h1]; exact (Slot.reg_setReg h3 r r' w).trans (if_neg (by simpa using hr))
  · exact (congrArg Slot.cy h1).trans rfl
  · exact (congrArg Slot.pc h1).trans rfl
  · exact (congrArg Slot.cseq h1).trans rfl
  · exact (congrArg Slot.ret h1).trans rfl
  · unfold Slot.keeps; rw [h1]; rfl

end Sys2Proof.Machine
end

