-- ==== Sys2Proof/Laws/Units.lean ====
section
/-!
SUPPORT. What an update of a model, a frame, a unit of plant I/O, a compare or a session leaves, field by field.
-/

namespace Sys2Proof.Machine

variable (s : State)

/-! ### updModel -/

@[simp] theorem State.updModel_pending (id : Nat) (f : Model → Model) : (s.updModel id f).pending = s.pending := rfl
@[simp] theorem State.updModel_freeCtr (id : Nat) (f : Model → Model) : (s.updModel id f).freeCtr = s.freeCtr := rfl
@[simp] theorem State.updModel_id (id : Nat) (f : Model → Model) : (s.updModel id f).id = s.id := rfl
@[simp] theorem State.updModel_fuses (id : Nat) (f : Model → Model) : (s.updModel id f).fuses = s.fuses := rfl
@[simp] theorem State.updModel_time (id : Nat) (f : Model → Model) : (s.updModel id f).time = s.time := rfl
@[simp] theorem State.updModel_hif (id : Nat) (f : Model → Model) : (s.updModel id f).hif = s.hif := rfl
@[simp] theorem State.updModel_sched (id : Nat) (f : Model → Model) : (s.updModel id f).sched = s.sched := rfl
@[simp] theorem State.updModel_cores (id : Nat) (f : Model → Model) : (s.updModel id f).cores = s.cores := rfl
@[simp] theorem State.updModel_yard (id : Nat) (f : Model → Model) : (s.updModel id f).yard = s.yard := rfl
@[simp] theorem State.updModel_mesh (id : Nat) (f : Model → Model) : (s.updModel id f).mesh = s.mesh := rfl
@[simp] theorem State.updModel_tly (id : Nat) (f : Model → Model) : (s.updModel id f).tly = s.tly := rfl
@[simp] theorem State.updModel_yrd (id : Nat) (f : Model → Model) : (s.updModel id f).yrd = s.yrd := rfl
@[simp] theorem State.updModel_loop (id : Nat) (f : Model → Model) : (s.updModel id f).loop = s.loop := rfl
@[simp] theorem State.updModel_pio (id : Nat) (f : Model → Model) : (s.updModel id f).pio = s.pio := rfl
@[simp] theorem State.updModel_sec (id : Nat) (f : Model → Model) : (s.updModel id f).sec = s.sec := rfl
@[simp] theorem State.updModel_pwr (id : Nat) (f : Model → Model) : (s.updModel id f).pwr = s.pwr := rfl
@[simp] theorem State.updModel_ras (id : Nat) (f : Model → Model) : (s.updModel id f).ras = s.ras := rfl
@[simp] theorem State.updModel_twin (id : Nat) (f : Model → Model) : (s.updModel id f).twin = s.twin := rfl
@[simp] theorem State.updModel_boot (id : Nat) (f : Model → Model) : (s.updModel id f).boot = s.boot := rfl

/-! ### updFrame -/

@[simp] theorem State.updFrame_pending (k : Nat) (f : Frame → Frame) : (s.updFrame k f).pending = s.pending := rfl
@[simp] theorem State.updFrame_freeCtr (k : Nat) (f : Frame → Frame) : (s.updFrame k f).freeCtr = s.freeCtr := rfl
@[simp] theorem State.updFrame_id (k : Nat) (f : Frame → Frame) : (s.updFrame k f).id = s.id := rfl
@[simp] theorem State.updFrame_fuses (k : Nat) (f : Frame → Frame) : (s.updFrame k f).fuses = s.fuses := rfl
@[simp] theorem State.updFrame_time (k : Nat) (f : Frame → Frame) : (s.updFrame k f).time = s.time := rfl
@[simp] theorem State.updFrame_hif (k : Nat) (f : Frame → Frame) : (s.updFrame k f).hif = s.hif := rfl
@[simp] theorem State.updFrame_sched (k : Nat) (f : Frame → Frame) : (s.updFrame k f).sched = s.sched := rfl
@[simp] theorem State.updFrame_cores (k : Nat) (f : Frame → Frame) : (s.updFrame k f).cores = s.cores := rfl
@[simp] theorem State.updFrame_yard (k : Nat) (f : Frame → Frame) : (s.updFrame k f).yard = s.yard := rfl
@[simp] theorem State.updFrame_mesh (k : Nat) (f : Frame → Frame) : (s.updFrame k f).mesh = s.mesh := rfl
@[simp] theorem State.updFrame_tly (k : Nat) (f : Frame → Frame) : (s.updFrame k f).tly = s.tly := rfl
@[simp] theorem State.updFrame_yrd (k : Nat) (f : Frame → Frame) : (s.updFrame k f).yrd = s.yrd := rfl
@[simp] theorem State.updFrame_loop (k : Nat) (f : Frame → Frame) : (s.updFrame k f).loop = s.loop := rfl
@[simp] theorem State.updFrame_pio (k : Nat) (f : Frame → Frame) : (s.updFrame k f).pio = s.pio := rfl
@[simp] theorem State.updFrame_sec (k : Nat) (f : Frame → Frame) : (s.updFrame k f).sec = s.sec := rfl
@[simp] theorem State.updFrame_pwr (k : Nat) (f : Frame → Frame) : (s.updFrame k f).pwr = s.pwr := rfl
@[simp] theorem State.updFrame_ras (k : Nat) (f : Frame → Frame) : (s.updFrame k f).ras = s.ras := rfl
@[simp] theorem State.updFrame_twin (k : Nat) (f : Frame → Frame) : (s.updFrame k f).twin = s.twin := rfl
@[simp] theorem State.updFrame_boot (k : Nat) (f : Frame → Frame) : (s.updFrame k f).boot = s.boot := rfl

/-! ### updMac -/

@[simp] theorem State.updMac_pending (m : Nat) (f : MacSt → MacSt) : (s.updMac m f).pending = s.pending := rfl
@[simp] theorem State.updMac_freeCtr (m : Nat) (f : MacSt → MacSt) : (s.updMac m f).freeCtr = s.freeCtr := rfl
@[simp] theorem State.updMac_id (m : Nat) (f : MacSt → MacSt) : (s.updMac m f).id = s.id := rfl
@[simp] theorem State.updMac_fuses (m : Nat) (f : MacSt → MacSt) : (s.updMac m f).fuses = s.fuses := rfl
@[simp] theorem State.updMac_time (m : Nat) (f : MacSt → MacSt) : (s.updMac m f).time = s.time := rfl
@[simp] theorem State.updMac_hif (m : Nat) (f : MacSt → MacSt) : (s.updMac m f).hif = s.hif := rfl
@[simp] theorem State.updMac_sched (m : Nat) (f : MacSt → MacSt) : (s.updMac m f).sched = s.sched := rfl
@[simp] theorem State.updMac_cores (m : Nat) (f : MacSt → MacSt) : (s.updMac m f).cores = s.cores := rfl
@[simp] theorem State.updMac_yard (m : Nat) (f : MacSt → MacSt) : (s.updMac m f).yard = s.yard := rfl
@[simp] theorem State.updMac_mesh (m : Nat) (f : MacSt → MacSt) : (s.updMac m f).mesh = s.mesh := rfl
@[simp] theorem State.updMac_knl (m : Nat) (f : MacSt → MacSt) : (s.updMac m f).knl = s.knl := rfl
@[simp] theorem State.updMac_tly (m : Nat) (f : MacSt → MacSt) : (s.updMac m f).tly = s.tly := rfl
@[simp] theorem State.updMac_yrd (m : Nat) (f : MacSt → MacSt) : (s.updMac m f).yrd = s.yrd := rfl
@[simp] theorem State.updMac_loop (m : Nat) (f : MacSt → MacSt) : (s.updMac m f).loop = s.loop := rfl
@[simp] theorem State.updMac_sec (m : Nat) (f : MacSt → MacSt) : (s.updMac m f).sec = s.sec := rfl
@[simp] theorem State.updMac_pwr (m : Nat) (f : MacSt → MacSt) : (s.updMac m f).pwr = s.pwr := rfl
@[simp] theorem State.updMac_ras (m : Nat) (f : MacSt → MacSt) : (s.updMac m f).ras = s.ras := rfl
@[simp] theorem State.updMac_twin (m : Nat) (f : MacSt → MacSt) : (s.updMac m f).twin = s.twin := rfl
@[simp] theorem State.updMac_boot (m : Nat) (f : MacSt → MacSt) : (s.updMac m f).boot = s.boot := rfl

/-! ### updCan -/

@[simp] theorem State.updCan_pending (n : Nat) (f : CanSt → CanSt) : (s.updCan n f).pending = s.pending := rfl
@[simp] theorem State.updCan_freeCtr (n : Nat) (f : CanSt → CanSt) : (s.updCan n f).freeCtr = s.freeCtr := rfl
@[simp] theorem State.updCan_id (n : Nat) (f : CanSt → CanSt) : (s.updCan n f).id = s.id := rfl
@[simp] theorem State.updCan_fuses (n : Nat) (f : CanSt → CanSt) : (s.updCan n f).fuses = s.fuses := rfl
@[simp] theorem State.updCan_time (n : Nat) (f : CanSt → CanSt) : (s.updCan n f).time = s.time := rfl
@[simp] theorem State.updCan_hif (n : Nat) (f : CanSt → CanSt) : (s.updCan n f).hif = s.hif := rfl
@[simp] theorem State.updCan_sched (n : Nat) (f : CanSt → CanSt) : (s.updCan n f).sched = s.sched := rfl
@[simp] theorem State.updCan_cores (n : Nat) (f : CanSt → CanSt) : (s.updCan n f).cores = s.cores := rfl
@[simp] theorem State.updCan_yard (n : Nat) (f : CanSt → CanSt) : (s.updCan n f).yard = s.yard := rfl
@[simp] theorem State.updCan_mesh (n : Nat) (f : CanSt → CanSt) : (s.updCan n f).mesh = s.mesh := rfl
@[simp] theorem State.updCan_knl (n : Nat) (f : CanSt → CanSt) : (s.updCan n f).knl = s.knl := rfl
@[simp] theorem State.updCan_tly (n : Nat) (f : CanSt → CanSt) : (s.updCan n f).tly = s.tly := rfl
@[simp] theorem State.updCan_yrd (n : Nat) (f : CanSt → CanSt) : (s.updCan n f).yrd = s.yrd := rfl
@[simp] theorem State.updCan_loop (n : Nat) (f : CanSt → CanSt) : (s.updCan n f).loop = s.loop := rfl
@[simp] theorem State.updCan_sec (n : Nat) (f : CanSt → CanSt) : (s.updCan n f).sec = s.sec := rfl
@[simp] theorem State.updCan_pwr (n : Nat) (f : CanSt → CanSt) : (s.updCan n f).pwr = s.pwr := rfl
@[simp] theorem State.updCan_ras (n : Nat) (f : CanSt → CanSt) : (s.updCan n f).ras = s.ras := rfl
@[simp] theorem State.updCan_twin (n : Nat) (f : CanSt → CanSt) : (s.updCan n f).twin = s.twin := rfl
@[simp] theorem State.updCan_boot (n : Nat) (f : CanSt → CanSt) : (s.updCan n f).boot = s.boot := rfl

/-! ### updRxRing -/

@[simp] theorem State.updRxRing_pending (n : Nat) (f : RxRing → RxRing) : (s.updRxRing n f).pending = s.pending := rfl
@[simp] theorem State.updRxRing_freeCtr (n : Nat) (f : RxRing → RxRing) : (s.updRxRing n f).freeCtr = s.freeCtr := rfl
@[simp] theorem State.updRxRing_id (n : Nat) (f : RxRing → RxRing) : (s.updRxRing n f).id = s.id := rfl
@[simp] theorem State.updRxRing_fuses (n : Nat) (f : RxRing → RxRing) : (s.updRxRing n f).fuses = s.fuses := rfl
@[simp] theorem State.updRxRing_time (n : Nat) (f : RxRing → RxRing) : (s.updRxRing n f).time = s.time := rfl
@[simp] theorem State.updRxRing_hif (n : Nat) (f : RxRing → RxRing) : (s.updRxRing n f).hif = s.hif := rfl
@[simp] theorem State.updRxRing_sched (n : Nat) (f : RxRing → RxRing) : (s.updRxRing n f).sched = s.sched := rfl
@[simp] theorem State.updRxRing_cores (n : Nat) (f : RxRing → RxRing) : (s.updRxRing n f).cores = s.cores := rfl
@[simp] theorem State.updRxRing_yard (n : Nat) (f : RxRing → RxRing) : (s.updRxRing n f).yard = s.yard := rfl
@[simp] theorem State.updRxRing_mesh (n : Nat) (f : RxRing → RxRing) : (s.updRxRing n f).mesh = s.mesh := rfl
@[simp] theorem State.updRxRing_knl (n : Nat) (f : RxRing → RxRing) : (s.updRxRing n f).knl = s.knl := rfl
@[simp] theorem State.updRxRing_tly (n : Nat) (f : RxRing → RxRing) : (s.updRxRing n f).tly = s.tly := rfl
@[simp] theorem State.updRxRing_yrd (n : Nat) (f : RxRing → RxRing) : (s.updRxRing n f).yrd = s.yrd := rfl
@[simp] theorem State.updRxRing_loop (n : Nat) (f : RxRing → RxRing) : (s.updRxRing n f).loop = s.loop := rfl
@[simp] theorem State.updRxRing_sec (n : Nat) (f : RxRing → RxRing) : (s.updRxRing n f).sec = s.sec := rfl
@[simp] theorem State.updRxRing_pwr (n : Nat) (f : RxRing → RxRing) : (s.updRxRing n f).pwr = s.pwr := rfl
@[simp] theorem State.updRxRing_ras (n : Nat) (f : RxRing → RxRing) : (s.updRxRing n f).ras = s.ras := rfl
@[simp] theorem State.updRxRing_twin (n : Nat) (f : RxRing → RxRing) : (s.updRxRing n f).twin = s.twin := rfl
@[simp] theorem State.updRxRing_boot (n : Nat) (f : RxRing → RxRing) : (s.updRxRing n f).boot = s.boot := rfl

/-! ### updRxField -/

@[simp] theorem State.updRxField_pending (n : Nat) (f : RxField → RxField) : (s.updRxField n f).pending = s.pending := rfl
@[simp] theorem State.updRxField_freeCtr (n : Nat) (f : RxField → RxField) : (s.updRxField n f).freeCtr = s.freeCtr := rfl
@[simp] theorem State.updRxField_id (n : Nat) (f : RxField → RxField) : (s.updRxField n f).id = s.id := rfl
@[simp] theorem State.updRxField_fuses (n : Nat) (f : RxField → RxField) : (s.updRxField n f).fuses = s.fuses := rfl
@[simp] theorem State.updRxField_time (n : Nat) (f : RxField → RxField) : (s.updRxField n f).time = s.time := rfl
@[simp] theorem State.updRxField_hif (n : Nat) (f : RxField → RxField) : (s.updRxField n f).hif = s.hif := rfl
@[simp] theorem State.updRxField_sched (n : Nat) (f : RxField → RxField) : (s.updRxField n f).sched = s.sched := rfl
@[simp] theorem State.updRxField_cores (n : Nat) (f : RxField → RxField) : (s.updRxField n f).cores = s.cores := rfl
@[simp] theorem State.updRxField_yard (n : Nat) (f : RxField → RxField) : (s.updRxField n f).yard = s.yard := rfl
@[simp] theorem State.updRxField_mesh (n : Nat) (f : RxField → RxField) : (s.updRxField n f).mesh = s.mesh := rfl
@[simp] theorem State.updRxField_knl (n : Nat) (f : RxField → RxField) : (s.updRxField n f).knl = s.knl := rfl
@[simp] theorem State.updRxField_tly (n : Nat) (f : RxField → RxField) : (s.updRxField n f).tly = s.tly := rfl
@[simp] theorem State.updRxField_yrd (n : Nat) (f : RxField → RxField) : (s.updRxField n f).yrd = s.yrd := rfl
@[simp] theorem State.updRxField_loop (n : Nat) (f : RxField → RxField) : (s.updRxField n f).loop = s.loop := rfl
@[simp] theorem State.updRxField_sec (n : Nat) (f : RxField → RxField) : (s.updRxField n f).sec = s.sec := rfl
@[simp] theorem State.updRxField_pwr (n : Nat) (f : RxField → RxField) : (s.updRxField n f).pwr = s.pwr := rfl
@[simp] theorem State.updRxField_ras (n : Nat) (f : RxField → RxField) : (s.updRxField n f).ras = s.ras := rfl
@[simp] theorem State.updRxField_twin (n : Nat) (f : RxField → RxField) : (s.updRxField n f).twin = s.twin := rfl
@[simp] theorem State.updRxField_boot (n : Nat) (f : RxField → RxField) : (s.updRxField n f).boot = s.boot := rfl

/-! ### updTxField -/

@[simp] theorem State.updTxField_pending (n : Nat) (f : TxField → TxField) : (s.updTxField n f).pending = s.pending := rfl
@[simp] theorem State.updTxField_freeCtr (n : Nat) (f : TxField → TxField) : (s.updTxField n f).freeCtr = s.freeCtr := rfl
@[simp] theorem State.updTxField_id (n : Nat) (f : TxField → TxField) : (s.updTxField n f).id = s.id := rfl
@[simp] theorem State.updTxField_fuses (n : Nat) (f : TxField → TxField) : (s.updTxField n f).fuses = s.fuses := rfl
@[simp] theorem State.updTxField_time (n : Nat) (f : TxField → TxField) : (s.updTxField n f).time = s.time := rfl
@[simp] theorem State.updTxField_hif (n : Nat) (f : TxField → TxField) : (s.updTxField n f).hif = s.hif := rfl
@[simp] theorem State.updTxField_sched (n : Nat) (f : TxField → TxField) : (s.updTxField n f).sched = s.sched := rfl
@[simp] theorem State.updTxField_cores (n : Nat) (f : TxField → TxField) : (s.updTxField n f).cores = s.cores := rfl
@[simp] theorem State.updTxField_yard (n : Nat) (f : TxField → TxField) : (s.updTxField n f).yard = s.yard := rfl
@[simp] theorem State.updTxField_mesh (n : Nat) (f : TxField → TxField) : (s.updTxField n f).mesh = s.mesh := rfl
@[simp] theorem State.updTxField_knl (n : Nat) (f : TxField → TxField) : (s.updTxField n f).knl = s.knl := rfl
@[simp] theorem State.updTxField_tly (n : Nat) (f : TxField → TxField) : (s.updTxField n f).tly = s.tly := rfl
@[simp] theorem State.updTxField_yrd (n : Nat) (f : TxField → TxField) : (s.updTxField n f).yrd = s.yrd := rfl
@[simp] theorem State.updTxField_loop (n : Nat) (f : TxField → TxField) : (s.updTxField n f).loop = s.loop := rfl
@[simp] theorem State.updTxField_sec (n : Nat) (f : TxField → TxField) : (s.updTxField n f).sec = s.sec := rfl
@[simp] theorem State.updTxField_pwr (n : Nat) (f : TxField → TxField) : (s.updTxField n f).pwr = s.pwr := rfl
@[simp] theorem State.updTxField_ras (n : Nat) (f : TxField → TxField) : (s.updTxField n f).ras = s.ras := rfl
@[simp] theorem State.updTxField_twin (n : Nat) (f : TxField → TxField) : (s.updTxField n f).twin = s.twin := rfl
@[simp] theorem State.updTxField_boot (n : Nat) (f : TxField → TxField) : (s.updTxField n f).boot = s.boot := rfl

/-! ### updTxMap -/

@[simp] theorem State.updTxMap_pending (n : Nat) (f : TxMap → TxMap) : (s.updTxMap n f).pending = s.pending := rfl
@[simp] theorem State.updTxMap_freeCtr (n : Nat) (f : TxMap → TxMap) : (s.updTxMap n f).freeCtr = s.freeCtr := rfl
@[simp] theorem State.updTxMap_id (n : Nat) (f : TxMap → TxMap) : (s.updTxMap n f).id = s.id := rfl
@[simp] theorem State.updTxMap_fuses (n : Nat) (f : TxMap → TxMap) : (s.updTxMap n f).fuses = s.fuses := rfl
@[simp] theorem State.updTxMap_time (n : Nat) (f : TxMap → TxMap) : (s.updTxMap n f).time = s.time := rfl
@[simp] theorem State.updTxMap_hif (n : Nat) (f : TxMap → TxMap) : (s.updTxMap n f).hif = s.hif := rfl
@[simp] theorem State.updTxMap_sched (n : Nat) (f : TxMap → TxMap) : (s.updTxMap n f).sched = s.sched := rfl
@[simp] theorem State.updTxMap_cores (n : Nat) (f : TxMap → TxMap) : (s.updTxMap n f).cores = s.cores := rfl
@[simp] theorem State.updTxMap_yard (n : Nat) (f : TxMap → TxMap) : (s.updTxMap n f).yard = s.yard := rfl
@[simp] theorem State.updTxMap_mesh (n : Nat) (f : TxMap → TxMap) : (s.updTxMap n f).mesh = s.mesh := rfl
@[simp] theorem State.updTxMap_knl (n : Nat) (f : TxMap → TxMap) : (s.updTxMap n f).knl = s.knl := rfl
@[simp] theorem State.updTxMap_tly (n : Nat) (f : TxMap → TxMap) : (s.updTxMap n f).tly = s.tly := rfl
@[simp] theorem State.updTxMap_yrd (n : Nat) (f : TxMap → TxMap) : (s.updTxMap n f).yrd = s.yrd := rfl
@[simp] theorem State.updTxMap_loop (n : Nat) (f : TxMap → TxMap) : (s.updTxMap n f).loop = s.loop := rfl
@[simp] theorem State.updTxMap_sec (n : Nat) (f : TxMap → TxMap) : (s.updTxMap n f).sec = s.sec := rfl
@[simp] theorem State.updTxMap_pwr (n : Nat) (f : TxMap → TxMap) : (s.updTxMap n f).pwr = s.pwr := rfl
@[simp] theorem State.updTxMap_ras (n : Nat) (f : TxMap → TxMap) : (s.updTxMap n f).ras = s.ras := rfl
@[simp] theorem State.updTxMap_twin (n : Nat) (f : TxMap → TxMap) : (s.updTxMap n f).twin = s.twin := rfl
@[simp] theorem State.updTxMap_boot (n : Nat) (f : TxMap → TxMap) : (s.updTxMap n f).boot = s.boot := rfl

/-! ### updTxQueue -/

@[simp] theorem State.updTxQueue_pending (n : Nat) (f : TxQueue → TxQueue) : (s.updTxQueue n f).pending = s.pending := rfl
@[simp] theorem State.updTxQueue_freeCtr (n : Nat) (f : TxQueue → TxQueue) : (s.updTxQueue n f).freeCtr = s.freeCtr := rfl
@[simp] theorem State.updTxQueue_id (n : Nat) (f : TxQueue → TxQueue) : (s.updTxQueue n f).id = s.id := rfl
@[simp] theorem State.updTxQueue_fuses (n : Nat) (f : TxQueue → TxQueue) : (s.updTxQueue n f).fuses = s.fuses := rfl
@[simp] theorem State.updTxQueue_time (n : Nat) (f : TxQueue → TxQueue) : (s.updTxQueue n f).time = s.time := rfl
@[simp] theorem State.updTxQueue_hif (n : Nat) (f : TxQueue → TxQueue) : (s.updTxQueue n f).hif = s.hif := rfl
@[simp] theorem State.updTxQueue_sched (n : Nat) (f : TxQueue → TxQueue) : (s.updTxQueue n f).sched = s.sched := rfl
@[simp] theorem State.updTxQueue_cores (n : Nat) (f : TxQueue → TxQueue) : (s.updTxQueue n f).cores = s.cores := rfl
@[simp] theorem State.updTxQueue_yard (n : Nat) (f : TxQueue → TxQueue) : (s.updTxQueue n f).yard = s.yard := rfl
@[simp] theorem State.updTxQueue_mesh (n : Nat) (f : TxQueue → TxQueue) : (s.updTxQueue n f).mesh = s.mesh := rfl
@[simp] theorem State.updTxQueue_knl (n : Nat) (f : TxQueue → TxQueue) : (s.updTxQueue n f).knl = s.knl := rfl
@[simp] theorem State.updTxQueue_tly (n : Nat) (f : TxQueue → TxQueue) : (s.updTxQueue n f).tly = s.tly := rfl
@[simp] theorem State.updTxQueue_yrd (n : Nat) (f : TxQueue → TxQueue) : (s.updTxQueue n f).yrd = s.yrd := rfl
@[simp] theorem State.updTxQueue_loop (n : Nat) (f : TxQueue → TxQueue) : (s.updTxQueue n f).loop = s.loop := rfl
@[simp] theorem State.updTxQueue_sec (n : Nat) (f : TxQueue → TxQueue) : (s.updTxQueue n f).sec = s.sec := rfl
@[simp] theorem State.updTxQueue_pwr (n : Nat) (f : TxQueue → TxQueue) : (s.updTxQueue n f).pwr = s.pwr := rfl
@[simp] theorem State.updTxQueue_ras (n : Nat) (f : TxQueue → TxQueue) : (s.updTxQueue n f).ras = s.ras := rfl
@[simp] theorem State.updTxQueue_twin (n : Nat) (f : TxQueue → TxQueue) : (s.updTxQueue n f).twin = s.twin := rfl
@[simp] theorem State.updTxQueue_boot (n : Nat) (f : TxQueue → TxQueue) : (s.updTxQueue n f).boot = s.boot := rfl

/-! ### updCap -/

@[simp] theorem State.updCap_pending (n : Nat) (f : CapSt → CapSt) : (s.updCap n f).pending = s.pending := rfl
@[simp] theorem State.updCap_freeCtr (n : Nat) (f : CapSt → CapSt) : (s.updCap n f).freeCtr = s.freeCtr := rfl
@[simp] theorem State.updCap_id (n : Nat) (f : CapSt → CapSt) : (s.updCap n f).id = s.id := rfl
@[simp] theorem State.updCap_fuses (n : Nat) (f : CapSt → CapSt) : (s.updCap n f).fuses = s.fuses := rfl
@[simp] theorem State.updCap_time (n : Nat) (f : CapSt → CapSt) : (s.updCap n f).time = s.time := rfl
@[simp] theorem State.updCap_hif (n : Nat) (f : CapSt → CapSt) : (s.updCap n f).hif = s.hif := rfl
@[simp] theorem State.updCap_sched (n : Nat) (f : CapSt → CapSt) : (s.updCap n f).sched = s.sched := rfl
@[simp] theorem State.updCap_cores (n : Nat) (f : CapSt → CapSt) : (s.updCap n f).cores = s.cores := rfl
@[simp] theorem State.updCap_yard (n : Nat) (f : CapSt → CapSt) : (s.updCap n f).yard = s.yard := rfl
@[simp] theorem State.updCap_mesh (n : Nat) (f : CapSt → CapSt) : (s.updCap n f).mesh = s.mesh := rfl
@[simp] theorem State.updCap_knl (n : Nat) (f : CapSt → CapSt) : (s.updCap n f).knl = s.knl := rfl
@[simp] theorem State.updCap_tly (n : Nat) (f : CapSt → CapSt) : (s.updCap n f).tly = s.tly := rfl
@[simp] theorem State.updCap_yrd (n : Nat) (f : CapSt → CapSt) : (s.updCap n f).yrd = s.yrd := rfl
@[simp] theorem State.updCap_loop (n : Nat) (f : CapSt → CapSt) : (s.updCap n f).loop = s.loop := rfl
@[simp] theorem State.updCap_sec (n : Nat) (f : CapSt → CapSt) : (s.updCap n f).sec = s.sec := rfl
@[simp] theorem State.updCap_pwr (n : Nat) (f : CapSt → CapSt) : (s.updCap n f).pwr = s.pwr := rfl
@[simp] theorem State.updCap_ras (n : Nat) (f : CapSt → CapSt) : (s.updCap n f).ras = s.ras := rfl
@[simp] theorem State.updCap_twin (n : Nat) (f : CapSt → CapSt) : (s.updCap n f).twin = s.twin := rfl
@[simp] theorem State.updCap_boot (n : Nat) (f : CapSt → CapSt) : (s.updCap n f).boot = s.boot := rfl

/-! ### updDin -/

@[simp] theorem State.updDin_pending (n : Nat) (f : DinSt → DinSt) : (s.updDin n f).pending = s.pending := rfl
@[simp] theorem State.updDin_freeCtr (n : Nat) (f : DinSt → DinSt) : (s.updDin n f).freeCtr = s.freeCtr := rfl
@[simp] theorem State.updDin_id (n : Nat) (f : DinSt → DinSt) : (s.updDin n f).id = s.id := rfl
@[simp] theorem State.updDin_fuses (n : Nat) (f : DinSt → DinSt) : (s.updDin n f).fuses = s.fuses := rfl
@[simp] theorem State.updDin_time (n : Nat) (f : DinSt → DinSt) : (s.updDin n f).time = s.time := rfl
@[simp] theorem State.updDin_hif (n : Nat) (f : DinSt → DinSt) : (s.updDin n f).hif = s.hif := rfl
@[simp] theorem State.updDin_sched (n : Nat) (f : DinSt → DinSt) : (s.updDin n f).sched = s.sched := rfl
@[simp] theorem State.updDin_cores (n : Nat) (f : DinSt → DinSt) : (s.updDin n f).cores = s.cores := rfl
@[simp] theorem State.updDin_yard (n : Nat) (f : DinSt → DinSt) : (s.updDin n f).yard = s.yard := rfl
@[simp] theorem State.updDin_mesh (n : Nat) (f : DinSt → DinSt) : (s.updDin n f).mesh = s.mesh := rfl
@[simp] theorem State.updDin_knl (n : Nat) (f : DinSt → DinSt) : (s.updDin n f).knl = s.knl := rfl
@[simp] theorem State.updDin_tly (n : Nat) (f : DinSt → DinSt) : (s.updDin n f).tly = s.tly := rfl
@[simp] theorem State.updDin_yrd (n : Nat) (f : DinSt → DinSt) : (s.updDin n f).yrd = s.yrd := rfl
@[simp] theorem State.updDin_loop (n : Nat) (f : DinSt → DinSt) : (s.updDin n f).loop = s.loop := rfl
@[simp] theorem State.updDin_sec (n : Nat) (f : DinSt → DinSt) : (s.updDin n f).sec = s.sec := rfl
@[simp] theorem State.updDin_pwr (n : Nat) (f : DinSt → DinSt) : (s.updDin n f).pwr = s.pwr := rfl
@[simp] theorem State.updDin_ras (n : Nat) (f : DinSt → DinSt) : (s.updDin n f).ras = s.ras := rfl
@[simp] theorem State.updDin_twin (n : Nat) (f : DinSt → DinSt) : (s.updDin n f).twin = s.twin := rfl
@[simp] theorem State.updDin_boot (n : Nat) (f : DinSt → DinSt) : (s.updDin n f).boot = s.boot := rfl

/-! ### updPwm -/

@[simp] theorem State.updPwm_pending (n : Nat) (f : PwmSt → PwmSt) : (s.updPwm n f).pending = s.pending := rfl
@[simp] theorem State.updPwm_freeCtr (n : Nat) (f : PwmSt → PwmSt) : (s.updPwm n f).freeCtr = s.freeCtr := rfl
@[simp] theorem State.updPwm_id (n : Nat) (f : PwmSt → PwmSt) : (s.updPwm n f).id = s.id := rfl
@[simp] theorem State.updPwm_fuses (n : Nat) (f : PwmSt → PwmSt) : (s.updPwm n f).fuses = s.fuses := rfl
@[simp] theorem State.updPwm_time (n : Nat) (f : PwmSt → PwmSt) : (s.updPwm n f).time = s.time := rfl
@[simp] theorem State.updPwm_hif (n : Nat) (f : PwmSt → PwmSt) : (s.updPwm n f).hif = s.hif := rfl
@[simp] theorem State.updPwm_sched (n : Nat) (f : PwmSt → PwmSt) : (s.updPwm n f).sched = s.sched := rfl
@[simp] theorem State.updPwm_cores (n : Nat) (f : PwmSt → PwmSt) : (s.updPwm n f).cores = s.cores := rfl
@[simp] theorem State.updPwm_yard (n : Nat) (f : PwmSt → PwmSt) : (s.updPwm n f).yard = s.yard := rfl
@[simp] theorem State.updPwm_mesh (n : Nat) (f : PwmSt → PwmSt) : (s.updPwm n f).mesh = s.mesh := rfl
@[simp] theorem State.updPwm_knl (n : Nat) (f : PwmSt → PwmSt) : (s.updPwm n f).knl = s.knl := rfl
@[simp] theorem State.updPwm_tly (n : Nat) (f : PwmSt → PwmSt) : (s.updPwm n f).tly = s.tly := rfl
@[simp] theorem State.updPwm_yrd (n : Nat) (f : PwmSt → PwmSt) : (s.updPwm n f).yrd = s.yrd := rfl
@[simp] theorem State.updPwm_loop (n : Nat) (f : PwmSt → PwmSt) : (s.updPwm n f).loop = s.loop := rfl
@[simp] theorem State.updPwm_sec (n : Nat) (f : PwmSt → PwmSt) : (s.updPwm n f).sec = s.sec := rfl
@[simp] theorem State.updPwm_pwr (n : Nat) (f : PwmSt → PwmSt) : (s.updPwm n f).pwr = s.pwr := rfl
@[simp] theorem State.updPwm_ras (n : Nat) (f : PwmSt → PwmSt) : (s.updPwm n f).ras = s.ras := rfl
@[simp] theorem State.updPwm_twin (n : Nat) (f : PwmSt → PwmSt) : (s.updPwm n f).twin = s.twin := rfl
@[simp] theorem State.updPwm_boot (n : Nat) (f : PwmSt → PwmSt) : (s.updPwm n f).boot = s.boot := rfl

/-! ### updDout -/

@[simp] theorem State.updDout_pending (n : Nat) (f : DoutSt → DoutSt) : (s.updDout n f).pending = s.pending := rfl
@[simp] theorem State.updDout_freeCtr (n : Nat) (f : DoutSt → DoutSt) : (s.updDout n f).freeCtr = s.freeCtr := rfl
@[simp] theorem State.updDout_id (n : Nat) (f : DoutSt → DoutSt) : (s.updDout n f).id = s.id := rfl
@[simp] theorem State.updDout_fuses (n : Nat) (f : DoutSt → DoutSt) : (s.updDout n f).fuses = s.fuses := rfl
@[simp] theorem State.updDout_time (n : Nat) (f : DoutSt → DoutSt) : (s.updDout n f).time = s.time := rfl
@[simp] theorem State.updDout_hif (n : Nat) (f : DoutSt → DoutSt) : (s.updDout n f).hif = s.hif := rfl
@[simp] theorem State.updDout_sched (n : Nat) (f : DoutSt → DoutSt) : (s.updDout n f).sched = s.sched := rfl
@[simp] theorem State.updDout_cores (n : Nat) (f : DoutSt → DoutSt) : (s.updDout n f).cores = s.cores := rfl
@[simp] theorem State.updDout_yard (n : Nat) (f : DoutSt → DoutSt) : (s.updDout n f).yard = s.yard := rfl
@[simp] theorem State.updDout_mesh (n : Nat) (f : DoutSt → DoutSt) : (s.updDout n f).mesh = s.mesh := rfl
@[simp] theorem State.updDout_knl (n : Nat) (f : DoutSt → DoutSt) : (s.updDout n f).knl = s.knl := rfl
@[simp] theorem State.updDout_tly (n : Nat) (f : DoutSt → DoutSt) : (s.updDout n f).tly = s.tly := rfl
@[simp] theorem State.updDout_yrd (n : Nat) (f : DoutSt → DoutSt) : (s.updDout n f).yrd = s.yrd := rfl
@[simp] theorem State.updDout_loop (n : Nat) (f : DoutSt → DoutSt) : (s.updDout n f).loop = s.loop := rfl
@[simp] theorem State.updDout_sec (n : Nat) (f : DoutSt → DoutSt) : (s.updDout n f).sec = s.sec := rfl
@[simp] theorem State.updDout_pwr (n : Nat) (f : DoutSt → DoutSt) : (s.updDout n f).pwr = s.pwr := rfl
@[simp] theorem State.updDout_ras (n : Nat) (f : DoutSt → DoutSt) : (s.updDout n f).ras = s.ras := rfl
@[simp] theorem State.updDout_twin (n : Nat) (f : DoutSt → DoutSt) : (s.updDout n f).twin = s.twin := rfl
@[simp] theorem State.updDout_boot (n : Nat) (f : DoutSt → DoutSt) : (s.updDout n f).boot = s.boot := rfl

/-! ### updCmp -/

@[simp] theorem State.updCmp_pending (n : Nat) (f : CmpSt → CmpSt) : (s.updCmp n f).pending = s.pending := rfl
@[simp] theorem State.updCmp_freeCtr (n : Nat) (f : CmpSt → CmpSt) : (s.updCmp n f).freeCtr = s.freeCtr := rfl
@[simp] theorem State.updCmp_id (n : Nat) (f : CmpSt → CmpSt) : (s.updCmp n f).id = s.id := rfl
@[simp] theorem State.updCmp_fuses (n : Nat) (f : CmpSt → CmpSt) : (s.updCmp n f).fuses = s.fuses := rfl
@[simp] theorem State.updCmp_time (n : Nat) (f : CmpSt → CmpSt) : (s.updCmp n f).time = s.time := rfl
@[simp] theorem State.updCmp_hif (n : Nat) (f : CmpSt → CmpSt) : (s.updCmp n f).hif = s.hif := rfl
@[simp] theorem State.updCmp_sched (n : Nat) (f : CmpSt → CmpSt) : (s.updCmp n f).sched = s.sched := rfl
@[simp] theorem State.updCmp_cores (n : Nat) (f : CmpSt → CmpSt) : (s.updCmp n f).cores = s.cores := rfl
@[simp] theorem State.updCmp_yard (n : Nat) (f : CmpSt → CmpSt) : (s.updCmp n f).yard = s.yard := rfl
@[simp] theorem State.updCmp_mesh (n : Nat) (f : CmpSt → CmpSt) : (s.updCmp n f).mesh = s.mesh := rfl
@[simp] theorem State.updCmp_knl (n : Nat) (f : CmpSt → CmpSt) : (s.updCmp n f).knl = s.knl := rfl
@[simp] theorem State.updCmp_tly (n : Nat) (f : CmpSt → CmpSt) : (s.updCmp n f).tly = s.tly := rfl
@[simp] theorem State.updCmp_yrd (n : Nat) (f : CmpSt → CmpSt) : (s.updCmp n f).yrd = s.yrd := rfl
@[simp] theorem State.updCmp_loop (n : Nat) (f : CmpSt → CmpSt) : (s.updCmp n f).loop = s.loop := rfl
@[simp] theorem State.updCmp_pio (n : Nat) (f : CmpSt → CmpSt) : (s.updCmp n f).pio = s.pio := rfl
@[simp] theorem State.updCmp_sec (n : Nat) (f : CmpSt → CmpSt) : (s.updCmp n f).sec = s.sec := rfl
@[simp] theorem State.updCmp_pwr (n : Nat) (f : CmpSt → CmpSt) : (s.updCmp n f).pwr = s.pwr := rfl
@[simp] theorem State.updCmp_ras (n : Nat) (f : CmpSt → CmpSt) : (s.updCmp n f).ras = s.ras := rfl
@[simp] theorem State.updCmp_boot (n : Nat) (f : CmpSt → CmpSt) : (s.updCmp n f).boot = s.boot := rfl

/-! ### updSession -/

@[simp] theorem State.updSession_pending (fn : Fn) (sid : Nat) (f : Spdm → Spdm) : (s.updSession fn sid f).pending = s.pending := rfl
@[simp] theorem State.updSession_freeCtr (fn : Fn) (sid : Nat) (f : Spdm → Spdm) : (s.updSession fn sid f).freeCtr = s.freeCtr := rfl
@[simp] theorem State.updSession_id (fn : Fn) (sid : Nat) (f : Spdm → Spdm) : (s.updSession fn sid f).id = s.id := rfl
@[simp] theorem State.updSession_fuses (fn : Fn) (sid : Nat) (f : Spdm → Spdm) : (s.updSession fn sid f).fuses = s.fuses := rfl
@[simp] theorem State.updSession_time (fn : Fn) (sid : Nat) (f : Spdm → Spdm) : (s.updSession fn sid f).time = s.time := rfl
@[simp] theorem State.updSession_hif (fn : Fn) (sid : Nat) (f : Spdm → Spdm) : (s.updSession fn sid f).hif = s.hif := rfl
@[simp] theorem State.updSession_sched (fn : Fn) (sid : Nat) (f : Spdm → Spdm) : (s.updSession fn sid f).sched = s.sched := rfl
@[simp] theorem State.updSession_cores (fn : Fn) (sid : Nat) (f : Spdm → Spdm) : (s.updSession fn sid f).cores = s.cores := rfl
@[simp] theorem State.updSession_yard (fn : Fn) (sid : Nat) (f : Spdm → Spdm) : (s.updSession fn sid f).yard = s.yard := rfl
@[simp] theorem State.updSession_mesh (fn : Fn) (sid : Nat) (f : Spdm → Spdm) : (s.updSession fn sid f).mesh = s.mesh := rfl
@[simp] theorem State.updSession_knl (fn : Fn) (sid : Nat) (f : Spdm → Spdm) : (s.updSession fn sid f).knl = s.knl := rfl
@[simp] theorem State.updSession_tly (fn : Fn) (sid : Nat) (f : Spdm → Spdm) : (s.updSession fn sid f).tly = s.tly := rfl
@[simp] theorem State.updSession_yrd (fn : Fn) (sid : Nat) (f : Spdm → Spdm) : (s.updSession fn sid f).yrd = s.yrd := rfl
@[simp] theorem State.updSession_loop (fn : Fn) (sid : Nat) (f : Spdm → Spdm) : (s.updSession fn sid f).loop = s.loop := rfl
@[simp] theorem State.updSession_pio (fn : Fn) (sid : Nat) (f : Spdm → Spdm) : (s.updSession fn sid f).pio = s.pio := rfl
@[simp] theorem State.updSession_pwr (fn : Fn) (sid : Nat) (f : Spdm → Spdm) : (s.updSession fn sid f).pwr = s.pwr := rfl
@[simp] theorem State.updSession_ras (fn : Fn) (sid : Nat) (f : Spdm → Spdm) : (s.updSession fn sid f).ras = s.ras := rfl
@[simp] theorem State.updSession_twin (fn : Fn) (sid : Nat) (f : Spdm → Spdm) : (s.updSession fn sid f).twin = s.twin := rfl
@[simp] theorem State.updSession_boot (fn : Fn) (sid : Nat) (f : Spdm → Spdm) : (s.updSession fn sid f).boot = s.boot := rfl

end Sys2Proof.Machine
end

