-- ==== Sys2Proof/Tests/Slice0.lean ====
section
/-!
SUPPORT. Tests of the model: an ill-formed command for each check of WellFormed; values that the spec's own examples give; and, for each
statement that has hypotheses, a state and operands that meet them.
-/

namespace Sys2Proof.Tests.Slice0

-- One theorem at a time: many kernel evaluations waiting side by side need more threads than the memory limit gives.
set_option Elab.async false

open Sys2Proof Sys2Proof.Machine

/-! ### Helpers -/

/-- Short and long fields of zeros. -/
def sf : SFields := ⟨0, 0, 0, 0, false, 0, 0⟩
def lf : LFields := ⟨0, 0, 0, 0, 0, 0, 0, 0, 0⟩

/-- A task of job 0 and domain 0. -/
def aTask : Task :=
  { uid := 1, job := 0, dom := 0, be := false, entry := 0, taskId := 7, dlmode := 2, dlval := 0, deadline := none, trigV := false
    trigTally := 0, trigN := 0, trigSat := true, doneV := false, doneTally := 0, result := 0x40001000, arg := 9, release := 0
    queueTime := 0, tDisp := 0, st := .running 0 0 }

/-- A slot that runs task 1. -/
def aSlot : Slot := { uid := some 1, started := true }

/-- A core whose slot 0 runs task 1. -/
def aCore : Core := { slots := [(0, aSlot)] }

/-- A tray whose core 0 holds `k`; job 0 is loaded and task 1 is its only task. Yard granule 0 belongs to domain 0. -/
def tray (k : Core) : State :=
  { cores := [(0, k)]
    sched :=
      { jobs := [(0, { st := .loaded, ring := 0 })], tasks := [aTask], nextUid := 2, cmap := [(0, { valid := true, pack := true })]
        ymap := [(0, { valid := true })] } }

/-- The tray with slot 0 of core 0 changed. -/
def trayS (f : Slot → Slot) : State := tray { slots := [(0, f aSlot)] }

/-! ### WellFormed refuses what names no unit -/

theorem test_wf_slot : Instr.wf 128 (.add 128 0 sf) = false ∧ Instr.wf 128 (.add 0 8 sf) = false ∧ Instr.wf 128 (.add 127 7 sf) = true := by
  decide
theorem test_wf_core : Instr.wf 128 (.parkedResume 128) = false ∧ Instr.wf 256 (.parkedResume 128) = true := by decide
theorem test_wf_cores : Instr.wf 128 (.remoteWordArrival 128 0) = false ∧ Instr.wf 128 (.remoteWordArrival 0 128) = false := by decide
theorem test_wf_ring : Instr.wf 128 (.hostNop 16 0) = false ∧ Instr.wf 128 (.hostNop 0 16) = false := by decide
theorem test_wf_segment : Instr.wf 128 (.segmentFillComplete 0 9 []) = false ∧ Instr.wf 128 (.segmentFillComplete 128 0 []) = false := by decide
theorem test_wf_tally : Instr.wf 128 (.tallyOpEffect 262144 0) = false := by decide
theorem test_wf_job : Instr.wf 128 (.jobLoadComplete 256 .cto) = false ∧ Instr.wf 128 (.coreConfClr .a 256) = false := by decide
theorem test_wf_granule : Instr.wf 128 (.granuleScrubComplete 1536 true) = false ∧ Instr.wf 256 (.granuleScrubComplete 1536 true) = true := by
  decide
theorem test_wf_queue : Instr.wf 128 (.eqHeadWrite .a 0 4 0 false) = false ∧ Instr.wf 128 (.eqHeadWrite .a 16 0 0 false) = false := by decide
theorem test_wf_domain : Instr.wf 128 (.tallyAdd .a 16 0 false) = false ∧ Instr.wf 128 (.encoderIndexEdge 16 0) = false := by decide
theorem test_wf_channel : Instr.wf 128 (.yrdMove 128) = false := by decide
theorem test_wf_loop : Instr.wf 128 (.trajectoryPush 4096 0) = false := by decide
theorem test_wf_mac : Instr.wf 128 (.gptpSyncTimer 4) = false := by decide
theorem test_wf_can : Instr.wf 128 (.canBusOffRecovered 8) = false := by decide
theorem test_wf_din : Instr.wf 128 (.dinFilterExpiry 32) = false ∧ Instr.wf 128 (.send 32 1) = false := by decide
theorem test_wf_port : Instr.wf 128 (.portTransmitStart 12) = false := by decide
theorem test_wf_compare : Instr.wf 128 (.compareTrigger 64) = false ∧ Instr.wf 128 (.msixVectorUnmask .a 64) = false := by decide
theorem test_wf_own : Instr.wf 128 (.pioOwnWrite .a 764 .full 0) = false := by decide
theorem test_wf_patrol : Instr.wf 128 (.patrolStep (.coreLine 0 12288) .clean) = false
    ∧ Instr.wf 128 (.patrolStep (.yardLine 32 0) .clean) = false ∧ Instr.wf 128 (.patrolStep (.storeLine 48 0) .clean) = false
    ∧ Instr.wf 128 (.patrolStep (.tallyWord 262144) .clean) = false ∧ Instr.wf 128 (.patrolStep (.tableWord 3 0) .clean) = false
    ∧ Instr.wf 128 (.patrolStep (.loopWord 4096 0) .clean) = false := by decide
theorem test_wf_island : Instr.wf 128 (.islandHandshakeFault (.core 128)) = false ∧ Instr.wf 128 (.islandHandshakeFault .mesh) = true := by
  decide
theorem test_wf_mesh_link : Instr.wf 128 (.meshFlitCrcFail ⟨512, false⟩) = false := by decide
theorem test_wf_requester : Instr.wf 128 (.pcieCompletionTimeout (.ring 16 0)) = false
    ∧ Instr.wf 128 (.pcieCompletionTimeout (.chan 128)) = false ∧ Instr.wf 128 (.pcieCompletionTimeout (.copy 0 16)) = false := by decide
theorem test_wf_unit : Instr.wf 128 (.sliceOrChannelStopsAnswering (.slice 32)) = false
    ∧ Instr.wf 128 (.sliceOrChannelStopsAnswering (.channel 48)) = false := by decide

/-! ### Values that the spec's examples and tables give -/

/-- R56's example: 34.0625 units of the intermediate, rounded twice. -/
theorem test_double_rounding :
    Dy.round .rne 2 ⟨545, -4⟩ = (9, false) ∧ Dy.round .rne 0 ⟨545, -4⟩ = (34, false) ∧ Dy.round .rne 2 ⟨34, 0⟩ = (8, false)
    ∧ Dy.round .rto 0 ⟨545, -4⟩ = (35, false) ∧ Dy.round .rne 2 ⟨35, 0⟩ = (9, false) := by decide +kernel

/-- R91, sums and differences: s, N and M are the smallest subnormal, the smallest normal and the largest finite value. -/
theorem test_hf_sums :
    hfAdd .rne 1 1 = (2, []) ∧ hfSub .rne 1 1 = (0, []) ∧ hfSub .rto 0x8000 1 = (0x7FFF, [])
    ∧ hfAdd .rne 0x7F7FFF 1 = (0x7F7FFF, []) ∧ hfAdd .rto 0x7F7FFF 1 = (0x7F7FFF, [fInf])
    ∧ hfAdd .rne 0x7F7FFF 0x7F7FFF = (0x7F8000, [fInf]) ∧ hfAdd .rto 0x7F7FFF 0x7F7FFF = (0x7F7FFF, [fInf])
    ∧ hfSub .rne 0xFF7FFF 0x7F7FFF = (0xFF8000, [fInf]) ∧ hfSub .rto 0xFF7FFF 0x7F7FFF = (0xFF7FFF, [fInf])
    ∧ hfSub .rne 0x7F7FFF 0x7F7FFF = (0, []) := by decide +kernel

/-- R91, products. -/
theorem test_hf_products :
    hfMul .rne 1 1 = (0, [fUnder]) ∧ hfMul .rto 1 1 = (1, [fUnder]) ∧ hfMul .rne 1 0x3F0000 = (0, [fUnder])
    ∧ hfMul .rto 1 0x3F0000 = (1, [fUnder]) ∧ hfMul .rne 1 0x800000 = (0, []) ∧ hfMul .rne 1 0x7F7FFF = (0x38FFFF, [])
    ∧ hfMul .rto 0x7F7FFF 0x3F0000 = (0x7EFFFF, []) ∧ hfMul .rne 0x7F7FFF 0x7F7FFF = (0x7F8000, [fInf])
    ∧ hfMul .rto 0x7F7FFF 0x7F7FFF = (0x7F7FFF, [fInf]) := by decide +kernel

/-- R91, quotients. -/
theorem test_hf_quotients :
    hfDiv .rne 1 0x7F7FFF = (0, [fUnder]) ∧ hfDiv .rto 1 0x7F7FFF = (1, [fUnder])
    ∧ hfDiv .rne 0x3F8000 0x7F7FFF = (0x2000, [fUnder]) ∧ hfDiv .rto 0x3F8000 0x7F7FFF = (0x2001, [fUnder])
    ∧ hfDiv .rne 0x3F8000 1 = (0x7F8000, [fInf]) ∧ hfDiv .rto 0x7F7FFF 1 = (0x7F7FFF, [fInf])
    ∧ hfDiv .rto 1 0 = (0x7F8000, [fDivZero]) := by decide +kernel

/-- R91, square roots. -/
theorem test_hf_roots :
    hfSqrt .rne 1 = (0x1C3505, []) ∧ hfSqrt .rto 1 = (0x1C3505, []) ∧ hfSqrt .rne 0x7F7FFF = (0x5F7FFF, [])
    ∧ hfSqrt .rto 0x7F7FFF = (0x5F7FFF, []) := by decide +kernel

/-- R91, conversions of scalars: 2^63 - 1 to HF24 in both modes; s to HQ32 with f = 62. -/
theorem test_hf_conversions :
    hfRound .rne ⟨-2 ^ 63, 0⟩ = (0xDF0000, []) ∧ hfRound .rne ⟨2 ^ 63 - 1, 0⟩ = (0x5F0000, [])
    ∧ hfRound .rto ⟨2 ^ 63 - 1, 0⟩ = (0x5EFFFF, []) ∧ hfRound .rne ⟨1, -62⟩ = (0x208000, [])
    ∧ storeScalar fmtHQ32 62 .rne (XV.ofHV (hfVal 1)) = (0, [fUnder]) ∧ storeScalar fmtHQ32 62 .rto (XV.ofHV (hfVal 1)) = (1, []) := by
  decide +kernel

/-- The residual row of chapter 03: both products are in the window of ANCHOR -64; the sum rounds to HQ32 with f = 20. -/
theorem test_residual_row :
    (Dy.add ⟨0x80000, -20⟩ (Dy.add (Dy.mul ⟨-29491, -15⟩ ⟨-786432, -20⟩) (Dy.mul ⟨9830, -15⟩ ⟨1048577, -20⟩))).eqv ⟨25340023603, -34⟩ = true
    ∧ storeInt .rne 32 (-20) (-128) false (.num ⟨25340023603, -34⟩) = (0x179988, [])
    ∧ storeInt .rto 32 (-20) (-128) false (.num ⟨25340023603, -34⟩) = (0x179989, []) := by decide +kernel

/-- CAPS_UNITS of the three variants (R6). -/
theorem test_caps_units :
    State.readReg {} 8 = 0x6040101F ∧ State.readReg { id := { variant := .sn9620 } } 8 = 0x60401011
    ∧ State.readReg { id := { variant := .sn9610 } } 8 = 0x3020080F ∧ State.readReg { id := { variant := .sn9610 } } 0 / 2 ^ 48 = 0x9610 := by
  decide +kernel

/-- The SPMV of chapter 09: its two words; and ADD of G1 and G2 into G3 written out from R253. -/
theorem test_instruction_words :
    longWord0 0x40 ⟨1, -40, 20, 0, 0x0200, 0x00C0, 0x0014, 0xFFC0, 0⟩ = 0x407D8A00020000C0
    ∧ longWord1 ⟨1, -40, 20, 0, 0x0200, 0x00C0, 0x0014, 0xFFC0, 0⟩ = 0x0014FFC000000000
    ∧ shortWord 0x01 { sf with rd := 3, ra := 1, rb := 2 } = 0x0118440000000000 := by decide +kernel

/-- CORE_WIN0 of the select task of chapter 06. -/
theorem test_core_win : winBits 0x6F10017D01000005 0 = 0x6F10017D01000005 ∧ winBits 0x6F10417D41000005 3 = 0x6F10017D01000065 := by decide

/-- The place of hypothesis 1,137's cost on core 112 (chapter 06), and the ends of the address map on an SN9610. -/
theorem test_places :
    State.place {} 0x470051C4 = .core 112 0x51C4 ∧ State.place {} 0x400C0000 = .nowhere
    ∧ State.place { id := { variant := .sn9610 } } 0x48000000 = .nowhere ∧ State.place {} 0x100000000 = .yard 0
    ∧ State.place {} 0x1000000000 = .store 0 := by decide +kernel

/-- The status words of chapter 10: a descriptor that ran to its end, and one that FELL_JOB aborted. -/
theorem test_yarder_status :
    leNat ((yStatus 0 0 0 0 5 0).take 4) = 0x00000500 ∧ leNat ((yStatus 0 6144 2 0 0 1).take 4) = 0x00020001
    ∧ leNat (((yStatus 0 6144 2 0 0 1).drop 4).take 4) = 0x00001800 := by decide +kernel

/-- The bursts of one pass of channel 9 (chapter 10): 2,048, three of 4,096, and 2,048. -/
theorem test_bursts :
    burstLen 1 0 0x812340800 0x4C820000 16384 = 2048 ∧ burstLen 1 0 0x812341000 0x4C820800 14336 = 4096
    ∧ burstLen 1 0 0x812344000 0x4C823800 2048 = 2048 ∧ burstLen 0 0 0x100800080 0x40010000 8192 = 4096 := by decide

/-- The event entry of chapter 13: its upper 64 bits. -/
theorem test_event_entry : leNat ((eventEntry true false 1 0 0x25 0x20025 77).drop 8) = 0x8100002500020025 := by decide +kernel

/-- HIF_SQCFG, HIF_EQCFG and HIF_FNDOM of chapter 13. -/
theorem test_hif_registers :
    (Ring.cfgReg { en := true, state := 1, evt := 1, nM1 := 255 }) = 0xA1000000000000FF
    ∧ (EvQ.cfgReg { en := true, vec := 5, nM1 := 1023 }) = 0x85000000000003FF
    ∧ State.readReg { hif := { doma := 10 } } 0x100008 = 10 := by decide +kernel

/-- SCHED_JOB1 of chapter 08. -/
theorem test_sched_job :
    State.readReg { sched := { jobs := [(1, { st := .loaded, dom := 1, packHi := 0x6F, packLo := 0x10 })] } } 0x202008 = 0x416F100000000000 := by
  decide +kernel

/-- SEC_LC of chapter 14: before RETURN, after it, and after the reset that follows. -/
theorem test_sec_lc :
    State.readReg { sec := { sensed := { lc := 3, oset := 0x43, svn := 3 }, pend := 3 } } 0xE00000 = 0x6C00430000030000
    ∧ State.readReg { sec := { sensed := { lc := 3, oset := 0x43, svn := 3 }, pend := 4 } } 0xE00000 = 0x7000430000030000
    ∧ State.readReg { sec := { sensed := { lc := 4, oset := 0x43, svn := 3, orev := 255 }, pend := 4 } } 0xE00000 = 0x900043FF00030000 := by
  decide +kernel

/-- Leash at a warm inlet (chapter 15): C_tot, and the credits of core 130 at 1.4, 1.2 and 1.0 GHz. -/
theorem test_leash :
    let s : Nat → State := fun der => { pwr := { der, pto := 48 }, sec := { sensed := { pfix := 400 } } }
    (s 88).ctotAt 750 = 550 ∧ (s 60).ctotAt 750 = 341 ∧ (s 60).ctotAt 650 = 393
    ∧ credits 900 5 750 = 3 ∧ credits 900 4 750 = 3 ∧ credits 900 3 750 = 2 := by decide +kernel

/-- HIF_BOOTSTAT of chapter 16. -/
theorem test_bootstat :
    State.readReg { boot := { step := 10, store := true, ptp := true, twinres := 1, tStore := 313000 } } 0x100030 = 0xA000D0000004C6A8 := by
  decide +kernel

/-- The brake loop of chapter 11: its configuration, one inner sample, and the on-time of PWM 3. -/
def brake : LoopSlot :=
  { cfg := 0x88109C00280000C8, src := 0x3030000001030000, msc0 := 0x3C0000, g0 := 0x0040_0000_003E_8000, lim := 0x3F_8000_0000_0000
    imax := 0x100000000, osc := 0x47_8000_0000_0000, heel := 0x3F_C000_0028_B019, st := .closed, integ := 0x80000000
    cur := some ⟨0, 0, 0x40C000, 0x3C8000, 0x3E8000, 0, 0, false⟩ }

theorem test_brake_loop :
    brake.dom = 1 ∧ brake.law = 0 ∧ brake.aw = true ∧ brake.div = 40 ∧ brake.period = 10 ∧ brake.phase = 0 ∧ brake.rampN = 200
    ∧ brake.ifrac = 32 ∧ brake.ageLim = 25 := by decide +kernel

theorem test_brake_sample :
    let y := (brake.sample [some 768] false true 0 3 0).1
    y.integ = 0x83000000 ∧ hfVal y.u = .fin ⟨56064, -16⟩ ∧ y.usat = 0 ∧ y.hcnt = 0 ∧ y.rawOf y.u = 56064 := by decide +kernel

theorem test_pwm_on_time : pwmOn (50000 * 2 ^ 32) 56064 = 42773 := by decide +kernel

/-- The commit of a sweep of 159 samples, 4,105.5 ns after its instant (chapter 11). -/
theorem test_commit_time : Sweep.commitAt ⟨0, 0, 159, [], [], [], []⟩ = 4106 := by decide

/-! ### States that meet the hypotheses of the statements: the Sequencer -/

theorem test_wit_rounding : (⟨545, -4⟩ : Dy).e < 0 ∧ (0 : Int) ≤ (⟨545, 0⟩ : Dy).e ∧ (0 : Int) + 2 ≤ 2 := by decide
theorem test_wit_instruction_words : (0xC0 : Nat) < 256 ∧ (0x36 : Nat) < 256 := by decide

/-- Registers G1 = 40, G2 = 3, G4 = 0x3F8000 (1.0 in HF24). -/
def regs : Slot → Slot := fun x => { x with g := [(1, 40), (2, 3), (4, 0x3F8000)], cy := true }
/-- RD = G6, RA = G1, RB = G2. -/
def f612 : SFields := { sf with rd := 6, ra := 1, rb := 2 }

theorem test_wit_integer : ∀ p ∈ ([(0x01, srcRegs f612), (0x02, srcRegs f612), (0x07, srcRegs f612), (0x08, srcRegs f612), (0x09, srcRegs f612),
    (0x0A, srcRegs f612), (0x0B, srcRegs f612), (0x0C, srcRegs f612), (0x0D, srcRegs f612), (0x0E, srcRegs f612), (0x0F, srcRegs f612),
    (0x14, []), (0x15, [6]), (0x16, srcRegs f612), (0x36, [])] : List (Nat × List Nat)),
    (trayS regs).issues 0 0 p.1 f612 p.2 [6] = true := by decide +kernel

theorem test_wit_carry : ∀ p ∈ ([(0x03, srcRegs f612, [6]), (0x04, srcRegs f612, [6]), (0x05, [], []), (0x06, [], []), (0x00, [], []),
    (0x17, [1, 2], [1, 2])] : List (Nat × List Nat × List Nat)), (trayS regs).issues 0 0 p.1 f612 p.2.1 p.2.2 = true := by decide +kernel

theorem test_wit_products : ∀ o ∈ [0x10, 0x11, 0x12, 0x13], (trayS regs).issues 0 0 o f612 (srcRegs f612) [6, 7] = true := by decide +kernel

/-- RTO, fraction length 62: the ends of both fields. -/
def f644 : SFields := { sf with rd := 6, ra := 4, rb := 4, rnd := 1, imm := 62 }

theorem test_wit_half : (∀ p ∈ ([(0x18, srcRegs f644), (0x19, srcRegs f644), (0x1A, srcRegs f644), (0x1B, srcRegs f644), (0x1C, [4]),
    (0x1E, [4]), (0x1F, [4])] : List (Nat × List Nat)), (trayS regs).issues 0 0 p.1 f644 p.2 [6] = true)
    ∧ Rnd.ofField f644.rnd.toNat = some .rto ∧ f644.imm.toNat % 64 ≤ 62 := by decide +kernel

/-- Finite operands of either sign and zero, a NaN and the infinities. -/
theorem test_wit_half_values : hfVal 0x3F8000 = .fin ⟨0x8000, -15⟩ ∧ hfVal 0xBF8000 = .fin ⟨-0x8000, -15⟩ ∧ hfVal 0 = .fin ⟨0, -141⟩
    ∧ hfVal 0x7FC000 = .nan ∧ hfVal 0x7F8000 = .inf false ∧ hfVal 0xFF8000 = .inf true := by decide +kernel

theorem test_wit_hcmp : let f := { sf with ra := 4, rb := 1, imm := 5 };
    f.i = false ∧ f.imm.toNat ≤ 5 ∧ (trayS regs).issues 0 0 0x1D f [4, 1] [] = true
    ∧ natBits 0x7F8001 22 15 = 255 ∧ natBits 0x7F8001 14 0 ≠ 0 ∧ natBits 0x000001 22 15 = 0 ∧ natBits 0x7F7FFF 22 15 = 254
    ∧ hfVal 0x7FC000 = .nan ∧ hfVal 1 = .fin ⟨1, -141⟩ ∧ hfVal 0xFF8000 = .inf true ∧ hfVal 0x7F8000 = .inf false := by decide +kernel

theorem test_wit_branches : let f := { sf with ra := 1, imm := -1 };
    ∀ p ∈ ([(0x2C, []), (0x2D, [1]), (0x2E, [1]), (0x2F, [])] : List (Nat × List Nat)), (trayS regs).issues 0 0 p.1 f p.2 [] = true := by
  decide +kernel

/-- G1 = the last doubleword of core 0's memory; G2 = the first doubleword of the Yard. -/
def addrs : Slot → Slot := fun x => { x with g := [(1, 0x400BFFF8), (2, 0x100000000)] }

theorem test_wit_loads : ∀ p ∈ [(0x20, 4), (0x21, 8)],
    (let f := { sf with rd := 6, ra := 1 };
      (trayS addrs).issues 0 0 p.1 f [1] [6] = true ∧ lsAddr ((trayS addrs).slot 0 0) f % p.2 = 0
      ∧ (trayS addrs).place (lsAddr ((trayS addrs).slot 0 0) f) = .core 0 0xBFFF8
      ∧ ((trayS addrs).core 0).lsHeld 0x400BFFF8 p.2 false = false ∧ ((trayS addrs).core 0).badIn 0xBFFF8 (0xBFFF8 + p.2) = []
      ∧ ((trayS addrs).core 0).weakIn 0xBFFF8 (0xBFFF8 + p.2) = [])
    ∧ (let f := { sf with rd := 6, ra := 2 };
      (trayS addrs).issues 0 0 p.1 f [2] [6] = true ∧ (trayS addrs).place (lsAddr ((trayS addrs).slot 0 0) f) = .yard 0
      ∧ (trayS addrs).yardOk ((trayS addrs).slotDom 0 0) 0 = true ∧ (trayS addrs).yardCut 0 0 = false
      ∧ (trayS addrs).yardBadIn 0 (0 + p.2) = [] ∧ (trayS addrs).yardWeakIn 0 (0 + p.2) = []) := by decide +kernel

theorem test_wit_stores : ∀ p ∈ [(0x22, 4), (0x23, 8)],
    (trayS addrs).issues 0 0 p.1 { sf with rd := 6, ra := 1 } [1, 6] [] = true ∧ (trayS addrs).memsOk = true
    ∧ ((trayS addrs).core 0).lsHeld 0x400BFFF8 p.2 true = false
    ∧ (trayS addrs).issues 0 0 p.1 { sf with rd := 6, ra := 2 } [2, 6] [] = true := by decide +kernel

/-- A slot whose oldest instruction is `e`. -/
def retiring (e : RetEntry) : State := trayS fun x => { x with ret := [e], cseq := 1 }
def entry (evs : List FlagEv) (fault : Option RFault) (act : RetAct) : RetEntry := ⟨0, 1, 0, true, 1, evs, fault, act⟩

theorem retires_of {s : State} {c k : Nat} {e : RetEntry} (h : (s.hasSlot c k && s.slotTabs c k && decide ((s.slot c k).ret.head? = some e)
    && e.complete && decide ((s.slot c k).term = none) && (s.slot c k).uid.isSome && !s.pastDeadline c k) = true) : s.retires c k e := by
  simp only [Bool.and_eq_true, decide_eq_true_eq] at h
  refine ⟨h.1.1.1.1.1.1, h.1.1.1.1.1.2, h.1.1.1.1.2, h.1.1.1.2, h.1.1.2, h.1.2, fun uid t d hu ht hd => ?_⟩
  have := h.2
  simpa [State.pastDeadline, hu, ht, hd] using this

theorem test_wit_windows : (trayS addrs).issues 0 0 0x26 { sf with ra := 1, imm := 7 } [1] [] = true
    ∧ (trayS addrs).issues 0 0 0x27 { sf with imm := 7 } [] [] = true
    ∧ natBits 0x6F10300001000005 29 16 < natBits 0x6F10300001000005 45 32 ∧ natBits 0x6F10300001000005 45 32 ≤ 12288 := by decide +kernel
theorem test_wit_wopen : (retiring (entry [] none (.wopen 7 0x6F10300001000005))).retires 0 0 (entry [] none (.wopen 7 0x6F10300001000005)) :=
  retires_of (by decide +kernel)
theorem test_wit_wclose : (retiring (entry [] none (.wclose 7))).retires 0 0 (entry [] none (.wclose 7)) := retires_of (by decide +kernel)

/-! ### States that meet the hypotheses of the statements: engine commands -/

/-- Addresses at which a load or a store of either width is refused: misaligned, in the set-up registers, in no unit, in another domain's granule. -/
theorem test_wit_refused_accesses : ∀ p ∈ [(0x20, 4, [1], [6]), (0x21, 8, [1], [6]), (0x22, 4, [1, 6], []), (0x23, 8, [1, 6], [])],
    let f := { sf with rd := 6, ra := 1 };
    let at_ := fun a => trayS fun x => { x with g := [(1, a)] };
    (at_ 0x400BFFFE).issues 0 0 p.1 f p.2.2.1 p.2.2.2 = true ∧ lsAddr ((at_ 0x400BFFFE).slot 0 0) f % p.2.1 ≠ 0
    ∧ (at_ 8).issues 0 0 p.1 f p.2.2.1 p.2.2.2 = true ∧ (at_ 8).place 8 = .regs 8 ∧ (at_ 0).place storeBase = .store 0
    ∧ (at_ 0x3FFFFFF8).issues 0 0 p.1 f p.2.2.1 p.2.2.2 = true ∧ (at_ 0).place 0x3FFFFFF8 = .nowhere
    ∧ (at_ 0x100010000).issues 0 0 p.1 f p.2.2.1 p.2.2.2 = true ∧ (at_ 0).place 0x100010000 = .yard 65536
    ∧ (at_ 0).yardOk ((at_ 0).slotDom 0 0) 65536 = false ∧ (at_ 0).yardOk ((at_ 0).slotDom 0 0) 0 = true
    ∧ (at_ 0x401BFFF8).issues 0 0 p.1 f p.2.2.1 p.2.2.2 = true ∧ (at_ 0).place 0x401BFFF8 = .core 1 0xBFFF8
    ∧ ((at_ 0).slot 0 0).remote = none := by decide +kernel
/-- Units in error that a load meets, in core memory and in the Yard, and one that a store cannot merge with; a path that is cut. -/
theorem test_wit_failed_accesses : (let s := { trayS addrs with yard := { bad := [0] } };
      s.yardBadIn 0 (0 + 4) ≠ [] ∧ s.yardCut 0 0 = false ∧ (s.yardWrite (bytesAt 0 (toLE 4 7))).2 ≠ []
      ∧ s.issues 0 0 0x20 { sf with rd := 6, ra := 2 } [2] [6] = true ∧ s.issues 0 0 0x22 { sf with rd := 6, ra := 2 } [2, 6] [] = true)
    ∧ (let s := tray { slots := [(0, addrs aSlot)], bad := [0xBFFF8] };
      (s.core 0).badIn 0xBFFF8 (0xBFFF8 + 4) ≠ [] ∧ (s.core 0).lsHeld 0x400BFFF8 4 false = false
      ∧ s.issues 0 0 0x20 { sf with rd := 6, ra := 1 } [1] [6] = true) := by decide +kernel
theorem test_wit_cut (h : Config.crosses 0 0 5 = true) : ({ trayS addrs with ras := { linkDown := [5] } } : State).yardCut 0 0 = true := by
  show ([5] : List Nat).any (Config.crosses 0 (4 * State.slice _ 0)) = true
  have : 4 * State.slice { trayS addrs with ras := { linkDown := [5] } } 0 = 0 := by decide +kernel
  rw [this]
  simp [h]

/-- A tensor descriptor of one plane, with rows padded to 16 elements (R48). -/
def desc (fmt dim0 dim1 base : Nat) : Nat :=
  let st := (dim0 + 15) / 16 * 16
  fields [(252, fmt), (240, if fmt = 5 then 0 else 0x80), (208, dim0), (192, dim1), (176, 1), (152, st), (112, st * dim1),
    (48, if isBlock fmt then base + 0x800 else 0), (0, base)]

/-- Tensors of one HQ32 or HB16 element, at the places 0 to 3. -/
def hq (i : Nat) : Nat := desc 1 1 1 (0x40000000 + 0x1000 * i)
def hb (i : Nat) : Nat := desc 4 1 1 (0x40000000 + 0x1000 * i)

/-- An operand that names descriptor `i`; register `r` as a scalar; no operand. -/
def opD (i : Nat) : BitVec 16 := BitVec.ofNat 16 (64 * i)
def opS (r : Nat) : BitVec 16 := BitVec.ofNat 16 (0xFFC0 + 2 * r)
def opN : BitVec 16 := 0xFFC0

/-- A pattern program of one record with one product (R99 to R102). -/
def pattern : List Byte := toLE 32 (fields [(240, 1), (224, 1), (208, 1), (160, 1)]) ++ toLE 8 0 ++ toLE 128 0xC000

/-- A tray whose slot 0 of core 0 holds the long instruction next, behind its descriptors, in a solve; the pattern program is at G20. -/
def cmdTray (mem : List Byte) (ds : List Nat) (opc : Nat) (f : LFields) (g : Slot → Slot := id) : State :=
  let s := tray
    { mem := Mem.write [] 0x80000 mem
      slots := [(0, g { aSlot with
        pc := 32 * ds.length, g := [(20, 0x40080000), (21, 5)]
        sc := { solved := true, nVar := 1, mCon := 1, tau := 1, delta := 1024, capOut := 2, capIn := 2 } })] }
  let code := ds.flatMap (toLE 32) ++ toLE 8 (longWord0 opc f) ++ toLE 8 (longWord1 f)
  { s with sched := { s.sched with jobs := [(0, { st := .loaded, ndesc := ds.length, segBytes := code })] } }

/-- Whether a command issues that names its descriptors in order, and the others as given. -/
def goes (sp : CmdSpec) (mem : List Byte) (ds : List Nat) (f : LFields) : Bool := (cmdTray mem ds sp.opc f).issuesCmd 0 0 sp f

def d1 : LFields := { lf with op0 := opD 0, op1 := opN, op2 := opN, op3 := opN }
def d2 : LFields := { d1 with op1 := opD 1 }
def d3 : LFields := { d2 with op2 := opD 2 }

theorem test_wit_se : goes specSpmv pattern [hq 0, hb 1, hq 2] { d3 with preg := 20, scl := -40 } = true
    ∧ goes specVscale pattern [hb 0, hb 1, hq 2] { d3 with preg := 20, scl := 255 } = true := by decide +kernel
theorem test_wit_dbe : goes specDgemm [] [hq 0, hb 1, hb 2] { d3 with scl := -256 } = true
    ∧ goes specBdapply [] [hq 0, hb 1, hb 2] { d3 with param := 0x101 } = true
    ∧ goes specFormk [] [hq 0, desc 4 1 16 0x40001000, hq 2, hq 3] { d3 with op3 := opD 3, preg := 20, param := 0x04010100 } = true
    ∧ goes specFact [] [hq 0] { d1 with param := 0x05010100 } = true
    ∧ goes specInvblk [] [hq 0, hb 1] { d2 with param := 0x05010100 } = true := by decide +kernel
theorem test_wit_ve : goes specVadd [] [hq 0, hq 1] { d2 with op2 := opS 21 } = true
    ∧ (∀ sp ∈ [specVsub, specVmul], goes sp [] [hq 0, hq 1, hq 2] d3 = true)
    ∧ (∀ sp ∈ [specVmadd, specVclamp], goes sp [] [hq 0, hq 1, hq 2] { d3 with op3 := opD 2 } = true)
    ∧ (∀ sp ∈ [specVcopy, specVneg, specVabs, specShift], goes sp [] [hq 0, hq 1] d2 = true)
    ∧ goes specVclr [] [hq 0] d1 = true ∧ goes specVcvt [] [desc 5 1 1 0x40000000, hq 1] { d2 with rnd := 1 } = true
    ∧ goes specVsel [] [hq 0, hq 1, hq 2] { d3 with param := 0x2B4 } = true := by decide +kernel
theorem test_wit_reductions : goes specVdot [] [hq 0, hq 1] { lf with op0 := opS 22, op1 := opD 0, op2 := opD 1, op3 := opN } = true
    ∧ goes specVmaxabs [] [hq 0] { d1 with op0 := opS 22, op1 := opD 0 } = true
    ∧ goes specVsumh [] [desc 5 1 1 0x40000000] { d1 with op0 := opS 22, op1 := opD 0 } = true := by decide +kernel
theorem test_wit_ru : goes specRspmv pattern [hq 0, hb 1, hq 2, hq 3] { d3 with op3 := opD 3, preg := 20, scl := -64, param := 1 } = true
    ∧ goes specRmul [] [hq 0, hq 1, hq 2] { d3 with scl := 96 } = true
    ∧ goes specRdot [] [hq 0, hq 1, hq 2]
        { lf with scl := -320, op0 := opS 22, op1 := opD 0, op2 := opD 1, op3 := opD 2, param := 0x50000000 } = true := by decide +kernel
theorem test_wit_lte : goes specLmatv [] [desc 1 4 1 0x40000000, desc 6 8 4 0x40001000, desc 6 8 1 0x40002000] d3 = true := by decide +kernel

/-! ### States that meet the hypotheses of the statements: remote words, tallies, tasks and the solve control -/

/-- The tray with core 1 in the same domain, whose window 0 takes everything. -/
def two (f : Slot → Slot) : State :=
  let s := trayS f
  { s with
    cores := s.cores ++ [(1, { wins := [(0, 0xFF00300000000007)] })]
    sched := { s.sched with cmap := [(0, { valid := true, pack := true }), (1, { valid := true })] } }

def xf : SFields := { sf with ra := 1, rb := 2, imm := 511 }
def xs : State := two fun x => { x with g := [(1, 0x400BF000), (2, 0x40100000)] }

theorem test_wit_xmove : xs.issues 0 0 0x24 xf (srcRegs xf) [] = true ∧ coreBase 0 ≤ 0x400BF000 ∧ 0x400BF000 + 8 * 512 ≤ coreBase 0 + coreBytes
    ∧ (xs.core 0).lsHeld 0x400BF000 4096 false = false ∧ xs.beatCore 0 0x40100000 512 = some 1 ∧ (xs.core 0).sb.length < 256 := by decide +kernel
/-- No beat of a block at core 1's hole reaches a core (R12). -/
theorem test_wit_xmove_nowhere : let s := two fun x => { x with g := [(1, 0x400BF000), (2, 0x401C0000)] };
    s.issues 0 0 0x24 xf (srcRegs xf) [] = true ∧ s.beatCore 0 0x401C0000 512 = none ∧ natBit xf.imm.toNat 9 = false := by decide +kernel

/-- A word and the first beat of an XMOVE from core 0 to the last doubleword of core 1. -/
def word (left : Nat) (write : Bool) : RWord :=
  { src := 0, slot := 0, uid := 1, cseq := 0, tgt := 1, addr := 0x401BFFF8, write := write, width := 8, val := 7, reg := 6, left := left
    laddr := 0x40000000 }
def ws (left : Nat) (write : Bool) : State := { xs with mesh := [word left write] }

theorem test_wit_remote : ∀ n ∈ [0, 2], ∀ w ∈ [false, true],
    ((ws n w).mesh.find? fun v => v.src == (word n w).src && v.tgt == (word n w).tgt) = some (word n w) ∧ (ws n w).undeliverable 0 1 = false
    ∧ (ws n w).remoteOk 0 1 0xBFFF8 8 w = true ∧ (ws n w).place 0x401BFFF8 = .core 1 0xBFFF8 ∧ ((ws n w).core 0).badIn 0 8 = []
    ∧ ((ws n w).core 0).weakIn 0 8 = [] ∧ ((ws n w).core 1).badIn 0xBFFF8 (0xBFFF8 + 8) = []
    ∧ ((ws n w).core 1).weakIn 0xBFFF8 (0xBFFF8 + 8) = [] ∧ ((ws n w).slot 0 0).uid = some 1 ∧ (ws n w).slotTabs 0 0 = true := by decide +kernel
/-- A word that core 1's windows refuse. -/
theorem test_wit_remote_refused : ({ ws 0 true with cores := [(0, aCore)] } : State).remoteOk 0 1 0xBFFF8 8 true = false := by decide +kernel

/-- The tray's job holds model 5 of 6 pages, whose last page stands in frame 9. -/
def kg : State :=
  let s := trayS fun x => { x with g := [(1, 0xBFFC0), (2, 5)] }
  { s with
    sched := { s.sched with jobs := [(0, { st := .loaded, models := [5], nmodels := 1 })] }
    knl := { s.knl with models := [(5, { valid := true, pnBase := 0x400, npages := 6 })], frames := [(9, { st := .pinned, pn := 0x405 })] } }
def kf : SFields := { sf with ra := 1, rb := 2, imm := 0x0FF00000 }
def kt : Touch := ⟨0, 0, 1, 0, none, 0x405, 16320, 64, 0xBFFC0, some 9⟩

theorem test_wit_kget : kg.issues 0 0 0x25 kf (srcRegs kf) [] = true ∧ 0xBFFC0 + 64 ≤ coreBytes
    ∧ (kg.core 0).lsHeld (coreBase 0 + 0xBFFC0) 64 true = false ∧ kg.touchPage (kg.slotJob 0 0) 0 5 = some 0x405
    ∧ kg.frameOf 0x405 = some (9, { st := .pinned, pn := 0x405 }) ∧ (kg.core 0).sb.length < 256 := by decide +kernel
/-- A page of a BE job that stands in no frame. -/
theorem test_wit_kget_waits :
    let u := { kg with
      sched := { kg.sched with jobs := [(0, { st := .loaded, be := true, models := [5], nmodels := 1 })] }, knl := { kg.knl with frames := [] } };
    u.issues 0 0 0x25 kf (srcRegs kf) [] = true ∧ u.frameOf 0x405 = none ∧ (u.slotJob 0 0).be = true
    ∧ u.knl.waiting.contains (.page 0x405) = false ∧ u.touchPage (u.slotJob 0 0) 0 5 = some 0x405 := by decide +kernel

theorem test_wit_read_done : let s := { kg with knl := { kg.knl with touches := [kt], frames := [(9, { st := .pinned, pn := 0x405, reads := 1 })] } };
    (Tab.get ({} : Sys2Proof.Machine.Frame) s.knl.frames 9).reads ≠ 0 ∧ (Tab.get ({} : Sys2Proof.Machine.Frame) s.knl.frames 9).st = .pinned
    ∧ (s.knl.touches.find? fun t => t.frame == some 9 && t.chan.isNone) = some kt
    ∧ s.yardBadIn (16384 * 9 + 16320) (16384 * 9 + 16320 + 64) = []
    ∧ s.yardWeakIn (16384 * 9 + 16320) (16384 * 9 + 16320 + 64) = [] := by decide +kernel

/-- A KGET whose path to the Yard a failed link cuts. -/
theorem test_wit_read_cut (h : Config.crosses 0 0 5 = true) :
    ((lineAddrs 0 64).find? fun o => State.yardCut { trayS addrs with ras := { linkDown := [5] } } 0 o) = some 0 := by
  have l : lineAddrs 0 64 = [0] := by decide +kernel
  rw [l, List.find?_cons_of_pos (test_wit_cut h)]

/-- Domain 0 owns the last tally. -/
def tl : State :=
  let s := trayS fun x => { x with g := [(1, 262143), (2, 3)] }
  { s with tly := { s.tly with drange := [(0, 0x4000000000000)] } }
def tf : SFields := { sf with ra := 1, rb := 2 }

theorem test_wit_tally : (∀ o ∈ [0x28, 0x29, 0x2A], tl.issues 0 0 o tf (srcRegs tf) [] = true) ∧ tl.ownsTally (tl.slotDom 0 0) 262143 = true
    ∧ (262143 : Nat) < tallies ∧ tl.tallyFailed 262143 = false
    ∧ (∀ w ∈ [false, true], tl.tallyLost ⟨262143, w, 3, 0, some 1, 0⟩ = false) := by decide +kernel

theorem test_wit_wait : let s := trayS fun x => { x with wait := some ⟨0, 5, 1, false, true⟩ };
    s.hasSlot 0 0 = true ∧ s.slotTabs 0 0 = true ∧ (s.slot 0 0).wait = some ⟨0, 5, 1, false, true⟩ ∧ (s.slot 0 0).uid = some 1 := by
  decide +kernel

/-- Task 1 waits on tally 5, which has its value. -/
def taskTray0 : State :=
  let s := tray {}
  { s with
    sched := { s.sched with tasks := [{ aTask with st := .waiting, trigV := true, trigTally := 5, trigN := 1, trigSat := false }] }
    tly := { s.tly with val := [(5, 1)] } }
def op1 : TOp := ⟨5, false, 3, 0, none, 0⟩
def op2 : TOp := ⟨5, true, 9, 0, none, 0⟩
theorem test_wit_tally_ops : let s : State := { tly := { ops := [op1, op2], val := [(5, 4)] } };
    [op1, op2].Perm [op2, op1] ∧ pickOps s 5 2 [] s.tly.ops ≠ [] ∧ s.tallyFailed 5 = false
    ∧ (tallyNew (s.tallyVal 5) (pickOps s 5 2 [] s.tly.ops)).2 = false := by decide +kernel
/-- A tally of another domain, and one in failure with an ADD alone and with a SET; a WAIT that is not met. -/
theorem test_wit_tally_refused : (let s := trayS fun x => { x with g := [(1, 5), (2, 3)] };
      (∀ o ∈ [0x28, 0x29, 0x2A], s.issues 0 0 o tf (srcRegs tf) [] = true) ∧ s.waitRefused (s.slotDom 0 0) 5 = true
      ∧ s.tallyLost ⟨5, false, 3, 0, some 1, 0⟩ = false)
    ∧ (let s : State := { tly := { ops := [op1], val := [(5, 4)], failed := [5] } };
      s.tallyFailed 5 = true ∧ pickOps s 5 2 [] s.tly.ops = [op1] ∧ s.tallyVal 5 < 2 ^ 32 ∧ Tab.wf 0 s.tly.val = true)
    ∧ (let s : State := { tly := { ops := [op1, op2], failed := [5] } }; pickOps s 5 2 [] s.tly.ops = [op1, op2] ∧ op2.isSet = true)
    ∧ (let s : State := { tly := { ops := [op1], val := [(5, 0xFFFFFFFF)] } }; (tallyNew (s.tallyVal 5) (pickOps s 5 1 [] s.tly.ops)).2 = true)
    ∧ (let s := trayS fun x => { x with wait := some ⟨0, 5, 1, false, false⟩ };
      (s.slot 0 0).wait = some ⟨0, 5, 1, false, false⟩ ∧ s.slotTabs 0 0 = true ∧ (s.testWaits 5).slot 0 0 = s.slot 0 0
      ∧ (let u := { s with tly := { s.tly with val := [(5, 1)] } }; ((u.testWaits 5).slot 0 0).wait = some ⟨0, 5, 1, false, true⟩))
    ∧ (taskTray0.task 1).map (·.st) = some .waiting ∧ ((taskTray0.testWaits 5).task 1).map (·.trigSat) = some true := by decide +kernel
/-- R230, R231: the SET counts first, then the ADD; an ADD stops at the largest value. -/
theorem test_tally_new : tallyNew 4 [op1, op2] = (12, false) ∧ (tallyNew 0xFFFFFFFF [op1]).1 = 0xFFFFFFFF := by decide

/-- A task block in core 0's memory: two instances of entry 0 of job 0, with argument blocks and result records in the same core. -/
def block (count : Nat) : Nat := fields [(302, 0), (192, 7), (128, 50000), (80, 0x40001000), (32, 0x40002000), (16, count), (0, 1)]
def sp : State :=
  let s := tray { mem := Mem.write [] 64 (toLE 40 (block 1)), slots := [(0, { aSlot with g := [(1, 0x40000040)] })] }
  { s with sched := { s.sched with jobs := [(0, { st := .loaded, entries := [0] })] } }

theorem test_wit_spawn : sp.issues 0 0 0x2B { sf with ra := 1 } [1] [] = true ∧ coreBase 0 ≤ 0x40000040 ∧ sp.word 0x40000040 40 = block 1
    ∧ sp.sound 0x40000040 40 = true ∧ sp.blockRefusal 0 (TaskBlock.ofNat (block 1)) = none
    ∧ sp.blockRoom 0 (TaskBlock.ofNat (block 1)) = true := by decide +kernel

/-- A solve parameter block with one schedule entry at 0x40000100 (R94, R98). -/
def spb : Nat := fields [(464, 0x40000100), (460, 1), (448, 1), (432, 3), (416, 2), (384, 4), (368, 8), (360, 2), (354, 4), (320, 1),
  (192, 1), (160, 1), (112, 64)]
def sv (sc : SolveCtl) : State :=
  tray { mem := (Mem.write [] 64 (toLE 64 spb)).write 256 (toLE 16 (fields [(32, 1), (0, 1)]))
         slots := [(0, { aSlot with g := [(1, 0x40000040)], sc := sc })] }

theorem test_wit_solve : let s := sv {};
    s.issues 0 0 0x30 { sf with ra := 1 } [1] [] = true ∧ (s.slot 0 0).sc.solved = false ∧ s.taskRange 0 (s.slotDom 0 0) 0x40000040 64 = true
    ∧ s.word 0x40000040 64 = spb ∧ natBits spb 353 352 < 2 ∧ s.taskRange 0 (s.slotDom 0 0) 0x40000100 16 = true
    ∧ s.sound 0x40000040 64 = true ∧ s.sound 0x40000100 16 = true
    ∧ spbOk spb (schedOk none [s.word 0x40000100 16]) = true := by decide +kernel

theorem test_wit_solve_control : let s := sv { solved := true, stgDone := true, capOut := 2, capIn := 2, outCnt := 2, inCnt := 1 };
    (∀ o ∈ [0x31, 0x32, 0x33, 0x35], s.issues 0 0 o sf [] [] = true) ∧ (s.slot 0 0).sc.solved = true ∧ (s.slot 0 0).sc.stgDone = true
    ∧ (s.slot 0 0).sc.outCnt = (s.slot 0 0).sc.capOut ∧ (s.slot 0 0).sc.inCnt ≠ (s.slot 0 0).sc.capIn := by decide +kernel

/-- A reserved bit, a wrong register or field, and a reserved RND. -/
theorem test_wit_reserved_short : ∀ p ∈ ([(0x10, { sf with rd := 7 }), (0x17, { sf with i := true }), (0x1D, { sf with imm := 6 }),
    (0x1E, { sf with imm := 63 }), (0x1F, { sf with imm := -1 }), (0x18, { sf with rnd := 2 }), (0x20, { sf with rnd := 1 }),
    (0x36, { sf with res := 1 })] : List (Nat × SFields)), (trayS regs).atIssue 0 0 (shortWord p.1 p.2) none = true := by decide +kernel
theorem test_wit_reserved_long :
    (∀ p ∈ ([(0x34, { lf with scl := 1 }), (0x34, { lf with preg := 31 }), (0x85, { lf with rnd := 3 }), (0xC0, { lf with op0 := 1 })]
      : List (Nat × LFields)), (trayS regs).atIssue 0 0 (longWord0 p.1 p.2) (some (longWord1 p.2)) = true)
    ∧ (resolve ((trayS regs).slotJob 0 0) ((trayS regs).slot 0 0) 1).isWrong = true
    ∧ decodeBad specVcopy.e specVcopy.kinds ((trayS regs).mkCmd 0 0 specVcopy { lf with rnd := 3 }) = true := by decide +kernel
theorem test_wit_reserved : (trayS regs).atIssue 0 0 (shortWord 0x01 { sf with res := 32 }) none = true
    ∧ (trayS regs).atIssue 0 0 (longWord0 0x40 { lf with res := 64 }) (some (longWord1 { lf with res := 64 })) = true
    ∧ ({ sf with res := 32 } : SFields).res ≠ 0 ∧ ({ lf with res := 64 } : LFields).res ≠ 0 := by decide +kernel

/-! ### States that meet the hypotheses of the statements: commands in flight, retirement, tasks -/

/-- A VCOPY of one element by slot 0, from descriptor 1 to descriptor 0. -/
def cmd (dur : Nat) (line : Option Nat) : ECmd :=
  let x := (cmdTray [] [hq 0, hq 1] 0x85 d2).mkCmd 0 0 specVcopy d2
  { uid := 1, slot := 0, cseq := 0, opc := 0x85, order := 0, f := d2, o0 := x.o0, o1 := x.o1, o2 := x.o2, o3 := x.o3, preg := x.preg, g := x.g
    sc := x.sc, refuse := false, reg := none, srcs := [], dur := dur, line := line, got := [(0x40001000, 7)] }
def aRet : RetEntry := ⟨0, 0x85, 3, false, 0, [], none, .none⟩
def running (dur : Nat) (line : Option Nat) : State :=
  tray
    { ve := { run := some (cmd dur line), buf := [(0x40001000, 7)] }
      slots := [(0, { aSlot with cseq := 1, ret := [aRet] })], sb := [⟨1, 0, 0, 1, true⟩] }
def ran : ERes := ((cmd 0 none).made 0).1

theorem test_wit_start : let s := tray { aCore with ve := { queue := [cmd 0 none] }, grant := 10 };
    ((s.core 0).eng .ve).run = none ∧ s.ras.fence.contains 0 = false ∧ s.nextCmd 0 .ve = some (cmd 0 none)
    ∧ (s.creditRequest 0 .ve).1 = .start ∧ ((s.creditRequest 0 .ve).2.core 0).bad = [] ∧ ((s.creditRequest 0 .ve).2.core 0).weak = [] := by
  decide +kernel
/-- Two commands of two slots: the first is the older; with a task in slot 1, LC; with slot 1 told to yield. -/
theorem test_wit_next : let m := cmd 0 none;
    let n := { m with slot := 1, uid := 2, order := 1 };
    let s := fun (be : Bool) (y : Option (Bool × Nat)) =>
      let t := tray { slots := [(0, aSlot), (1, { uid := some 2, started := true, yield := y })], ve := { queue := [m, n] } };
      ({ t with sched := { t.sched with tasks := [{ aTask with be := true }, { aTask with uid := 2, be := be, st := .running 0 1 }] } } : State);
    ([m, n].find? fun y => y.slot == n.slot) = some n ∧ ((s true none).nextCmd 0 .ve).map (·.slot) = some 0
    ∧ ((s false none).nextCmd 0 .ve).map (·.slot) = some 1 ∧ ((s true (some (true, 0))).nextCmd 0 .ve).map (·.slot) = some 1 := by decide +kernel
/-- The commands of the element-wise operations over three HQ32 tensors of one element, one with a scalar source, one over HF24 tensors. -/
def engCmd (sp : CmdSpec) (mem : List Byte) (ds : List Nat) (f : LFields) : Cmd := (cmdTray mem ds sp.opc f).mkCmd 0 0 sp f
def tens (n : Nat) : TDesc := TDesc.ofNat n
theorem test_wit_elements : (let x := engCmd specVadd [] [hq 0, hq 1, hq 2] d3;
      x.o0 = .tensor (tens (hq 0)) ∧ (tens (hq 0)).ok x.c veFmts = true ∧ isHQ (tens (hq 0)).fmt = true ∧ x.op 1 = .tensor (tens (hq 1))
      ∧ x.op 2 = .tensor (tens (hq 2)) ∧ (tens (hq 1)).ok x.c veFmts = true ∧ (tens (hq 2)).ok x.c veFmts = true
      ∧ (tens (hq 0)).n = 1 ∧ (tens (hq 1)).n = 1 ∧ (tens (hq 2)).n = 1 ∧ srcFmts x 1 [1, 2] = [1, 1]
      ∧ (tens (hq 1)).val x.m 0 = .num ⟨0, 0⟩ ∧ (tens (hq 2)).val x.m 0 = .num ⟨0, 0⟩)
    ∧ (let x := engCmd specVadd [] [hq 0, hq 1] { d2 with op2 := opS 21 };
      x.op 2 = .scalar 21 5 ∧ srcFmts x 1 [1, 2] = [1, 1] ∧ scalarVal 1 0 5 = .num ⟨5, 0⟩)
    ∧ (let h := fun i => desc 5 1 1 (0x40000000 + 0x1000 * i);
      let x := engCmd specVmul [] [h 0, h 1, h 2] d3;
      x.o0 = .tensor (tens (h 0)) ∧ x.o1 = .tensor (tens (h 1)) ∧ x.o2 = .tensor (tens (h 2))
      ∧ ∀ t ∈ [tens (h 0), tens (h 1), tens (h 2)], t.ok x.c veFmts = true ∧ t.fmt = fmtHF24 ∧ t.n = 1) := by decide +kernel
/-- VDOT over two vectors; SPMV with a program of one record, and with none; an accumulator that saturates. -/
theorem test_wit_sums : (let x := engCmd specVdot [] [hq 0, hq 1] { lf with op0 := opS 22, op1 := opD 0, op2 := opD 1, op3 := opN };
      x.o1 = .tensor (tens (hq 0)) ∧ x.o2 = .tensor (tens (hq 1)) ∧ (tens (hq 0)).ok x.c [fmtHQ16, fmtHQ32, fmtHQ64] = true
      ∧ (tens (hq 1)).ok x.c [fmtHQ16, fmtHQ32, fmtHQ64] = true ∧ (tens (hq 0)).n = 1)
    ∧ (let x := engCmd specSpmv pattern [hq 0, hb 1, hq 2] { d3 with preg := 20 };
      let h := patHead x.m x.preg;
      x.o0 = .tensor (tens (hq 0)) ∧ x.o1 = .tensor (tens (hb 1)) ∧ x.o2 = .tensor (tens (hq 2)) ∧ (tens (hq 0)).ok x.c [fmtHQ32, fmtHB16] = true
      ∧ (tens (hb 1)).ok x.c [fmtHB16] = true ∧ (tens (hq 2)).ok x.c [fmtHB16, fmtHQ32] = true ∧ patOk x.c x.m x.preg = true
      ∧ (tens (hq 0)).dim0 = h.nrows ∧ (tens (hq 2)).dim0 = h.ncols ∧ (tens (hb 1)).dim0 = h.nnz ∧ (tens (hb 1)).dim1 = 1
      ∧ (tens (hb 1)).dim2 = 1 ∧ (tens (hq 0)).n = 1 ∧ patRecord h x.m (x.preg + 32) none 0 = some ([⟨0, [(0, 0)], 0⟩], 1)
      ∧ patRecord h x.m (x.preg + 32) (some 0) 0 = none ∧ patWalk h x.m x.preg h.nrec 0 none 0 = ([⟨0, [(0, 0)], 0⟩], none))
    ∧ patOk 0 (fun _ => 0) 0x40000000 = false
    ∧ accumulate 0 [[⟨1, 62⟩], [⟨1, 62⟩]] = .sat false ∧ accumulate 0 [[⟨1, 62⟩]] = .num ⟨2 ^ 62, 0⟩
    ∧ rowsWritten ⟨3, 4, 1, 9, 0⟩ [⟨0, [], 0⟩, ⟨2, [], 1⟩] (some 2) = 1 := by decide +kernel
/-- FACT of one stage of one column, a pivot that is replaced and one that is not. -/
theorem test_wit_fact : (let x := engCmd specFact [] [hq 0] { d1 with param := 0x05010100 };
      x.o0 = .tensor (tens (hq 0)) ∧ (tens (hq 0)).ok x.c [fmtHQ32] = true ∧ (tens (hq 0)).dim0 = x.param 21 16 ∧ (tens (hq 0)).dim1 = x.param 21 16
      ∧ x.param 7 0 + x.param 15 8 ≤ (tens (hq 0)).dim2 ∧ x.param 21 16 = 1 ∧ x.param 27 22 = 20)
    ∧ (pivotRule ⟨1, -30⟩ ⟨1024, -30⟩ 20 20 0 ⟨0, -20⟩).2.1 = 1 ∧ pivotRule ⟨1, -30⟩ ⟨1024, -30⟩ 20 20 0 ⟨3, -5⟩ = (⟨3, -5⟩, 0, [])
    ∧ (2 ^ 20 / 3 : Nat) = 349525
    ∧ (factCol (tens (hq 0)) ⟨1, -30⟩ ⟨1024, -30⟩ 20 0 1 ⟨fun _ _ => ⟨3, 0⟩, fun _ _ => ⟨0, 0⟩, fun _ => ⟨0, 0⟩, [], []⟩ 0).dinv 0
      = ⟨349525, -20⟩ := by decide +kernel

theorem test_wit_complete : let s := running 8192 none;
    ((s.core 0).eng .ve).run = some (cmd 8192 none) ∧ (cmd 8192 none).dur ≤ 8192
    ∧ (s.coreWrite 0 (s.landing 0 ((cmd 8192 none).made 0).1.writes)).2 = [] ∧ s.cmdLive 0 (cmd 8192 none) = true := by
  decide +kernel
theorem test_wit_complete_bad : let s := running 8192 (some 0x40001000);
    ((s.core 0).eng .ve).run = some (cmd 8192 (some 0x40001000)) ∧ s.slotTabs 0 0 = true ∧ s.cmdLive 0 (cmd 8192 (some 0x40001000)) = true := by
  decide +kernel
theorem test_wit_abort : let s := running 8193 none;
    ((s.core 0).eng .ve).run = some (cmd 8193 none) ∧ 8192 < (cmd 8193 none).dur ∧ s.memsOk = true ∧ s.slotTabs 0 0 = true
    ∧ (∀ p ∈ ((cmd 8193 none).made 0).1.writes, ∀ b ∈ p.addrs, coreBase 0 ≤ b) ∧ (s.core 0).bad = [] ∧ s.cmdLive 0 (cmd 8193 none) = true := by decide +kernel
/-- A copy writes the four bytes of its element as they were staged. -/
theorem test_staged_bytes : landAll (fun _ => 0) ran.writes = [(0x40000000, 7), (0x40000001, 0), (0x40000002, 0), (0x40000003, 0)] := by decide +kernel

theorem test_wit_retire : (retiring (entry [⟨fSat, 3⟩] none .none)).retires 0 0 (entry [⟨fSat, 3⟩] none .none) := retires_of (by decide +kernel)
theorem test_wit_retire_flags : raises fRange [⟨fSat, 3⟩] = false := by decide
theorem test_wit_data_error : (retiring (entry [] (some (.dataError 64)) .none)).retires 0 0 (entry [] (some (.dataError 64)) .none) :=
  retires_of (by decide +kernel)
theorem test_wit_malformed : (retiring (entry [] (some .malformed) .none)).retires 0 0 (entry [] (some .malformed) .none) :=
  retires_of (by decide +kernel)
theorem test_wit_aborted : (retiring (entry [] (some .aborted) .none)).retires 0 0 (entry [] (some .aborted) .none) :=
  retires_of (by decide +kernel)
theorem test_wit_range : (retiring (entry [⟨fRange, 3⟩] none .none)).retires 0 0 (entry [⟨fRange, 3⟩] none .none) :=
  retires_of (by decide +kernel)
theorem test_wit_outer : (retiring (entry [] none .outer)).retires 0 0 (entry [] none .outer) := retires_of (by decide +kernel)
theorem test_wit_inner : (retiring (entry [] none .inner)).retires 0 0 (entry [] none .inner) := retires_of (by decide +kernel)
/-- An inexact solve retires with pivots and then by FINISH; a COMMIT retires before and after another. -/
theorem test_wit_solve_retires : ∀ a ∈ [RetAct.solve, .pivots [⟨0, 0, 0⟩], .commit ⟨1, 0, 4, 0x40010000, 0x40000000, 0x40001000, 0x40002000, []⟩,
    .finish 0, .finish 1], ((retiring (entry [] none a)).slot 0 0).ret.head? = some (entry [] none a)
      ∧ natBit (enterFlags ((retiring (entry [] none a)).slot 0 0).flags []) fInvalid = false := by decide +kernel
theorem test_wit_retires_invalid : natBit (enterFlags 0 [⟨fInvalid, 3⟩]) fInvalid = true ∧ raises fRange [⟨fInvalid, 3⟩] = false := by decide
theorem test_wit_finish : (retiring (entry [] none (.finish 15))).retires 0 0 (entry [] none (.finish 15)) := retires_of (by decide +kernel)
theorem test_wit_cap : (retiring (entry [] none .cap)).retires 0 0 (entry [] none .cap) := retires_of (by decide +kernel)

/-- A COMMIT of z, z_c and y at descriptors 0 to 2, with np in G1 and the CIB's address in G2. -/
def cf : LFields := { d3 with param := 0x22 }
def cs (copy : Option CommitJob) : State := cmdTray [] [hq 0, hq 1, hq 2] 0x34 cf fun x =>
  { x with g := [(1, 4), (2, 0x40010000)], sc := { x.sc with outCnt := 1 }, copy := copy }
theorem test_wit_commit : let cs := cs none;
    cs.atIssue 0 0 (longWord0 0x34 cf) (some (longWord1 cf)) = true ∧ cf.res = 0 ∧ cf.rnd.toNat ≤ 1
    ∧ ([cf.op0, cf.op1, cf.op2, cf.op3].all fun o => !(resolve (cs.slotJob 0 0) (cs.slot 0 0) o).isWrong) = true
    ∧ cs.held 0 0 (operandRegs cf.op0 ++ operandRegs cf.op1 ++ operandRegs cf.op2 ++ [1, 2]) [] = false
    ∧ cf.scl = 0 ∧ cf.preg = 0
    ∧ (commitJob cs 0 0 cf).map (fun j => [j.half, j.k, j.np, j.cib, j.z, j.zc, j.y])
      = some [0, 0, 4, 0x40010000, 0x40000000, 0x40001000, 0x40002000]
    ∧ ((cs.slot 0 0).ret.all fun e => !(e.act matches .commit _)) = true := by decide +kernel
theorem test_wit_commit_copy : let j : CommitJob := ⟨1, 0, 4, 0x40010000, 0x40000000, 0x40001000, 0x40002000, []⟩;
    let s := cs (some j);
    s.hasSlot 0 0 = true ∧ s.slotTabs 0 0 = true ∧ s.memsOk = true ∧ (s.slot 0 0).copy = some j ∧ s.copyHeld 0 0 = false ∧ j.cib % 64 = 0
    ∧ (∀ p ∈ [(j.z, 4, 0x40010040 + 192), (j.zc, 4, 0x40010080 + 192), (j.y, 4, 0x400100C0 + 192)],
      coreBase 0 ≤ p.1 ∧ p.1 + p.2.1 ≤ coreBase 0 + coreBytes ∧ coreBase 0 ≤ p.2.2 ∧ p.2.2 + lineUp p.2.1 ≤ coreBase 0 + coreBytes
      ∧ (s.core 0).badIn (lineAddr (p.1 - coreBase 0)) (lineUp (p.1 - coreBase 0 + p.2.1)) = []
      ∧ (s.core 0).weakIn (lineAddr (p.1 - coreBase 0)) (lineUp (p.1 - coreBase 0 + p.2.1)) = []) := by decide +kernel

/-- The tray with its task changed. -/
def taskTray (k : Core) (f : Task → Task) : State :=
  let s := tray k
  { s with sched := { s.sched with tasks := [f aTask] } }

/-- A task at its deadline. -/
theorem test_wit_past_deadline : let s := taskTray { slots := [(0, { aSlot with ret := [entry [] none .none] })] } fun t => { t with deadline := some 0 };
    s.hasSlot 0 0 = true ∧ (s.slot 0 0).uid = some 1 ∧ (s.task 1).bind (·.deadline) = some 0 ∧ 0 ≤ s.dt
    ∧ s.pastDeadline 0 0 = true := by decide +kernel
theorem test_wit_terminate : (tray aCore).slotTabs 0 0 = true ∧ ((tray aCore).slot 0 0).uid = some 1 ∧ ((tray aCore).slot 0 0).term = none
    ∧ ((trayS fun x => { x with term := some ⟨1, 1, 0, 0, none⟩ }).slot 0 0).term.isSome = true := by decide +kernel
/-- Deadlines at their stop: a running, a parked and a pending task; and a task that has drained. -/
theorem test_wit_stops : (let s := taskTray aCore fun t => { t with deadline := some 4000 };
      (s.task 1).isSome = true ∧ (s.task 1).all s.stopDue = true)
    ∧ (let s := taskTray { parked := [⟨aSlot, [], 0⟩] } fun t => { t with st := .parked 0, deadline := some 0 };
      (s.core 0).parkedOf 1 = some ⟨aSlot, [], 0⟩ ∧ (s.task 1).map (·.st) = some (.parked 0))
    ∧ (let s := taskTray {} fun t => { t with st := .ready, deadline := some 4000 }; (s.task 1).map (·.st) = some .ready)
    ∧ (let s := taskTray { slots := [(0, { aSlot with term := some ⟨0, 0, 0, 0, none⟩ })] } fun t => { t with st := .draining 0 0 };
      (s.task 1).map (·.st) = some (.draining 0 0) ∧ (s.slot 0 0).term = some ⟨0, 0, 0, 0, none⟩ ∧ s.drained 0 1 = true) := by
  decide +kernel

theorem test_wit_release : let s := taskTray {} fun t => { t with st := .waiting, trigV := true, dlmode := 1, dlval := 9000 };
    (s.task 1).map (fun t => (t.st, t.trigSat, s.stopDue t)) = some (.waiting, true, false) := by decide +kernel
theorem test_wit_dispatch : (let s := taskTray { grant := 1 } fun t => { t with st := .ready, deadline := some 9000 };
      s.stopDue aTask = false ∧ s.lcChoice.map (fun p => (p.1.uid, p.2)) = some (1, 0, 0) ∧ s.slotTabs 0 0 = true ∧ (s.task 1).isSome = true)
    ∧ (let s := taskTray {} fun t => { t with st := .ready, be := true };
      let u := { s with sched := { s.sched with jobs := [(0, { st := .loaded, be := true })], cmap := [(0, { valid := true })] } };
      u.lcChoice = none ∧ u.beChoice.map (fun p => (p.1.uid, p.2)) = some (1, 0, 0)) := by decide +kernel

/-- Eight BE tasks on pack core 0 and a ready LC task of the pack's job; job 1 is theirs. -/
def full : State :=
  let be := fun i => { aTask with uid := 2 + i, job := 1, be := true, st := .running 0 i }
  { (tray { slots := (List.range 8).map fun i => (i, { aSlot with uid := some (2 + i), sliceLen := 100000 }) }) with
    sched :=
      { jobs := [(0, { st := .loaded }), (1, { st := .loaded, be := true, slice := 100 })]
        tasks := { aTask with st := .ready, deadline := some 9000 } :: (List.range 8).map be, nextUid := 10
        cmap := [(0, { valid := true, pack := true })] } }
theorem test_wit_yield : full.packCores 0 = [0] ∧ (full.job 0).be = false ∧ (full.firstLc 0).isSome = true ∧ full.dispatchSlot 0 = none
    ∧ (∀ i < 8, (full.slot 0 i).yield = none) ∧ full.canYield 0 7 = true
    ∧ ((full.packCores 0).find? fun b => (List.range 8).any (full.canYield b)) = some 0 := by decide +kernel
/-- The slice of chapter 08 that runs over: the yield took effect 2,600 ns late. -/
def overrun (d : Nat) : State := { full with time := { full.time with dt := d } }
theorem test_wit_slice : ((overrun 100000).task 9).map (fun t => (t.st, t.be)) = some (.running 0 7, true)
    ∧ ((overrun 100000).slot 0 7).yield = none ∧ ((overrun 100000).slot 0 7).term = none
    ∧ ((overrun 100000).slot 0 7).sliceFrom + (((overrun 100000).slot 0 7).sliceLen - ((overrun 100000).slot 0 7).sliceUsed) ≤ 100000 := by
  decide +kernel
def yielding : State :=
  { overrun 102600 with cores := [(0, { slots := [(7, { aSlot with uid := some 9, sliceLen := 100000, yield := some (true, 100000) })] })] }
theorem test_wit_save : (yielding.task 9).map (·.st) = some (.running 0 7) ∧ (yielding.slot 0 7).yield = some (true, 100000)
    ∧ (yielding.slot 0 7).ret = [] ∧ (yielding.slot 0 7).remote = none ∧ (yielding.core 0).parked.length < 8 := by decide +kernel

/-- What a step answers, where it answers a next state. -/
def after {α : Type} (o : Out) (f : State → α) : Option α := match o with
  | .next t => some (f t)
  | _ => none
/-- The context of the slice overrun of chapter 08 is saved with a next slice of 97.4 us, and the overrun is counted. -/
theorem test_slice_overrun : after (exec (.yieldContextSave 9) yielding) (fun t =>
    ((t.core 0).parked.map fun p => (p.slot.sliceLen, p.at_), t.sched.ovrCnt, t.sched.ovrNs)) = some ([(97400, 102600)], [(0, 1)], [(0, 2600)]) := by
  decide +kernel

theorem test_wit_resume : let s := taskTray { parked := [⟨aSlot, [], 0⟩] } fun t => { t with be := true, st := .parked 0 };
    let u := { s with sched := { s.sched with cmap := [(0, { valid := true })] } };
    (u.core 0).parked = [⟨aSlot, [], 0⟩] ∧ (u.core 0).freeSlotNo = some 0 ∧ (u.owner 0).pack = false ∧ u.headBe 0 = none
    ∧ (u.task 1).any u.stopDue = false ∧ u.ras.fence.contains 0 = false ∧ (u.owner 0).scrub = false := by decide +kernel
theorem test_wit_segment : let s := tray { slots := [(0, { aSlot with started := false, seg := 8 })], segs := [(8, some ⟨0, true, [], []⟩)] };
    Tab.get none (s.core 0).segs 8 = some ⟨0, true, [], []⟩ ∧ Tab.wf ({} : Core) s.cores = true ∧ Tab.wf ({} : Slot) (s.core 0).slots = true := by
  decide +kernel


/-! ### States that meet the hypotheses of the statements: rings, doorbells, events -/

/-- Forty-eight bytes of a descriptor of this class and body, with TAG 5. -/
def hbytes (cls body xlen : Nat) : List Byte := toLE 48 (cls * 2 ^ 56 + 5 * 2 ^ 32 + xlen + body * 2 ^ 64)
def hcmd (cls body xlen : Nat) : HostCmd := ⟨0, hbytes cls body xlen, .fresh, 3, false, true⟩

/-- A tray after bring-up: function A drives domains 0 to 15 and holds set-up control; DT is 100,000. -/
def hostTray (rings : Tab Ring) : State :=
  { (tray { grant := 1 }) with
    time := { ({} : Time) with running := true, dt := 100000 }
    hif := { holder := some .a, doma := 0xFFFF, a := { ls := 2, bme := true, ready := true }, rings := rings }
    boot := { ({} : Boot) with store := true, step := 10 } }
/-- The ring every witness uses: ring 15 of domain 15, whose key is 255. -/
def aRing (cur : Option HostCmd) : Ring := { en := true, state := 1, evt := 2, nM1 := 65535, base := 0x1000, tail := 2, cur := cur }
def ringTray (h : HostCmd) : State := hostTray [(255, aRing (some h))]

theorem accepts_of {s : State} {d r cls : Nat} {op : Option Nat} {h : HostCmd}
    (e : (hasRing d r && decide ((s.ring d r).cur = some h) && decide (h.st = .fresh) && decide (h.cls = cls) && op.all (· = h.op)) = true) :
    s.accepts d r cls op h := by
  simp only [Bool.and_eq_true, decide_eq_true_eq] at e
  exact ⟨e.1.1.1.1, e.1.1.1.2, e.1.1.2, e.1.2, e.2⟩

/-- A ring that may fetch; one whose read returns a descriptor it owns; HOST_NOP; a descriptor that is done, with its event. -/
theorem test_wit_descriptor_fetch : let s := hostTray [(255, { aRing none with head := 1 })];
    (s.ring 15 15).en = true ∧ (s.ring 15 15).state = 1 ∧ (s.ring 15 15).head ≠ (s.ring 15 15).tail ∧ (s.ring 15 15).cur = none
    ∧ (s.ring 15 15).reading = false ∧ (s.ring 15 15).stall = false ∧ s.fnReachAt .a (0x1000 + 64 * 1) 64 = true := by decide +kernel
theorem test_wit_descriptor_return : let s := hostTray [(255, { aRing none with reading := true, head := 65535 })];
    (s.ring 15 15).reading = true ∧ (s.ring 15 15).en = true ∧ (((hbytes 0 0 0) ++ toLE 16 (2 ^ 127)).getD 63 0).toNat / 128 % 2 = 1
    ∧ (((hbytes 0 0 0) ++ toLE 16 0).getD 63 0).toNat / 128 % 2 = 0 := by decide +kernel
theorem test_wit_host_nop : (ringTray (hcmd 0 0 0)).accepts 15 15 0 none (hcmd 0 0 0) ∧ (hcmd 0 0 0).body = 0 :=
  ⟨accepts_of (by decide +kernel), by decide +kernel⟩
theorem test_wit_descriptor_done : let h : HostCmd := { hcmd 0 0 0 with st := .done 2 0 5 };
    let s := ringTray h;
    (s.ring 15 15).cur = some h ∧ h.st = .done 2 0 5 ∧ (s.ring 15 15).mute = false ∧ s.fnReachAt .a (0x1000 + 64 * 0 + 48) 16 = true := by
  decide +kernel
theorem test_wit_descriptor_written : let h : HostCmd := { hcmd 0 0 0 with st := .written 2 0 7 };
    let s := ringTray h;
    (s.ring 15 15).cur = some h ∧ h.st = .written 2 0 7 ∧ (s.ring 15 15).mute = false
    ∧ s.fnReachAt .a (0x1000 + 64 * 0 + 48 + 15) 1 = true := by decide +kernel
/-- A ring of a function that cannot be reached; one that halted while it carried out a descriptor; a disabled event queue. -/
theorem test_wit_ring_halts : let h : HostCmd := { hcmd 0 0 0 with st := .done 0 7 5 };
    let s := hostTray [(15, { aRing (some h) with mute := true }), (255, { aRing none with fn := .b })];
    (s.ring 15 15).mayRead = true ∧ s.fnReachAt .b (0x1000 + 64 * 0) 64 = false ∧ (s.ring 0 15).cur = some h ∧ (s.ring 0 15).mute = true
    ∧ (s.evq 15 0).en = false ∧ Tab.wf ({} : Ring) s.hif.rings = true := by decide +kernel

theorem test_wit_doorbells : let s := hostTray [(0, { nM1 := 15 })];
    s.fnAnswers .a = true ∧ s.isDriver .a 0 = true ∧ s.ideBlocks .a = false ∧ (15 : Nat) ≤ (s.ring 0 0).nM1 ∧ (s.ring 0 0).nM1 < 16
    ∧ (0 : Nat) ≤ (s.evq 0 0).nM1 ∧ natBits 0x3FFFF00000001 63 50 = 0 ∧ natBits 0x3FFFF00000001 49 32 = 262143 := by decide +kernel
theorem test_wit_doorbells_filtered : let s := hostTray [];
    let u := { s with hif := { s.hif with a := {}, b := { ls := 2, bme := true, ready := true } } };
    u.fnAnswers .b = true ∧ u.isDriver .b 0 = false := by decide +kernel
/-- A function that takes part only inside a Secure stream, which it has or not. -/
def ideTray (going : List (Nat × Nat)) : State :=
  let s := hostTray []
  { s with sec := { s.sec with ideA := true, streams := [⟨.a, 0, [(0, 0, [])], going⟩] } }
theorem test_wit_ide : (ideTray []).ideBlocks .a = true ∧ (ideTray []).fnAnswers .a = true ∧ (ideTray []).ideReq .a = true
    ∧ (hostTray []).ideReq .a = false := by decide +kernel

/-- An event queue of two entries: with room at its last entry, and full. -/
def eqTray (head : Nat) : State :=
  let s := hostTray []
  { s with hif := { s.hif with eqs := [(63, { en := true, nM1 := 1, base := 0x2000, tail := 1, head := head, itime := 1, itEnd := some 100000 })] } }
theorem test_wit_events : (let e := (eqTray 1).evq 15 3; e.en = true ∧ e.tail ≤ e.nM1 ∧ e.head ≤ e.nM1 ∧ (e.tail + 1) % (e.nM1 + 1) ≠ e.head
      ∧ (eqTray 1).fnReachAt e.fn (e.base + 16 * e.tail) 16 = true
      ∧ (let s := eqTray 1; ({ s with hif := { s.hif with a := {} } } : State).fnReachAt e.fn (e.base + 16 * e.tail) 16 = false))
    ∧ (let e := (eqTray 0).evq 15 3; e.en = true ∧ (e.tail + 1) % (e.nM1 + 1) = e.head)
    ∧ ((eqTray 0).evq 0 0).en = false ∧ (63 : Nat) < 64 ∧ (255 : Nat) < 256 ∧ (65535 : Nat) < 65536
    ∧ ((eqTray 0).evq 15 3).itEnd = some 100000 ∧ 100000 ≤ (eqTray 0).dt := by decide +kernel
theorem test_wit_unmask : let s := hostTray [];
    let u := { s with hif := { s.hif with a := { s.hif.a with msixPend := 2 ^ 63, cfg := { msixEn := true } } } };
    natBit (u.fnSt .a).msixMask 63 = true ∧ natBit (u.fnSt .a).msixPend 63 = true ∧ u.fnAnswers .a = true ∧ u.ideBlocks .a = false
    ∧ u.sec.statusMode = false ∧ (u.fnSt .a).cfg.msixEn = true ∧ (u.fnSt .a).cfg.fnMask = false ∧ u.fnReachAt .a 0 4 = true := by
  decide +kernel

/-! ### States that meet the hypotheses of the statements: scheduler commands -/

/-- Job 0 of domain 15, loaded, BE, with one entry; core 0 belongs to domain 15. The blocks ask for two tasks. -/
def jobTray (h : HostCmd) (j : Job) : State :=
  { (ringTray h) with sched := { jobs := [(0, j)], nextUid := 1, cmap := [(0, { valid := true, dom := 15 })], ymap := [(0, { valid := true, dom := 15 })] } }
def beJob : Job := { st := .loaded, be := true, dom := 15, ring := 255, slice := 100, entries := [0] }
def hostBlock (entry : Nat) : Nat := 2 * 2 ^ 302 + entry * 2 ^ 304 + 0x100000000 * 2 ^ 80 + 0x100001000 * 2 ^ 32 + 1 * 2 ^ 16

theorem test_wit_submit : let h := hcmd 1 (hostBlock 0) 0;
    let s := jobTray h beJob;
    s.accepts 15 15 1 none h ∧ s.blockRefusal 15 (TaskBlock.ofNat h.body) = none ∧ s.blockRoom 15 (TaskBlock.ofNat h.body) = true :=
  ⟨accepts_of (by decide +kernel), by decide +kernel, by decide +kernel⟩
theorem test_wit_submit_refused : let h := hcmd 1 (hostBlock 1) 0;
    let s := jobTray h beJob;
    s.accepts 15 15 1 none h ∧ s.blockRefusal 15 (TaskBlock.ofNat h.body) = some 11 ∧ s.blockRoom 15 (TaskBlock.ofNat h.body) = true :=
  ⟨accepts_of (by decide +kernel), by decide +kernel, by decide +kernel⟩
/-- A domain with 65,535 tasks pending has no room for two more. -/
theorem test_wit_submit_full : let h := hcmd 1 (hostBlock 0) 0;
    let s := jobTray h beJob;
    let u := { s with sched := { s.sched with tasks := List.replicate 65535 { aTask with dom := 15, st := .ready } } };
    u.accepts 15 15 1 none h ∧ u.blockRoom 15 (TaskBlock.ofNat h.body) = false ∧ u.blockRefusal 15 (TaskBlock.ofNat h.body) ≠ some 1 :=
  ⟨accepts_of (by decide +kernel), by decide +kernel, by decide +kernel⟩

/-- JOB_LOAD of an LC job with core 0 as its pack and of a BE job, at their images' last aligned address; no models. -/
def loadBody (be : Bool) : Nat := 0x10 * 2 ^ 312 + (if be then 2 ^ 303 else 0) + (2 ^ 192 - 1) * 2 ^ 64 + (2 ^ 64 - 64)
theorem test_wit_job_load : ∀ be : Bool, let h := hcmd 2 (loadBody be) 0x1C0;
    let s := jobTray h {};
    s.accepts 15 15 2 (some 0x10) h ∧ s.boot.store = true ∧ sopUnused 0x10 h.body = false ∧ h.field 63 0 % 64 = 0
    ∧ s.loadFirst 15 (natBit h.body 303) (h.field 295 288) (h.field 287 280) (modelsField h.body) = 0 ∧ s.freeJob = some 0 := by
  intro be
  cases be <;> exact ⟨accepts_of (by decide +kernel), by decide +kernel, by decide +kernel, by decide +kernel, by decide +kernel, by decide +kernel⟩

/-- The header of the image below. -/
def imageHdr : Nat :=
  0x534E4A49 * 2 ^ 992 + 1 * 2 ^ 976 + 3 * 2 ^ 974 + 1 * 2 ^ 960 + 1 * 2 ^ 944 + 8 * 2 ^ 904 + 512 * 2 ^ 864 + 128 * 2 ^ 800
    + 192 * 2 ^ 736 + 256 * 2 ^ 704 + 320 * 2 ^ 672 + 0x10 * 2 ^ 896
/-- An image of one entry at word 0 of eight bytes of code, no models and no descriptors: the entry table at 128, the code at 192, the
claims at 256, the signature block of owner slot 0 at 320. -/
def imageBody : List Byte := toLE 128 imageHdr ++ List.replicate 128 0 ++ toLE 64 (4096 * 2 ^ 80 + 8 * 2 ^ 76)
def imageSig : List Byte := toLE 192 (0x47534E53 + 0x10 * 2 ^ 32)
def image : List Byte := imageBody ++ imageSig
theorem cut_whole (l : List Byte) : cut l 0 l.length = l := by
  apply List.ext_getElem <;> simp +contextual [cut]
theorem cut_right (a b : List Byte) : cut (a ++ b) a.length b.length = b := by
  apply List.ext_getElem <;> simp +contextual [cut]
def loading (be : Bool) : State :=
  let s := jobTray (hcmd 2 (loadBody be) 512)
    { st := .loading, be := be, dom := 15, ring := 255, xlen := 512, models := List.replicate 16 0xFFF }
  { s with
    sched := { s.sched with
      cmap := [(0, { valid := true, dom := 15, pack := !be })]
      ymap := (0, { valid := true, dom := 15 }) :: (List.range 65).map fun i => (i + 1, { valid := true, knl := true }) }
    sec := { s.sec with sensed := { s.sec.sensed with lc := 2, oset := 1 } }
    fuses := { s.fuses with okey := [(0, Config.shake256 32 (List.replicate 57 0))] }
    knl := { s.knl with drange := [(15, BitVec.ofNat 64 (2 ^ 48))] } }
/-- The verification of its signature is a value of the model's opaque Ed448: with it, the image passes. -/
theorem test_wit_job_image (be : Bool)
    (sig : Config.ed448phVerify (List.replicate 57 0) (ascii "SN-JOBIMAGE") (cut image 0 320) (List.replicate 114 0) = true) :
    (loading be).imgReason be 512 (List.replicate 16 0xFFF) (cut image 0 512) = 0 := by
  have n : image.length = 512 := by decide +kernel
  have e : cut image 0 512 = image := n ▸ cut_whole image
  have r : cut image (ImgHdr.sigOff ⟨imageHdr⟩) 192 = imageSig := by
    have q : ImgHdr.sigOff ⟨imageHdr⟩ = imageBody.length := by decide +kernel
    have w : 192 = imageSig.length := by decide +kernel
    rw [q, w]
    exact cut_right _ _
  have k : (loading be).slotDigest 0x10 = some (Config.shake256 32 (List.replicate 57 0)) := by cases be <;> rfl
  have x : fieldAt image 0 128 = imageHdr := by decide +kernel
  have v : (loading be).imgSigned ⟨imageHdr⟩ image = true := by
    have a : cut imageSig 8 57 = List.replicate 57 0 := by decide +kernel
    have b : cut imageSig 72 114 = List.replicate 114 0 := by decide +kernel
    have c : cut image 0 (ImgHdr.sigOff ⟨imageHdr⟩) = cut image 0 320 := by decide +kernel
    have d : sigSlot imageSig = 0x10 := by decide +kernel
    have l : sigLayout imageSig = true := by decide +kernel
    simp only [State.imgSigned, State.sigOk, sigVerifies, r, a, b, c, d, l, k, sig]
    cases be <;> simp <;> decide +kernel
  rw [e]
  unfold State.imgReason
  simp only [x]
  rw [if_neg (by decide +kernel), if_neg (by decide +kernel), v, if_neg (by simp)]
  cases be <;> rw [if_neg (by decide +kernel), if_neg (by decide +kernel), if_neg (by decide +kernel), if_neg (by decide +kernel),
    if_neg (by decide +kernel)]
theorem test_wit_job_verified : ∀ be : Bool, let s := loading be;
    (s.job 0).st = .loading ∧ (s.job 0).verified = false ∧ s.pinRoom 15 (s.loadPins 0) = true
    ∧ s.fnReachAt (s.ringAt (s.job 0).ring).fn (s.cmdSrc (s.job 0).ring) (s.job 0).xlen = true := by
  intro be
  cases be <;> decide +kernel
theorem test_wit_job_no_room : ({ loading false with knl := { (loading false).knl with drange := [] } } : State).pinRoom 15 1 = false := by
  decide +kernel
/-- A job that has its frame: a BE job; an LC job whose core holds its floor; one whose core gets it at once, for it runs at 1.2 GHz. -/
def framed (be : Bool) (k : Core) : State :=
  let s := loading be
  { s with cores := [(0, k)], sched := { s.sched with jobs := [(0, { s.job 0 with verified := true, frame := some 4 })] } }
set_option maxRecDepth 4096 in
theorem test_wit_job_loaded : (let s := framed true {};
      (s.job 0).verified = true ∧ (s.job 0).frame.isSome = true ∧ (s.job 0).be = true ∧ ([] : List Nat).all s.floorHeld = true)
    ∧ (let s := framed false { isFloor := true, grant := 9, step := 4 };
      (s.job 0).named.all s.allPinned = true ∧ s.packCores 0 = [0] ∧ (s.packCores 0).all s.floorHeld = true)
    ∧ (let s := framed false {};
      (s.packCores 0).all s.floorHeld = false ∧ (s.packCores 0).all (s.grantFloors (s.packCores 0)).floorHeld = true)
    ∧ (let s := framed false { step := 0 };
      (s.packCores 0).all s.floorHeld = false ∧ (s.packCores 0).all (s.grantFloors (s.packCores 0)).floorHeld = false) := by
  decide +kernel
/-- An image of zeros fails its first check, and one whose claim is above 4,096 its last, if its signature holds. -/
theorem test_wit_job_refused : let s := loading true;
    (s.job 0).st = .loading ∧ (s.job 0).verified = false ∧ s.imgReason true 512 (List.replicate 16 0xFFF) (List.replicate 512 0) = 1 := by
  decide +kernel

/-- A job of domain 15 that may be unloaded or felled, of both kinds. -/
theorem test_wit_unload : (let h := hcmd 2 (0x11 * 2 ^ 312) 0;
      let s := jobTray h { beJob with st := .felled };
      s.accepts 15 15 2 (some 0x11) h ∧ sopUnused 0x11 h.body = false ∧ (s.job 0).dom = 15 ∧ (s.job 0).st = .felled
      ∧ s.sched.tasks.any (·.job = 0) = false)
    ∧ (let h := hcmd 2 (0x12 * 2 ^ 312) 0;
      let s := jobTray h beJob;
      s.accepts 15 15 2 (some 0x12) h ∧ sopUnused 0x12 h.body = false ∧ (s.job 0).dom = 15 ∧ (s.job 0).st = .loaded)
    ∧ (let h := hcmd 2 (0x13 * 2 ^ 312 + 7 * 2 ^ 224) 0;
      let s := jobTray h beJob;
      s.accepts 15 15 2 (some 0x13) h ∧ sopUnused 0x13 h.body = false ∧ h.field 255 224 = 7) :=
  ⟨⟨accepts_of (by decide +kernel), by decide +kernel⟩, ⟨accepts_of (by decide +kernel), by decide +kernel⟩,
    ⟨accepts_of (by decide +kernel), by decide +kernel⟩⟩
theorem test_wit_fell_complete : let f : FellCmd := ⟨255, true, 0, [9], [127]⟩;
    let s := hostTray [];
    let u := { s with sched := { s.sched with fells := [f] } };
    hasRing 15 15 = true ∧ (u.sched.fells.find? fun f => f.ring = ringKey 15 15) = some f ∧ (∀ x ∈ f.uids, u.task x = none)
    ∧ (∀ n ∈ f.chans, (u.chan n).abort = false ∧ (u.chan n).wb = none) := by decide +kernel
theorem test_wit_fell_one : (let s := taskTray { parked := [⟨aSlot, [], 0⟩] } fun t => { t with st := .parked 0 };
      (s.task 1).map (·.st) = some (.parked 0) ∧ (s.core 0).parkedOf 1 = some ⟨aSlot, [], 0⟩)
    ∧ ((taskTray aCore id).task 1).map (·.st) = some (.running 0 0) ∧ (taskTray aCore id).task 2 = none
    ∧ ((taskTray {} fun t => { t with st := .waiting }).task 1).map (·.st) = some .waiting
    ∧ ((taskTray aCore fun t => { t with st := .draining 0 0 }).task 1).map (·.st) = some (.draining 0 0) := by decide +kernel

/-- ASSIGN of the last core, of the last granule to domain 15, and of granules 0 and 1 to the Kennel. -/
def assignBody (kind first n : Nat) : Nat :=
  0x14 * 2 ^ 312 + kind * 2 ^ 310 + 2 ^ 309 + 15 * 2 ^ 304 + first * 2 ^ 292 + (n - 1) * 2 ^ 280
theorem test_wit_assign : (let h := hcmd 2 (assignBody 0 255 1) 0;
      let s := ringTray h;
      s.accepts 15 15 2 (some 0x14) h ∧ h.field 279 0 = 0 ∧ h.ctl = true ∧ s.assignBusy false [255] = false
      ∧ 255 + 1 ≤ s.var.cores ∧ (∀ c ∈ [255], s.ras.fence.contains c = false))
    ∧ (let h := hcmd 2 (assignBody 1 3071 1) 0;
      let s := ringTray h;
      s.accepts 15 15 2 (some 0x14) h ∧ h.field 279 0 = 0 ∧ s.assignBusy true [3071] = false ∧ 3071 + 1 ≤ s.var.granules
      ∧ (∀ g ∈ [3071], (s.gran g).knl = false))
    ∧ (let h := hcmd 2 (assignBody 2 0 2) 0;
      let s := ringTray h;
      s.accepts 15 15 2 (some 0x14) h ∧ h.field 279 0 = 0 ∧ s.assignBusy true [0, 1] = false ∧ (∀ g ∈ [0, 1], (s.gran g).knl = false)) :=
  ⟨⟨accepts_of (by decide +kernel), by decide +kernel⟩, ⟨accepts_of (by decide +kernel), by decide +kernel⟩,
    ⟨accepts_of (by decide +kernel), by decide +kernel⟩⟩
def scrubbing (o : CoreOwn) (b : Option (Bool × Nat)) (a : AssignCmd) : State :=
  let s := hostTray []
  { s with sched := { s.sched with cmap := [(255, o)], assigns := [a] }, sec := { s.sec with scrubBusy := b } }
theorem test_wit_scrub : (let s := scrubbing { closing := true } none ⟨255, 0, true, false, 15, [255], false, [255]⟩;
      (s.owner 255).closing = true ∧ (s.owner 255).scrub = false ∧ (∃ a ∈ s.sched.assigns, a.kind = 0 ∧ a.units.contains 255 = true)
      ∧ s.coreIdle 255 = true ∧ (∀ p ∈ s.ras.fencing, p.1 ≠ 255))
    ∧ (let a : AssignCmd := ⟨255, 0, true, false, 15, [255], false, [255]⟩;
      let s := scrubbing { scrub := true } (some (false, 255)) a;
      255 < s.var.cores ∧ s.sec.scrubBusy = some (false, 255) ∧ (s.sched.assigns.find? fun a => a.names false 255) = some a)
    ∧ (let a : AssignCmd := ⟨255, 1, true, false, 15, [3071], false, [3071]⟩;
      let s := scrubbing {} (some (true, 3071)) a;
      3071 < s.var.granules ∧ s.sec.scrubBusy = some (true, 3071) ∧ (s.sched.assigns.find? fun a => a.names true 3071) = some a
      ∧ s.memsOk = true) := by decide +kernel

/-! ### States that meet the hypotheses of the statements: the Kennel -/

/-- Domain 15 has every page and a quota of 16,383 pins; granules 1 to 65 are the Kennel's. -/
def knlTray (h : HostCmd) (k : Knl → Knl) : State :=
  let s := ringTray h
  { s with
    sched := { s.sched with ymap := (List.range 65).map fun i => (i + 1, { valid := true, knl := true }) }
    knl := k { drange := [(15, BitVec.ofNat 64 (16383 * 2 ^ 48 + 2 ^ 20 * 2 ^ 24))] } }
/-- LOAD of the last page, to be pinned; its store frame is the lowest free one. -/
theorem test_wit_knl_load : let h := hcmd 3 (1 * 2 ^ 312 + 0xFFFFF * 2 ^ 272 + 64 * 2 ^ 64 + 1) 0;
    let s := knlTray h fun k => { k with sframes := [(0, { bound := true }), (1, { lastver := 0xFFFFFF })] };
    let pick := pickStore s.knl.sframes s.var.storeFrames 0 1;
    s.accepts 15 15 3 (some 1) h ∧ s.boot.store = true ∧ knlReserved h.body = false ∧ h.field 307 296 = 0 ∧ h.field 127 64 % 64 = 0
    ∧ s.loadRes 15 0xFFFFF 1 true pick.1 = 0 ∧ s.freeModel = some 0 ∧ pick = ([2], [1])
    ∧ (let l := pick.1.map verLine ++ pick.2.map verLine ++ (List.range 1).map fun i => dirLine (0xFFFFF + i);
      s.lvtCan l = true ∧ s.tableRun [⟨0, [], [], false⟩] l = ⟨[], none⟩) :=
  ⟨accepts_of (by decide +kernel), by decide +kernel⟩
/-- Model 4095 of one page, of domain 15. -/
def aModel : Model := { valid := true, pnBase := 0xFFFFF, npages := 1, dom := 15 }
theorem test_wit_knl_copied : let h : HostCmd := { hcmd 3 (1 * 2 ^ 312) 0 with st := .busy 4095 };
    let s := knlTray h fun k => { k with models := [(4095, { aModel with loading := true, hpin := true })] };
    hasRing 15 15 = true ∧ (s.ring 15 15).cur = some h ∧ h.st = .busy 4095 ∧ h.cls = 3 ∧ h.op = 1 ∧ (s.model 4095).loading = true
    ∧ s.fnReachAt .a (h.field 127 64) (1 * 16384) = true ∧ s.lvtCan ((s.model 4095).pages.map dirLine) = true
    ∧ s.tableRun [] ((s.model 4095).pages.map dirLine) = ⟨[], none⟩ := by decide +kernel
/-- PIN, UNPIN, EVICT and UNLOAD of that model: unpinned, pinned, and without room for a pin. -/
theorem test_wit_knl_commands : ∀ op, 2 ≤ op → op ≤ 5 → ∀ p : Bool, let h := hcmd 3 (op * 2 ^ 312 + 4095 * 2 ^ 296) 0;
    let s := knlTray h fun k => { k with models := [(4095, { aModel with hpin := p })] };
    s.accepts 15 15 3 (some op) h ∧ s.boot.store = true ∧ knlReserved h.body = false ∧ h.field 291 256 = 0 ∧ h.field 127 64 = 0
    ∧ natBit h.body 0 = false ∧ (s.model 4095).valid = true ∧ (s.model 4095).loading = false ∧ (s.model 4095).dom = 15
    ∧ (s.model 4095).pinned = p ∧ s.pinRoom 15 1 = true ∧ (s.model 4095).refs = 0
    ∧ (∀ l ∈ [(s.model 4095).pages.map dirLine, (s.pinStale 4095 true).map dirLine, (s.pinStale 4095 false).map dirLine],
      (s.tableRun [] l).bad = none ∧ s.lvtCan l = true) := by
  intro op h1 h2 p
  interval_cases op <;> cases p <;> exact ⟨accepts_of (by decide +kernel), by decide +kernel⟩
theorem test_wit_knl_no_room : let h := hcmd 3 (2 * 2 ^ 312 + 4095 * 2 ^ 296) 0;
    let s := knlTray h fun k => { k with models := [(4095, aModel)], drange := [] };
    s.accepts 15 15 3 (some 2) h ∧ (s.model 4095).pinned = false ∧ s.pinRoom 15 1 = false :=
  ⟨accepts_of (by decide +kernel), by decide +kernel⟩

/-- A page whose directory line is not good, as the patrol left it or as its reader meets it: the last page of a model, valid and not shown
as pinned. -/
theorem test_wit_knl_bad_line :
    let s := knlTray (hcmd 0 0 0) fun k => { k with
      models := [(4095, aModel)], dir := [(0xFFFFF, { valid := true })], badLines := [Variant.sn9600.tableOff 131071 / 64] };
    (s.tableRun [] ((s.pinStale 4095 true).map dirLine)).bad = some (131071, false)
    ∧ ({ s with knl := { s.knl with badLines := [] } } : State).tableRun [⟨131071, [0, 1, 2], [0, 1, 71], true⟩]
        ((s.pinStale 4095 true).map dirLine) = ⟨[], some (131071, true)⟩ := by decide +kernel
/-- Two erroneous bytes are corrected on the first read, or on the second. -/
theorem test_line_corrected : let s := knlTray (hcmd 0 0 0) id;
    s.tableRun [⟨7, [71, 0, 71], [], false⟩] [7] = ⟨[7], none⟩ ∧ s.tableRun [⟨7, [0, 1, 2], [5], false⟩] [7] = ⟨[7], none⟩
    ∧ s.tableRun [⟨7, [0, 1, 2], [], false⟩] [7] = ⟨[], none⟩ := by decide +kernel

/-- A page that waits, with a frame for it; the code of a job that waits. -/
theorem test_wit_fills : (let s := knlTray (hcmd 0 0 0) fun k => { k with waiting := [.page 0xFFFFF] };
      s.knl.waiting = [.page 0xFFFFF] ∧ s.fills < 64 ∧ s.boot.store = true ∧ s.takeFrame = some (4, s)
      ∧ (∃ j ∈ s.usableFrames, (Tab.get {} s.knl.frames j).st = .free))
    ∧ (let s := knlTray (hcmd 0 0 0) fun k => { k with waiting := [.code 0] };
      s.knl.waiting = [.code 0] ∧ (s.takeCode 0).isSome = true) := by decide +kernel
/-- A page that a fill reads, whose store lines are lines of the directory as bring-up left them; `bad` are its bad lines. -/
def filling (bad : List Nat) : State :=
  knlTray (hcmd 0 0 0) fun k => { k with
    models := [(4095, aModel)], dir := [(0xFFFFF, { version := 1, sframe := 688128 })]
    frames := [(4, { st := .filling, pn := 0xFFFFF, ent := { version := 1, sframe := 688128 } })], badLines := bad }
/-- A line of the tables that nothing has written since bring-up is good. -/
theorem fresh_line (s : State) (o i : Nat) (h : s.boot.store = true) (r : s.var.region o = .table i) (l : Tab.get 0 s.knl.lvt i = 0)
    (b : s.knl.badLines.contains (o / 64) = false) : s.lineFault o 1 = none := by
  have t : ∀ c, (lineMeta s.sec.ktag (storeBase + o) 1 c).take 4 = lineTag s.sec.ktag (storeBase + o) 1 c := by
    intro c
    simp [lineMeta, lineTag]
  simp only [State.lineFault, State.storedLine, r, h, l, b, beq_self_eq_true, Bool.and_self, t, if_true, Bool.false_eq_true, if_false]
theorem filling_line (bad : List Nat) (i : Nat) (h : i < 256) (b : bad.contains ((688128 * 16384 + 64 * i) / 64) = false) :
    (filling bad).lineFault (688128 * 16384 + 64 * i) 1 = none := by
  refine fresh_line _ _ i rfl ?_ rfl b
  show Variant.region .sn9600 _ = _
  have d : Variant.dirOff .sn9600 = 688128 * 16384 := by decide
  have v : Variant.verOff .sn9600 = 688128 * 16384 + 0x800000 := by decide
  unfold Variant.region
  rw [if_neg (by omega), if_pos (by omega), d]
  congr 1
  omega
theorem filling_dir (bad : List Nat) (b : bad.contains (Variant.sn9600.tableOff 131071 / 64) = false) :
    (filling bad).lineFault ((filling bad).var.tableOff (dirLine 0xFFFFF)) ((filling bad).lvtOf (dirLine 0xFFFFF)) = none :=
  fresh_line _ _ 131071 rfl (by show Variant.region .sn9600 (Variant.tableOff .sn9600 131071) = _; decide +kernel) rfl b
theorem readLines_good (f : Nat → LineEnd) (l : List Nat) (h : ∀ i ∈ l, f i = .good) : readLines f l = ⟨[], none⟩ := by
  induction l with
  | nil => rfl
  | cons i l ih =>
    simp only [readLines, h i (List.mem_cons_self ..)]
    exact ih fun j hj => h j (List.mem_cons_of_mem i hj)
theorem test_wit_fill_end : (filling []).fillEnd 0xFFFFF { version := 1, sframe := 688128 } [] = ⟨[], none⟩ := by
  refine readLines_good _ _ fun i h => ?_
  have e : Tab.get ({} : DirEnt) (filling []).knl.dir 0xFFFFF = { version := 1, sframe := 688128 } := by decide +kernel
  have r : (filling []).fillLine 0xFFFFF { version := 1, sframe := 688128 } [] i
      = lineEnd ((filling []).lineFault ((filling []).fillOff 0xFFFFF { version := 1, sframe := 688128 } i)
          (if i = 256 then (filling []).lvtOf (dirLine 0xFFFFF) else 1)) [] i := by
    simp only [State.fillLine, e, ne_eq, not_true_eq_false, if_false]
  rw [r]
  rcases List.mem_cons.mp h with rfl | h
  · rw [if_pos rfl, State.fillOff, if_pos rfl, filling_dir [] rfl]
    rfl
  · have h := List.mem_range.mp h
    rw [if_neg (by omega), State.fillOff, if_neg (by omega), filling_line [] i h rfl]
    rfl
theorem test_wit_fill : let s := filling [];
    let f := Tab.get {} s.knl.frames 4;
    f.st = .filling ∧ f.doomed = false ∧ f.gone = false ∧ s.modelOf f.pn = some (4095, aModel) ∧ f.pn = 0xFFFFF ∧ f.ent = { version := 1, sframe := 688128 }
    ∧ s.memsOk = true ∧ s.yardBadIn (16384 * 4) (16384 * 4 + 16384) = [] ∧ Tab.wf ({} : Frame) s.knl.frames = true := by decide +kernel
/-- The last line of that page is bad, and no other. -/
theorem test_wit_fill_bad : (filling [688128 * 256 + 255]).lineFault (688128 * 16384 + 64 * 255) 1 = some false
    ∧ ∀ j, j < 255 → (filling [688128 * 256 + 255]).lineFault (688128 * 16384 + 64 * j) 1 = none := by
  constructor
  · simp only [State.lineFault]
    rw [if_pos (by decide +kernel)]
  · intro j h
    refine filling_line _ j (by omega) ?_
    simp only [List.contains_cons, List.contains_nil, Bool.or_false, beq_eq_false_iff_ne, ne_eq]
    omega
theorem test_wit_victims : let s := ringTray (hcmd 0 0 0);
    let u := { s with
      sched := { s.sched with ymap := [(0, { valid := true, knl := true })] }
      knl := { s.knl with frames := (List.range 4).map fun i => (i, ({ st := .resident, pn := i, ref := true, reads := if i = 3 then 0 else 1 } : Sys2Proof.Machine.Frame)) } };
    (u.takeFrame.map (·.1)) = some 3 ∧ (∀ j ∈ u.usableFrames, (Tab.get ({} : Sys2Proof.Machine.Frame) u.knl.frames j).st ≠ .free) := by decide +kernel

/-! ### States that meet the hypotheses of the statements: set-up registers -/

/-- Function A answers; B's tunnel is up and its function is not ready. -/
theorem test_wit_reaches : let s := hostTray [];
    (∀ a ∈ [0x102000 + 0x200 * 15 + 0x20 * 15, 0x106000 + 0x100 * 15 + 0x20 * 3, 0x100000, 0x700018 + 0x40 * 127, 0xA00000 + 0x100 * 4095,
        0xC00000 + 8 * 763, 0x400090 + 0x1000 * 255, 0xF20008, 0x10FFF8, 0x111000, 0xFFFFF8], s.reaches .a a = true)
    ∧ s.fnAnswers .a = true ∧ s.ideBlocks .a = false ∧ s.fnAnswers .b = false
    ∧ (let u := { s with hif := { s.hif with holder := some .b } }; u.allowed .a 0x100008 = false) := by decide +kernel
theorem test_wit_owners : let s := hostTray [];
    let u := { s with yrd := { s.yrd with chans := [(127, { cfg := BitVec.ofNat 64 (2 ^ 60 + 15 * 2 ^ 56) })] } };
    ((u.chan 127).dvalid = true ∧ (u.chan 127).dom = 15) ∧ (u.chan 0).dvalid = false := by decide +kernel

/-- Set-up control free, held by A, held by B, whose tunnel has been down for exactly 100 ms; a request armed and expired. -/
def ctl (h : Option Fn) (dt : Nat) (armed : Option (Fn × Nat)) : State :=
  let s := hostTray []
  { s with hif := { s.hif with holder := h, armed := armed, domb := 0xFFFF }, time := { s.time with dt := dt } }
theorem test_wit_claim : (let s := ctl none 0 none;
      s.fnAnswers .a = true ∧ s.ideBlocks .a = false ∧ s.sec.lock = false ∧ s.sec.statusMode = false ∧ s.hif.holder = none)
    ∧ (let s := ctl (some .b) 100000000 none; s.hif.holder = some .b ∧ (s.fnSt .b).ls ≠ 2 ∧ (s.fnSt .b).downSince + 100000000 ≤ s.dt)
    ∧ (let s := ctl (some .a) 0 (some (.a, 1)); s.hif.holder = some .a ∧ s.hif.doma < 65536 ∧ s.hif.domb < 65536
      ∧ s.hif.armed = some (.a, 1) ∧ s.dt < 1)
    ∧ (let s := ctl (some .a) 1 (some (.a, 1)); s.hif.armed = some (.a, 1) ∧ 1 ≤ s.dt) := by decide +kernel
theorem test_wit_undecoded : bar0Decodes 0x1000000 8 = false ∧ bar0Decodes 4 8 = false ∧ bar0Decodes 0 2 = false
    ∧ bar0Decodes 0xFFFFF8 8 = true ∧ (ctl (some .a) 0 none).hif.holder = some .a := by decide +kernel
/-- Ring 15 of domain 15 disabled at a last index of 65,535, with a base; one enabled; its event queue 3. -/
theorem test_wit_enable : let s := hostTray [(0, aRing none), (255, { base := 64 })];
    let u := { s with hif := { s.hif with eqs := [(63, { base := 64 })] } };
    s.reaches .a (0x102000 + 0x200 * 15 + 0x20 * 15) = true ∧ (s.ring 15 15).en = false ∧ (s.ring 15 15).base % 64 = 0
    ∧ natBit (0x800000000000FFFF : Word).toNat 63 = true ∧ s.isDriver (fnOfBool false) 15 = true ∧ Tab.wf ({} : Ring) s.hif.rings = true
    ∧ s.reaches .a 0x102000 = true ∧ (s.ring 0 0).en = true ∧ natBit (0 : Word).toNat 63 = false
    ∧ u.reaches .a (0x106000 + 0x100 * 15 + 0x20 * 3) = true ∧ (u.evq 15 3).en = false ∧ (u.evq 15 3).base % 64 = 0
    ∧ natBits (regMerge (BitVec.ofNat 64 (u.evq 15 3).cfgReg) (partMask .full) (rwMask [(62, 48), (15, 0)]) 0x8000000000000001).toNat 15 0 ≠ 0
    ∧ Tab.wf ({} : EvQ) u.hif.eqs = true := by decide +kernel

/-! ### States that meet the hypotheses of the statements: the Yarder -/

/-- Channel 127 of domain 15, whose ring lies in host memory of function A, with these words and this state. -/
def chanCfg : Word := BitVec.ofNat 64 (2 ^ 60 + 15 * 2 ^ 56 + 1 * 2 ^ 32 + 1 * 2 ^ 18 + 1 * 2 ^ 16 + 7 * 2 ^ 8 + 7)
def aChan (st : ChSt) (w : List Word) (word : Nat) : Chan :=
  { cfg := chanCfg, nM1 := 65535, base := 0x1000, en := true, head := 65535, st := st, w := w, word := word }
def chanTray (h : Chan) : State :=
  let s := hostTray []
  { s with
    sched := { s.sched with ymap := [(0, { valid := true, dom := 15 })], cmap := [(0, { valid := true, dom := 15 })] }
    yrd := { s.yrd with chans := [(127, h)] }
    tly := { s.tly with drange := [(15, BitVec.ofNat 64 (2 ^ 18 * 2 ^ 32))] } }
/-- MOVE of 16 MiB less one from function A's memory to the Yard; LOOP, WAIT, SIGNAL and END at their fields' ends. -/
def yMove : List Word := [BitVec.ofNat 64 (1 * 2 ^ 60 + 1 * 2 ^ 56 + 0xFFFFFF), 0xFFF, BitVec.ofNat 64 yardBase, 0]
def yLoop (target n : Nat) : Word := BitVec.ofNat 64 (2 * 2 ^ 60 + target * 2 ^ 57 + n)
def yWait (rel : Nat) : Word := BitVec.ofNat 64 (3 * 2 ^ 60 + rel * 2 ^ 59 + 262143 * 2 ^ 41 + 0xFFFFFFFF)
def ySignal : Word := BitVec.ofNat 64 (4 * 2 ^ 60 + 1 * 2 ^ 59 + 262143 * 2 ^ 41 + 0xFFFFFFFF)
def yEnd : Word := BitVec.ofNat 64 (5 * 2 ^ 60)
/-- The bytes of a descriptor with OWN. -/
def yDesc (w : List Word) : List Byte := (w.flatMap fun x => toLE 8 x.toNat) ++ toLE 16 (2 ^ 127)

theorem test_wit_poll : let s := chanTray { aChan .idle [] 0 with pollFrom := 99000 };
    (s.chan 127).st = .idle ∧ (s.chan 127).poll ≠ 0 ∧ (s.chan 127).pollFrom + 1000 * (s.chan 127).poll ≤ s.dt := by decide +kernel
theorem test_wit_fetch : let s := chanTray (aChan .fetch [] 0);
    let good := yDesc (yMove ++ [yLoop 0 4095, yEnd]);
    (s.chan 127).st = .fetch ∧ s.fetchDesc 127 (.data good) = some good ∧ natBit (good.getD 63 0).toNat 7 = true
    ∧ yBadDescriptor ((List.range 6).map fun i => leNat ((good.drop (8 * i)).take 8)) = false ∧ Tab.wf ({} : Chan) s.yrd.chans = true
    ∧ s.fetchDesc 127 (.data []) = some [] ∧ natBit (([] : List Byte).getD 63 0).toNat 7 = false ∧ s.fetchDesc 127 .ur = none := by
  decide +kernel
/-- A descriptor whose LOOP is its last word but one runs each of its instructions. -/
theorem test_wit_words : let at_ := fun (h : Chan) opc => h.st = .run ∧ h.word < 6 ∧ yOpc (h.wd h.word) = opc ∧ h.passDone = none ∧ h.wb = none;
    at_ (aChan .run (yMove ++ [yLoop 0 4095, yEnd]) 0) 1 ∧ at_ (aChan .run (yMove ++ [yLoop 0 4095, yEnd]) 4) 2
    ∧ at_ (aChan .run (yMove ++ [yLoop 0 4095, yEnd]) 5) 5 ∧ at_ (aChan .run [yWait 1, ySignal] 0) 3 ∧ at_ (aChan .run [yWait 1, ySignal] 1) 4
    ∧ at_ (aChan .run [yWait 1, ySignal] 2) 0 ∧ (aChan .run [] 6).passDone = none ∧ (aChan .run [] 6).wb = none := by decide
theorem test_wit_wait_end : let s := chanTray { aChan .waiting [yWait 1] 0 with waitN := some 0xFFFFFFFF, waitSat := true };
    s.waitRefused 15 262143 = false ∧ (s.chan 127).st = .waiting ∧ (s.chan 127).waitSat = true ∧ (s.chan 127).wb = none
    ∧ s.waitMet 262143 0xFFFFFFFF = false ∧ s.waitMet 262143 0 = true ∧ s.waitRefused 14 262143 = true := by decide +kernel
/-- The two writes that end a descriptor: the status, then OWN; each fails once the function is gone, and with more errors than retries. -/
theorem test_wit_write_back : (∀ f ∈ [WbEnd.fetch, .idle, .halt 1], ∀ own ∈ [none, some (7 : Byte)],
      let b : WBack := { yres := 0, residue := 0, word := 5, fin := f, ended := 9, own := own };
      let s := chanTray { aChan .run [yEnd] 0 with wb := some b };
      let gone := { s with hif := { s.hif with a := {} } };
      (s.chan 127).wb = some b ∧ (s.chan 127).abort = false
      ∧ (s.ringWrite 127 48 (yStatus 9 0 (s.chan 127).iter (min (s.chan 127).retriesMax 7) 5 0)).isSome = true
      ∧ (s.ringWrite 127 63 [7]).isSome = true
      ∧ gone.ringWrite 127 48 (yStatus 9 0 (s.chan 127).iter (min (s.chan 127).retriesMax 7) 5 0) = none ∧ gone.ringWrite 127 63 [7] = none)
    ∧ (let h := aChan .run [yEnd] 0; h.space = 1 ∧ h.retry < 8) := by decide +kernel

/-- Bursts of channel 127: device to device, host to device, device to host, device to a loop's window and from a model page. -/
def aBurst (ss src ds dst : Nat) (granted : Option Nat) : Burst := ⟨ss, src, ds, dst, 4096, granted, 0, none, none⟩
def burstTray (b : Burst) : State :=
  let s := chanTray { aChan .run yMove 0 with passDone := some 0, burst := some b }
  { s with loop := { s.loop with slots := [(4095, { cfg := BitVec.ofNat 64 (2 ^ 63 + 15 * 2 ^ 59), st := .open_ })] } }
/-- The channel of an LC job with one model. -/
def lcBurst (b : Burst) : State :=
  let s := chanTray { aChan .run yMove 0 with passDone := some 0, burst := some b, cfg := chanCfg ||| BitVec.ofNat 64 (2 ^ 55) }
  { s with sched := { s.sched with jobs := [(0, { st := .loaded, dom := 15, models := [5], nmodels := 1 })] } }
theorem test_wit_grant : (let b := aBurst 0 yardBase 0 (coreBase 0) none;
      let s := burstTray b;
      ((List.range 16).find? fun i => (Tab.get none s.yrd.slots (0 + i)).isNone) = some 0 ∧ s.arbiter false = some (127, s.chan 127)
      ∧ (s.chan 127).burst = some b ∧ s.burstCheck (s.chan 127) b = none ∧ s.burstReach b = true)
    ∧ (let b := aBurst 1 0 0 yardBase none;
      let s := burstTray b;
      s.arbiter true = some (127, s.chan 127) ∧ s.burstCheck (s.chan 127) b = none ∧ s.burstReach b = true
      ∧ (let u := { s with hif := { s.hif with a := {} } };
        u.arbiter true = some (127, u.chan 127) ∧ u.burstCheck (u.chan 127) b = none ∧ u.burstReach b = false))
    ∧ (let b := { aBurst 3 0 0 yardBase none with page := some 0x400 };
      let s := lcBurst b;
      s.arbiter false = some (127, s.chan 127) ∧ s.burstCheck (s.chan 127) b = some (6, 0))
    ∧ (let b := aBurst 0 (yardBase + 61440) 0 (yardBase + 65536) none;
      let s := burstTray b;
      s.arbiter false = some (127, s.chan 127) ∧ s.burstCheck (s.chan 127) b = some (4, yardBase + 65536)) := by decide +kernel
theorem test_wit_burst : (let b := aBurst 1 0 0 yardBase (some 16);
      let s := burstTray b;
      (s.chan 127).burst = some b ∧ b.granted.isSome = true ∧ b.bad = none ∧ s.burstReach b = true ∧ s.burstCut 127 b = false
      ∧ s.burstRecheck (s.chan 127) b = none ∧ s.burstBad 127 b = none ∧ b.isHost = true ∧ (s.devWrite b.dst [255]).2 = []
      ∧ (let u := { s with sched := { s.sched with ymap := [] } }; u.burstCut 127 b = false ∧ u.burstRecheck (u.chan 127) b = some (4, yardBase)))
    ∧ (let b := aBurst 0 yardBase 2 0xFFFFFFFFF000 (some 0);
      let s := { burstTray b with hif := { (burstTray b).hif with b := { ls := 2, bme := true, ready := true } } };
      (s.chan 127).burst = some b ∧ s.burstReach b = true ∧ s.burstBad 127 b = none ∧ spaceFn b.dspace = some .b
      ∧ (let u := { s with yard := { s.yard with bad := [0] } }; u.burstBad 127 b = some (yardBase, 1, 0)))
    ∧ (let b := { aBurst 0 yardBase 4 (4095 * 4096 + 0x800) (some 0) with len := 8 };
      let s := burstTray b;
      (s.chan 127).burst = some b ∧ s.burstBad 127 b = none ∧ 3 ≤ b.dspace ∧ s.burstCheck (s.chan 127) b = none)
    ∧ (let b := aBurst 3 0 0 yardBase (some 0);
      let s := burstTray b;
      (s.chan 127).burst = some b ∧ s.burstBad 127 b = none ∧ b.isHost = false) := by decide +kernel
/-- Two ready channels of one priority go round, and one of a higher priority goes first. -/
theorem test_wit_arbiter : let b := aBurst 0 yardBase 0 (coreBase 0) none;
    let h := { aChan .run yMove 0 with passDone := some 0, burst := some b };
    let low := { h with cfg := h.cfg - 1 };
    let s := fun (r : Nat) (l : Tab Chan) => { hostTray [] with yrd := { chans := l, rr := if r = 0 then [] else [(h.prio, r)] } };
    ((s 0 [(3, h), (9, h)]).arbiter false).map (·.1) = some 3 ∧ ((s 4 [(3, h), (9, h)]).arbiter false).map (·.1) = some 9
    ∧ ((s 10 [(3, h), (9, h)]).arbiter false).map (·.1) = some 3 ∧ ((s 0 []).arbiter false).isNone = true
    ∧ low.prio = 6 ∧ h.prio = 7 ∧ ((s 0 [(3, low), (9, h)]).arbiter false).map (·.1) = some 9
    ∧ Tab.wf ({} : Chan) (s 0 [(3, h), (9, h)]).yrd.chans = true := by decide +kernel
/-- Bursts end at the boundaries of R271: a host's 4 KiB, a model page's 16 KiB, 4,096 bytes. -/
theorem test_burst_ends : burstLen 1 0 0xFFF 0 100 = 1 ∧ burstLen 0 2 0 0x1001 9999 = 4095 ∧ burstLen 3 0 0x3FC0 0 9999 = 64
    ∧ burstLen 0 0 1 1 9999 = 4096 := by decide

/-! ### States that meet the hypotheses of the statements: the loop engine -/

/-- Every unit of plant I/O belongs to domain 15. -/
def allOwned : Tab Word := (List.range 764).map fun u => (u, BitVec.ofNat 64 (2 ^ 63 + 15 * 2 ^ 59))
/-- Slots 4094 and 4095 of domain 15: LAW 0, PERIOD 4, PHASE 3, source POS of capture input 0; the second's parent is the first. -/
def aLoop (st : LoopSt) (spsrc : Nat) : LoopSlot :=
  { cfg := BitVec.ofNat 64 (2 ^ 63 + 15 * 2 ^ 59 + spsrc * 2 ^ 55 + 4 * 2 ^ 26 + 3 * 2 ^ 10), st := st
    src := BitVec.ofNat 64 (256 * 2 ^ 52 + 4094 * 2 ^ 4) }
def loopTray (h : HostCmd) (a b : LoopSlot) : State :=
  let s := ringTray h
  { s with
    pio := { s.pio with own := allOwned }
    loop := { s.loop with slots := [(4094, a), (4095, b)] } }
def loopCmd (lop : Nat) : HostCmd := hcmd 4 (lop * 2 ^ 312 + 4094 * 2 ^ 300 + 1 * 2 ^ 288) 0
def namedOk (s : State) (st : LoopSt) : Bool :=
  [4094, 4095].all fun i => (s.loopSlot i).st == st && (s.loopSlot i).dom == 15
theorem test_wit_close : let h := loopCmd 0x30;
    let s := loopTray h (aLoop .open_ 0) (aLoop .open_ 1);
    4094 + 2 ≤ 4096 ∧ h.field 287 0 = 0 ∧ h.field 311 300 = 4094 ∧ h.field 299 288 = 1 ∧ s.accepts 15 15 4 (some 0x30) h
    ∧ namedOk s .open_ = true ∧ (∀ i ∈ [4094, 4095], s.loopCfgOk i [4094, 4095] = true)
    ∧ (s.loopSlot 4095).parent ∈ [4094, 4095] ∧ s.liveLoops = [] :=
  ⟨by decide, by decide +kernel, by decide +kernel, by decide +kernel, accepts_of (by decide +kernel), by decide +kernel⟩
theorem test_wit_occupancy : ∀ k < 2000, occAt ([] ++ [aLoop .open_ 0, aLoop .open_ 1]) k ≤ 256 := by
  intro k _
  have : ∀ x, LoopSlot.adds x k ≤ 1 := by
    intro x
    unfold LoopSlot.adds bit
    split <;> split <;> omega
  have h1 := this (aLoop .open_ 0)
  have h2 := this (aLoop .open_ 1)
  simp only [occAt, List.nil_append, List.map_cons, List.map_nil, List.sum_cons, List.sum_nil]
  omega
theorem test_wit_loop_commands : (let h := loopCmd 0x30;
      let s := loopTray h (aLoop .open_ 0) (aLoop .armed 1);
      s.accepts 15 15 4 (some 0x30) h ∧ (s.loopSlot 4095).st ≠ .open_)
    ∧ (let h := loopCmd 0x31;
      let s := loopTray h (aLoop .closed 0) (aLoop .closed 1);
      s.accepts 15 15 4 (some 0x31) h ∧ namedOk s .closed = true)
    ∧ (let h := loopCmd 0x32;
      let s := loopTray h (aLoop .tripped 0) (aLoop .tripped 1);
      s.accepts 15 15 4 (some 0x32) h ∧ namedOk s .tripped = true)
    ∧ (let h := loopCmd 0x33;
      let s := loopTray h (aLoop .open_ 0) (aLoop .open_ 1);
      s.accepts 15 15 4 (some 0x33) h ∧ namedOk s .open_ = true) :=
  ⟨⟨accepts_of (by decide +kernel), by decide +kernel⟩, ⟨accepts_of (by decide +kernel), by decide +kernel⟩,
    ⟨accepts_of (by decide +kernel), by decide +kernel⟩, ⟨accepts_of (by decide +kernel), by decide +kernel⟩⟩
/-- A queue whose head is open and whose next entry is not; the push of entry 0 of a window. -/
theorem test_wit_trajectory : let a : Traj := ⟨100, 200, 0, 0, 0, 0, 63, false⟩;
    let b : Traj := ⟨200, 300, 0, 0, 0, 0, 0, false⟩;
    let x := { aLoop .closed 0 with queue := [a, b], arrived := [(7, some [b]), (8, none)] };
    x.queue = a :: [b] ∧ x.queue.length ≤ 64 ∧ a.op ≤ 199 ∧ 199 < a.cl ∧ a.bad = false ∧ (∀ c ∈ [b], 199 < c.op ∧ c.bad = false)
    ∧ x.arrived = (7, some [b]) :: [(8, none)] ∧ (dropStale 0 [{ a with bad := true }, b]).1.head? = some b
    ∧ (loopTray (hcmd 0 0 0) x x).var.acts = true := by decide +kernel
/-- Two open entries: the newer is taken; none open: the loop is exhausted; a push replaces from its first OPEN on, and one of 65 is refused. -/
theorem test_wit_consume : let a : Traj := ⟨100, 200, 1, 0, 0, 0, 0, false⟩;
    let b : Traj := ⟨150, 300, 2, 0, 0, 0, 1, false⟩;
    let x := { aLoop .closed 0 with queue := [a, b] };
    dropStale 160 x.queue = ([b], 1) ∧ ((x.consume 160).1.cur).map (·.v0) = some 2 ∧ (x.consume 160).1.skipCnt = 1
    ∧ (dropStale 50 x.queue).1.head? = some a ∧ x.exhTrip = false ∧ (({ x with cur := some a } : LoopSlot).consume 50).1.exh = true
    ∧ (x.push [⟨150, 400, 3, 0, 0, 0, 0, false⟩] 0).queue.map (·.v0) = [1, 3] ∧ x.pushBad 65 [] = true ∧ x.pushBad 1 [b] = false := by decide +kernel
/-- The trips of a sample in their order, and its law. -/
theorem test_wit_sample : (brake.sample [some 768] false true 0 3 0).2 = 0 ∧ ({ brake with bad := true }.sample [none] true true 0 3 0).1.cause = 5
    ∧ (brake.sample [none] true true 0 3 0).1.cause = 3 ∧ (brake.sample [some 768] true true 0 3 0).1.cause = 4
    ∧ [(768 : Int)].length = brake.nm ∧ 0 < brake.nm ∧ brake.law ≠ 2 ∧ brake.imin.toInt ≤ brake.i0.toInt ∧ brake.i0.toInt ≤ brake.imax.toInt
    ∧ brake.imin.toInt ≤ brake.integ ∧ brake.integ ≤ brake.imax.toInt := by decide +kernel
theorem test_wit_grid : let x := { aLoop .closed 0 with cfg := BitVec.ofNat 64 (2 ^ 63 + 4 * 2 ^ 26) };
    let s := loopTray (hcmd 0 0 0) x x;
    let w : Sweep := ⟨95000, 19, 0, [], [], [], []⟩;
    let f : Frozen := ⟨100000, 20, allOwned, [], [], []⟩;
    s.var.acts = true ∧ s.time.running = true ∧ s.pending = [] ∧ s.dt = s.loop.base.toNat + 5000 * 20 ∧ s.time.tick.settle.dt = 100000 + 1
    ∧ x.due 20 100000 = true
    ∧ (let u := { s with loop := { s.loop with frozen := [f] } }; u.loop.frozen = f :: [] ∧ u.loop.sweep = none)
    ∧ (let u := { s with loop := { s.loop with sweep := some w } }; u.loop.sweep = some w ∧ w.commitAt ≤ u.dt)
    ∧ ({ x with bad := true } : LoopSlot).bad = true := by decide +kernel

/-! ### States that meet the hypotheses of the statements: plant I/O -/

/-- A tray with plant I/O; `p` sets its units, all of domain 15. -/
def pioTray (p : Pio → Pio) : State :=
  let s := hostTray []
  { s with
    pio := p { own := allOwned }
    loop := { s.loop with auth := true }
    sec := { s.sec with sensed := { s.sec.sensed with done := true } }
    sched := { s.sched with ymap := [(0, { valid := true, dom := 15 })] } }
/-- MAC 3 enabled at MAXLEN 64; with MACsec; on a PTP port. -/
def aMac (msec ptp : Bool) : MacSt :=
  { cfg := BitVec.ofNat 64 (2 ^ 63 + 64 * 2 ^ 46 + (if msec then 2 ^ 45 else 0) + (if ptp then 2 ^ 44 else 0)), link := true }
def ethFrame (et n : Nat) (pause : Bool) : EthFrame :=
  ⟨List.replicate 12 0 ++ [BitVec.ofNat 8 (et / 256), BitVec.ofNat 8 et] ++ List.replicate n 0, true, pause, 0, 1⟩
/-- Frames at their shortest length, plain, of gPTP, secured, paused, and one byte short; a rule that takes them into ring 63. -/
def macTray (msec ptp : Bool) : State :=
  let s := pioTray fun p => { p with macs := [(3, { aMac msec ptp with rules := [(7, BitVec.ofNat 64 (2 ^ 63 + 63 * 2 ^ 27))] })] }
  { s with boot := { s.boot with ptp := ptp } }
theorem test_wit_ethernet : (let s := macTray false false;
      let c := (s.mac 3).cfg.toNat;
      s.var.acts = true ∧ s.pioOn (uMac 3) = true ∧ (s.mac 3).link = true ∧ (ethFrame 0x88B5 46 false).tEnd ≤ s.dt ∧ (ethFrame 0x88B5 46 false).bytes.length + 4 = 64
      ∧ natBits c 59 46 = 64 ∧ natBit c 45 = false ∧ (ethFrame 0x88B5 46 true).pause = true ∧ (ethFrame 0x88B5 45 false).bytes.length + 4 < 64
      ∧ (s.mac 3).rule (ethParse (ethFrame 0x88B5 46 false).bytes).1 none = some 63)
    ∧ (let s := macTray false true;
      s.ptpPort 3 = true ∧ (ethParse (ethFrame 0x88F7 46 false).bytes).1 = 0x88F7 ∧ (ethParse (ethFrame 0x88F7 46 false).bytes).2.1 = none
      ∧ ((ethFrame 0x88F7 46 false).bytes.getD 14 0).toNat % 16 ∈ [0, 8, 11])
    ∧ (let s := macTray true false;
      natBit (s.mac 3).cfg.toNat 45 = true ∧ (ethParse (ethFrame 0x88B5 46 false).bytes).1 = 0x88B5) := by decide +kernel
/-- CAN controller 7 with FD, XL and CANsec as given. -/
def canTray (fd xl sec : Bool) (f : CanSt → CanSt) : State :=
  pioTray fun p => { p with cans := [(7, f { cfg := BitVec.ofNat 64 (2 ^ 63 + bit fd * 2 ^ 62 + bit xl * 2 ^ 61 + bit sec * 2 ^ 60) })] }
def canFrame (fmt : Nat) (secured : Bool) : CanFrame := ⟨0x7FF, false, false, fmt, false, false, 0, 0, 0, secured, [1], 0, 1⟩
theorem test_wit_can : (∀ p ∈ [(0, false, false), (1, true, false), (2, false, true)],
      let s := canTray p.2.1 p.2.2 false id;
      s.pioOn (uCan 7) = true ∧ (s.can 7).bstate ≠ 2 ∧ (canFrame p.1 false).fmt = p.1 ∧ (canFrame p.1 false).tEnd ≤ s.dt
      ∧ (p.1 = 0 ∨ (p.1 = 1 ∧ natBit (s.can 7).cfg.toNat 62 = true)
        ∨ (p.1 = 2 ∧ natBit (s.can 7).cfg.toNat 61 = true ∧ natBit (s.can 7).cfg.toNat 60 = false)))
    ∧ (let s := canTray false true true id;
      s.pioOn (uCan 7) = true ∧ natBit (s.can 7).cfg.toNat 61 = true ∧ natBit (s.can 7).cfg.toNat 60 = true
      ∧ (canFrame 2 false).secured = false ∧ (canFrame 2 true).secured = true)
    ∧ (let s := canTray false false false fun x => { x with bstate := 2, recovering := true };
      (s.can 7).recovering = true ∧ (s.can 7).bstate = 2) := by decide +kernel
/-- Receive field 255 takes the first byte of a frame of MAC 3, which ended as the instant that waits was frozen. -/
theorem test_wit_fields : let z : Frozen := ⟨1, 0, [], [], [], []⟩;
    let x : RxField := { a := BitVec.ofNat 64 (2 ^ 63 + 3 * 2 ^ 59), b := BitVec.ofNat 64 (0x88B5 * 2 ^ 32 + 0xFFFF) };
    let s := pioTray fun p => { p with rxf := [(255, x)] };
    let u := { s with loop := { s.loop with frozen := [z] } };
    u.pioOn (uRxf 255) = true ∧ natBits (u.rxField 255).a.toNat 62 59 = 3 ∧ natBits (u.rxField 255).a.toNat 57 56 ≠ 3
    ∧ 0x88B5 &&& natBits (u.rxField 255).b.toNat 15 0 = natBits (u.rxField 255).b.toNat 47 32 &&& natBits (u.rxField 255).b.toNat 15 0
    ∧ (u.rxField 255).take [5] = some 5 ∧ Tab.wf ({} : RxField) u.pio.rxf = true ∧ Tab.wf ({} : RxField) z.rxf = true := by decide +kernel
/-- A receive key of CAN controller 7, and three frames in the order of T_END and, at one T_END, of SRCU. -/
theorem test_wit_opened : let k : PioKey := ⟨11, 7, 3, false, [], 5⟩;
    let s := { pioTray id with sec := { (pioTray id).sec with keys := [k] } };
    (s.sec.keys.find? fun k => k.unit == 11 && !k.tx && k.sc == 7 && k.an == 3) = some k := by decide +kernel
theorem test_wit_ring_order : let f := fun t u => (⟨[], 0, t, 64, u, false⟩ : RxFrame);
    [f 5 0, f 5 1].Pairwise (fun a b => b.before a = false) ∧ (f 4 3).insert [f 5 0, f 5 1] = [f 4 3, f 5 0, f 5 1]
    ∧ (f 5 0).insert [f 4 3, f 5 1] = [f 4 3, f 5 0, f 5 1] := by decide
/-- Two rules and two filters, of which the second is the first that matches. -/
theorem test_rule_and_filter : (let x : MacSt := { rules := [(1, BitVec.ofNat 64 (2 ^ 63 + 2 ^ 62 + 5 * 2 ^ 50 + 2 ^ 49 + 0x88B5 * 2 ^ 33 + 7 * 2 ^ 27)),
        (2, BitVec.ofNat 64 (2 ^ 63 + 9 * 2 ^ 27))] };
      x.rule 0x88B5 (some 5) = some 7 ∧ x.rule 0x88B5 (some 4) = some 9 ∧ ({} : MacSt).rule 0 none = none)
    ∧ (let x : CanSt := { fltA := [(1, BitVec.ofNat 64 (2 ^ 63 + 0x7F0 * 2 ^ 33 + 7 * 2 ^ 27)), (2, BitVec.ofNat 64 (2 ^ 63 + 9 * 2 ^ 27))],
                          fltB := [(1, 0x7F0)] };
      x.filter false 0x7FF = some 7 ∧ x.filter false 0x10F = some 9 ∧ x.filter true 0x7FF = none) := by decide +kernel
/-- Ring 63 at the Yard's first slot of 1,024 bytes: a frame that fits, one that finds no slot, one outside the granules; frames that wait. -/
def ringTray63 (b : Nat) (w : Nat) (base : Nat) (l : List RxFrame) : State :=
  pioTray fun p => { p with rings := [(63, { a := BitVec.ofNat 64 (2 ^ 63 + base), b := BitVec.ofNat 64 (b + 10 * 2 ^ 23 + 8 * 2 ^ 16), frames := w
                                             waiting := l })] }
def rxOf (t : Nat) : RxFrame := ⟨[1, 2, 3], 0, t, 7, 3, false⟩
theorem test_wit_rings : (let s := ringTray63 0 5 yardBase [];
      s.pioDom (uRing 63) = some 15 ∧ s.pioOn (uRing 63) = true ∧ s.yardRangeOk 15 0 64 = true ∧ s.yardRangeOk 15 64 3 = true
      ∧ (s.yardWrite (bytesAt 0 (rxRecord 0 1 5 3 7 3 false false) ++ bytesAt 64 [1, 2, 3])).2 = [] ∧ Tab.wf ({} : RxRing) s.pio.rings = true)
    ∧ (let s := ringTray63 (2 ^ 45) 1 yardBase []; natBit (s.rxRing 63).b.toNat 45 = true ∧ ¬ ((1 : Int) - (s.tallyVal 0 : Int)) % 2 ^ 32 < 1)
    ∧ (let s := ringTray63 0 0 (yardBase + 65536) []; s.yardRangeOk 15 65536 64 = false)
    ∧ (let s := ringTray63 0 0 yardBase [rxOf 1];
      (rxOf 100000).insert (s.rxRing 63).waiting = [rxOf 1] ++ [rxOf 100000] ∧ 1 + s.rxLatMax < s.dt ∧ s.dt ≤ 100000 + s.rxLatMax)
    ∧ (3 : Nat) < 2 ^ 14 ∧ memOk (pioTray id).yard.mem = true ∧ (pioTray id).yard.bad = [] := by decide +kernel
/-- The limits of fault confinement. -/
theorem test_can_confine : ((({} : CanSt).confine 127 127).bstate, (({} : CanSt).confine 128 0).bstate, (({} : CanSt).confine 255 255).bstate,
    (({} : CanSt).confine 256 0).bstate) = (0, 1, 1, 2) := by decide

/-- A frame of 60 bytes for MAC 3, due, in queue 12; a map's frame of CAN controller 7. -/
def ethTx : TxFrame := ⟨false, 12, 0, 0, List.replicate 64 0, List.replicate 60 0⟩
def mapTx : TxFrame := ⟨true, 63, 0, 0, List.replicate 64 0, [1, 2]⟩
def txTray (busy : Option TxFrame) : State :=
  pioTray fun p => { p with
    macs := [(3, aMac false false)], queues := [(12, { frames := [ethTx] })]
    cans := [(7, { cfg := BitVec.ofNat 64 (2 ^ 63) })]
    maps := [(63, { cfg := BitVec.ofNat 64 (2 ^ 63 + 11 * 2 ^ 58), due := some mapTx })]
    txing := match busy with
      | none => []
      | some f => [(3, some f), (11, some f)] }
theorem test_wit_transmit : (let s := txTray none;
      s.portFree 3 = true ∧ s.busOff 3 = false ∧ s.nextFrame 3 = some ethTx ∧ (s.wire 3 ethTx).isSome = true
      ∧ Tab.wf none s.pio.txing = true ∧ Tab.wf [] s.pio.lastSent = true)
    ∧ (let s := txTray none;
      s.portFree 11 = true ∧ s.busOff 11 = false ∧ s.nextFrame 11 = some mapTx ∧ (s.wire 11 mapTx).isSome = true ∧ mapTx.isMap = true)
    ∧ (let s := txTray (some ethTx);
      Tab.get none s.pio.txing 3 = some ethTx ∧ Tab.get none s.pio.txing 11 = some ethTx
      ∧ s.var.acts = true ∧ (s.pioDom (uQueue 31)).isSome = true) := by decide +kernel

/-- On CAN a frame behind the head of its queue that wins arbitration is next; a map's frame goes before a queue's head on Ethernet. -/
def canTx (id due : Nat) (f : TxFrame) : TxFrame := { f with due := due, hdr := toLE 64 (id * 2 ^ 336) }
theorem test_wit_next_frame : (let lo := canTx 1 0 ⟨false, 30, 0, 0, [], []⟩;
      let hi := canTx 9 0 ⟨false, 30, 0, 0, [], []⟩;
      let s := pioTray fun p => { p with queues := [(30, { frames := [hi, lo] })] };
      s.nextFrame 11 = some lo ∧ lo.arb < hi.arb ∧ queuePort 30 = 11 ∧ (s.pioDom (uQueue 30)).isSome = true ∧ lo.due ≤ s.dt ∧ lo.close = 0
      ∧ Tab.wf ({} : TxMap) s.pio.maps = true ∧ Tab.wf ({} : TxQueue) s.pio.queues = true)
    ∧ (let late := canTx 0 200000 ⟨false, 12, 0, 0, [], []⟩;
      let s := pioTray fun p => { p with queues := [(12, { frames := [late, ethTx] }), (13, { frames := [ethTx] })] };
      s.nextFrame 3 = some ethTx ∧ (s.txQueue 13).frames.head? = some ethTx)
    ∧ (let m : TxFrame := ⟨true, 5, 7, 0, List.replicate 64 0, [1]⟩;
      let s := pioTray fun p => { p with
        macs := [(3, aMac false false)], queues := [(12, { frames := [ethTx] })]
        maps := [(5, { cfg := BitVec.ofNat 64 (2 ^ 63 + 3 * 2 ^ 58), due := some m })] };
      (s.txMap 5).due = some m ∧ (s.txMap 5).port = 3 ∧ s.pioOn (uMap 5) = true ∧ s.frameFits 3 m = true ∧ s.nextFrame 3 = some m)
    ∧ (pioTray id).nextFrame 3 = none ∧ (pioTray id).nextFrame 11 = none
    ∧ ((State.reset.pioDom (uQueue 12)).isNone && (State.reset.pioDom (uMap 63)).isNone) = true := by decide +kernel
/-- Controller 7 in bus-off, with a map's frame that is due and a queue of its port. -/
theorem test_wit_bus_off : let s := txTray none;
    let u := { s with pio := { s.pio with cans := [(7, { cfg := BitVec.ofNat 64 (2 ^ 63), bstate := 2, recovering := true })] } };
    u.portFree 11 = true ∧ u.busOff 11 = true ∧ u.pioOn (uCan 7) = true ∧ (u.can 7).recovering = true ∧ (u.can 7).bstate = 2
    ∧ queuePort 31 = 11 ∧ (u.pioDom (uQueue 31)).isSome = true ∧ u.pioOn (uMap 63) = true ∧ (u.txMap 63).port = 11
    ∧ (u.txMap 63).due.isSome = true ∧ Tab.wf ({} : TxQueue) u.pio.queues = true ∧ Tab.wf ({} : TxMap) u.pio.maps = true
    ∧ u.pioOn (uMap 0) = false := by decide +kernel
/-- Capture input 15 as an encoder with its index, and as SENT. -/
theorem test_wit_capture : (let s := pioTray fun p => { p with caps := [(15, { cfg := BitVec.ofNat 64 (2 ^ 63 + 2 ^ 58), lastEdge := some 10 })] };
      s.var.acts = true ∧ s.pioOn (uCap 15) = true ∧ natBits (s.cap 15).cfg.toNat 62 61 = 0 ∧ natBit (s.cap 15).cfg.toNat 58 = true
      ∧ Tab.wf ({} : CapSt) s.pio.caps = true ∧ 100000 ≤ s.dt)
    ∧ (let s := pioTray fun p => { p with caps := [(15, { cfg := BitVec.ofNat 64 (2 ^ 63 + 2 ^ 61) })] };
      s.pioOn (uCap 15) = true ∧ natBits (s.cap 15).cfg.toNat 62 61 = 1) := by decide +kernel
/-- An encoder's pins after each transition (R347): A leads B and counts up; two at once, and 9 ns after one, are an overspeed. -/
theorem test_wit_edges : let x : CapSt := { lastEdge := some 10 };
    (x.edge true false 20).1.count = 1 ∧ (x.edge false true 20).1.count = 2 ^ 32 - 1 ∧ (x.edge true true 20).1.count = 0
    ∧ (x.edge true false 20).2 = false ∧ (x.edge true false 19).2 = true ∧ (x.edge true true 20).2 = true
    ∧ (∃ l, x.lastEdge = some l ∧ 19 < l + 10) := by decide
theorem test_wit_pin_filter : let x : CapSt := { pinA := { raw := true, since := 7 } };
    x.pinB.raw = x.pinB.level ∧ x.pinA.raw ≠ x.pinA.level ∧ x.pinA.since + x.filterNs ≤ 7 ∧ (6 : Nat) < x.pinA.since + x.filterNs := by decide
/-- Digital input 31 at the end of its filter time of 1 ns, and STUCK at its limit of 0. -/
theorem test_wit_inputs : (let s := pioTray fun p => { p with dins := [(31, { cfg := BitVec.ofNat 64 (2 ^ 63 + 1 * 2 ^ 42), raw := true, rawAt := 99999 })] };
      s.pioOn (uDin 31) = true ∧ ((s.din 31).raw != natBit (s.din 31).cfg.toNat 62) ≠ (s.din 31).filt
      ∧ (s.din 31).rawAt + natBits (s.din 31).cfg.toNat 61 42 ≤ s.dt ∧ (s.din 31).raw ≠ false ∧ 100000 ≤ s.dt)
    ∧ (let s := pioTray fun p => { p with dins := [(31, { cfg := BitVec.ofNat 64 (2 ^ 63), filt := true, raw := true, filtAt := some 100000 })] };
      s.stuckAt 31 s.dt = true ∧ (s.din 31).stuck = false) := by decide +kernel
theorem test_wit_pwm : let s := pioTray fun p => { p with pwms := [(15, { cfg := BitVec.ofNat 64 (2 ^ 63 + 1000 * 2 ^ 32), safe := false, c := 1000 })] };
    s.pwmLive 15 = true ∧ (s.pwm 15).start ≠ some (s.pwmStart 15) ∧ Tab.wf ({} : PwmSt) s.pio.pwms = true := by decide +kernel

/-! ### States that meet the hypotheses of the statements: time and functions -/

def timeTray (f : Time → Time) : State :=
  let s := pioTray id
  { s with time := f s.time, boot := { s.boot with ptp := true }, pio := { s.pio with macs := [(3, aMac false true)] } }
theorem test_wit_time : (let x : Time := { dt := 2 ^ 64 - 3, frac := 2 ^ 40 - 1, rate := -109951162 };
      x.frac < 2 ^ 40 ∧ x.dt + 2 < 2 ^ 64 ∧ -109951162 ≤ x.rate ∧ x.rate ≤ 109951162)
    ∧ (let s := timeTray fun t => { t with en := true, disc := .acquire };
      s.time.en = true ∧ s.time.lastEdge = none ∧ s.time.disc = .acquire ∧ 99999 < s.dt ∧ 100000 = s.dt)
    ∧ (let s := timeTray fun t => { t with edge := some 99999 }; s.time.edge = some 99999 ∧ 99999 < s.dt)
    ∧ (let s := timeTray fun t => { t with en := true, disc := .track, lastEdge := some 0 };
      s.time.disc = .track ∧ (∀ l, s.time.lastEdge = some l → l + 900000000 ≤ 900000000)
      ∧ ¬ (∀ l, s.time.lastEdge = some l → l + 900000000 ≤ 899999999))
    ∧ (let s := timeTray fun t => { t with dt := 1500000001, disc := .locked, lastEdge := some 0 };
      s.time.disc = .locked ∧ (∀ l, s.time.lastEdge = some l → l + 1500000000 < s.dt))
    ∧ (let s := timeTray fun t => { t with dt := 1000000000, pen := true, ten := true };
      s.time.ppsHigh = false ∧ s.time.clkHigh = false ∧ s.time.pen = true ∧ s.time.ten = true ∧ s.time.ptp % 1000000000 = 0)
    ∧ (let s := timeTray fun t => { t with ppsHigh := true, ppsFall := 100000, clkHigh := true, clkFall := 100000 };
      s.time.ppsHigh = true ∧ s.time.ppsFall ≤ s.dt ∧ s.time.clkHigh = true ∧ s.time.clkFall ≤ s.dt) := by
  refine ⟨by decide +kernel, by decide +kernel, by decide +kernel, ⟨by decide +kernel, ?_, ?_⟩, ⟨by decide +kernel, ?_⟩, by decide +kernel, by decide +kernel⟩
  · intro l h; have : (0 : Nat) = l := Option.some.inj h; omega
  · intro h; exact absurd (h 0 rfl) (by decide)
  · intro l h; have : (0 : Nat) = l := Option.some.inj h; subst this; decide +kernel
theorem test_wit_gptp : let s := timeTray id;
    s.ptpPort 3 = true ∧ Tab.get 0 s.time.nextSync 3 ≤ s.dt ∧ Tab.get 0 s.time.nextAnn 3 ≤ s.dt ∧ Tab.get 0 s.time.nextPdelay 3 ≤ s.dt := by
  decide +kernel
theorem test_wit_functions : (let s := hostTray [];
      (s.fnSt .b).ls ≠ 2 ∧ s.boot.inReset = false ∧ 4 ≤ s.boot.step ∧ (s.fnSt .a).ls = 2 ∧ (s.fnSt .a).d3 = false ∧ (s.fnSt .a).bme = true
      ∧ (s.fnSt .a).ready = true ∧ (s.fnSt .b).ready = false)
    ∧ (let s := hostTray [];
      let u := { s with hif := { s.hif with a := { s.hif.a with d3 := true } } };
      (u.fnSt .a).d3 = true ∧ (u.fnSt .a).msixPend = 0 ∧ natBits 3 1 0 = 3 ∧ natBits 4 1 0 = 0) := by decide +kernel

/-! ### States that meet the hypotheses of the statements: registers that act -/

theorem test_wit_channel_controls : (∀ st ∈ [ChSt.disabled, .idle, .halted, .waiting],
      let s := chanTray (aChan st [] 0);
      s.reaches .a (0x700018 + 0x40 * 127) = true ∧ s.reaches .a 0x704008 = true ∧ (s.chan 127).st = st ∧ s.chanBad (s.chan 127) = false
      ∧ Tab.wf ({} : Chan) s.yrd.chans = true ∧ (s.chan 127).burst = none ∧ (s.chan 127).en = true)
    ∧ (let s := chanTray { aChan .disabled [] 0 with base := 32 };
      (s.chan 127).st = .disabled ∧ s.chanBad (s.chan 127) = true) := by decide +kernel

/-- Slot 4095 DISABLED, OPEN and ARMED; the grid with and without a live loop. -/
theorem test_wit_loop_registers : (∀ st ∈ [LoopSt.disabled, .open_, .armed],
      let s := loopTray (hcmd 0 0 0) (aLoop .open_ 0) (aLoop st 0);
      s.var.acts = true ∧ s.reaches .a (0xA00000 + 0x100 * 4095) = true ∧ s.hif.holder = some .a ∧ (s.loopSlot 4095).st = st
      ∧ (s.loopSlot 4095).live = decide (st = .armed))
    ∧ (let s := loopTray (hcmd 0 0 0) (aLoop .open_ 0) (aLoop .open_ 0);
      s.reaches .a 0xB00000 = true ∧ s.sec.lock = false ∧ s.liveLoops = [] ∧ s.reaches .a 0xB00010 = true)
    ∧ (let s := loopTray (hcmd 0 0 0) (aLoop .open_ 0) (aLoop .armed 0);
      s.liveLoops ≠ []) := by decide +kernel
theorem test_wit_pio_registers : let s := pioTray fun p => { p with
      cans := [(7, { bstate := 2 })], rings := [(63, { b := BitVec.ofNat 64 (14 * 2 ^ 23 + 8 * 2 ^ 16) })], caps := [(15, { ovs := true })] };
    s.reaches .a (0xC30008 + 0x100 * 7) = true ∧ (s.can 7).bstate = 2 ∧ s.reaches .a (0xC20000 + 0x20 * 63) = true
    ∧ natBit (s.rxRing 63).a.toNat 63 = false ∧ 10 ≤ natBits (s.rxRing 63).b.toNat 26 23 ∧ natBits (s.rxRing 63).b.toNat 26 23 ≤ 14
    ∧ 8 ≤ natBits (s.rxRing 63).b.toNat 22 16 ∧ s.reaches .a (0xC50000 + 0x20 * 15) = true ∧ natBit (s.cap 15).cfg.toNat 63 = false
    ∧ s.reaches .a (0xC50010 + 0x20 * 15) = true ∧ (s.cap 15).ovs = true ∧ Tab.wf ({} : CapSt) s.pio.caps = true
    ∧ s.reaches .a (0xC60000 + 0x10 * 31) = true ∧ natBit (s.din 31).cfg.toNat 63 = false ∧ s.reaches .a (0xC00000 + 8 * 763) = true
    ∧ s.hif.holder = some .a ∧ natBit (s.pioCfg 763) 63 = false ∧ s.unitNamed 763 = false := by decide +kernel
theorem test_wit_setup_registers : let s := hostTray [];
    (∀ a ∈ [0xD00018, 0xD00008, 0xD00010, 0xE00008, 0x600000 + 8 * 15, 0x300100 + 8 * 15, 0x400090 + 0x1000 * 255, 0x300018, 0x203100],
      s.reaches .a a = true)
    ∧ s.var.acts = true ∧ s.time.disc = .free ∧ s.sec.lock = false ∧ natBits (0x8000000000000000 : Word).toNat 62 61 = 0 ∧ 255 < s.var.cores
    ∧ (let u := { s with sec := { s.sec with lock := true } }; u.sec.lock = true ∧ u.reaches .a 0xE00008 = true) := by decide +kernel
/-- A range of tallies that ends at the last, and one that meets another domain's. -/
theorem test_wit_tally_ranges : let s := hostTray [];
    let u := { s with tly := { s.tly with drange := [(0, BitVec.ofNat 64 (2 ^ 18 * 2 ^ 32))] } };
    natBits (regMerge (Tab.get 0 s.tly.drange 15) (partMask .full) (rwMask [(50, 32), (17, 0)]) (2 ^ 50)).toNat 50 32 = 262144
    ∧ rangesMeet (2 ^ 50) (Tab.get 0 u.tly.drange 0).toNat = true ∧ rangesMeet (2 ^ 50) (Tab.get 0 s.tly.drange 0).toNat = false := by
  decide +kernel

/-- A twin of this mode, side and PAIRID 5. -/
def twinTray (mode : Nat) (side : Bool) (f : Twin → Twin) : State :=
  let s := pioTray id
  { s with twin := f { cfg := BitVec.ofNat 64 (mode * 2 ^ 62 + bit side * 2 ^ 61 + 2 ^ 60 + 5) } }
theorem test_wit_twin_registers : (let s := twinTray 0 false id;
      s.var.acts = true ∧ s.reaches .a 0xF20000 = true ∧ s.sec.lock = false ∧ s.twin.ast = .off
      ∧ natBits (regMerge s.twin.cfg (partMask .full) rwTwinCfg (2 ^ 63)).toNat 63 62 = 2)
    ∧ (let s := twinTray 1 false id; s.reaches .a 0xF20008 = true ∧ s.twin.ast = .off ∧ s.pwr.tripped = false ∧ s.twin.mode = 1 ∧ s.twin.pin = false)
    ∧ (let s := twinTray 2 false fun x => { x with link := .paired };
      s.twin.ast = .off ∧ s.twin.mode = 2 ∧ s.twin.link = .paired ∧ s.twin.pin = false)
    ∧ (let s := twinTray 2 false fun x => { x with link := .paired, ast := .active, past := 1 };
      s.twin.ast = .active ∧ s.twin.link = .paired ∧ s.twin.past = 1) := by decide +kernel

/-! ### States that meet the hypotheses of the statements: power and errors -/

/-- Core 255 at STEP 0 may rise, falls, and changes its step; the rail moves. -/
def pwrTray (k : Core) (f : Pwr → Pwr) : State :=
  { (hostTray []) with cores := [(255, k)], pwr := f {} }
set_option maxRecDepth 4096 in
theorem test_wit_leash : (let u := (pwrTray { step := 0 } fun p => { p with fmax := 4 }).settle;
      u.credWaits = [] ∧ ((u.liveCores.filter fun c => (u.core c).isFloor) ++ u.liveCores.filter fun c => !(u.core c).isFloor).find? u.canRaise
        = some 255)
    ∧ (let s := running 8 none;
      let u := { s with pwr := { s.pwr with waiting := [⟨0, .ve, 1, 0⟩] }, cores := [(0, { (s.core 0) with ve := { queue := [cmd 8 none] } })] };
      u.settle.credWaits ≠ [])
    ∧ (let s := pwrTray { fallAt := some 99000, stepNext := some 4 } id;
      255 < s.var.cores ∧ (s.core 255).fallAt = some 99000 ∧ 99000 + 1000 ≤ s.dt ∧ (s.core 255).stepNext = some 4 ∧ railOf 4 ≤ s.pwr.rail)
    ∧ (let s := { pwrTray {} fun p => { p with lowv := true, fitSince := some 0, railNext := some 3 } with time := { dt := 100000000 } };
      s.pwr.lowv = true ∧ s.pwr.fitSince = some 0 ∧ 0 + 100000000 ≤ s.dt ∧ s.pwr.railNext = some 3) := by decide +kernel
/-- The rail is that of the highest step any core may take. -/
theorem test_wit_rail : (hostTray []).liveCores ≠ [] := by
  intro h
  have : 5 ∈ (hostTray []).liveCores := by decide +kernel
  rw [h] at this
  simp at this
theorem test_wit_temperature : (let s := pwrTray {} fun p => { p with hot := true, coolSince := some 90000 };
      s.boot.inReset = false ∧ 4 ≤ s.boot.step ∧ highest [-5, 105] = some 105 ∧ s.pwr.tripped = false ∧ s.pwr.hot = true)
    ∧ (let s := { pwrTray {} fun p => { p with hot := true, coolSince := some 0 } with time := { dt := 50000000 } };
      s.pwr.lastReport + 50000000 ≤ s.dt ∧ s.pwr.coolSince = some 0 ∧ 0 + 10000000 ≤ s.dt)
    ∧ (let s := { pwrTray {} id with boot := { inReset := true, holds := [1] } };
      s.boot.inReset = true ∧ highest [95] = some 95) := by decide +kernel

/-- A step that the rail supports; one that an up-move still has to make sure of, and one that a down-move would leave without. -/
theorem test_wit_steps : (let s := pwrTray { stepNext := some 4 } id;
      (s.core 255).stepNext = some 4 ∧ railOf 4 ≤ s.pwr.rail ∧ s.pwr.railNext = none)
    ∧ (let s := pwrTray { stepNext := some 6 } fun p => { p with rail := 0, railNext := some 1 };
      ¬ (railOf 6 ≤ s.pwr.rail) ∧ s.pwr.railNext = some 1)
    ∧ (let s := pwrTray { stepNext := some 4 } fun p => { p with railNext := some 0 };
      s.pwr.railNext = some 0 ∧ ¬ (railOf 4 ≤ 0)) := by decide +kernel
theorem test_wit_falls : let s := (pwrTray { grant := 9 } id);
    Tab.wf ({} : Core) s.cores = true ∧ 255 ∈ s.liveCores := by decide +kernel
theorem test_wit_reports : (-128 : Int) ≤ -35 ∧ (-35 : Int) < 128 ∧ ¬ (65 < (-35 : Int) ∨ 25 < 25) ∧ (65 < (66 : Int)) := by decide
/-- A record that joins the newest just before 1 ms, and one at 1 ms that does not. -/
def aRec (t code : Nat) : ErrRec := ⟨t, 0, 1, code, none, 4, 2, 1, 64, 0⟩
def rasTray (f : Ras → Ras) : State :=
  let s := hostTray []
  { s with ras := f {} }
theorem test_wit_log : (let s := rasTray fun x => { x with queue := [aRec 999999 0], log := [(0, some (aRec 0 0))], next := 1 };
      s.ras.queue = aRec 999999 0 :: [] ∧ s.ras.newest = some (aRec 0 0) ∧ (aRec 0 0).joins (aRec 999999 0) = true)
    ∧ (let s := rasTray fun x => { x with queue := [aRec 1000000 0], log := [(0, some (aRec 0 0))], next := 1 };
      (s.ras.newest.all fun n => !n.joins (aRec 1000000 0)) = true)
    ∧ (let s := rasTray fun x => { x with queue := [aRec 0 0] }; s.ras.newest = none) := by decide +kernel
/-- The patrol's last line, word or unit of each kind. -/
theorem test_wit_patrol : let s := { rasTray id with knl := { sframes := [(0, { bound := true })] } };
    ∀ t ∈ [PatrolTarget.coreLine 255 12287, .yardLine 63 0, .storeLine 95 0, .tallyWord 262143, .loopWord 4095 0, .trajEntry 4095 63 0, .tableWord 9 0],
      (s.patrolAt t).isSome = true ∧ s.patrolSkips t = false ∧ s.patrolStands t = .clean := by decide +kernel
/-- A core line and a Yard line with a unit that can be corrected, and with one that cannot. -/
theorem test_wit_patrol_stands : (let s := (rasTray id).updCore 255 fun k => { k with weak := [786428] };
      (s.core 255).badIn (64 * 12287) (64 * 12287 + 64) = [] ∧ (s.core 255).weakIn (64 * 12287) (64 * 12287 + 64) = [786428]
      ∧ s.patrolStands (.coreLine 255 12287) = .corrected false)
    ∧ (let s := (rasTray id).updCore 255 fun k => { k with bad := [786428] }; s.patrolStands (.coreLine 255 12287) = .uncorrectable)
    ∧ (let s := { rasTray id with yard := { weak := [4040] } };
      s.yardBadIn 4032 4096 = [] ∧ s.yardWeakIn 4032 4096 = [4040] ∧ 64 * (0 * s.var.slices + 63) = 4032) := by decide +kernel
/-- The last line of the frame version array, as bring-up left it, and the first line of a frame whose LOAD has not copied yet, are as the
channels answer; the same line of the array is not good once it is a bad one. -/
def patrolTray (bad : List Nat) : State :=
  let s := hostTray []
  { s with boot := { s.boot with store := true }, knl := { sframes := [(0, { bound := true })], dir := [(0, { version := 1 })], badLines := bad } }
theorem test_wit_patrol_shows : (let s := patrolTray [];
      (s.patrolAt (.storeLine 31 1836821)).isSome = true ∧ s.patrolSkips (.storeLine 31 1836821) = false
      ∧ (s.patrolAt (.storeLine 0 0)).isSome = true ∧ s.patrolSkips (.storeLine 0 0) = false
      ∧ s.patrolFault (.storeLine 0 0) = none ∧ s.patrolFault (.coreLine 255 12287) = none)
    ∧ (let s := patrolTray [1836821 * 96 + 31];
      (s.patrolAt (.storeLine 31 1836821)).isSome = true ∧ s.patrolSkips (.storeLine 31 1836821) = false) := by decide +kernel
theorem test_wit_patrol_good : (patrolTray []).patrolFault (.storeLine 31 1836821) = none := by
  have v : (patrolTray []).lineVer ((patrolTray []).patrolOff 31 1836821) = 1 := by decide +kernel
  simp only [State.patrolFault]
  rw [if_pos (by decide +kernel), v]
  exact fresh_line _ _ 174079 rfl (by show Variant.region .sn9600 _ = _; decide +kernel) rfl rfl
theorem test_wit_patrol_bad : (patrolTray [1836821 * 96 + 31]).patrolFault (.storeLine 31 1836821) = some false := by
  simp only [State.patrolFault, State.lineFault]
  rw [if_pos (by decide +kernel), if_pos (by decide +kernel)]
theorem test_wit_links : (let s := rasTray fun x => { x with linkFails := [(1023, 8)], linkRetrains := [(1023, 2)] };
      1023 < 4 * s.var.cores ∧ s.ras.linkDown.contains 1023 = false ∧ 8 ≤ Tab.get 0 s.ras.linkFails 1023 ∧ Tab.get 0 s.ras.linkRetrains 1023 + 1 = 3)
    ∧ (let s := rasTray id; 255 < s.var.cores ∧ s.ras.fence.contains 255 = false ∧ 63 < s.var.slices ∧ 95 < s.var.channels
      ∧ 1023 < 4 * s.var.cores ∧ Tab.get 0 s.ras.linkFails 1023 < 8 ∧ s.ras.fence.Nodup) := by
  decide +kernel

/-! ### States that meet the hypotheses of the statements: the twin -/

theorem test_wit_knago : (let s := twinTray 2 false fun x => { x with link := .search };
      s.twin.link = .search ∧ s.twin.silent = false ∧ s.twin.pairid = 5 ∧ s.twin.side = false)
    ∧ (let s := twinTray 2 false fun x => { x with link := .paired, ast := .standby, lastFrame := 50000, lastBeat := 90000 };
      let u := { s with loop := { s.loop with slots := [(4095, aLoop .ramp 0)] } };
      u.twin.link = .paired ∧ u.twin.frameOf = u.twin.out.length ∧ u.twin.frameErrs + 1 < 8 ∧ u.twin.lastFrame + 50000 ≤ u.dt ∧ u.twin.lastBeat + 10000 ≤ u.dt ∧ u.twin.silent = false ∧ u.twin.ast = .standby
      ∧ (u.loopSlot 4095).runs = true)
    ∧ (let s := { twinTray 2 false fun x => { x with link := .search } with time := { dt := 1000000000 } };
      s.twin.link = .search ∧ s.twin.linkAt + 1000000000 ≤ s.dt)
    ∧ (∀ l ∈ [Link.lost, .mismatch],
      let s := { twinTray 2 false fun x => { x with link := l } with time := { dt := 100000000 } };
      (s.twin.link = .lost ∨ s.twin.link = .mismatch) ∧ s.twin.linkAt + 100000000 ≤ s.dt) := by decide +kernel
theorem test_wit_pin_absent : let s : State := { id := { variant := .sn9620 } }; s.var.acts = false ∧ (twinTray 2 true id).var.acts = true := by
  decide
theorem test_wit_authority : (let s := twinTray 2 true fun x => { x with link := .paired, claimAt := some 1 };
      s.twin.claimAt = some 1 ∧ s.twin.ast = .off ∧ s.twin.mode = 2 ∧ s.twin.link = .paired ∧ s.twin.pin = false ∧ s.dt < 1 + 100000)
    ∧ (let s := twinTray 2 true fun x => { x with link := .paired, claimAt := some 0 }; s.twin.claimAt = some 0 ∧ 0 + 100000 ≤ s.dt)
    ∧ (let s := twinTray 2 false fun x => { x with link := .paired, ast := .standby, fallAt := some 80000, lostAt := some 100000 };
      s.twin.link = .paired ∧ s.twin.ast = .standby ∧ s.twin.fallAt = some 80000 ∧ 80000 + 20000 ≤ s.dt ∧ s.twin.takeover = true
      ∧ s.twin.lostAt = some 100000 ∧ 80000 ≤ 100000 + 100000 ∧ 100000 ≤ 80000 + 20000)
    ∧ (let s := twinTray 2 false fun x => { x with link := .paired, ast := .active, handing := true };
      s.twin.link = .paired ∧ s.twin.handing = true ∧ s.twin.ast = .active ∧ s.twin.link ≠ .down)
    ∧ (let s := twinTray 1 true fun x => { x with ast := .active, pin := true, pinAt := 0 };
      s.twin.pin = true ∧ s.twin.pinAt + 800 ≤ s.dt ∧ s.twin.ast = .active ∧ s.twin.side = true ∧ s.twin.link ≠ .paired)
    ∧ (let s := twinTray 2 false fun x => { x with link := .paired, ast := .standby, fallAt := some 80000, handoverAt := some 99999 };
      let u := { s with twin := { s.twin with link := .mismatch, lostAt := none, handoverAt := some 100000 } };
      s.twin.handoverAt = some 99999 ∧ 99999 < 80000 + 20000 ∧ ¬ (100000 < 80000 + 20000) ∧ u.twin.handoverAt = some 100000) := by
  decide +kernel
/-- Compare slot 63 of domain 15, triggered by tally 262143, over the Yard's first line, with its record in the next two. -/
def cmpTray (stage : Nat) (partner : Option (Nat × List Byte)) : State :=
  let s := twinTray 2 false fun x => { x with
    link := .paired
    cmps := [(63, { a := BitVec.ofNat 64 (2 ^ 63 + 15 * 2 ^ 59 + 262143 * 2 ^ 41), b := BitVec.ofNat 64 (1 * 2 ^ 48 + yardBase)
                    c := BitVec.ofNat 64 (100 * 2 ^ 48 + yardBase + 64), stage := stage, seq := 7, at_ := 0, partner := partner })] }
  { s with tly := { s.tly with drange := [(15, BitVec.ofNat 64 (2 ^ 18 * 2 ^ 32))], val := [(262143, 1)] } }
theorem test_wit_compare : (let s := cmpTray 0 none;
      s.var.acts = true ∧ (s.cmp 63).dvalid = true ∧ s.waitRefused 15 262143 = false ∧ (s.cmp 63).dom = 15 ∧ (s.cmp 63).trig = 262143
      ∧ s.waitMet 262143 ((s.cmp 63).exp + 1) = true ∧ (s.cmp 63).exp + 1 < 2 ^ 32)
    ∧ ((cmpTray 0 none).cmp 63).refused = false ∧ ((cmpTray 0 none).cmp 0).dvalid = false
    ∧ (let s := { cmpTray 0 none with tly := {} }; s.waitRefused 15 262143 = true)
    ∧ (let s := cmpTray 1 none;
      let o := (s.cmp 63).addr - yardBase;
      s.twin.link = .paired ∧ (s.cmp 63).stage = 1 ∧ s.cmpRegionOk (s.cmp 63) = true ∧ s.yardBadIn o (o + 64 * (s.cmp 63).len) = []
      ∧ (let u := { s with yard := { s.yard with bad := [0] } }; u.yardBadIn o (o + 64 * (s.cmp 63).len) = [0])
      ∧ (let u := { s with sched := { s.sched with ymap := [] } }; u.cmpRegionOk (u.cmp 63) = false)
      ∧ (s.cmp 63).seq ≤ 7 ∧ (s.cmp 63).partner = none)
    ∧ (let s := cmpTray 2 (some (7, [1]));
      (s.cmp 63).stage = 2 ∧ (s.cmp 63).at_ + 1000 * (s.cmp 63).timeout ≤ s.dt
      ∧ (let u := { s with time := { s.time with dt := 99999 } }; u.dt < (u.cmp 63).at_ + 1000 * (u.cmp 63).timeout) ∧ (s.cmp 63).partner = some (7, [1]) ∧ (s.cmp 63).seq = 7
      ∧ yardBase ≤ (s.cmp 63).res ∧ (s.cmp 63).res % 32 = 0 ∧ s.yardRangeOk 15 ((s.cmp 63).res - yardBase) 96 = true) := by decide +kernel

/-! ### States that meet the hypotheses of the statements: security -/

/-- A tray in a life-cycle state, owner slot 0 programmed, the device nonce 32 bytes of 0. -/
def secTray (h : HostCmd) (lc : Nat) : State :=
  let s := ringTray h
  { s with
    fuses := { okey := [(0, List.replicate 32 1)], oset := 1 }
    sec := { s.sec with sensed := { s.sec.sensed with lc := lc, oset := 1 }, nonce := some (List.replicate 32 0) } }
theorem test_wit_nonce : let h := hcmd 5 (1 * 2 ^ 312 + 32 * 2 ^ 272 + 0xFFFFFFFFFFFFFFE0) 0;
    let s := secTray h 0;
    s.sec.fuseJob = none ∧ s.accepts 15 15 5 (some 1) h ∧ h.field 311 288 = 0 ∧ h.field 271 64 = 0 ∧ h.field 287 272 = 32
    ∧ s.secTurn h = true ∧ s.fnReachAt (s.ring 15 15).fn (h.field 63 0) 32 = true := ⟨by decide +kernel, accepts_of (by decide +kernel), by decide +kernel⟩
/-- A token of these signers and this payload, for DSN 0. -/
def token (kind : Nat) (slots : List Nat) (p : List Byte) : List Byte :=
  toLE 64 (0x4B544E53 + kind * 2 ^ 32 + slots.length * 2 ^ 40 + p.length * 2 ^ 48) ++ p
  ++ slots.flatMap fun k => toLE 192 (0x47534E53 + k * 2 ^ 32)
/-- Each kind in a state it starts from, with its signers and payload. -/
def tokens : List (TokenRule × Nat × List Nat × List Byte) :=
  [(ruleProvision, 0, [3], []), (ruleOwn, 1, [0], toLE 64 1), (ruleSeal, 2, [0x10], []), (ruleReturn, 2, [0, 0x10], []),
   (ruleScrap, 4, [0], []), (ruleDebug, 4, [0], toLE 32 2), (ruleRevoke, 1, [3], toLE 32 0x700)]
theorem test_wit_tokens : (tokens.all fun x =>
    let s := secTray (hcmd 5 (2 * 2 ^ 312) 0) x.2.1;
    let t := token x.1.kind x.2.2.1 x.2.2.2;
    let p := tkPayload t;
    tkKind t == x.1.kind && tokenLayout t t.length && tkDsn t == s.fuses.dsn && s.sec.nonce == some (tkNonce t) && x.1.states.contains s.lc
    && x.1.payload p && x.1.signers s.lc p (tkSlots t) && x.1.limit s p && tkSlots t == x.2.2.1
    && (List.range (tkNsig t)).all fun i => sigLayout (tkBlock t i) && (s.slotDigest (sigSlot (tkBlock t i))).isSome) = true := by
  decide +kernel
/-- The verification of signatures is a value of the model's opaque functions: with it, a token passes every check. -/
theorem test_wit_token_passes (x : TokenRule) (s : State) (t : List Byte)
    (e : (tokenLayout t t.length && tkDsn t == s.fuses.dsn && s.sec.nonce == some (tkNonce t) && x.states.contains s.lc
      && x.payload (tkPayload t) && x.signers s.lc (tkPayload t) (tkSlots t) && x.limit s (tkPayload t)) = true)
    (sig : (List.range (tkNsig t)).all (fun i => s.sigOk "SN-TOKEN" (tkSigned t) (tkBlock t i)) = true) :
    x.check s s.sec.nonce t t.length = 0 := by
  simp only [Bool.and_eq_true, beq_iff_eq] at e
  obtain ⟨⟨⟨⟨⟨⟨h1, h2⟩, h3⟩, h4⟩, h5⟩, h6⟩, h7⟩ := e
  simp only [TokenRule.check, h1, h2, h3, h4, h5, h6, h7, sig]
  simp [secOk]
theorem test_wit_token_command : let h := hcmd 5 (2 * 2 ^ 312 + 256 * 2 ^ 272) 0;
    let s := secTray h 2;
    s.accepts 15 15 5 (some 2) h ∧ h.field 311 288 = 0 ∧ h.field 271 64 = 0 ∧ h.ctl = true
    ∧ tkKind (token 3 [0x10] []) = 3 ∧ ruleSeal.check s none (token 3 [0x10] []) 256 = 3
    ∧ s.secTurn h = true ∧ s.fnReachAt (s.ring 15 15).fn (h.field 63 0) 256 = true := ⟨accepts_of (by decide +kernel), by decide +kernel⟩
theorem test_wit_token_refused : let h := { hcmd 5 (2 * 2 ^ 312 + 256 * 2 ^ 272) 0 with ctl := false };
    let s := secTray h 2;
    s.accepts 15 15 5 (some 2) h ∧ h.ctl = false ∧ s.secTurn h = true := ⟨accepts_of (by decide +kernel), by decide +kernel⟩
theorem test_wit_fuse_safe : let h := hcmd 5 (3 * 2 ^ 312 + (2 ^ 64 - 1) * 2 ^ 64) 0;
    let s := secTray h 2;
    s.accepts 15 15 5 (some 3) h ∧ h.field 311 128 = 0 ∧ h.field 63 0 = 0 ∧ h.ctl = true
    ∧ (s.lc = 1 ∨ s.lc = 2) ∧ h.locked = false ∧ s.secTurn h = true := ⟨accepts_of (by decide +kernel), by decide +kernel⟩
theorem test_wit_fuses : let s := secTray (hcmd 0 0 0) 0;
    let u := { s with sec := { s.sec with fuseJob := some ⟨255, s.fuses⟩ } };
    u.sec.fuseJob = some ⟨255, s.fuses⟩ ∧ natBit (31 &&& 16 ||| 31 &&& 0 ||| 16 &&& 0) 4 = true
    ∧ natBit (1 &&& 3 ||| 1 &&& 1 ||| 3 &&& 1) 0 = true ∧ (∀ j, 0 < j → j < 5 → natBit (1 &&& 3 ||| 1 &&& 1 ||| 3 &&& 1) j = false) := by
  refine ⟨by decide +kernel, by decide, by decide, ?_⟩
  intro j h1 h2
  interval_cases j <;> decide
/-- KEY_INSTALL of a transmit key of CAN controller 7 and its deletion; what the key wraps is a value of the model's opaque AES. -/
def keyCmd (len : Nat) : HostCmd := hcmd 5 (4 * 2 ^ 312 + 11 * 2 ^ 300 + 1 * 2 ^ 294 + len * 2 ^ 272 + 9 * 2 ^ 64) 0
theorem test_wit_key : ∀ len ∈ [0, 88], let h := keyCmd len;
    let x : Spdm := ⟨.a, 9, [], 0, 0⟩;
    let s := { ringTray h with pio := { own := allOwned }, sec := { sessions := [x] } };
    s.sec.fuseJob = none ∧ s.accepts 15 15 5 (some 4) h ∧ h.field 293 288 = 0 ∧ h.field 271 128 = 0 ∧ h.field 127 96 = 0 ∧ s.var.acts = true
    ∧ s.sec.sessions.find? (fun x => x.fn == (s.ring 15 15).fn && x.sid == h.field 95 64) = some x ∧ h.field 311 300 = 11
    ∧ natBit h.body 294 = true ∧ s.pioDom 11 = some 15 ∧ h.field 287 272 = len ∧ keyObjOk 11 0 true (toLE 80 (4 * 2 ^ 256)) = true
    ∧ s.secTurn h = true ∧ s.fnReachAt (s.ring 15 15).fn (h.field 63 0) 88 = true
    ∧ ({ s with hif := { s.hif with a := {} } } : State).fnReachAt (s.ring 15 15).fn (h.field 63 0) 88 = false := by
  intro len m
  rcases List.mem_cons.mp m with rfl | m
  · exact ⟨by decide +kernel, accepts_of (by decide +kernel), by decide +kernel⟩
  · obtain rfl : len = 88 := by simpa using m
    exact ⟨by decide +kernel, accepts_of (by decide +kernel), by decide +kernel⟩

/-- Function A answers SPDM in a session, with an IDE stream that has a key. Its chain is what the boot flash holds, which is opaque. -/
def spdmTray (lc : Nat) : State :=
  let s := hostTray []
  { s with sec := { s.sec with
      sensed := { s.sec.sensed with lc := lc }, dbg := 1, sessions := [⟨.a, 9, [], 0, 0⟩]
      streams := [⟨.a, 255, [(1, 5, List.replicate 32 0)], []⟩] } }
theorem test_wit_spdm : let s := spdmTray 1;
    s.spdmUp .a = true ∧ s.blocks 0 = some [6] ∧ (s.sessions .a).length < 2 ∧ s.sec.sessions.length < 5
    ∧ (∀ y ∈ s.sec.sessions, y.sid < 2 ^ 32) ∧ (s.session .a 9).isSome = true
    ∧ (List.replicate 32 (0 : Byte)).length = 32 ∧ (s.ideStream .a 255).isSome = true
    ∧ ((s.ideStream .a 255).all fun x => x.keys.any fun k => k.1 == 1 && k.2.1 == 5) = true := by decide +kernel
theorem test_wit_chain (c : List Byte) (h : Config.flashChain (spdmTray 1).sec.sensed.dsn ((spdmTray 1).lc == lcReturn) = some c) :
    ((spdmTray 1).chain).isSome = true := by
  have n : ((decide ((spdmTray 1).lc = lcBlank) || (spdmTray 1).sec.statusMode) = true) = False := by
    simp only [eq_iff_iff, iff_false]
    decide +kernel
  simp only [State.chain, n, if_false, h, Option.map_some, Option.isSome_some]
theorem test_wit_debug : let s := spdmTray 1;
    4 ≤ s.boot.step ∧ s.boot.inReset = false ∧ 1 ≤ s.sec.dbg ∧ 255 < s.var.cores ∧ s.ras.fence.contains 255 = false
    ∧ s.place yardBase = .yard 0 ∧ yardBase % 8 = 0 ∧ s.yardBadIn 0 8 = [] ∧ debugNeed 0xF20000 ≤ s.sec.dbg ∧ s.sec.dbg < debugNeed 0xE00020
    ∧ (let u := { s with cores := [(255, { halted := true })] }; (u.core 255).halted = true)
    ∧ (let u := { s with sec := { s.sec with dbg := 0 } }; u.sec.dbg = 0) := by decide +kernel

/-! ### States that meet the hypotheses of the statements: bring-up and reset -/

/-- The state after reset at a step of bring-up. -/
def bootTray (f : Boot → Boot) : State := { State.reset with boot := f {} }
theorem test_wit_bring_up : (bootTray fun b => { b with pg := false }).boot.pg = false
    ∧ (let b := (bootTray fun b => { b with step := 1, rails := 3 }).boot; b.pg = true ∧ b.step = 1 ∧ b.rails < 4)
    ∧ (bootTray fun b => { b with railWait := true }).boot.railWait = true
    ∧ (let b := (bootTray fun b => { b with step := 2 }).boot; b.inReset = false ∧ b.step = 2 ∧ b.pg = true)
    ∧ (bootTray fun b => { b with inReset := true }).boot.inReset = true
    ∧ (65 ≤ 65 ∧ 25 ≤ 25 ∧ 100 = 100) ∧ (¬ (75 ≤ 65 ∧ 25 ≤ 10) ∧ 75 ≤ 75 ∧ 10 ≤ 10)
    ∧ (let b := State.reset.boot; b.step = 3 ∧ b.inReset = false ∧ b.pg = true)
    ∧ ({ State.reset with fuses := { lc0 := 16, lc1 := 16 } } : State).senseFuses.lc = 5 ∧ State.reset.senseFuses.lc ≠ 5
    ∧ (let b := (bootTray fun b => { b with step := 4, stands := 7 }).boot; b.step = 4 ∧ b.inReset = false)
    ∧ (let b := (bootTray fun b => { b with step := 5 }).boot; b.step = 5 ∧ b.inReset = false ∧ b.tcrOk = true)
    ∧ (let s := { bootTray fun b => { b with step := 6 } with hif := { a := { ls := 2 } } };
      6 ≤ s.boot.step ∧ s.boot.inReset = false ∧ (s.fnSt .a).ls = 2 ∧ (s.fnSt .a).ready = false ∧ s.boot.store = false)
    ∧ (let b := (bootTray fun b => { b with step := 8, store := true }).boot; b.store = true ∧ b.ptp = false ∧ b.inReset = false) := by
  decide +kernel
theorem test_wit_full_reset : (let s := State.reset;
      s.boot.inReset = false ∧ 3 ≤ s.boot.step ∧ (s.fullReset 4 6).boot.fatalRuns < 3 ∧ s.boot.pg = true ∧ s.boot.step ≠ 0
      ∧ s.sec.fuseJob = none ∧ (1000 ≤ 1000 ∨ (900 ≤ 1000 ∧ false = true)) ∧ (900 ≤ 900 ∧ true = true))
    ∧ (let s := bootTray fun b => { b with step := 4, wdNow := 250000000 };
      4 ≤ s.boot.step ∧ s.boot.inReset = false ∧ s.watchdogDue = true)
    ∧ (bootTray fun b => { b with rails := 4, pg := false }).boot.rails ≠ 0
    ∧ (let b := (bootTray fun b => { b with inReset := true, justReset := true, cause := 4, holds := [1] }).boot;
      b.justReset = true ∧ causeRank 1 < causeRank b.cause ∧ b.holds ≠ [])
    ∧ (let b := (bootTray fun b => { b with inReset := true, justReset := true, wdDue := true, cause := 2 }).boot;
      b.inReset = true ∧ b.wdDue = true ∧ causeRank 5 < causeRank b.cause)
    ∧ (let b := (bootTray fun b => { b with pg := false, rails := 0 }).boot; b.pg = false ∧ b.rails = 0)
    ∧ ({ State.reset with sec := { lock := true } } : State).sec.lock = true
    ∧ (let b := (bootTray fun b => { b with inReset := true }).boot; b.inReset = true ∧ b.holds = [] ∧ b.coolOk = true) := by
  decide +kernel
theorem test_wit_completion_timeouts : (let s := hostTray [(255, { aRing none with reading := true })];
      (s.ring 15 15).reading = true ∧ (s.ring 15 15).en = true)
    ∧ (let s := chanTray (aChan .fetch [] 0); (s.chan 127).st = .fetch ∧ (s.chan 127).space = 1 ∧ (s.chan 127).wb = none)
    ∧ (let b := aBurst 1 0 0 yardBase (some 16);
      let s := burstTray b;
      (s.chan 127).st = .run ∧ (s.chan 127).burst = some b ∧ b.granted.isSome = true ∧ b.bad = none ∧ b.sspace = 1
      ∧ s.burstReach b = true ∧ s.burstCut 127 b = false ∧ s.burstRecheck (s.chan 127) b = none) := by decide +kernel

/-! ### A step -/

/-- The first command after reset: one tick of the timebase once it runs, nothing before; a command in front; the memories. -/
theorem test_wit_step : State.reset.time.running = false ∧ (hostTray []).time.running = true ∧ (hostTray []).pending = []
    ∧ State.reset.memsOk = true ∧ State.reset.tabsOk = true ∧ Instr.wf State.reset.var.cores .powerGood = true := by decide +kernel
/-- Trays with a running command and with a loop's window keep every table in form. -/
theorem test_wit_tables : (running 8 none).tabsOk = true ∧ (running 8 none).memsOk = true
    ∧ (loopTray (hcmd 0 0 0) { aLoop .closed 0 with staging := [(4095, 1)] } (aLoop .open_ 0)).tabsOk = true
    ∧ (loopTray (hcmd 0 0 0) { aLoop .closed 0 with staging := [(4095, 0)] } (aLoop .open_ 0)).tabsOk = false := by decide +kernel

end Sys2Proof.Tests.Slice0
end

/-! ## O37: a W1C bit that hardware sets in the cycle of its write (R16)

PIO_CAPSn.OVS is followed from the access, through the filter and the PIO block, to the one bit it clears. -/

section
namespace Sys2Proof.Machine

variable {s : State} {fn : Fn} {n : Nat}

/-! ### The bits of a register that an access carries (R13) -/

/-- A write of a whole register carries every bit of it. -/
theorem natBit_partMask_full {i : Nat} (hi : i < 64) : natBit (partMask .full) i = true := by
  have hm : partMask .full = 2 ^ 64 - 1 := rfl
  rw [natBit, hm, Nat.testBit_two_pow_sub_one, decide_eq_true hi]

/-- A write carries no 1 for a bit outside its part, or for a bit whose value is 0. -/
theorem writes1_eq_false_iff {k v i : Nat} : writes1 k v i = false ↔ natBit k i = false ∨ natBit v i = false :=
  Bool.and_eq_false_iff

/-- The value that clears a W1C bit at 63 carries a 1 for it. -/
theorem writes1_full_bit63 : writes1 (partMask .full) (BitVec.ofNat 64 (2 ^ 63)).toNat 63 = true := by
  rw [writes1, natBit_partMask_full (by decide), Bool.true_and]
  decide

/-! ### The capture inputs and their registers (R347, R349) -/

/-- A capture input after one of them is changed. -/
theorem State.cap_updCap (h : Tab.wf ({} : CapSt) s.pio.caps = true) (n m : Nat) (f : CapSt → CapSt) :
    (s.updCap n f).cap m = if m = n then f (s.cap m) else s.cap m := by
  change Tab.get _ (Tab.upd _ _ _ _) _ = _
  rw [Tab.get_upd h]
  split_ifs with e
  · rw [e, State.cap]
  · rfl

/-- The registers of capture input `n` are the 32 bytes at its place of the PIO block. -/
theorem pioUnitOf_cap {r : Nat} (hn : n < 16) (hr : r < 0x20) : pioUnitOf (0x50000 + 0x20 * n + r) = some (uCap n) := by
  have hbelow : ∀ base top, top ≤ 0x50000 → ¬ (base ≤ 0x50000 + 0x20 * n + r ∧ 0x50000 + 0x20 * n + r < top) := by omega
  have hin : 0x50000 ≤ 0x50000 + 0x20 * n + r ∧ 0x50000 + 0x20 * n + r < 0x50000 + 0x20 * 16 := by omega
  have hdiv : (0x50000 + 0x20 * n + r - 0x50000) / 0x20 = n := by omega
  rw [pioUnitOf]
  simp only [if_pos hin, hdiv]
  simp only [Nat.reduceMul, Nat.reduceAdd, Nat.reduceLeDiff, hbelow, if_false]

/-- A write of PIO_CAPSn in the PIO block clears OVS where it carries a 1 for it, and does nothing else. -/
theorem State.pioWrite_capStatus (hn : n < 16) (holder : Bool) (k v : Nat) :
    s.pioWrite holder (0x50010 + 0x20 * n) k v = if writes1 k v 63 then s.ovsClear n false else s := by
  have hu : pioUnitOf (0x50010 + 0x20 * n) = some (12 + n) := by
    rw [show 0x50010 + 0x20 * n = 0x50000 + 0x20 * n + 0x10 by omega]
    exact pioUnitOf_cap hn (by decide)
  have hmod : (0x50010 + 0x20 * n) % 0x20 = 0x10 := by omega
  simp only [pioWrite, hu, hmod]
  rw [if_neg (by omega), if_neg (by omega), if_neg (by omega), if_pos (by omega), if_neg (by decide), if_pos trivial,
    Nat.add_sub_cancel_left]

/-- A write of a function that reaches PIO_CAPSn on a variant that has a plant interface. -/
theorem State.regWrite_capStatus (hn : n < 16) (hv : s.var.acts = true) (h : s.reaches fn (0xC50010 + 0x20 * n) = true) (p : Part)
    (v : Word) : s.regWrite fn (0xC50010 + 0x20 * n) p v = if writes1 (partMask p) v.toNat 63 then s.ovsClear n false else s := by
  obtain ⟨-, -, -, hs⟩ := State.answers_of_reaches h
  have hoff : 0xC50010 + 0x20 * n - 0xC00000 = 0x50010 + 0x20 * n := by omega
  rw [State.regWrite_of_reaches h (by omega) (by omega) (by omega), State.writeReg_pio hs hv (by omega) (by omega), hoff,
    State.pioWrite_capStatus hn]

/-- The write of OVERSPEED_CLEAR, before a set of the same cycle is looked at. -/
theorem State.regWrite_overspeedClear (hn : n < 16) (hv : s.var.acts = true) (h : s.reaches fn (0xC50010 + 0x20 * n) = true) :
    s.regWrite fn (0xC50010 + 0x20 * n) .full (BitVec.ofNat 64 (2 ^ 63)) = s.updCap n fun x => { x with ovs := false } := by
  rw [State.regWrite_capStatus hn hv h, if_pos writes1_full_bit63]
  rfl

/-- OVERSPEED_CLEAR of an input that exists: its write, taken back where the hardware sets the bit in the same cycle. -/
theorem exec_overspeedClear (hn : n < 16) (same : Bool) :
    exec (.overspeedClear fn n same) s =
      let t := s.regWrite fn (0xC50010 + 0x20 * n) .full (BitVec.ofNat 64 (2 ^ 63))
      .next (if same && (s.cap n).ovs && !(t.cap n).ovs then s.ovsClear n true else t) := by
  change execOverspeedClear fn n same s = _
  rw [execOverspeedClear, decide_eq_true hn]
  rfl

/-! ### The obligation -/

/-- Settles O37: the write of OVERSPEED_CLEAR clears OVS alone, so that a set of the same cycle finds it cleared and restores it; a write
without a 1 for bit 63 is ignored. -/
theorem coincidingSetsPrevail : Obligations.CoincidingSetsPrevail := by
  intro s fn n hn hv hr hwf
  have hw := State.regWrite_overspeedClear hn hv hr
  refine ⟨fun hset => ?set_in_same_cycle, ?clear, fun p v h0 => ?no_one_written⟩
  case set_in_same_cycle =>
    have hcleared : ((s.updCap n fun x => { x with ovs := false }).cap n).ovs = false := by
      rw [State.cap_updCap hwf, if_pos rfl]
    rw [exec_overspeedClear hn, hw]
    simp only [hset, hcleared, Bool.and_self, Bool.not_false, if_true]
    rfl
  case clear =>
    rw [exec_overspeedClear hn, hw]
    rfl
  case no_one_written =>
    change Host.Outcome.next (s.regWrite fn (0xC50010 + 0x20 * n) p v) = _
    rw [State.regWrite_capStatus hn hv hr, writes1_eq_false_iff.2 h0]
    rfl

end Sys2Proof.Machine
end

/-! ## O6: the values of HF24, their exact order, and HCMP (R42, R46, R255)

The order of two finite values is brought to the rational numbers they are, the infinities and NaN to the table of HCMP's conditions, and
the issue of HCMP to a write of CY alone. -/

section
namespace Sys2Proof.Machine

/-! ### The exact order of finite values -/

/-- A value read on a grid at or below its own is that many steps of the grid. -/
theorem Dy.val_eq_mant {x : Dy} {g : Int} (h : g ≤ x.e) : x.val = (x.mant g : Rat) * 2 ^ g := by
  have hpow : (2 : Rat) ^ x.e = 2 ^ (x.e - g).toNat * 2 ^ g := by
    rw [← zpow_natCast, Int.toNat_of_nonneg (by omega), ← zpow_add₀ two_ne_zero, sub_add_cancel]
  rw [Dy.val, Dy.mant, pow2, hpow]
  push_cast
  ring

/-- The order on the finer of the two grids is the order of the values. -/
theorem Dy.lt_iff {x y : Dy} : x.lt y = true ↔ x.val < y.val := by
  rw [Dy.lt, decide_eq_true_iff, Dy.val_eq_mant (min_le_left x.e y.e), Dy.val_eq_mant (min_le_right x.e y.e),
    mul_lt_mul_iff_left₀ (zpow_pos two_pos _), Int.cast_lt]

theorem Dy.le_iff {x y : Dy} : x.le y = true ↔ x.val ≤ y.val := by
  rw [Dy.le, Bool.not_eq_true', Bool.eq_false_iff, ne_eq, Dy.lt_iff, not_lt]

theorem Dy.eqv_iff {x y : Dy} : x.eqv y = true ↔ x.val = y.val := by
  rw [Dy.eqv, Bool.and_eq_true, Dy.le_iff, Dy.le_iff, le_antisymm_iff]

/-! ### The values of HF24 encodings (R42) -/

section
variable {b : Nat}

theorem hfVal_of_nan (hx : natBits b 22 15 = 255) (hf : natBits b 14 0 ≠ 0) : hfVal b = .nan := by
  simp only [hfVal, if_pos hx, if_neg hf]

theorem hfVal_of_inf (hx : natBits b 22 15 = 255) (hf : natBits b 14 0 = 0) : hfVal b = .inf (natBit b 23) := by
  simp only [hfVal, if_pos hx, if_pos hf]

/-- The number of a significand with 15 bits of fraction and a sign. -/
theorem Dy.val_signed (neg : Bool) (m : Nat) (e : Int) :
    (⟨if neg then -(m : Int) else m, e - 15⟩ : Dy).val = (if neg then -1 else 1) * (m / 2 ^ 15) * 2 ^ e := by
  have hexp : (2 : Rat) ^ (e - 15) = 2 ^ e / 2 ^ 15 := zpow_sub₀ two_ne_zero e 15
  have hsign : (((if neg then -(m : Int) else m) : Int) : Rat) = (if neg then -1 else 1) * m := by cases neg <;> simp
  rw [Dy.val, hsign, hexp]
  ring

theorem hfVal_of_subnormal (hx : natBits b 22 15 = 0) : ∃ v, hfVal b = .fin v
    ∧ v.val = (if natBit b 23 then -1 else 1) * ((natBits b 14 0 : Rat) / 2 ^ 15) * 2 ^ (-126 : Int) := by
  have hfin : hfVal b = .fin ⟨if natBit b 23 then -(natBits b 14 0 : Int) else natBits b 14 0, -126 - 15⟩ := by simp [hfVal, hx]
  exact ⟨_, hfin, Dy.val_signed _ _ _⟩

/-- A normal value has a leading 1 above its fraction. -/
theorem hfVal_of_normal (h1 : 1 ≤ natBits b 22 15) (h2 : natBits b 22 15 ≤ 254) : ∃ v, hfVal b = .fin v
    ∧ v.val = (if natBit b 23 then -1 else 1) * (1 + (natBits b 14 0 : Rat) / 2 ^ 15) * 2 ^ ((natBits b 22 15 : Int) - 127) := by
  have hfin : hfVal b = .fin ⟨if natBit b 23 then -((natBits b 14 0 + 0x8000 : Nat) : Int) else (natBits b 14 0 + 0x8000 : Nat),
      (natBits b 22 15 : Int) - 127 - 15⟩ := by
    simp only [hfVal, if_neg (show natBits b 22 15 ≠ 255 by omega), if_neg (show natBits b 22 15 ≠ 0 by omega), sub_sub, Int.reduceAdd]
  have hmant : ((natBits b 14 0 + 0x8000 : Nat) : Rat) / 2 ^ 15 = 1 + (natBits b 14 0 : Rat) / 2 ^ 15 := by
    push_cast
    ring
  exact ⟨_, hfin, by rw [Dy.val_signed, hmant]⟩

end

/-! ### HCMP's conditions (R46, R255) -/

/-- What HCMP's condition `i` answers where its first operand is less than, equal to or greater than its second, or none of these. -/
def hcmpAnswer (i : Nat) (lt eq gt : Bool) : Bool :=
  match i with
  | 0 => lt
  | 1 => lt || eq
  | 2 => eq
  | 3 => gt || eq
  | 4 => gt
  | _ => !eq

theorem hfCmp_eq_hcmpAnswer (i a b : Nat) :
    hfCmp i a b = hcmpAnswer i ((hfVal a).lt (hfVal b)) ((hfVal a).eqv (hfVal b)) ((hfVal b).lt (hfVal a)) := by
  match i with
  | 0 | 1 | 2 | 3 | 4 | _ + 5 => rfl

section
variable {i a b : Nat}

theorem hfCmp_fin_iff {x y : Dy} (ha : hfVal a = .fin x) (hb : hfVal b = .fin y) : hfCmp i a b = true ↔
    (match i with
      | 0 => x.val < y.val
      | 1 => x.val ≤ y.val
      | 2 => x.val = y.val
      | 3 => y.val ≤ x.val
      | 4 => y.val < x.val
      | _ => x.val ≠ y.val) := by
  rw [hfCmp_eq_hcmpAnswer, ha, hb]
  change hcmpAnswer i (x.lt y) (x.eqv y) (y.lt x) = true ↔ _
  match i with
  | 0 => exact Dy.lt_iff
  | 1 => simp only [hcmpAnswer, Bool.or_eq_true, Dy.lt_iff, Dy.eqv_iff, le_iff_lt_or_eq]
  | 2 => exact Dy.eqv_iff
  | 3 => simp only [hcmpAnswer, Bool.or_eq_true, Dy.lt_iff, Dy.eqv_iff, le_iff_lt_or_eq, eq_comm (a := y.val)]
  | 4 => exact Dy.lt_iff
  | _ + 5 => simp only [hcmpAnswer, Bool.not_eq_true', Bool.eq_false_iff, ne_eq, Dy.eqv_iff]

variable (hi : i ≤ 5)
include hi

theorem hcmpAnswer_unordered : hcmpAnswer i false false false = decide (i = 5) := by
  decide +revert

theorem hcmpAnswer_less : hcmpAnswer i true false false = decide (i = 0 ∨ i = 1 ∨ i = 5) := by
  decide +revert

theorem hcmpAnswer_equal : hcmpAnswer i false true false = decide (i = 1 ∨ i = 2 ∨ i = 3) := by
  decide +revert

theorem hcmpAnswer_greater : hcmpAnswer i false false true = decide (i = 3 ∨ i = 4 ∨ i = 5) := by
  decide +revert

/-- A NaN on either side is unordered. -/
theorem hfCmp_of_nan (h : hfVal a = .nan ∨ hfVal b = .nan) : hfCmp i a b = decide (i = 5) := by
  rw [hfCmp_eq_hcmpAnswer, ← hcmpAnswer_unordered hi]
  obtain h | h := h
  · rw [h]
    cases hfVal b <;> rfl
  · rw [h]
    cases hfVal a <;> rfl

/-- +∞ is greater and −∞ less than a finite second operand. -/
theorem hfCmp_inf_fin {neg : Bool} {y : Dy} (ha : hfVal a = .inf neg) (hb : hfVal b = .fin y) :
    hfCmp i a b = if neg then decide (i = 0 ∨ i = 1 ∨ i = 5) else decide (i = 3 ∨ i = 4 ∨ i = 5) := by
  rw [hfCmp_eq_hcmpAnswer, ha, hb]
  match neg with
  | true => exact hcmpAnswer_less hi
  | false => exact hcmpAnswer_greater hi

/-- A finite first operand is greater than −∞ and less than +∞. -/
theorem hfCmp_fin_inf {neg : Bool} {x : Dy} (ha : hfVal a = .fin x) (hb : hfVal b = .inf neg) :
    hfCmp i a b = if neg then decide (i = 3 ∨ i = 4 ∨ i = 5) else decide (i = 0 ∨ i = 1 ∨ i = 5) := by
  rw [hfCmp_eq_hcmpAnswer, ha, hb]
  match neg with
  | true => exact hcmpAnswer_greater hi
  | false => exact hcmpAnswer_less hi

theorem hfCmp_inf_inf {p q : Bool} (ha : hfVal a = .inf p) (hb : hfVal b = .inf q) : hfCmp i a b =
    if p = q then decide (i = 1 ∨ i = 2 ∨ i = 3) else if p = true then decide (i = 0 ∨ i = 1 ∨ i = 5) else decide (3 ≤ i) := by
  rw [hfCmp_eq_hcmpAnswer, ha, hb]
  match p, q with
  | false, false => exact hcmpAnswer_equal hi
  | true, true => exact hcmpAnswer_equal hi
  | true, false => exact hcmpAnswer_less hi
  | false, true => exact (hcmpAnswer_greater hi).trans (decide_eq_decide.2 (by omega))

end

/-! ### HCMP issues (R89, R255) -/

section
variable {s : State} {c k : Nat}

/-- An instruction that writes CY alone and issues. -/
theorem issued_setCy (h : s.slotTabs c k = true) (v : Bool) (opc cy : Nat) (fl : List Nat) :
    Issued s (Eff.issued { s := s.setCy c k v, cycles := cy, flags := fl } c k opc) c k
      (plainEntry opc cy fl .none) ((s.slot c k).pc + 8) v [] := by
  rw [State.setCy]
  obtain ⟨hslot, honly⟩ := Eff.issued_spec h (fun x => { x with cy := v }) cy fl none .none true none opc
  exact
    { now :=
        { regs := fun r _ => congrArg (·.reg r) hslot
          cy := congrArg Slot.cy hslot
          pc := congrArg Slot.pc hslot
          cseq := congrArg Slot.cseq hslot
          ret := congrArg Slot.ret hslot }
      slot := by rw [Slot.keeps, hslot]
      only := honly }

/-- HCMP with its fields in range, where nothing holds it, writes the answer of its condition to CY. -/
theorem exec_hcmp {f : SFields} (hi : f.i = false) (hcond : f.imm.toNat ≤ 5)
    (h : s.issues c k 0x1D f [f.ra.toNat, f.rb.toNat] [] = true) :
    exec (.hcmp c k f) s = .next (Eff.issued { s := s.setCy c k (hfCmp f.imm.toNat (hfBits ((s.slot c k).reg f.ra.toNat))
      (hfBits ((s.slot c k).reg f.rb.toNat))) } c k 0x1D) := by
  have hbad : (f.i || decide (5 < f.imm.toNat)) = false := by
    rw [hi, Bool.false_or, decide_eq_false_iff_not]
    omega
  change execHcmp c k f s = _
  rw [execHcmp]
  exact issueShort_issues h hbad rfl

end

/-! ### The obligation -/

/-- Settles O6: each kind of encoding has its value, and HCMP writes to CY what its condition says of the order of two of them. -/
theorem halfFloatCompareWritesCarry : Obligations.HalfFloatCompareWritesCarry := by
  refine ⟨?hcmp, ?values, ?examples, ?order⟩
  case hcmp =>
    intro s c k f x a b hi hcond h
    exact ⟨_, exec_hcmp hi hcond h, issued_setCy (State.tabs_of_issues h) _ 0x1D 1 []⟩
  case values =>
    intro b sign x f
    exact ⟨hfVal_of_nan, hfVal_of_inf, hfVal_of_subnormal, hfVal_of_normal⟩
  case examples => decide
  case order =>
    intro a b i hi
    exact ⟨hfCmp_of_nan hi, fun _ _ => hfCmp_fin_iff, fun _ => hfCmp_inf_fin hi, fun _ => hfCmp_inf_fin hi,
      fun _ => hfCmp_fin_inf hi, fun _ => hfCmp_fin_inf hi, fun _ _ => hfCmp_inf_inf hi⟩

end Sys2Proof.Machine
end

/-! ## O1: rounding to nearest even and to odd on a grid, and their chain (R54 to R56)

Both roundings are brought to quotients of integers; the chain rests on the parity that rounding to odd leaves. -/

section
namespace Sys2Proof.Machine

theorem pow2_pos (n : Nat) : 0 < pow2 n := by
  rw [pow2]
  positivity

theorem pow2_add (a b : Nat) : pow2 (a + b) = pow2 a * pow2 b := by
  rw [pow2, pow_add, Nat.cast_mul]
  rfl

/-- `m / p` to the nearest integer, ties to even (R54). -/
def nearestEven (m p : Int) : Int :=
  if 2 * (m % p) < p then m / p
  else if p < 2 * (m % p) then m / p + 1
  else if m / p % 2 = 0 then m / p else m / p + 1

/-- `m / p` to odd (R55). -/
def nearestOdd (m p : Int) : Int :=
  if m % p = 0 then m / p
  else if m / p % 2 = 0 then m / p + 1 else m / p

theorem Dy.round_of_le {x : Dy} {g : Int} (h : g ≤ x.e) (m : Rnd) : x.round m g = (x.mant g, true) := by
  rw [Dy.round, if_pos h]

theorem Dy.round_rne {x : Dy} {g : Int} (h : x.e < g) : (x.round .rne g).1 = nearestEven x.m (pow2 (g - x.e).toNat) := by
  have hp := pow2_pos (g - x.e).toNat
  simp only [Dy.round, nearestEven, if_neg h.not_ge]
  by_cases h0 : x.m % pow2 (g - x.e).toNat = 0
  · rw [if_pos h0, if_pos (by omega)]
  · rw [if_neg h0]
    split_ifs <;> rfl

theorem Dy.round_rto {x : Dy} {g : Int} (h : x.e < g) : x.round .rto g =
    (nearestOdd x.m (pow2 (g - x.e).toNat), decide (x.m % pow2 (g - x.e).toNat = 0)) := by
  simp only [Dy.round, nearestOdd, if_neg h.not_ge]
  split_ifs with h0 <;> simp [h0]

/-- What is left of `m` after `d` more steps of `p` than its quotient. -/
theorem sub_ediv_add_mul (m p d : Int) : m - (m / p + d) * p = m % p - d * p := by
  have := Int.mul_ediv_add_emod m p
  linear_combination -this

section
variable {m p : Int} (hp : 0 < p)
include hp

theorem nearestEven_spec : 2 * (m - nearestEven m p * p).natAbs ≤ p.natAbs
    ∧ (2 * (m - nearestEven m p * p).natAbs = p.natAbs → nearestEven m p % 2 = 0) := by
  have hlow : m - m / p * p = m % p := by simpa using sub_ediv_add_mul m p 0
  have hhigh : m - (m / p + 1) * p = m % p - p := by simpa using sub_ediv_add_mul m p 1
  have h0 := Int.emod_nonneg m hp.ne'
  have h1 := Int.emod_lt_of_pos m hp
  rw [nearestEven]
  split_ifs <;> simp only [hlow, hhigh] <;> omega

theorem nearestOdd_spec : (m % p = 0 → m = nearestOdd m p * p)
    ∧ (m % p ≠ 0 → (m - nearestOdd m p * p).natAbs < p.natAbs ∧ nearestOdd m p % 2 = 1) := by
  have hlow : m - m / p * p = m % p := by simpa using sub_ediv_add_mul m p 0
  have hhigh : m - (m / p + 1) * p = m % p - p := by simpa using sub_ediv_add_mul m p 1
  have h0 := Int.emod_nonneg m hp.ne'
  have h1 := Int.emod_lt_of_pos m hp
  rw [nearestOdd]
  split_ifs <;> simp only [hlow, hhigh] <;> omega

end

/-- Rounding to nearest does not see a common factor. -/
theorem nearestEven_mul_mul {m p c : Int} (hc : 0 < c) : nearestEven (c * m) (c * p) = nearestEven m p := by
  have hlt : 2 * (c * (m % p)) < c * p ↔ 2 * (m % p) < p := by rw [mul_left_comm, mul_lt_mul_iff_right₀ hc]
  have hgt : c * p < 2 * (c * (m % p)) ↔ p < 2 * (m % p) := by rw [mul_left_comm, mul_lt_mul_iff_right₀ hc]
  simp only [nearestEven, Int.mul_ediv_mul_of_pos _ _ hc, Int.mul_emod_mul_of_pos _ _ hc, hlt, hgt]

/-- One more than an even number stands in the same group of an even size, one place on. -/
theorem ediv_emod_succ_of_even {a n : Int} (hn : 0 < n) (hn2 : n % 2 = 0) (ha : a % 2 = 0) :
    (a + 1) / n = a / n ∧ (a + 1) % n = a % n + 1 := by
  have hpar : a % n % 2 = 0 := by rw [Int.emod_emod_of_dvd a (Int.dvd_of_emod_eq_zero hn2), ha]
  have h0 := Int.emod_nonneg a hn.ne'
  have h1 := Int.emod_lt_of_pos a hn
  refine (Int.ediv_emod_unique hn).2 ⟨?_, by omega, by omega⟩
  linear_combination Int.mul_ediv_add_emod a n

/-- Two bits that are kept and odd leave the rounding to nearest as it is (R56): the odd bit tells on which side of the tie `m` stands. -/
theorem nearestEven_nearestOdd {m p j : Int} (hp : 0 < p) (hj : 0 < j) :
    nearestEven (nearestOdd m p) (4 * j) = nearestEven m (p * (4 * j)) := by
  by_cases hr : m % p = 0
  · have hm : m = p * (m / p) := by simpa [hr] using (Int.mul_ediv_add_emod m p).symm
    rw [nearestOdd, if_pos hr, ← nearestEven_mul_mul hp, ← hm]
  have h0 : 0 < m % p := lt_of_le_of_ne (Int.emod_nonneg m hp.ne') (Ne.symm hr)
  have h1 := Int.emod_lt_of_pos m hp
  have hdiv : m / (p * (4 * j)) = m / p / (4 * j) := (Int.ediv_ediv_of_nonneg hp.le).symm
  have hmod : m % (p * (4 * j)) = p * (m / p % (4 * j)) + m % p := by
    have e1 := Int.mul_ediv_add_emod m (p * (4 * j))
    have e2 := Int.mul_ediv_add_emod m p
    have e3 := Int.mul_ediv_add_emod (m / p) (4 * j)
    rw [hdiv] at e1
    linear_combination e1 - e2 - p * e3
  have hodd : nearestOdd m p / (4 * j) = m / p / (4 * j)
      ∧ nearestOdd m p % (4 * j) = m / p % (4 * j) + (1 - m / p % 2) := by
    rw [nearestOdd, if_neg hr]
    split_ifs with he
    · rw [he]
      exact ediv_emod_succ_of_even (by omega) (by omega) he
    · exact ⟨rfl, by omega⟩
  have hpar : m / p % (4 * j) % 2 = m / p % 2 := Int.emod_emod_of_dvd _ ⟨2 * j, by ring⟩
  generalize m / p % (4 * j) = b at *
  have hside : (b < 2 * j → 2 * (p * b + m % p) < p * (4 * j)) ∧ (2 * j ≤ b → p * (4 * j) < 2 * (p * b + m % p)) :=
    ⟨fun h => by nlinarith, fun h => by nlinarith⟩
  simp only [nearestEven, hdiv, hmod, hodd.1, hodd.2]
  obtain h | h := lt_or_ge b (2 * j)
  · rw [if_pos (hside.1 h), if_pos (by omega)]
  · rw [if_neg (hside.2 h).not_gt, if_pos (hside.2 h), if_neg (by omega), if_pos (by omega)]

/-- Two roundings of one integer, on a grid `2^a` below it and on one at least four times as coarse. -/
theorem nearestEven_of_mant {x : Dy} {g h : Int} (hg : g ≤ x.e) (hh : x.e < h) :
    nearestEven (x.mant g) (pow2 (h - g).toNat) = nearestEven x.m (pow2 (h - x.e).toNat) := by
  have hsplit : (h - g).toNat = (x.e - g).toNat + (h - x.e).toNat := by omega
  rw [hsplit, pow2_add, Dy.mant, mul_comm x.m, nearestEven_mul_mul (pow2_pos _)]

theorem nearestEven_of_dvd {m p : Int} (hp : 0 < p) : nearestEven (m * p) p = m := by
  rw [nearestEven, Int.mul_emod_left, Int.mul_ediv_cancel _ hp.ne', if_pos (by omega)]

/-- R56: a rounding to odd that keeps two bits more does not change the rounding to nearest that follows. -/
theorem Dy.round_rne_round_rto (x : Dy) {g h : Int} (hgh : g + 2 ≤ h) :
    (Dy.round .rne h ⟨(x.round .rto g).1, g⟩).1 = (x.round .rne h).1 := by
  have hlow : (⟨(x.round .rto g).1, g⟩ : Dy).e < h := by
    change g < h
    omega
  rw [Dy.round_rne hlow]
  change nearestEven (x.round .rto g).1 (pow2 (h - g).toNat) = _
  obtain hg | hg := lt_or_ge x.e g
  · have hquad : pow2 (h - g).toNat = 4 * pow2 (h - g - 2).toNat := by
      rw [show (h - g).toNat = 2 + (h - g - 2).toNat by omega, pow2_add]
      rfl
    have hsplit : (h - x.e).toNat = (g - x.e).toNat + (h - g).toNat := by omega
    rw [Dy.round_rto hg, Dy.round_rne (hg.trans (by omega)), hquad, nearestEven_nearestOdd (pow2_pos _) (pow2_pos _), ← hquad,
      ← pow2_add, ← hsplit]
  · rw [Dy.round_of_le hg]
    obtain hh | hh := lt_or_ge x.e h
    · rw [Dy.round_rne hh, nearestEven_of_mant hg hh]
    · have hsplit : (x.e - g).toNat = (x.e - h).toNat + (h - g).toNat := by omega
      rw [Dy.round_of_le hh]
      change nearestEven (x.mant g) _ = x.mant h
      rw [Dy.mant, hsplit, pow2_add, ← mul_assoc, nearestEven_of_dvd (pow2_pos _)]
      rfl

/-- Settles O1: both roundings are quotients of the significand by the grid's step, and an odd quotient with two more bits never stands on a
tie of the coarser grid. -/
theorem roundingIsNearestOrOdd : Obligations.RoundingIsNearestOrOdd := by
  intro x g
  refine ⟨fun hg => ?coarser, fun hg m => Dy.round_of_le hg m, fun h hgh => x.round_rne_round_rto hgh⟩
  have hp := pow2_pos (g - x.e).toNat
  obtain ⟨hnear, htie⟩ := nearestEven_spec (m := x.m) hp
  obtain ⟨hexact, hinexact⟩ := nearestOdd_spec (m := x.m) hp
  simp only [Dy.round_rne hg, Dy.round_rto hg, decide_eq_true_iff, decide_eq_false_iff_not]
  exact ⟨hnear, htie, trivial, hexact, hinexact⟩

end Sys2Proof.Machine
end

/-! ## O2: the fields of short and long instruction words (R253)

A word is the sum of its fields, each below the place of the next one, so a field is read by a quotient and a remainder. -/

section
namespace Sys2Proof.Machine

theorem natBits_eq_div_mod (x hi lo : Nat) : natBits x hi lo = x / 2 ^ lo % 2 ^ (hi + 1 - lo) := by
  rw [natBits, Nat.shiftRight_eq_div_pow]

theorem natBit_eq_decide (x i : Nat) : natBit x i = decide (x / 2 ^ i % 2 = 1) := by
  rw [natBit, Nat.testBit_eq_decide_div_mod_eq]

theorem bit_lt_two (b : Bool) : bit b < 2 := by cases b <;> decide

theorem decide_bit_eq_one (b : Bool) : decide (bit b = 1) = b := by cases b <;> rfl

theorem shortWord_eq (opc : Nat) (f : SFields) : shortWord opc f =
    opc * 2 ^ 56 + f.rd.toNat * 2 ^ 51 + f.ra.toNat * 2 ^ 46 + f.rb.toNat * 2 ^ 41 + f.rnd.toNat * 2 ^ 39 + bit f.i * 2 ^ 38
      + f.res.toNat * 2 ^ 32 + f.imm.toNat := by
  simp only [shortWord, fields, List.foldl_cons, List.foldl_nil]
  ring

theorem longWord_eq (opc : Nat) (f : LFields) : longWord0 opc f * 2 ^ 64 + longWord1 f =
    opc * 2 ^ 120 + f.rnd.toNat * 2 ^ 118 + f.scl.toNat * 2 ^ 108 + f.preg.toNat * 2 ^ 103 + f.res.toNat * 2 ^ 96
      + f.op0.toNat * 2 ^ 80 + f.op1.toNat * 2 ^ 64 + f.op2.toNat * 2 ^ 48 + f.op3.toNat * 2 ^ 32 + f.param.toNat := by
  simp only [longWord0, longWord1, fields, List.foldl_cons, List.foldl_nil]
  ring

theorem longWord1_eq (f : LFields) : longWord1 f = f.op2.toNat * 2 ^ 48 + f.op3.toNat * 2 ^ 32 + f.param.toNat := by
  simp only [longWord1, fields, List.foldl_cons, List.foldl_nil]
  ring

/-- Settles O2: each field is a digit of the word. -/
theorem instructionWordsSpellTheirFields : Obligations.InstructionWordsSpellTheirFields := by
  refine ⟨?short, ?long⟩
  case short =>
    intro opc f hopc w
    have hw : w = _ := shortWord_eq opc f
    have hrd := f.rd.isLt
    have hra := f.ra.isLt
    have hrb := f.rb.isLt
    have hrnd := f.rnd.isLt
    have hi := bit_lt_two f.i
    have hres := f.res.isLt
    have himm := f.imm.isLt
    have hbit : w / 274877906944 % 2 = bit f.i := by omega
    simp only [natBits_eq_div_mod, natBit_eq_decide, Nat.reduceAdd, Nat.reduceSub, Nat.reducePow, hbit, decide_bit_eq_one]
    clear hbit
    refine ⟨?_, ?_, ?_, ?_, ?_, ?_, trivial, ?_, ?_⟩ <;> omega
  case long =>
    intro opc f hopc w
    have hw : w = _ := longWord_eq opc f
    have hrnd := f.rnd.isLt
    have hscl := f.scl.isLt
    have hpreg := f.preg.isLt
    have hres := f.res.isLt
    have hop0 := f.op0.isLt
    have hop1 := f.op1.isLt
    have hop2 := f.op2.isLt
    have hop3 := f.op3.isLt
    have hparam := f.param.isLt
    simp only [natBits_eq_div_mod, longWord1_eq]
    omega

end Sys2Proof.Machine
end

/-! ## O3: one-cycle integer operations write RD and nothing else (R86, R255) -/

section
namespace Sys2Proof.Machine

variable {s : State} {c k : Nat} {f : SFields}

/-- A short instruction whose effect is a write of one register. -/
theorem issueShort_setReg {opc : Nat} {rd wr : List Nat} {eff : State → Option Eff} {bad : Bool} {r cy : Nat} {fl : List Nat} {w : Word}
    {o : Out} (ho : o = issueShort c k opc f bad rd wr eff s) (h : s.issues c k opc f rd wr = true) (hb : bad = false)
    (he : eff s = some { s := s.setReg c k r w, cycles := cy, flags := fl }) :
    ∃ t, o = .next t ∧ (t.slot c k).reg r = w
      ∧ Issued s t c k (plainEntry opc cy fl .none) ((s.slot c k).pc + 8) (s.slot c k).cy [r] :=
  ⟨_, ho.trans (issueShort_issues h hb he), issued_setReg (State.tabs_of_issues h) r opc cy fl w⟩

/-- An operation of RA and the second source that issues writes its result to RD. -/
theorem aluOp_issues {opc : Nat} (op : Word → Word → Word) {w : Word} (hw : op (srcA (s.slot c k) f) (srcB (s.slot c k) f) = w)
    (h : s.issues c k opc f (srcRegs f) [f.rd.toNat] = true) :
    ∃ t, aluOp c k opc f op s = .next t ∧ (t.slot c k).reg f.rd.toNat = w
      ∧ Issued s t c k (plainEntry opc 1 [] .none) ((s.slot c k).pc + 8) (s.slot c k).cy [f.rd.toNat] := by
  subst hw
  exact issueShort_setReg rfl h rfl rfl

theorem ofBool_decide (p : Prop) [Decidable p] : ofBool (decide p) = if p then 1 else 0 := by
  simp only [ofBool, decide_eq_true_eq]

theorem ofBool_beq (a b : Word) : ofBool (a == b) = if a = b then 1 else 0 := by
  simp only [ofBool, beq_iff_eq]

/-- LIH puts IMM over the lower half of RD. -/
theorem imm_above_lower_half (i : BitVec 32) (w : Word) :
    BitVec.ofNat 64 (i.toNat * 2 ^ 32 + w.toNat % 2 ^ 32) = i ++ w.setWidth 32 := by
  apply BitVec.eq_of_toNat_eq
  have hi := i.isLt
  have happ : (i ++ w.setWidth 32).toNat = i.toNat * 2 ^ 32 + w.toNat % 2 ^ 32 := by
    rw [BitVec.toNat_append, BitVec.toNat_setWidth, ← Nat.shiftLeft_add_eq_or_of_lt (Nat.mod_lt _ (by decide)), Nat.shiftLeft_eq]
  rw [happ, BitVec.toNat_ofNat]
  omega

/-- Settles O3: each row is a write of RD by its operation's result. -/
theorem integerOperationsWriteRd : Obligations.IntegerOperationsWriteRd := by
  intro s c k f x a b n
  simp only [List.forall_mem_cons, List.not_mem_nil, false_imp_iff, implies_true, and_true]
  refine ⟨aluOp_issues (· + ·) rfl, aluOp_issues (· - ·) rfl, aluOp_issues (· &&& ·) rfl, aluOp_issues (· ||| ·) rfl,
    aluOp_issues (· ^^^ ·) rfl, aluOp_issues (fun a b => a <<< (b.toNat % 64)) rfl, aluOp_issues (fun a b => a >>> (b.toNat % 64)) rfl,
    aluOp_issues (fun a b => a.sshiftRight (b.toNat % 64)) rfl, aluOp_issues (fun a b => ofBool (a.slt b)) (ofBool_decide _),
    aluOp_issues (fun a b => ofBool (a.ult b)) (ofBool_decide _), aluOp_issues (fun a b => ofBool (a == b)) (ofBool_beq _ _),
    fun h => issueShort_setReg (o := execLi c k f s) rfl h rfl rfl, fun h => ?lih,
    fun h => issueShort_setReg (o := execSel c k f s) rfl h rfl rfl,
    fun h => issueShort_setReg (o := execCorenum c k f s) rfl h rfl rfl⟩
  rw [← imm_above_lower_half]
  exact issueShort_setReg (o := execLih c k f s) rfl h rfl rfl

end Sys2Proof.Machine
end

/-! ## O4: operations that write CY, NOP and SWAP, products and quotients (R86 to R88) -/

section
namespace Sys2Proof.Machine

variable {s : State} {c k : Nat} {f : SFields}

/-! ### Instructions that change their slot's registers and CY -/

/-- An entry that is put back as it stands changes nothing. -/
theorem Tab.upd_self {α : Type} [DecidableEq α] {d : α} {t : Tab α} (h : Tab.wf d t = true) (i : Nat) {f : α → α}
    (hf : f (Tab.get d t i) = Tab.get d t i) : Tab.upd d t i f = t :=
  Tab.ext_get (Tab.wf_upd h i f) h fun j => by
    rw [Tab.get_upd h, hf]
    split_ifs with e
    · rw [e]
    · rfl

/-- A slot that is put back as it stands changes nothing. -/
theorem State.updSlot_self (h : s.slotTabs c k = true) : (s.updSlot c k fun x => x) = s := by
  obtain ⟨h1, h2, -⟩ := slotTabs_iff.1 h
  have hcores : Tab.upd ({} : Core) s.cores c (fun q => q.updSlot k fun x => x) = s.cores := Tab.upd_self h1 c (by
    change { s.core c with slots := Tab.upd ({} : Slot) (s.core c).slots k fun x => x } = s.core c
    rw [Tab.upd_self h2 k rfl])
  rw [updSlot, updCore, hcores]

/-- How a slot stands that an instruction has changed by `g` and left by taking its CSEQ. -/
theorem slotIssued_updSlot (h : s.slotTabs c k = true) {g : Slot → Slot} {wr : List Nat} {cy' : Bool}
    (hregs : ∀ r, r ∉ wr → (g (s.slot c k)).reg r = (s.slot c k).reg r) (hcy : (g (s.slot c k)).cy = cy')
    (hpc : (g (s.slot c k)).pc = (s.slot c k).pc) (hcseq : (g (s.slot c k)).cseq = (s.slot c k).cseq)
    (hret : (g (s.slot c k)).ret = (s.slot c k).ret)
    (opc cy : Nat) (fl : List Nat) (fa : Option RFault) (act : RetAct) (cm : Bool) (pc : Option Nat) :
    SlotIssued (s.slot c k) ((Eff.issued ⟨s.updSlot c k g, cy, fl, fa, act, cm, pc⟩ c k opc).slot c k)
      (fun n => ⟨n, opc, 0, cm, cy, fl.map (fun f => ⟨f, 0⟩), fa, act⟩) (pc.getD ((s.slot c k).pc + 8)) cy' wr := by
  obtain ⟨hslot, -⟩ := Eff.issued_spec h g cy fl fa act cm pc opc
  exact
    { regs := fun r hr => (congrArg (·.reg r) hslot).trans (hregs r hr)
      cy := (congrArg Slot.cy hslot).trans hcy
      pc := (congrArg Slot.pc hslot).trans (by rw [hpc])
      cseq := (congrArg Slot.cseq hslot).trans (congrArg (· + 1) hcseq)
      ret := (congrArg Slot.ret hslot).trans (by rw [hret, hcseq]) }

/-- An instruction that changes registers of its slot and CY, and issues. -/
theorem issued_updSlot (h : s.slotTabs c k = true) {g : Slot → Slot} {regs : Tab Word} {b : Bool}
    (hg : g (s.slot c k) = { s.slot c k with g := regs, cy := b }) {wr : List Nat}
    (hwr : ∀ r, r ∉ wr → Tab.get 0 regs r = (s.slot c k).reg r)
    (opc cy : Nat) (fl : List Nat) (fa : Option RFault) (act : RetAct) (cm : Bool) (pc : Option Nat) :
    let t := Eff.issued ⟨s.updSlot c k g, cy, fl, fa, act, cm, pc⟩ c k opc
    (∀ r, (t.slot c k).reg r = Tab.get 0 regs r)
      ∧ Issued s t c k (fun n => ⟨n, opc, 0, cm, cy, fl.map (fun f => ⟨f, 0⟩), fa, act⟩) (pc.getD ((s.slot c k).pc + 8)) b wr := by
  intro t
  obtain ⟨hslot, honly⟩ := Eff.issued_spec h g cy fl fa act cm pc opc
  rw [hg] at hslot
  refine ⟨fun r => congrArg (·.reg r) hslot, ?_, by rw [Slot.keeps, hslot], honly⟩
  exact slotIssued_updSlot h (by rw [hg]; exact hwr) (by rw [hg]) (by rw [hg]) (by rw [hg]) (by rw [hg]) ..

/-- An instruction that leaves its slot as it stands, beside taking its CSEQ. -/
theorem issued_self (h : s.slotTabs c k = true)
    (opc cy : Nat) (fl : List Nat) (fa : Option RFault) (act : RetAct) (cm : Bool) (pc : Option Nat) :
    Issued s (Eff.issued ⟨s, cy, fl, fa, act, cm, pc⟩ c k opc) c k
      (fun n => ⟨n, opc, 0, cm, cy, fl.map (fun f => ⟨f, 0⟩), fa, act⟩) (pc.getD ((s.slot c k).pc + 8)) (s.slot c k).cy [] := by
  have hiss := (issued_updSlot h (g := fun x => x) rfl (wr := []) (fun _ _ => rfl) opc cy fl fa act cm pc).2
  rwa [State.updSlot_self h] at hiss

theorem Slot.reg_setReg_setReg {x : Slot} (h : Tab.wf (0 : Word) x.g = true) (i j r : Nat) (v w : Word) :
    ((x.setReg i v).setReg j w).reg r = if r = j then w else if r = i then v else x.reg r := by
  rw [Slot.reg_setReg (Tab.wf_set h i v), Slot.reg_setReg h]

/-- A short instruction that changes registers of its slot and CY. -/
theorem issueShort_updSlot {opc : Nat} {rd wr : List Nat} {eff : State → Option Eff} {bad : Bool} {cy : Nat} {g : Slot → Slot} {o : Out}
    {u : State} (ho : o = issueShort c k opc f bad rd wr eff s) (h : s.issues c k opc f rd wr = true) (hb : bad = false)
    (he : eff s = some { s := u, cycles := cy }) (hu : u = s.updSlot c k g) {regs : Tab Word} {b : Bool}
    (hg : g (s.slot c k) = { s.slot c k with g := regs, cy := b }) (hwr : ∀ r, r ∉ wr → Tab.get 0 regs r = (s.slot c k).reg r) :
    ∃ t, o = .next t ∧ (∀ r, (t.slot c k).reg r = Tab.get 0 regs r)
      ∧ Issued s t c k (plainEntry opc cy [] .none) ((s.slot c k).pc + 8) b wr := by
  subst hu
  exact ⟨_, ho.trans (issueShort_issues h hb he), issued_updSlot (State.tabs_of_issues h) hg hwr opc cy [] none .none true none⟩

/-- Two writes of registers are one change of the slot. -/
theorem State.setReg_setReg (h : s.slotTabs c k = true) (i j : Nat) (v w : Word) :
    (s.setReg c k i v).setReg c k j w = s.updSlot c k fun x => (x.setReg i v).setReg j w := State.updSlot_updSlot h _ _

theorem State.setCy_setReg (h : s.slotTabs c k = true) (i : Nat) (v : Word) (b : Bool) :
    (s.setReg c k i v).setCy c k b = s.updSlot c k fun x => { x.setReg i v with cy := b } := State.updSlot_updSlot h _ _

/-- An operation with carry that issues writes its result to RD and its carry to CY. -/
theorem carryOp_issues {opc : Nat} (op : Word → Word → Bool → Word × Bool) {w : Word} {b : Bool}
    (hw : op (srcA (s.slot c k) f) (srcB (s.slot c k) f) (s.slot c k).cy = (w, b))
    (h : s.issues c k opc f (srcRegs f) [f.rd.toNat] = true) :
    ∃ t, carryOp c k opc f op s = .next t ∧ (t.slot c k).reg f.rd.toNat = w
      ∧ Issued s t c k (plainEntry opc 1 [] .none) ((s.slot c k).pc + 8) b [f.rd.toNat] := by
  obtain ⟨rfl, rfl⟩ := Prod.ext_iff.1 hw
  have htabs := State.tabs_of_issues h
  obtain ⟨-, -, hg⟩ := State.slotTabs_iff.1 htabs
  obtain ⟨t, ht, hreg, hiss⟩ := issueShort_updSlot (o := carryOp c k opc f op s) rfl h rfl
    rfl (State.setCy_setReg htabs _ _ _) rfl
    (fun r hr => (Slot.reg_setReg hg _ r _).trans (if_neg (by simpa using hr)))
  exact ⟨t, ht, (hreg _).trans ((Slot.reg_setReg hg _ _ _).trans (if_pos rfl)), hiss⟩

/-- A short instruction that writes two registers. -/
theorem issueShort_pair {opc : Nat} {rd : List Nat} {eff : State → Option Eff} {bad : Bool} {cy i j : Nat} {v w : Word} {o : Out}
    (ho : o = issueShort c k opc f bad rd [i, j] eff s) (h : s.issues c k opc f rd [i, j] = true) (hb : bad = false)
    (he : eff s = some { s := (s.setReg c k i v).setReg c k j w, cycles := cy }) :
    ∃ t, o = .next t ∧ (∀ r, (t.slot c k).reg r = if r = j then w else if r = i then v else (s.slot c k).reg r)
      ∧ Issued s t c k (plainEntry opc cy [] .none) ((s.slot c k).pc + 8) (s.slot c k).cy [i, j] := by
  have htabs := State.tabs_of_issues h
  obtain ⟨-, -, hg⟩ := State.slotTabs_iff.1 htabs
  have hreg' := fun r => Slot.reg_setReg_setReg hg i j r v w
  obtain ⟨t, ht, hreg, hiss⟩ := issueShort_updSlot ho h hb he (State.setReg_setReg htabs i j v w) rfl fun r hr => by
    simp only [List.mem_cons, List.not_mem_nil, or_false, not_or] at hr
    exact (hreg' r).trans (by rw [if_neg hr.2, if_neg hr.1])
  exact ⟨t, ht, fun r => (hreg r).trans (hreg' r), hiss⟩

/-- A product or a quotient that issues writes the two registers of its pair. -/
theorem pairOp_issues {opc : Nat} (op : Word → Word → Word × Word) (cyc : Word → Word → Nat) {r : Word × Word}
    (hr : op (srcA (s.slot c k) f) (srcB (s.slot c k) f) = r) (heven : f.rd.toNat % 2 = 0)
    (h : s.issues c k opc f (srcRegs f) [f.rd.toNat, f.rd.toNat + 1] = true) :
    ∃ t, pairOp c k opc f op cyc s = .next t ∧ (t.slot c k).reg f.rd.toNat = r.1 ∧ (t.slot c k).reg (f.rd.toNat + 1) = r.2
      ∧ Issued s t c k (plainEntry opc (cyc (srcA (s.slot c k) f) (srcB (s.slot c k) f)) [] .none) ((s.slot c k).pc + 8) (s.slot c k).cy
        [f.rd.toNat, f.rd.toNat + 1] := by
  subst hr
  obtain ⟨t, ht, hreg, hiss⟩ := issueShort_pair (o := pairOp c k opc f op cyc s) rfl h (decide_eq_false (by omega)) rfl
  exact ⟨t, ht, (hreg _).trans (by rw [if_neg (by omega), if_pos rfl]), (hreg _).trans (if_pos rfl), hiss⟩

/-! ### Results of carries, products and quotients -/

theorem sub_sub_ofBool (a b : Word) (cy : Bool) :
    a - b - ofBool cy = BitVec.ofInt 64 ((a.toNat : Int) - b.toNat - (if cy = true then 1 else 0 : Nat)) := by
  have h0 : (0 : Word).toNat = 0 := rfl
  have h1 : (1 : Word).toNat = 1 := rfl
  have ha := a.isLt
  have hb := b.isLt
  apply BitVec.eq_of_toNat_eq
  cases cy
  · simp only [ofBool, Bool.false_eq_true, if_false, BitVec.toNat_sub, BitVec.toNat_ofInt, h0]
    omega
  · simp only [ofBool, if_true, BitVec.toNat_sub, BitVec.toNat_ofInt, h1]
    omega

theorem ofInt_wrapN {w n : Nat} (h : w ≤ n) (i : Int) : BitVec.ofNat w (wrapN n i) = BitVec.ofInt w i := by
  have hnonneg : (0 : Int) ≤ i % ((2 ^ n : Nat) : Int) := Int.emod_nonneg _ (by positivity)
  have hdvd : ((2 ^ w : Nat) : Int) ∣ ((2 ^ n : Nat) : Int) := Int.natCast_dvd_natCast.2 (Nat.pow_dvd_pow 2 h)
  rw [← BitVec.ofInt_natCast, wrapN, Int.toNat_of_nonneg hnonneg]
  apply BitVec.eq_of_toInt_eq
  rw [BitVec.toInt_ofInt, BitVec.toInt_ofInt, Int.bmod_def, Int.bmod_def, Int.emod_emod_of_dvd _ hdvd]

/-- The two halves of a product. -/
theorem halves_natCast (n : Nat) : halves n = (BitVec.ofInt 64 n, BitVec.ofInt 64 ((n : Int) / 2 ^ 64)) := by
  have hdiv : (n : Int) / 2 ^ 64 = ((n / 2 ^ 64 : Nat) : Int) := by norm_cast
  rw [halves, hdiv, BitVec.ofInt_natCast, BitVec.ofInt_natCast]

/-- The two halves of a product, taken from its residue modulo 2^128. -/
theorem halves_wrapN (i : Int) : halves (wrapN 128 i) = (BitVec.ofInt 64 i, BitVec.ofInt 64 (i / 2 ^ 64)) := by
  have hhigh : wrapN 128 i / 2 ^ 64 = wrapN 64 (i / 2 ^ 64) := by
    simp only [wrapN]
    omega
  rw [halves, hhigh, ofInt_wrapN (by decide), ofInt_wrapN le_rfl]

theorem divuOp_eq (a b : Word) : divuOp a b =
    if b = 0 then (-1, a) else (BitVec.ofNat 64 (a.toNat / b.toNat), BitVec.ofNat 64 (a.toNat % b.toNat)) := by
  have hdiv : a / b = BitVec.ofNat 64 (a.toNat / b.toNat) := by rw [← BitVec.toNat_udiv, BitVec.ofNat_toNat, BitVec.setWidth_eq]
  have hmod : a % b = BitVec.ofNat 64 (a.toNat % b.toNat) := by rw [← BitVec.toNat_umod, BitVec.ofNat_toNat, BitVec.setWidth_eq]
  rw [divuOp, hdiv, hmod]
  rfl

/-! ### The rows -/

theorem execAddc_issues (h : s.issues c k 0x03 f (srcRegs f) [f.rd.toNat] = true) :
    let n := (srcA (s.slot c k) f).toNat + (srcB (s.slot c k) f).toNat + (if (s.slot c k).cy then 1 else 0)
    ∃ t, execAddc c k f s = .next t ∧ (t.slot c k).reg f.rd.toNat = BitVec.ofNat 64 n
      ∧ Issued s t c k (plainEntry 0x03 1 [] .none) ((s.slot c k).pc + 8) (decide (2 ^ 64 ≤ n)) [f.rd.toNat] :=
  carryOp_issues _ rfl h

theorem execSubb_issues (h : s.issues c k 0x04 f (srcRegs f) [f.rd.toNat] = true) :
    let a := srcA (s.slot c k) f
    let b := srcB (s.slot c k) f
    let cin : Nat := if (s.slot c k).cy then 1 else 0
    ∃ t, execSubb c k f s = .next t ∧ (t.slot c k).reg f.rd.toNat = BitVec.ofInt 64 ((a.toNat : Int) - b.toNat - cin)
      ∧ Issued s t c k (plainEntry 0x04 1 [] .none) ((s.slot c k).pc + 8) (decide (a.toNat < b.toNat + cin)) [f.rd.toNat] :=
  carryOp_issues _ (Prod.ext (sub_sub_ofBool ..) rfl) h

theorem execSetcy_issues (h : s.issues c k 0x05 f [] [] = true) :
    ∃ t, execSetcy c k f s = .next t ∧ Issued s t c k (plainEntry 0x05 1 [] .none) ((s.slot c k).pc + 8) true [] :=
  ⟨_, issueShort_issues h rfl rfl, issued_setCy (State.tabs_of_issues h) true 0x05 1 []⟩

theorem execClrcy_issues (h : s.issues c k 0x06 f [] [] = true) :
    ∃ t, execClrcy c k f s = .next t ∧ Issued s t c k (plainEntry 0x06 1 [] .none) ((s.slot c k).pc + 8) false [] :=
  ⟨_, issueShort_issues h rfl rfl, issued_setCy (State.tabs_of_issues h) false 0x06 1 []⟩

theorem execNop_issues (h : s.issues c k 0x00 f [] [] = true) :
    ∃ t, execNop c k f s = .next t ∧ Issued s t c k (plainEntry 0x00 1 [] .none) ((s.slot c k).pc + 8) (s.slot c k).cy [] := 
  ⟨_, issueShort_issues h rfl rfl, issued_self (State.tabs_of_issues h) 0x00 1 [] none .none true none⟩

theorem execSwap_issues (hi : f.i = false) (h : s.issues c k 0x17 f [f.ra.toNat, f.rb.toNat] [f.ra.toNat, f.rb.toNat] = true) :
    ∃ t, execSwap c k f s = .next t ∧ (t.slot c k).reg f.ra.toNat = (s.slot c k).reg f.rb.toNat
      ∧ (t.slot c k).reg f.rb.toNat = (s.slot c k).reg f.ra.toNat
      ∧ Issued s t c k (plainEntry 0x17 1 [] .none) ((s.slot c k).pc + 8) (s.slot c k).cy [f.ra.toNat, f.rb.toNat] := by
  obtain ⟨t, ht, hreg, hiss⟩ := issueShort_pair (o := execSwap c k f s) rfl h hi rfl
  refine ⟨t, ht, (hreg _).trans ?_, (hreg _).trans (if_pos rfl), hiss⟩
  rw [if_pos rfl]
  split_ifs with he
  · rw [he]
  · rfl

/-! ### The obligation -/

/-- Settles O4: each row is a change of its slot's registers and CY by its operation's result. -/
theorem carryOperationsAndProducts : Obligations.CarryOperationsAndProducts := by
  refine ⟨?carry, ?pairs⟩
  case carry =>
    intro s c k f x a b cin
    exact ⟨execAddc_issues, execSubb_issues, execSetcy_issues, execClrcy_issues, execNop_issues, execSwap_issues⟩
  case pairs =>
    intro s c k f x a b mul div prod
    simp only [List.forall_mem_cons, List.not_mem_nil, false_imp_iff, implies_true, and_true]
    exact ⟨pairOp_issues (fun a b => halves (a.toNat * b.toNat)) (fun _ b => mulCycles b.toNat) (halves_natCast _),
      pairOp_issues (fun a b => halves (wrapN 128 (a.toInt * b.toInt))) (fun _ b => mulCycles (sMag b)) (halves_wrapN _),
      pairOp_issues divuOp (fun a b => divCycles a.toNat b.toNat) (divuOp_eq _ _),
      pairOp_issues divsOp (fun a b => divCycles (sMag a) (sMag b)) rfl⟩

end Sys2Proof.Machine
end

/-! ## O7: branches (R255) -/

section
namespace Sys2Proof.Machine

variable {s : State} {c k : Nat} {f : SFields}

/-- The target of a branch: IMM counts instructions from the branch. -/
theorem branch_target (pc : Nat) (f : SFields) :
    wrapN 64 ((pc : Int) + 8 * (immExt f).toInt) = (((pc : Int) + 8 * f.imm.toInt) % 2 ^ 64).toNat := by
  rw [immExt, BitVec.toInt_signExtend_of_le (by decide)]
  rfl

/-- A branch that issues leaves its slot's registers, and goes on at its target or behind itself. -/
theorem branchOp_issues {opc : Nat} {rd : List Nat} {taken : Slot → Bool} (h : s.issues c k opc f rd [] = true) :
    ∃ t, branchOp c k opc f rd taken s = .next t
      ∧ Issued s t c k (plainEntry opc (if taken (s.slot c k) then 2 else 1) [] .none)
        (if taken (s.slot c k) then ((((s.slot c k).pc : Int) + 8 * f.imm.toInt) % 2 ^ 64).toNat else (s.slot c k).pc + 8)
        (s.slot c k).cy [] := by
  have htabs := State.tabs_of_issues h
  cases ht : taken (s.slot c k) with
  | true =>
    refine ⟨_, issueShort_issues h rfl (if_pos ht), ?_⟩
    rw [branch_target]
    exact issued_self htabs opc 2 [] none .none true (some _)
  | false => exact ⟨_, issueShort_issues h rfl (if_neg (by simp [ht])), issued_self htabs opc 1 [] none .none true none⟩

/-- Settles O7: the four rows are one branch with their conditions. -/
theorem branchesTakenAndNotTaken : Obligations.BranchesTakenAndNotTaken := by
  intro s c k f x target
  simp only [List.forall_mem_cons, List.not_mem_nil, false_imp_iff, implies_true, and_true]
  exact ⟨branchOp_issues (taken := fun _ => true), branchOp_issues (taken := fun x => x.reg f.ra.toNat != 0),
    branchOp_issues (taken := fun x => x.reg f.ra.toNat == 0), branchOp_issues (taken := fun x => x.cy)⟩

end Sys2Proof.Machine
end

/-! ## O9: windows open and close when WOPEN and WCLOSE retire (R165 to R167) -/

section
namespace Sys2Proof.Machine

variable {s : State} {c k : Nat} {e : RetEntry}

/-! ### Retirement of the oldest instruction -/

theorem State.retires.canRetire (h : s.retires c k e) : s.canRetire c k = true := by
  have hpast : s.pastDeadline c k = false := by
    rw [pastDeadline, Option.any_eq_false]
    intro d hd
    obtain ⟨t, ht, hdl⟩ := Option.bind_eq_some_iff.1 hd
    obtain ⟨uid, hu, htask⟩ := Option.bind_eq_some_iff.1 ht
    have := h.due uid t d hu htask hdl
    simpa using this
  simp [State.canRetire, Slot.canRetire, h.first, h.complete, h.live, h.task, hpast]

/-- The state in which an instruction has left the list of those that wait to retire, its flags entered (R81, R84). -/
def State.leftList (s : State) (c k : Nat) (e : RetEntry) (rest : List RetEntry) : State :=
  s.updSlot c k fun x =>
    { x with ret := rest, lastRet := x.lastRet + 1, flags := enterFlags x.flags e.evs, exc := x.exc.enter e }

theorem exec_retire (h : s.retires c k e) :
    exec (.retire c k) s = .next ((s.leftList c k e (s.slot c k).ret.tail).retireEvents c k e) := by
  obtain ⟨rest, hret⟩ := List.head?_eq_some_iff.1 h.first
  change execRetire c k s = _
  rw [execRetire, h.slot, h.canRetire, State.retireOne, hret]
  rfl

/-- What an instruction without a fault does that raises no RANGE, where its action is one of a window. -/
theorem State.retireEvents_wopen {n w : Nat} (hf : e.fault = none) (hr : raises fRange e.evs = false) (ha : e.act = .wopen n w) :
    s.retireEvents c k e = s.wopen c k n w := by
  simp [retireEvents, hf, hr, ha]

theorem State.retireEvents_wclose {n : Nat} (hf : e.fault = none) (hr : raises fRange e.evs = false) (ha : e.act = .wclose n) :
    s.retireEvents c k e = s.wclose c n := by
  simp [retireEvents, hf, hr, ha]

/-- The windows of a core after an instruction has left its slot's list and a window has changed. -/
theorem State.wins_updCore_leftList (h : s.slotTabs c k = true) (rest : List RetEntry) (g : Tab Nat → Tab Nat) :
    (((s.leftList c k e rest).updCore c fun q => { q with wins := g q.wins }).core c).wins = g (s.core c).wins := by
  obtain ⟨h1, -, -⟩ := slotTabs_iff.1 h
  have hcore : (s.leftList c k e rest).core c = (s.core c).updSlot k _ := (core_updSlot h1 c k c _).trans (if_pos rfl)
  have hwf : Tab.wf ({} : Core) (s.leftList c k e rest).cores = true := wf_updSlot h1 c k _
  rw [core_updCore_self hwf, hcore]
  rfl

theorem execWopen_issues {f : SFields} (h : s.issues c k 0x26 f [f.ra.toNat] [] = true) :
    execWopen c k f s = .next (Eff.issued { s := s, act := .wopen (f.imm.toNat % 8) (srcA (s.slot c k) f).toNat } c k 0x26) :=
  issueShort_issues h rfl rfl

theorem execWclose_issues {f : SFields} (h : s.issues c k 0x27 f [] [] = true) :
    execWclose c k f s = .next (Eff.issued { s := s, act := .wclose (f.imm.toNat % 8) } c k 0x27) :=
  issueShort_issues h rfl rfl

/-! ### The obligation -/

/-- Settles O9: WOPEN and WCLOSE leave their action in the list of issued instructions, and their retirement carries it out. -/
theorem windowsOpenAndCloseAtRetirement : Obligations.WindowsOpenAndCloseAtRetirement := by
  intro s c k f x
  refine ⟨fun h => ?wopen, fun h => ?wclose, fun e n w hret hwf hf hr => ⟨fun ha hlt hle => ?opens, fun ha => ?closes⟩⟩
  case wopen =>
    exact ⟨_, execWopen_issues h, issued_self (State.tabs_of_issues h) 0x26 1 [] none (.wopen _ _) true none⟩
  case wclose =>
    exact ⟨_, execWclose_issues h, issued_self (State.tabs_of_issues h) 0x27 1 [] none (.wclose _) true none⟩
  case opens =>
    refine ⟨_, exec_retire hret, fun i => ?_⟩
    rw [State.retireEvents_wopen hf hr ha, State.wopen, if_pos (by simp [hlt, hle]),
      State.wins_updCore_leftList hret.tabs _ fun t => Tab.set 0 t n (winBits w k), Tab.get_set hwf]
  case closes =>
    refine ⟨_, exec_retire hret, fun i => ?_⟩
    rw [State.retireEvents_wclose hf hr ha, State.wclose, State.wins_updCore_leftList hret.tabs _ fun t => Tab.upd 0 t n fun v => v / 2 * 2,
      Tab.get_upd hwf]
    split_ifs with hi
    · rw [hi]
    · rfl

end Sys2Proof.Machine
end

/-! ## Ranges of memory without an error (R150, R171) -/

section
namespace Sys2Proof.Machine

variable {s : State} {a n : Nat}

theorem State.sound_core {c off : Nat} (h : s.sound a n = true) (hp : s.place a = .core c off) :
    (s.core c).badIn off (off + n) = [] ∧ (s.core c).weakIn off (off + n) = [] := by
  simpa [sound, hp] using h

theorem State.sound_yard {off : Nat} (h : s.sound a n = true) (hp : s.place a = .yard off) :
    s.yardBadIn off (off + n) = [] ∧ s.yardWeakIn off (off + n) = [] := by
  simpa [sound, hp] using h

theorem State.firstBad_of_sound (h : s.sound a n = true) : s.firstBad a n = none := by
  rw [firstBad]
  split
  case h_1 hp => rw [(sound_core h hp).1]; rfl
  case h_2 hp => rw [(sound_yard h hp).1]; rfl
  case h_3 => rfl

theorem State.coreRead_of_weakIn_nil {c lo hi : Nat} (h : (s.core c).weakIn lo hi = []) (dom : Option Nat) :
    s.coreRead c lo hi dom = s := by
  rw [coreRead, h, List.foldl_nil]

theorem State.yardRead_of_weakIn_nil {lo hi : Nat} (h : s.yardWeakIn lo hi = []) (dom : Option Nat) : s.yardRead lo hi dom = s := by
  rw [yardRead, h, List.foldl_nil]

theorem State.rangeRead_of_sound (h : s.sound a n = true) (dom : Option Nat) : s.rangeRead a n dom = s := by
  rw [rangeRead]
  split
  case h_1 hp => exact coreRead_of_weakIn_nil (sound_core h hp).2 dom
  case h_2 hp => exact yardRead_of_weakIn_nil (sound_yard h hp).2 dom
  case h_3 => rfl

end Sys2Proof.Machine
end

/-! ## O13: the solve control under SOLVE, OUTER, INNER, PRECSWAP and FINISH (R94, R96, R97, R113) -/

section
namespace Sys2Proof.Machine

variable {s : State} {c k : Nat} {f : SFields}

/-- An instruction that issues and changes fields of its slot that are not the Sequencer's own: registers, CY, its place in the code and the
list of issued instructions stand as after any other. -/
theorem issueShort_updSlot_fields {opc : Nat} {rd : List Nat} {eff : State → Option Eff} {bad : Bool} {cy : Nat} {act : RetAct}
    {g : Slot → Slot} {o : Out} {b : Bool} (ho : o = issueShort c k opc f bad rd [] eff s)
    (h : s.issues c k opc f rd [] = true) (hb : bad = false)
    (he : eff s = some { s := s.updSlot c k g, cycles := cy, act := act }) (hg : (g (s.slot c k)).g = (s.slot c k).g)
    (hcy : (g (s.slot c k)).cy = b) (hpc : (g (s.slot c k)).pc = (s.slot c k).pc)
    (hcseq : (g (s.slot c k)).cseq = (s.slot c k).cseq) (hret : (g (s.slot c k)).ret = (s.slot c k).ret) :
    ∃ t, o = .next t ∧ (t.slot c k).sc = (g (s.slot c k)).sc ∧ (t.slot c k).stopIssue = (g (s.slot c k)).stopIssue
      ∧ SlotIssued (s.slot c k) (t.slot c k) (plainEntry opc cy [] act) ((s.slot c k).pc + 8) b [] := by
  have htabs := State.tabs_of_issues h
  obtain ⟨hslot, -⟩ := Eff.issued_spec htabs g cy [] none act true none opc
  refine ⟨_, ho.trans (issueShort_issues h hb he), (congrArg Slot.sc hslot).trans rfl, (congrArg Slot.stopIssue hslot).trans rfl, ?_⟩
  exact slotIssued_updSlot htabs (fun r _ => by rw [Slot.reg, Slot.reg, hg]) hcy hpc hcseq hret opc cy [] none act true none

/-- SOLVE of a good SPB whose block and schedule meet no error. -/
theorem solveEff_of_good {v : Nat} (hv : Rd.le s.rd (srcA (s.slot c k) f).toNat 64 = v)
    (hsolved : (s.slot c k).sc.solved = false) (halign : (srcA (s.slot c k) f).toNat % 64 = 0)
    (hrange : s.taskRange c (s.slotDom c k) (srcA (s.slot c k) f).toNat 64 = true) (hmethod : natBits v 353 352 < 2)
    (hplace : natBits v 511 464 % 16 = 0) (hsched : s.taskRange c (s.slotDom c k) (natBits v 511 464) (16 * natBits v 463 460) = true)
    (hsound : s.sound (srcA (s.slot c k) f).toNat 64 = true) (hsound' : s.sound (natBits v 511 464) (16 * natBits v 463 460) = true)
    (hok : spbOk v (schedOk none ((List.range (natBits v 463 460)).map fun i => Rd.le s.rd (natBits v 511 464 + 16 * i) 16)) = true) :
    solveEff c k f s = some { s := s.updSlot c k fun x => { x with sc := SolveCtl.ofSpb v }, cycles := 4, act := .solve } := by
  have hbad := State.firstBad_of_sound hsound
  have hbad' := State.firstBad_of_sound hsound'
  have hread := State.rangeRead_of_sound hsound (some (s.slotDom c k))
  have hread' := State.rangeRead_of_sound hsound' (some (s.slotDom c k))
  have hreads : (decide (natBits v 353 352 < 2) && natBits v 511 464 % 16 == 0
      && s.taskRange c (s.slotDom c k) (natBits v 511 464) (16 * natBits v 463 460)) = true := by
    simp only [hmethod, hplace, hsched, decide_true, beq_self_eq_true, Bool.and_self]
  rw [solveEff]
  simp only [hsolved, halign, hrange, hv, hreads, hbad, hbad', hread, hread', hok, if_true, Bool.true_and, Bool.false_eq_true, if_false,
    ne_eq, not_true_eq_false, decide_false, Bool.not_true, Bool.or_self, Option.orElse_none]

theorem not_bnot {a : Bool} (h : a = true) : ¬ (!a) = true := by simp [h]

theorem not_bnot_or_bnot {a b : Bool} (ha : a = true) (hb : b = true) : ¬ (!a || !b) = true := by simp [ha, hb]

/-- Settles O13: each row changes its slot's solve control as R94 says, and what its retirement is to do stands in its entry. -/
theorem solveControlInstructions : Obligations.SolveControlInstructions := by
  intro s c k f x sc a v sb ns
  refine ⟨fun h h1 h2 h3 h4 h5 h6 h7 h8 h9 => ?solve, fun h hsolved => ?outer, fun h hsolved => ?inner, fun h hsolved hdone => ?precswap,
    fun h => ?finish⟩
  case solve =>
    obtain ⟨t, ht, hsc, -, hiss⟩ := issueShort_updSlot_fields (o := execSolve c k f s) rfl h rfl
      (solveEff_of_good rfl h1 h2 h3 h4 h5 h6 h7 h8 h9) rfl rfl rfl rfl rfl
    exact ⟨t, ht, hsc, hiss⟩
  case outer => 
    by_cases hcap : sc.outCnt = sc.capOut
    · obtain ⟨t, ht, -, hstop, hiss⟩ := issueShort_updSlot_fields (o := execOuter c k f s) rfl h rfl
        ((if_neg (not_bnot hsolved)).trans (if_pos hcap)) rfl rfl rfl rfl rfl
      exact ⟨t, ht, fun hne => absurd hcap hne, fun _ => ⟨hstop, hiss⟩⟩
    · obtain ⟨t, ht, hsc, -, hiss⟩ := issueShort_updSlot_fields (o := execOuter c k f s) rfl h rfl
        ((if_neg (not_bnot hsolved)).trans (if_neg hcap)) rfl rfl rfl rfl rfl
      exact ⟨t, ht, fun _ => ⟨hsc, hiss⟩, fun he => absurd he hcap⟩
  case inner =>
    by_cases hcap : sc.inCnt = sc.capIn
    · obtain ⟨t, ht, hsc, -, hiss⟩ := issueShort_updSlot_fields (o := execInner c k f s) rfl h rfl
        ((if_neg (not_bnot hsolved)).trans (if_pos hcap)) rfl rfl rfl rfl rfl
      exact ⟨t, ht, fun hne => absurd hcap hne, fun _ => hsc, by rwa [if_pos hcap, decide_eq_true hcap]⟩
    · obtain ⟨t, ht, hsc, -, hiss⟩ := issueShort_updSlot_fields (o := execInner c k f s) rfl h rfl
        ((if_neg (not_bnot hsolved)).trans ((if_neg hcap).trans (by rw [State.setCy, State.updSlot_updSlot (State.tabs_of_issues h)])))
        rfl rfl rfl rfl rfl
      exact ⟨t, ht, fun _ => hsc, fun he => absurd he hcap, by rwa [if_neg hcap, decide_eq_false hcap]⟩
  case precswap =>
    obtain ⟨t, ht, hsc, -, hiss⟩ := issueShort_updSlot_fields (o := execPrecswap c k f s) rfl h rfl
      (if_neg (not_bnot_or_bnot hsolved hdone)) rfl rfl rfl rfl rfl
    exact ⟨t, ht, hsc, hiss⟩
  case finish =>
    obtain ⟨t, ht, -, hstop, hiss⟩ := issueShort_updSlot_fields (o := execFinish c k f s) rfl h rfl rfl rfl rfl rfl rfl rfl
    exact ⟨t, ht, hstop, hiss⟩

end Sys2Proof.Machine
end

/-! ## Instructions that act outside their slot

The effect of an instruction on the rest of the state is named `u`; its issue then changes nothing but its slot. -/

section
namespace Sys2Proof.Machine

variable {s t u : State} {c k : Nat}

/-! ### States of equal cores -/

theorem State.core_congr (h : u.cores = s.cores) (c : Nat) : u.core c = s.core c := by rw [core, core, h]

theorem State.slot_congr (h : u.cores = s.cores) (c k : Nat) : u.slot c k = s.slot c k := by rw [slot, slot, core_congr h]

theorem State.slotTabs_congr (h : u.cores = s.cores) : u.slotTabs c k = s.slotTabs c k := by
  rw [slotTabs, slotTabs, slot_congr h, core_congr h, h]

/-- A state that differs from another in its cores alone. -/
theorem State.eq_of_cores_eq (h : { t with cores := s.cores } = s) : t = { s with cores := t.cores } := by
  calc t = { ({ t with cores := s.cores } : State) with cores := t.cores } := rfl
    _ = { s with cores := t.cores } := by rw [h]

@[simp] theorem State.recordN_cores (s : State) (count cls code : Nat) (dom : Option Nat) (skind sidx addr detail : Nat) :
    (s.recordN count cls code dom skind sidx addr detail).cores = s.cores := by
  unfold recordN
  split_ifs <;> rfl

@[simp] theorem State.record_cores (s : State) (cls code : Nat) (dom : Option Nat) (skind sidx addr detail : Nat) :
    (s.record cls code dom skind sidx addr detail).cores = s.cores := recordN_cores ..

@[simp] theorem State.ueMet_cores (s : State) (code : Nat) (dom : Option Nat) (skind sidx addr : Nat) :
    (s.ueMet code dom skind sidx addr).cores = s.cores := record_cores ..

/-! ### A core changed outside its slots -/

section
variable {f : Core → Core} (hcores : Tab.wf ({} : Core) s.cores = true) (hf : ∀ q, (f q).slots = q.slots)
include hcores hf

theorem State.slot_updCore (c c' k' : Nat) : (s.updCore c f).slot c' k' = s.slot c' k' := by
  rw [slot, core_updCore hcores, slot]
  split_ifs with e
  · rw [e, Core.slot, Core.slot, hf]
  · rfl

theorem State.slotTabs_updCore (h : s.slotTabs c k = true) : (s.updCore c f).slotTabs c k = true := by
  obtain ⟨h1, h2, h3⟩ := slotTabs_iff.1 h
  refine slotTabs_iff.2 ⟨wf_updCore h1 c f, ?_, ?_⟩
  · rwa [core_updCore_self h1, hf]
  · rwa [slot_updCore hcores hf]

end

/-! ### Issue of an instruction with an effect outside its slot -/

section
variable {opc : Nat} {f : SFields} {rd wr : List Nat} {eff : State → Option Eff} {bad : Bool} {o : Out}
  (ho : o = issueShort c k opc f bad rd wr eff s) (h : s.issues c k opc f rd wr = true) (hb : bad = false)
include ho h hb

/-- An instruction whose effect leaves its slot as it stands. -/
theorem issueShort_effect {cy : Nat} {fl : List Nat} {fa : Option RFault} {act : RetAct} {cm : Bool} {pc : Option Nat}
    (he : eff s = some ⟨u, cy, fl, fa, act, cm, pc⟩) (htabs : u.slotTabs c k = true) (hslot : u.slot c k = s.slot c k) :
    ∃ t, o = .next t ∧ Issued u t c k (fun n => ⟨n, opc, 0, cm, cy, fl.map (fun f => ⟨f, 0⟩), fa, act⟩)
      (pc.getD ((s.slot c k).pc + 8)) (s.slot c k).cy [] := by
  have hiss := issued_self htabs opc cy fl fa act cm pc
  rw [hslot] at hiss
  exact ⟨_, ho.trans (issueShort_issues h hb he), hiss⟩

theorem issueShort_cores {cy : Nat} {fl : List Nat} {fa : Option RFault} {act : RetAct} {cm : Bool} {pc : Option Nat}
    (he : eff s = some ⟨u, cy, fl, fa, act, cm, pc⟩) (hu : u.cores = s.cores) :
    ∃ t, o = .next t ∧ Issued u t c k (fun n => ⟨n, opc, 0, cm, cy, fl.map (fun f => ⟨f, 0⟩), fa, act⟩)
      (pc.getD ((s.slot c k).pc + 8)) (s.slot c k).cy [] :=
  issueShort_effect ho h hb he ((State.slotTabs_congr hu).trans (State.tabs_of_issues h)) (State.slot_congr hu c k)

theorem issueShort_cores_setReg {cy r : Nat} {w : Word}
    (he : eff s = some { s := u.setReg c k r w, cycles := cy }) (hu : u.cores = s.cores) :
    ∃ t, o = .next t ∧ (t.slot c k).reg r = w
      ∧ Issued u t c k (plainEntry opc cy [] .none) ((s.slot c k).pc + 8) (s.slot c k).cy [r] := by
  have htabs : u.slotTabs c k = true := (State.slotTabs_congr hu).trans (State.tabs_of_issues h)
  obtain ⟨hreg, hiss⟩ := issued_setReg htabs r opc cy [] w
  rw [State.slot_congr hu] at hiss
  exact ⟨_, ho.trans (issueShort_issues h hb he), hreg, hiss⟩

end

end Sys2Proof.Machine
end

/-! ## O12: SPAWN makes the tasks of its block (R212, R214) -/

section
namespace Sys2Proof.Machine

variable {s : State} {c k : Nat} {f : SFields}

/-- SPAWN of a block that meets every condition accepts it. -/
theorem spawnEff_of_accepted {b : TaskBlock} (hb : TaskBlock.ofNat (Rd.le s.rd (srcA (s.slot c k) f).toNat 40) = b)
    (halign : (srcA (s.slot c k) f).toNat % 64 = 0) (hlo : coreBase c ≤ (srcA (s.slot c k) f).toNat)
    (hhi : (srcA (s.slot c k) f).toNat + 40 ≤ coreBase c + coreBytes) (hsound : s.sound (srcA (s.slot c k) f).toNat 40 = true)
    (hrefuse : s.blockRefusal (s.slotDom c k) b = none) (hroom : s.blockRoom (s.slotDom c k) b = true) :
    spawnEff c k f s = some { s := s.acceptBlock (s.slotDom c k) b } := by
  have hbad := State.firstBad_of_sound hsound
  have hread := State.rangeRead_of_sound hsound (some (s.slotDom c k))
  rw [spawnEff]
  simp only [halign, hlo, hhi, hbad, hread, hb, hrefuse, hroom, decide_true, Bool.and_self, Bool.not_true, ne_eq, not_true_eq_false,
    decide_false, Bool.or_self, Bool.false_eq_true, if_false, Option.isSome_none]

/-- Settles O12: the block is accepted as the instruction issues, and nothing else of the state changes outside its slot. -/
theorem spawnMakesTasks : Obligations.SpawnMakesTasks := by
  intro s c k f x a b d h halign hlo hhi hsound hrefuse hroom
  obtain ⟨t, ht, hiss⟩ := issueShort_cores (o := execSpawn c k f s) (u := s.acceptBlock d b) rfl h rfl
    (spawnEff_of_accepted rfl halign hlo hhi hsound hrefuse hroom) rfl
  have hrest := State.eq_of_cores_eq hiss.only.rest
  refine ⟨t, ht, ?_, ?_, hiss.now, ?_⟩ <;> rw [hrest] <;> rfl

end Sys2Proof.Machine
end

/-! ## O8: loads and stores of core memory and the Yard, remote, misaligned, refused and cut ones among them
(R140, R155, R161, R162, R165, R170, R173, R499) -/

section
namespace Sys2Proof.Machine

variable {s : State} {c k : Nat}

/-! ### Bytes of an aligned access and their places -/

theorem length_toLE (n x : Nat) : (toLE n x).length = n := by
  induction n generalizing x with
  | zero => rfl
  | succ n ih => rw [toLE, List.length_cons, ih]

theorem getD_toLE {n i : Nat} (x : Nat) (hi : i < n) : (toLE n x).getD i 0 = BitVec.ofNat 8 (x / 256 ^ i) := by
  induction n generalizing x i with
  | zero => omega
  | succ n ih =>
    cases i with
    | zero => simp [toLE]
    | succ i => rw [toLE, List.getD_cons_succ, ih _ (by omega), pow_succ', Nat.div_div_eq_div_mul]

theorem Variant.cores_le (v : Variant) : v.cores ≤ 256 := by cases v <;> decide

/-- An address of a core's memory is that of its core and an offset in it. -/
theorem State.place_eq_core_iff {a t off : Nat} :
    s.place a = .core t off ↔ a = coreBase t + off ∧ off < coreBytes ∧ t < s.var.cores := by
  have hb : coreBytes = 786432 := rfl
  constructor
  · intro h
    unfold place at h
    rw [hb] at h ⊢
    rw [coreBase]
    split_ifs at h with h1 h2 h3
    obtain ⟨rfl, rfl⟩ := (Place.core.injEq _ _ _ _).mp h
    omega
  · rintro ⟨ha, hoff, ht⟩
    have hcores := Nat.mul_le_mul_right 0x100000 ht
    rw [coreBase] at ha
    rw [hb] at hoff
    have hmod : (a - 0x40000000) % 0x100000 = off := by omega
    have hdiv : (a - 0x40000000) / 0x100000 = t := by omega
    unfold place
    rw [if_neg (by omega), if_pos (by omega), hmod, hdiv, if_pos (by omega)]

/-- An address of the Yard is that of an offset in it. -/
theorem State.place_eq_yard_iff {a off : Nat} : s.place a = .yard off ↔ a = yardBase + off ∧ off < s.var.granules * 65536 := by
  have hb : yardBase = 0x100000000 := rfl
  have hc : coreBytes = 786432 := rfl
  have hcores := s.var.cores_le
  constructor
  · intro h
    unfold place at h
    split_ifs at h with h1 h2 h3 h4
    obtain rfl := (Place.yard.injEq _ _).mp h
    omega
  · rintro ⟨ha, hoff⟩
    have hsub : a - yardBase = off := by omega
    unfold place
    rw [if_neg (by omega), if_neg (by omega), if_pos (by omega), hsub]

/-! ### Writes into memories of checked units (R499) -/

theorem exists_mem_bytesAt {a : Nat} {l : List Byte} {P : Nat → Prop} :
    (∃ q ∈ bytesAt a l, P q.1) ↔ ∃ i, i < l.length ∧ P (a + i) := by
  simp only [bytesAt, List.mem_map]
  constructor
  · rintro ⟨q, ⟨⟨x, i⟩, hm, rfl⟩, hp⟩
    exact ⟨i, by simpa using List.snd_lt_of_mem_zipIdx hm, hp⟩
  · rintro ⟨i, hi, hp⟩
    exact ⟨_, ⟨(l[i], i), List.mk_mem_zipIdx_iff_getElem?.2 (List.getElem?_eq_getElem hi), rfl⟩, hp⟩

/-- A write that leaves no uncorrectable unit it meets uncovered lands whole. -/
theorem writeChecked_of_no_stuck {u : Nat} {m : Mem} {bad : List Nat} {a : Nat} {l : List Byte}
    (h : ∀ b ∈ bad, (∃ i, i < l.length ∧ (a + i) / u = b / u) → ∀ j, j < u → ∃ i, i < l.length ∧ a + i = b / u * u + j) :
    (writeChecked u m bad (bytesAt a l)).1 = m.write a l ∧ (writeChecked u m bad (bytesAt a l)).2.2 = [] := by
  have hstuck : (bad.filter fun b => ((bytesAt a l).any fun p => inUnit u b p.1)
      && !((List.range u).all fun i => (bytesAt a l).any fun p => p.1 == b / u * u + i)) = [] := by
    refine List.filter_eq_nil_iff.2 fun b hb => ?_
    simp only [Bool.and_eq_true, Bool.not_eq_true', not_and, Bool.not_eq_false, List.all_eq_true, List.any_eq_true, List.mem_range, inUnit,
      beq_iff_eq, exists_mem_bytesAt (P := fun n => n / u = b / u)]
    exact fun hmeets j hj => (exists_mem_bytesAt (P := fun n => n = b / u * u + j)).2 (h b hb hmeets j hj)
  simp only [writeChecked, hstuck, List.any_nil, Bool.not_false, List.filter_true, and_true]
  rfl

/-- A store of whole units covers every unit that it meets. -/
theorem writeChecked_of_aligned {u : Nat} {m : Mem} {bad : List Nat} {a : Nat} {l : List Byte} (hu : 0 < u) (ha : u ∣ a)
    (hl : u ∣ l.length) :
    (writeChecked u m bad (bytesAt a l)).1 = m.write a l := by
  obtain ⟨q, rfl⟩ := ha
  obtain ⟨n, hn⟩ := hl
  refine (writeChecked_of_no_stuck fun b _ ⟨i, hi, he⟩ j hj => ⟨u * (i / u) + j, ?_, ?_⟩).1
  · have hlt : i / u < n := Nat.div_lt_of_lt_mul (hn ▸ hi)
    have := Nat.mul_le_mul_left u hlt
    rw [hn]
    rw [Nat.mul_succ] at this
    omega
  · rw [← he, Nat.mul_add_div hu]
    ring

/-- A store that meets no uncorrectable unit. -/
theorem writeChecked_of_unitsIn_nil {u : Nat} {m : Mem} {bad : List Nat} {a : Nat} {l : List Byte} (hu : 0 < u)
    (h : unitsIn u bad a (a + l.length) = []) :
    (writeChecked u m bad (bytesAt a l)).1 = m.write a l ∧ (writeChecked u m bad (bytesAt a l)).2.2 = [] := by
  refine writeChecked_of_no_stuck fun b hb ⟨i, hi, he⟩ => absurd ?_ (List.filter_eq_nil_iff.1 h b hb)
  have h1 := Nat.div_mul_le_self (a + i) u
  have h2 := Nat.lt_div_mul_add (a := a + i) hu
  rw [← he, Bool.and_eq_true, decide_eq_true_iff, decide_eq_true_iff]
  omega

/-! ### What a store leaves in memory -/

theorem State.slot_coreWrite (h : Tab.wf ({} : Core) s.cores = true) (t c' k' : Nat) (w : List (Nat × Byte)) :
    (s.coreWrite t w).1.slot c' k' = s.slot c' k' := slot_updCore h (fun _ => by rfl) t c' k'

theorem State.slotTabs_coreWrite (h : s.slotTabs c k = true) (w : List (Nat × Byte)) : (s.coreWrite c w).1.slotTabs c k = true :=
  slotTabs_updCore (slotTabs_iff.1 h).1 (fun _ => by rfl) h

/-- The byte that a store of the little-endian number `v` leaves at an offset. -/
theorem get_write_toLE {m : Mem} (h : memOk m = true) (off w v j : Nat) :
    (Tab.get 0 (m.write off (toLE w v)) j).toNat =
      if off ≤ j ∧ j < off + w then v / 256 ^ (j - off) % 256 else (Tab.get 0 m j).toNat := by
  rw [Mem.get_write h, length_toLE]
  split_ifs with hj
  · rw [getD_toLE v (by omega), BitVec.toNat_ofNat]
  · rfl

theorem State.rd_of_core {a t o : Nat} (h : s.place a = .core t o) : s.rd a = (Tab.get 0 (s.core t).mem o).toNat := by rw [rd, h]

theorem State.rd_of_yard {a o : Nat} (h : s.place a = .yard o) : s.rd a = (Tab.get 0 s.yard.mem o).toNat := by rw [rd, h]

/-- A store of aligned words into core memory, read back through the address map. -/
theorem State.rd_coreWrite_toLE (h : s.memsOk = true) {t off w v a : Nat} (hp : s.place a = .core t off) (hw : 4 ∣ w) (hoff : 4 ∣ off)
    (hfit : off + w ≤ coreBytes) (b : Nat) :
    (s.coreWrite t (bytesAt off (toLE w v))).1.rd b = if a ≤ b ∧ b < a + w then v / 256 ^ (b - a) % 256 else s.rd b := by
  obtain ⟨h1, -⟩ := memsOk_iff.1 h
  obtain ⟨rfl, -, ht⟩ := place_eq_core_iff.1 hp
  generalize hu : (s.coreWrite t (bytesAt off (toLE w v))).1 = u
  have hmem : ∀ t', (u.core t').mem = if t' = t then (s.core t).mem.write off (toLE w v) else (s.core t').mem := fun t' => by
    rw [← hu, coreWrite, core_updCore h1]
    split_ifs
    · exact writeChecked_of_aligned (by decide) hoff (by rwa [length_toLE])
    · rfl
  have hplace' : u.place = s.place := by rw [← hu]; rfl
  have hyard : u.yard = s.yard := by rw [← hu]; rfl
  by_cases hb : coreBase t + off ≤ b ∧ b < coreBase t + off + w
  · have hplace : s.place b = .core t (b - coreBase t) := place_eq_core_iff.2 ⟨by omega, by omega, ht⟩
    rw [rd_of_core (s := u) (by rw [hplace', hplace]), hmem, if_pos rfl, get_write_toLE (memOk_core h t), if_pos (by omega), if_pos hb,
      Nat.sub_sub]
  · rw [if_neg hb, rd, rd, hplace', hyard]
    cases hplace : s.place b with
    | core t' o =>
      obtain ⟨rfl, -, -⟩ := place_eq_core_iff.1 hplace
      simp only [hmem]
      split_ifs with e
      · subst e
        rw [get_write_toLE (memOk_core h t'), if_neg (by omega)]
      · rfl
    | _ => rfl

/-- A store into the Yard that meets no uncorrectable unit, read back through the address map. -/
theorem State.rd_yardWrite_toLE (h : s.memsOk = true) {off w v a : Nat} (hp : s.place a = .yard off)
    (hbad : s.yardBadIn off (off + w) = []) (hfit : off + w ≤ s.var.granules * 65536) (b : Nat) :
    (s.yardWrite (bytesAt off (toLE w v))).1.rd b = if a ≤ b ∧ b < a + w then v / 256 ^ (b - a) % 256 else s.rd b := by
  obtain ⟨-, -, hyard, -⟩ := memsOk_iff.1 h
  obtain ⟨rfl, -⟩ := place_eq_yard_iff.1 hp
  generalize hu : (s.yardWrite (bytesAt off (toLE w v))).1 = u
  have hmem : u.yard.mem = s.yard.mem.write off (toLE w v) := by
    rw [← hu]
    exact (writeChecked_of_unitsIn_nil (by decide) (by rwa [length_toLE])).1
  have hplace' : u.place = s.place := by rw [← hu]; rfl
  have hcore : u.core = s.core := by rw [← hu]; rfl
  by_cases hb : yardBase + off ≤ b ∧ b < yardBase + off + w
  · have hplace : s.place b = .yard (b - yardBase) := place_eq_yard_iff.2 ⟨by omega, by omega⟩
    rw [rd_of_yard (s := u) (by rw [hplace', hplace]), hmem, get_write_toLE hyard, if_pos (by omega), if_pos hb, Nat.sub_sub]
  · rw [if_neg hb, rd, rd, hplace', hcore]
    cases hplace : s.place b with
    | yard o =>
      obtain ⟨rfl, -⟩ := place_eq_yard_iff.1 hplace
      simp only [hmem]
      rw [get_write_toLE hyard, if_neg (by omega)]
    | _ => rfl

/-! ### Loads and stores at issue -/

section
variable {f : SFields} {w : Nat}

/-- An access that is misaligned, or whose address decodes to nothing that the Sequencer reaches. -/
def State.unreached (s : State) (a w : Nat) : Prop :=
  a % w ≠ 0 ∨ (∃ b, s.place a = .regs b) ∨ (∃ b, s.place a = .store b) ∨ s.place a = .nowhere

theorem loadEff_of_unreached (h : s.unreached (lsAddr (s.slot c k) f) w) :
    loadEff c k f w s = some { s := (s.accessNowhere c k (lsAddr (s.slot c k) f) 1).setReg c k f.rd.toNat 0 } := by
  rw [loadEff]
  by_cases ha : lsAddr (s.slot c k) f % w = 0
  · obtain h | ⟨b, h⟩ | ⟨b, h⟩ | h := h
    · exact absurd ha h
    all_goals simp only [ha, h, ne_eq, not_true_eq_false, if_false]
  · simp only [if_pos ha, ne_eq]

theorem storeEff_of_unreached (h : s.unreached (lsAddr (s.slot c k) f) w) :
    storeEff c k f w s = some { s := s.accessNowhere c k (lsAddr (s.slot c k) f) 1 } := by
  rw [storeEff]
  by_cases ha : lsAddr (s.slot c k) f % w = 0
  · obtain h | ⟨b, h⟩ | ⟨b, h⟩ | h := h
    · exact absurd ha h
    all_goals simp only [ha, h, ne_eq, not_true_eq_false, if_false]
  · simp only [if_pos ha, ne_eq]

variable (ha : lsAddr (s.slot c k) f % w = 0)
include ha

section
variable {off : Nat} (hp : s.place (lsAddr (s.slot c k) f) = .core c off)
include hp

theorem loadEff_own (hheld : (s.core c).lsHeld (lsAddr (s.slot c k) f) w false = false) (hbad : (s.core c).badIn off (off + w) = [])
    (hweak : (s.core c).weakIn off (off + w) = []) : loadEff c k f w s =
      some { s := s.setReg c k f.rd.toNat (BitVec.ofNat 64 (s.word (lsAddr (s.slot c k) f) w)), cycles := 6 } := by
  simp only [loadEff, ha, hp, hheld, hbad, State.coreRead_of_weakIn_nil hweak, ne_eq, not_true_eq_false, if_false, if_true,
    Bool.false_eq_true, List.isEmpty_nil]
  rfl

theorem loadEff_own_bad (hheld : (s.core c).lsHeld (lsAddr (s.slot c k) f) w false = false)
    (hbad : (s.core c).badIn off (off + w) ≠ []) : loadEff c k f w s =
      some { s := s.ueMet 0 (some (s.slotDom c k)) skCore c (lineAddr (lsAddr (s.slot c k) f)), cycles := 6
             fault := some (.dataError (lineAddr (lsAddr (s.slot c k) f))) } := by
  simp only [loadEff, ha, hp, hheld, List.isEmpty_iff, hbad, ne_eq, not_true_eq_false, if_false, if_true, Bool.false_eq_true]

theorem storeEff_own (hheld : (s.core c).lsHeld (lsAddr (s.slot c k) f) w true = false) : storeEff c k f w s =
    some { s := (s.coreWrite c (bytesAt off (toLE w ((s.slot c k).reg f.rd.toNat).toNat))).1 } := by
  simp only [storeEff, ha, hp, hheld, ne_eq, not_true_eq_false, if_false, if_true, Bool.false_eq_true]

end

section
variable {off : Nat} (hp : s.place (lsAddr (s.slot c k) f) = .yard off)
include hp

theorem loadEff_yard (hok : s.yardOk (s.slotDom c k) off = true) (hcut : s.yardCut c off = false)
    (hbad : s.yardBadIn off (off + w) = []) (hweak : s.yardWeakIn off (off + w) = []) : loadEff c k f w s =
      some { s := s.setReg c k f.rd.toNat (BitVec.ofNat 64 (s.word (lsAddr (s.slot c k) f) w)), cycles := 14 } := by
  simp only [loadEff, ha, hp, hok, hcut, hbad, State.yardRead_of_weakIn_nil hweak, ne_eq, not_true_eq_false, if_false, if_true,
    Bool.false_eq_true, Bool.not_true, List.isEmpty_nil]
  rfl

theorem loadEff_yard_refused (hok : s.yardOk (s.slotDom c k) off = false) : loadEff c k f w s =
    some { s := (s.yardRefused c k (lsAddr (s.slot c k) f)).setReg c k f.rd.toNat 0 } := by
  simp only [loadEff, ha, hp, hok, ne_eq, not_true_eq_false, if_false, if_true, Bool.not_false]

theorem loadEff_yard_cut (hok : s.yardOk (s.slotDom c k) off = true) (hcut : s.yardCut c off = true) :
    loadEff c k f w s = some (lostWord (lsAddr (s.slot c k) f) s) := by
  simp only [loadEff, ha, hp, hok, hcut, ne_eq, not_true_eq_false, if_false, if_true, Bool.not_true, Bool.false_eq_true]

theorem loadEff_yard_bad (hok : s.yardOk (s.slotDom c k) off = true) (hcut : s.yardCut c off = false)
    (hbad : s.yardBadIn off (off + w) ≠ []) : loadEff c k f w s =
      some { s := s.ueMet 0 (some (s.slotDom c k)) skSlice (s.slice off) (lineAddr (lsAddr (s.slot c k) f)), cycles := 14
             fault := some (.dataError (lineAddr (lsAddr (s.slot c k) f))) } := by
  simp only [loadEff, ha, hp, hok, hcut, List.isEmpty_iff, hbad, ne_eq, not_true_eq_false, if_false, Bool.not_true, Bool.false_eq_true]

theorem storeEff_yard_refused (hok : s.yardOk (s.slotDom c k) off = false) : storeEff c k f w s =
    some { s := s.yardRefused c k (lsAddr (s.slot c k) f) } := by
  simp only [storeEff, ha, hp, hok, ne_eq, not_true_eq_false, if_false, if_true, Bool.not_false]

theorem storeEff_yard_cut (hok : s.yardOk (s.slotDom c k) off = true) (hcut : s.yardCut c off = true) :
    storeEff c k f w s = some (lostWord (lsAddr (s.slot c k) f) s) := by
  simp only [storeEff, ha, hp, hok, hcut, ne_eq, not_true_eq_false, if_false, if_true, Bool.not_true, Bool.false_eq_true]

theorem storeEff_yard (hok : s.yardOk (s.slotDom c k) off = true) (hcut : s.yardCut c off = false)
    (hmerged : (s.yardWrite (bytesAt off (toLE w ((s.slot c k).reg f.rd.toNat).toNat))).2 = []) : storeEff c k f w s =
      some { s := (s.yardWrite (bytesAt off (toLE w ((s.slot c k).reg f.rd.toNat).toNat))).1 } := by
  simp only [storeEff, ha, hp, hok, hcut, hmerged, ne_eq, not_true_eq_false, if_false, if_true, Bool.not_true, Bool.false_eq_true,
    List.isEmpty_nil]

theorem storeEff_yard_bad (hok : s.yardOk (s.slotDom c k) off = true) (hcut : s.yardCut c off = false)
    (hstuck : (s.yardWrite (bytesAt off (toLE w ((s.slot c k).reg f.rd.toNat).toNat))).2 ≠ []) : storeEff c k f w s =
      some { s := (s.yardWrite (bytesAt off (toLE w ((s.slot c k).reg f.rd.toNat).toNat))).1.ueMet 0 (some (s.slotDom c k)) skSlice
               (s.slice off) (lineAddr (lsAddr (s.slot c k) f))
             fault := some (.dataError (lineAddr (lsAddr (s.slot c k) f))) } := by
  simp only [storeEff, ha, hp, hok, hcut, List.isEmpty_iff, hstuck, ne_eq, not_true_eq_false, if_false, Bool.not_true,
    Bool.false_eq_true]

end

end

/-! ### Remote words at issue (R162) -/

section
variable {f : SFields} {w opc : Nat} {o : Out}

/-- The word that a load or a store of another core's memory puts onto the mesh. -/
def State.remoteWordOf (s : State) (c k : Nat) (t a w v : Nat) (wr : Bool) (reg : Nat) : RWord :=
  { src := c, slot := k, uid := (s.slot c k).uid.getD 0, cseq := (s.slot c k).cseq, tgt := t, addr := a, write := wr, width := w, val := v
    reg := reg, left := 0, laddr := 0 }

theorem load_remote_issues (ho : o = issueShort c k opc f false [f.ra.toNat] [f.rd.toNat] (loadEff c k f w) s)
    (h : s.issues c k opc f [f.ra.toNat] [f.rd.toNat] = true) (ha : lsAddr (s.slot c k) f % w = 0) {t off : Nat}
    (hp : s.place (lsAddr (s.slot c k) f) = .core t off) (ht : t ≠ c) (hfree : (s.slot c k).remote = none) :
    ∃ u, o = .next u ∧ u.mesh = s.mesh ++ [s.remoteWordOf c k t (lsAddr (s.slot c k) f) w 0 false f.rd.toNat]
      ∧ (u.slot c k).remote = some f.rd.toNat
      ∧ SlotIssued (s.slot c k) (u.slot c k) (fun n => ⟨n, opc, 0, false, 1, [], none, .none⟩) ((s.slot c k).pc + 8) (s.slot c k).cy []
      ∧ (∀ b, u.rd b = s.rd b) ∧ (∀ c' k', c' ≠ c ∨ k' ≠ k → u.slot c' k' = s.slot c' k')
      ∧ { u with cores := s.cores, mesh := s.mesh } = s := by
  have htabs := State.tabs_of_issues h
  let v : State := { s with mesh := s.mesh ++ [s.remoteWordOf c k t (lsAddr (s.slot c k) f) w 0 false f.rd.toNat] }
  have he : loadEff c k f w s = some { s := v.updSlot c k fun x => { x with remote := some f.rd.toNat }, complete := false } := by
    simp only [loadEff, ha, hp, ht, hfree, ne_eq, not_true_eq_false, if_false, Option.isSome_none, Bool.false_eq_true]
    rfl
  obtain ⟨hslot, honly⟩ := Eff.issued_spec (s := v) htabs (fun x => { x with remote := some f.rd.toNat }) 1 [] none .none false none opc
  have hrest := State.eq_of_cores_eq honly.rest
  refine ⟨_, ho.trans (issueShort_issues h rfl he), by rw [hrest], (congrArg Slot.remote hslot).trans rfl,
    slotIssued_updSlot (s := v) htabs (fun _ _ => rfl) rfl rfl rfl rfl opc 1 [] none .none false none, honly.mem, honly.slots,
    by rw [hrest]⟩

theorem store_remote_issues (ho : o = issueShort c k opc f false [f.ra.toNat, f.rd.toNat] [] (storeEff c k f w) s)
    (h : s.issues c k opc f [f.ra.toNat, f.rd.toNat] [] = true) (ha : lsAddr (s.slot c k) f % w = 0) {t off : Nat}
    (hp : s.place (lsAddr (s.slot c k) f) = .core t off) (ht : t ≠ c) :
    ∃ u, o = .next u ∧ Issued { s with mesh := s.mesh ++ [s.remoteWordOf c k t (lsAddr (s.slot c k) f) w
        (((s.slot c k).reg f.rd.toNat).toNat % 2 ^ (8 * w)) true 0] } u c k
      (fun n => ⟨n, opc, 0, false, 1, [], none, .none⟩) ((s.slot c k).pc + 8) (s.slot c k).cy [] := by
  have he : storeEff c k f w s = some { s := { s with mesh := s.mesh ++ [s.remoteWordOf c k t (lsAddr (s.slot c k) f) w
      (((s.slot c k).reg f.rd.toNat).toNat % 2 ^ (8 * w)) true 0] }, complete := false } := by
    simp only [storeEff, ha, hp, ht, ne_eq, not_true_eq_false, if_false]
    rfl
  exact issueShort_cores ho h rfl he rfl

/-! ### The three groups of rows -/

/-- A load of the slot's own core or of a granule of its domain that meets no error (R155, R170). -/
theorem load_issues (ho : o = issueShort c k opc f false [f.ra.toNat] [f.rd.toNat] (loadEff c k f w) s)
    (h : s.issues c k opc f [f.ra.toNat] [f.rd.toNat] = true) {cy : Nat}
    (he : loadEff c k f w s = some { s := s.setReg c k f.rd.toNat (BitVec.ofNat 64 (s.word (lsAddr (s.slot c k) f) w)), cycles := cy }) :
    ∃ t, o = .next t ∧ (t.slot c k).reg f.rd.toNat = BitVec.ofNat 64 (s.word (lsAddr (s.slot c k) f) w)
      ∧ Issued s t c k (plainEntry opc cy [] .none) ((s.slot c k).pc + 8) (s.slot c k).cy [f.rd.toNat] :=
  issueShort_cores_setReg ho h rfl he rfl

/-- What an aligned store leaves that is not remote and meets no error. -/
theorem store_issues (ho : o = issueShort c k opc f false [f.ra.toNat, f.rd.toNat] [] (storeEff c k f w) s)
    (h : s.issues c k opc f [f.ra.toNat, f.rd.toNat] [] = true) {u : State} (he : storeEff c k f w s = some { s := u })
    (htabs : u.slotTabs c k = true) (hslots : ∀ c' k', u.slot c' k' = s.slot c' k')
    (hrest : { u with cores := s.cores, yard := s.yard } = s) {v : Nat}
    (hrd : ∀ b, u.rd b = if lsAddr (s.slot c k) f ≤ b ∧ b < lsAddr (s.slot c k) f + w then v / 256 ^ (b - lsAddr (s.slot c k) f) % 256
      else s.rd b) :
    ∃ t, o = .next t
      ∧ (∀ i, i < w → t.rd (lsAddr (s.slot c k) f + i) = v / 256 ^ i % 256)
      ∧ (∀ b, b < lsAddr (s.slot c k) f ∨ lsAddr (s.slot c k) f + w ≤ b → t.rd b = s.rd b)
      ∧ SlotIssued (s.slot c k) (t.slot c k) (plainEntry opc 1 [] .none) ((s.slot c k).pc + 8) (s.slot c k).cy []
      ∧ (s.slot c k).keeps (t.slot c k)
      ∧ (∀ c' k', c' ≠ c ∨ k' ≠ k → t.slot c' k' = s.slot c' k')
      ∧ { t with cores := s.cores, yard := s.yard } = s := by
  obtain ⟨t, ht, hiss⟩ := issueShort_effect ho h rfl he htabs (hslots c k)
  have hnow := hiss.now
  have hkeeps := hiss.slot
  rw [hslots] at hnow hkeeps
  refine ⟨t, ht, fun i hi => ?_, fun b hb => ?_, hnow, hkeeps, fun c' k' hne => (hiss.only.slots c' k' hne).trans (hslots c' k'), ?_⟩
  · rw [hiss.only.mem, hrd, if_pos (by omega), Nat.add_sub_cancel_left]
  · rw [hiss.only.mem, hrd, if_neg (by omega)]
  · rw [State.eq_of_cores_eq hiss.only.rest]
    exact hrest

/-- A store to the slot's own core, or to a granule of its domain, that is merged whole. -/
theorem store_own_issues (ho : o = issueShort c k opc f false [f.ra.toNat, f.rd.toNat] [] (storeEff c k f w) s) (hw : w = 4 ∨ w = 8)
    (h : s.issues c k opc f [f.ra.toNat, f.rd.toNat] [] = true) (ha : lsAddr (s.slot c k) f % w = 0) (hmem : s.memsOk = true)
    (hp : (∃ off, s.place (lsAddr (s.slot c k) f) = .core c off ∧ (s.core c).lsHeld (lsAddr (s.slot c k) f) w true = false)
      ∨ (∃ off, s.place (lsAddr (s.slot c k) f) = .yard off ∧ s.yardOk (s.slotDom c k) off = true ∧ s.yardCut c off = false
        ∧ s.yardBadIn off (off + w) = [])) :
    ∃ t, o = .next t
      ∧ (∀ i, i < w → t.rd (lsAddr (s.slot c k) f + i) = ((s.slot c k).reg f.rd.toNat).toNat / 256 ^ i % 256)
      ∧ (∀ b, b < lsAddr (s.slot c k) f ∨ lsAddr (s.slot c k) f + w ≤ b → t.rd b = s.rd b)
      ∧ SlotIssued (s.slot c k) (t.slot c k) (plainEntry opc 1 [] .none) ((s.slot c k).pc + 8) (s.slot c k).cy []
      ∧ (s.slot c k).keeps (t.slot c k)
      ∧ (∀ c' k', c' ≠ c ∨ k' ≠ k → t.slot c' k' = s.slot c' k')
      ∧ { t with cores := s.cores, yard := s.yard } = s := by
  have htabs := State.tabs_of_issues h
  obtain ⟨h1, -⟩ := State.slotTabs_iff.1 htabs
  have hcb : coreBytes = 786432 := rfl
  have hyb : yardBase = 0x100000000 := rfl
  obtain ⟨off, hp, hheld⟩ | ⟨off, hp, hok, hcut, hbad⟩ := hp
  · obtain ⟨hoff, hlt, -⟩ := State.place_eq_core_iff.1 hp
    rw [coreBase] at hoff
    have hfit : 4 ∣ w ∧ 4 ∣ off ∧ off + w ≤ coreBytes := by obtain rfl | rfl := hw <;> omega
    exact store_issues ho h (storeEff_own ha hp hheld) (State.slotTabs_coreWrite htabs _)
      (fun c' k' => State.slot_coreWrite h1 c c' k' _) rfl
      (State.rd_coreWrite_toLE hmem hp hfit.1 hfit.2.1 hfit.2.2)
  · obtain ⟨hoff, hlt⟩ := State.place_eq_yard_iff.1 hp
    have hmerged : (s.yardWrite (bytesAt off (toLE w ((s.slot c k).reg f.rd.toNat).toNat))).2 = [] :=
      (writeChecked_of_unitsIn_nil (m := s.yard.mem) (by decide) (by rwa [length_toLE])).2
    exact store_issues ho h (storeEff_yard ha hp hok hcut hmerged) htabs (fun _ _ => rfl) rfl
      (State.rd_yardWrite_toLE hmem hp hbad (by obtain rfl | rfl := hw <;> omega))

end

/-! ### The obligation -/

/-- Settles O8: each form of a load or a store is one branch of its effect at issue. -/
theorem loadsAndStores : Obligations.LoadsAndStores := by
  refine ⟨?loads, ?stores, ?others⟩
  case loads =>
    intro s c k f x a
    simp only [List.forall_mem_cons, List.not_mem_nil, false_imp_iff, implies_true, and_true]
    refine ⟨?ld32, ?ld64⟩
    case ld32 | ld64 =>
      exact fun h ha => ⟨fun off hp hheld hbad hweak => load_issues (by rfl) h (loadEff_own ha hp hheld hbad hweak),
        fun off hp hok hcut hbad hweak => load_issues (by rfl) h (loadEff_yard ha hp hok hcut hbad hweak)⟩
  case stores =>
    intro s c k f x a v
    simp only [List.forall_mem_cons, List.not_mem_nil, false_imp_iff, implies_true, and_true]
    exact ⟨store_own_issues (o := execSt32 c k f s) rfl (.inl rfl), store_own_issues (o := execSt64 c k f s) rfl (.inr rfl)⟩
  case others =>
    intro s c k f x a d rd nowhere lost refused failed waits word
    simp only [List.forall_mem_cons, List.not_mem_nil, false_imp_iff, implies_true, and_true]
    refine ⟨⟨?ld32, ?ld64⟩, ?st32, ?st64⟩
    case ld32 | ld64 =>
      intro h
      refine ⟨fun hn => issueShort_cores_setReg (by rfl) h rfl (loadEff_of_unreached hn) (State.recordN_cores ..),
        fun ha off hp => ⟨fun hok => ?_, fun hok hcut => issueShort_cores (by rfl) h rfl (loadEff_yard_cut ha hp hok hcut) rfl, fun hok hcut hbad => ?_⟩,
        fun ha off hp hheld hbad => ?_, fun ha t off hp ht hfree => ?_⟩
      · exact issueShort_cores_setReg (by rfl) h rfl (loadEff_yard_refused ha hp hok) (State.recordN_cores ..)
      · exact issueShort_cores (by rfl) h rfl (loadEff_yard_bad ha hp hok hcut hbad) (State.ueMet_cores ..)
      · exact issueShort_cores (by rfl) h rfl (loadEff_own_bad ha hp hheld hbad) (State.ueMet_cores ..)
      · exact load_remote_issues (by rfl) h ha hp ht hfree
    case st32 | st64 =>
      intro h
      refine ⟨fun hn => issueShort_cores (by rfl) h rfl (storeEff_of_unreached hn) (State.recordN_cores ..),
        fun ha off hp => ⟨fun hok => ?_, fun hok hcut => issueShort_cores (by rfl) h rfl (storeEff_yard_cut ha hp hok hcut) rfl, fun hok hcut hstuck => ?_⟩,
        fun ha t off hp ht => ?_⟩
      · exact issueShort_cores (by rfl) h rfl (storeEff_yard_refused ha hp hok) (State.recordN_cores ..)
      · exact issueShort_cores (by rfl) h rfl (storeEff_yard_bad ha hp hok hcut hstuck) (State.ueMet_cores ..)
      · exact store_remote_issues (by rfl) h ha hp ht

end Sys2Proof.Machine
end

/-! ## O11: tally instructions, and operations that take effect together (R229 to R231, R233, R448) -/

section
namespace Sys2Proof.Machine

variable {s : State} {c k : Nat} {f : SFields}

/-! ### TADD and TSET -/

theorem State.tallyRefuse_cores (s : State) (d n : Nat) : (s.tallyRefuse d n).cores = s.cores := record_cores ..

/-- What becomes of an operation that a unit issues (R233, R442). -/
theorem State.tallyIssue_eq (s : State) (op : TOp) : s.tallyIssue op =
    if s.tallyLost op = true then s
    else if op.tally < tallies ∧ s.ownsTally op.dom op.tally = true then { s with tly := { s.tly with ops := s.tly.ops ++ [op] } }
    else s.tallyRefuse op.dom op.tally := by
  simp only [tallyIssue, Bool.and_eq_true, decide_eq_true_eq]

theorem State.tallyIssue_cores (s : State) (op : TOp) : (s.tallyIssue op).cores = s.cores := by
  rw [tallyIssue_eq]
  split_ifs
  · rfl
  · rfl
  · exact tallyRefuse_cores ..

/-- TADD or TSET that issues: its operation is on its way, and its slot goes on. -/
theorem tallyOp_issues {opc : Nat} {isSet : Bool} (h : s.issues c k opc f (srcRegs f) [] = true) :
    let op : TOp := ⟨(srcA (s.slot c k) f).toNat, isSet, (srcB (s.slot c k) f).toNat % 2 ^ 32, s.slotDom c k, (s.slot c k).uid,
      (s.slot c k).cseq⟩
    ∃ t, tallyOp c k opc isSet f s = .next t
      ∧ SlotIssued (s.slot c k) (t.slot c k) (plainEntry opc 1 [] .none) ((s.slot c k).pc + 8) (s.slot c k).cy []
      ∧ { t with cores := s.cores } = if s.tallyLost op = true then s
        else if op.tally < tallies ∧ s.ownsTally op.dom op.tally = true then { s with tly := { s.tly with ops := s.tly.ops ++ [op] } }
        else s.tallyRefuse op.dom op.tally := by
  intro op
  have hcores := s.tallyIssue_cores op
  obtain ⟨t, ht, hiss⟩ := issueShort_cores (o := tallyOp c k opc isSet f s) (u := s.tallyIssue op) rfl h rfl rfl hcores
  have hnow := hiss.now
  rw [State.slot_congr hcores] at hnow
  exact ⟨t, ht, hnow, (hcores ▸ hiss.only.rest).trans (s.tallyIssue_eq op)⟩

/-! ### TWAIT and the end of a wait -/

theorem State.waitRefused_iff {d n : Nat} :
    s.waitRefused d n = true ↔ ¬ (n < tallies ∧ s.ownsTally d n = true) ∨ s.tallyFailed n = true := by
  simp only [waitRefused, Bool.or_eq_true, Bool.not_eq_true', Bool.and_eq_false_iff, decide_eq_false_iff_not, not_and_or, Bool.not_eq_true]

/-- A wait that is not refused is met by the value of its tally alone. -/
theorem State.not_refused_and_waitMet (d n v : Nat) (b : Bool) :
    (!s.waitRefused d n && s.waitMet n v && b) = (!s.waitRefused d n && decide (v ≤ s.tallyVal n) && b) := by
  cases hf : s.tallyFailed n <;> simp [waitRefused, waitMet, hf]

theorem execTwait_issues (h : s.issues c k 0x2A f (srcRegs f) [] = true) :
    let x := s.slot c k
    let n := (srcA x f).toNat
    let v := (srcB x f).toNat % 2 ^ 32
    let refused := s.waitRefused (s.slotDom c k) n
    ∃ t, execTwait c k f s = .next t ∧ (t.slot c k).wait =
        some ⟨x.cseq, n, v, refused, !refused && decide (v ≤ s.tallyVal n) && !s.ownPending (x.uid.getD 0) n x.cseq⟩
      ∧ (t.slot c k).cseq = x.cseq + 1
      ∧ { t with cores := s.cores } = (if refused = true then s.tallyRefuse (s.slotDom c k) n else s) := by
  intro x n v refused
  generalize hu : (if refused = true then s.tallyRefuse (s.slotDom c k) n else s) = u
  have hcores : u.cores = s.cores := by
    rw [← hu]
    split_ifs
    · exact State.tallyRefuse_cores ..
    · rfl
  have htabs : u.slotTabs c k = true := (State.slotTabs_congr hcores).trans (State.tabs_of_issues h)
  let w : WaitSt := ⟨x.cseq, n, v, refused, !refused && s.waitMet n v && !s.ownPending (x.uid.getD 0) n x.cseq⟩
  have hexec : execTwait c k f s =
      .next (Eff.issued { s := u.updSlot c k fun y => { y with wait := some w }, complete := false } c k 0x2A) :=
    issueShort_issues h rfl (by rw [← hu])
  obtain ⟨hslot, honly⟩ := Eff.issued_spec htabs (fun y => { y with wait := some w }) 1 [] none .none false none 0x2A
  rw [State.slot_congr hcores] at hslot
  refine ⟨_, hexec, (congrArg Slot.wait hslot).trans ?_, (congrArg Slot.cseq hslot).trans rfl, hcores ▸ honly.rest⟩
  rw [← State.not_refused_and_waitMet]

/-- A wait that has been met completes. -/
theorem execWaitComplete_of_met {w : WaitSt} {uid : Nat} (hs : s.hasSlot c k = true) (htabs : s.slotTabs c k = true)
    (hw : (s.slot c k).wait = some w) (hu : (s.slot c k).uid = some uid) (hsat : w.sat = true) (href : w.refused = false) :
    ∃ t, execWaitComplete c k s = .next t ∧ (t.slot c k).wait = none
      ∧ (t.slot c k).ret = (s.slot c k).ret.map (fun e => if e.cseq = w.cseq then { e with complete := true } else e)
      ∧ { t with cores := s.cores } = s := by
  obtain ⟨h1, h2, -⟩ := State.slotTabs_iff.1 htabs
  have hexec : execWaitComplete c k s = .next ((s.updSlot c k fun y => { y with wait := none }).complete c k uid w.cseq none) := by
    simp only [execWaitComplete, hs, hw, hu, hsat, href, Bool.not_true, Bool.not_false, Bool.and_self, Bool.false_eq_true, if_false, if_true]
  refine ⟨_, hexec, ?_, ?_, rfl⟩
  all_goals rw [State.complete, State.updSlot_updSlot htabs, State.slot_updSlot h1 _ _ _ _ _ h2, if_pos ⟨rfl, rfl⟩, if_pos hu]
  rfl

theorem execWaitComplete_of_unmet {w : WaitSt} {uid : Nat} (hs : s.hasSlot c k = true) (hw : (s.slot c k).wait = some w)
    (hu : (s.slot c k).uid = some uid) (h : w.sat = false ∨ w.refused = true) : execWaitComplete c k s = .next s := by
  have hno : (w.sat && !w.refused) = false := by
    rw [Bool.and_eq_false_iff, Bool.not_eq_false']
    exact h
  simp only [execWaitComplete, hs, hw, hu, hno, Bool.not_true, Bool.false_eq_true, if_false]

/-! ### The value that operations leave together (R230, R231) -/

theorem foldl_max_eq {l : List Nat} {m a : Nat} (hm : m ∈ l) (hmax : ∀ x ∈ l, x ≤ m) (ha : a ≤ m) : l.foldl max a = m := by
  induction l generalizing a with
  | nil => simp at hm
  | cons x l ih =>
    have hx : x ≤ m := hmax x (by simp)
    rw [List.foldl_cons]
    rcases List.mem_cons.1 hm with rfl | hml
    · by_cases hml : m ∈ l
      · exact ih hml (fun y hy => hmax y (by simp [hy])) (by omega)
      · have hfix : ∀ l : List Nat, (∀ y ∈ l, y ≤ m) → l.foldl max m = m := fun l hl => by
          induction l with
          | nil => rfl
          | cons y l ih => rw [List.foldl_cons, max_eq_left (hl y (by simp)), ih fun z hz => hl z (by simp [hz])]
        rw [max_eq_right ha]
        exact hfix l fun y hy => hmax y (by simp [hy])
    · exact ih hml (fun y hy => hmax y (by simp [hy])) (by omega)

theorem tallyNew_eq (v : Nat) (l : List TOp) : tallyNew v l =
    let sets := (l.filter (·.isSet)).map (·.n)
    let total := (if sets = [] then v else sets.foldl max 0) + ((l.filter fun o => !o.isSet).map (·.n)).sum
    (min total 0xFFFFFFFF, decide (0xFFFFFFFF < total)) := by
  rw [tallyNew, List.sum_eq_foldl]
  rfl

/-- The order in which operations stand does not matter. -/
theorem tallyNew_perm {l m : List TOp} (h : l.Perm m) (v : Nat) : tallyNew v l = tallyNew v m := by
  have hsets : ((l.filter (·.isSet)).map (·.n)).Perm ((m.filter (·.isSet)).map (·.n)) := (h.filter _).map _
  have hadds : ((l.filter fun o => !o.isSet).map (·.n)).sum = ((m.filter fun o => !o.isSet).map (·.n)).sum :=
    ((h.filter _).map _).sum_eq
  have hmax : ((l.filter (·.isSet)).map (·.n)).foldl max 0 = ((m.filter (·.isSet)).map (·.n)).foldl max 0 :=
    hsets.foldl_eq 0
  have hnil : ((l.filter (·.isSet)).map (·.n)) = [] ↔ ((m.filter (·.isSet)).map (·.n)) = [] :=
    ⟨fun e => (e ▸ hsets).nil_eq.symm, fun e => (e ▸ hsets).eq_nil⟩
  simp only [tallyNew_eq, hadds, hmax, hnil]

theorem tallyNew_of_no_set {v : Nat} {l : List TOp} (h : l.filter (·.isSet) = []) :
    (tallyNew v l).1 = min (v + ((l.filter fun o => !o.isSet).map (·.n)).sum) 0xFFFFFFFF
      ∧ ((tallyNew v l).2 = true ↔ 0xFFFFFFFF < v + ((l.filter fun o => !o.isSet).map (·.n)).sum) := by
  simp only [tallyNew_eq, h, List.map_nil, if_true, decide_eq_true_eq, and_self]

theorem tallyNew_of_largest_set {v : Nat} {l : List TOp} {o : TOp} (ho : o ∈ l.filter (·.isSet))
    (hmax : ∀ p ∈ l.filter (·.isSet), p.n ≤ o.n) :
    (tallyNew v l).1 = min (o.n + ((l.filter fun o => !o.isSet).map (·.n)).sum) 0xFFFFFFFF
      ∧ ((tallyNew v l).2 = true ↔ 0xFFFFFFFF < o.n + ((l.filter fun o => !o.isSet).map (·.n)).sum) := by
  have hne : (l.filter (·.isSet)).map (·.n) ≠ [] := List.ne_nil_of_mem (List.mem_map_of_mem ho)
  have hfold : ((l.filter (·.isSet)).map (·.n)).foldl max 0 = o.n :=
    foldl_max_eq (List.mem_map_of_mem ho) (fun x hx => by
      obtain ⟨p, hp, rfl⟩ := List.mem_map.1 hx
      exact hmax p hp) (Nat.zero_le _)
  simp only [tallyNew_eq, if_neg hne, hfold, decide_eq_true_eq, and_self]

/-! ### The operations that reach a tally in one cycle (R231) -/

section
variable {n : Nat} {us : List Nat} {l : List TOp}

theorem length_pickOps_le : (pickOps s k n us l).length ≤ n := by
  induction l generalizing n us with
  | nil => cases n <;> simp [pickOps]
  | cons o l ih =>
    cases n with
    | zero => simp [pickOps]
    | succ n =>
      rw [pickOps]
      split_ifs
      · exact ih
      · exact ih
      · exact Nat.succ_le_succ ih

theorem pickOps_sublist : (pickOps s k n us l).Sublist l := by
  induction l generalizing n us with
  | nil => cases n <;> simp [pickOps]
  | cons o l ih =>
    cases n with
    | zero => simp [pickOps]
    | succ n =>
      rw [pickOps]
      split_ifs
      · exact ih.cons o
      · exact ih.cons o
      · exact ih.cons_cons o

/-- An operation that is picked is one of the tally that may take effect, and the first of its task there. -/
theorem spec_of_mem_pickOps {o : TOp} (h : o ∈ pickOps s k n us l) : o.tally = k ∧ s.opFree o = true
    ∧ ∀ u, o.uid = some u → u ∉ us ∧ l.find? (fun p => p.uid == some u && p.tally == k) = some o := by
  induction l generalizing n us with
  | nil => cases n <;> simp [pickOps] at h
  | cons p l ih =>
    cases n with
    | zero => simp [pickOps] at h
    | succ n =>
      have skip : ∀ {us' : List Nat} {m : Nat}, o ∈ pickOps s k m us' l → (∀ u, u ∉ us' → u ∉ us) →
          (∀ u, u ∉ us' → ¬ (p.uid = some u ∧ p.tally = k)) → o.tally = k ∧ s.opFree o = true
          ∧ ∀ u, o.uid = some u → u ∉ us ∧ (p :: l).find? (fun p => p.uid == some u && p.tally == k) = some o := by
        intro us' m hm hsub hp
        obtain ⟨h1, h2, h3⟩ := ih hm
        refine ⟨h1, h2, fun u hu => ⟨hsub u (h3 u hu).1, ?_⟩⟩
        rw [List.find?_cons_of_neg (by simpa using hp u (h3 u hu).1)]
        exact (h3 u hu).2
      rw [pickOps] at h
      cases hp : p.uid with
      | none =>
        simp only [hp, Bool.false_or] at h
        split_ifs at h with h1 h2
        · exact skip h (fun _ hu => hu) (by simp [hp])
        · exact skip h (fun _ hu => hu) (by simp [hp])
        · rcases List.mem_cons.1 h with rfl | h
          · exact ⟨not_not.1 h1, by simpa using h2, by simp [hp]⟩
          · exact skip h (fun _ hu => hu) (by simp [hp])
      | some v =>
        simp only [hp] at h
        split_ifs at h with h1 h2
        · exact skip h (fun _ hu => hu) (fun u _ he => h1 he.2)
        · exact skip h (fun _ hu => fun hm => hu (by simp [hm])) (fun u hu he => hu (by simp_all))
        · rcases List.mem_cons.1 h with rfl | h
          · simp only [Bool.or_eq_true, List.contains_iff_mem, Bool.not_eq_true', not_or, Bool.not_eq_false] at h2
            refine ⟨not_not.1 h1, h2.2, fun u hu => ?_⟩
            obtain rfl : v = u := by simpa [hp] using hu
            exact ⟨h2.1, List.find?_cons_of_pos (by simp [hp, not_not.1 h1])⟩
          · exact skip h (fun _ hu => fun hm => hu (by simp [hm])) (fun u hu he => hu (by simp_all))

/-- An operation of no task is passed over only where others are picked. -/
theorem pickOps_ne_nil (hn : 0 < n) (h : ∃ o ∈ l, o.tally = k ∧ o.uid = none) : pickOps s k n us l ≠ [] := by
  obtain ⟨n, rfl⟩ := Nat.exists_eq_succ_of_ne_zero hn.ne'
  induction l generalizing us with
  | nil => simp at h
  | cons p l ih =>
    obtain ⟨o, ho, hk, hu⟩ := h
    rw [pickOps]
    split_ifs with h1 h2
    · rcases List.mem_cons.1 ho with rfl | ho
      · exact absurd hk h1
      · exact ih ⟨o, ho, hk, hu⟩
    · rcases List.mem_cons.1 ho with rfl | ho
      · simp [hu, State.opFree] at h2
      · exact ih ⟨o, ho, hk, hu⟩
    · exact List.cons_ne_nil _ _

end

/-- No operation is lost and none is taken twice. -/
theorem perm_append_dropOps {l ops : List TOp} (h : ops.Sublist l) : l.Perm (ops ++ dropOps l ops) := by
  have hdiff : dropOps l ops = l.diff ops := (List.diff_eq_foldl l ops).symm
  rw [hdiff]
  exact (List.subperm_append_diff_self_of_count_le fun o _ => h.count_le o).symm

/-! ### The effect at a tally -/

section
variable {n : Nat} (hk : k < tallies)
include hk

theorem execTallyOpEffect_of_none (h : pickOps s k n [] s.tly.ops = []) : execTallyOpEffect k n s = .next s := by
  simp only [execTallyOpEffect, hk, h, decide_true, Bool.not_true, Bool.false_eq_true, if_false, List.isEmpty_nil, if_true]

/-- Operations that are taken together: the tally has their value, and every wait and trigger on it is tested. -/
theorem execTallyOpEffect_of_taken {ops : List TOp} (hops : pickOps s k n [] s.tly.ops = ops) (hne : ops ≠ [])
    (hok : s.tallyFailed k = false ∨ ∃ o ∈ ops, o.isSet = true) {r : Nat × Bool} (hr : tallyNew (s.tallyVal k) ops = r) :
    let u : State := { s with tly := { s.tly with
      ops := dropOps s.tly.ops ops
      failed := s.tly.failed.filter (· ≠ k)
      val := Tab.set 0 s.tly.val k r.1
      satCnt := if r.2 = true then satAdd 32 s.tly.satCnt 1 else s.tly.satCnt } }
    execTallyOpEffect k n s = .next
      ((if r.2 = true then u.record 3 2 (ops.head?.map (·.dom)) 7 0 (tallyAddr k % 2 ^ 48) k else u).testWaits k) := by
  have hgood : (({ s with tly := { s.tly with ops := dropOps s.tly.ops ops } } : State).tallyFailed k && !ops.any (·.isSet)) = false := by
    obtain hf | ⟨o, ho, hs⟩ := hok
    · exact Bool.and_eq_false_iff.2 (.inl hf)
    · rw [List.any_eq_true.2 ⟨o, ho, hs⟩, Bool.not_true, Bool.and_false]
  simp only [State.tallyVal] at hr
  simp only [execTallyOpEffect, hk, hops, List.isEmpty_iff, hne, hgood, State.tallyVal, hr, decide_true, Bool.not_true, Bool.false_eq_true,
    if_false]
  obtain ⟨v, b⟩ := r
  cases b <;> rfl

omit hk in
theorem foldl_tallyRefuse_val (ops : List TOp) (t : State) :
    (ops.foldl (fun (t : State) o => t.tallyRefuse o.dom k) t).tly.val = t.tly.val := by
  induction ops generalizing t with
  | nil => rfl
  | cons o ops ih =>
    rw [List.foldl_cons, ih, State.tallyRefuse, State.record, State.recordN]
    split_ifs <;> rfl

/-- Operations on a failed tally without a SET among them are refused one by one, and the value stays. -/
theorem execTallyOpEffect_of_failed {ops : List TOp} (hops : pickOps s k n [] s.tly.ops = ops) (hne : ops ≠ []) (hf : s.tallyFailed k = true)
    (hadd : ∀ o ∈ ops, o.isSet = false) (hv : s.tallyVal k < 2 ^ 32) (hwf : Tab.wf 0 s.tly.val = true) :
    execTallyOpEffect k n s = .next ((ops.foldl (fun (t : State) o => t.tallyRefuse o.dom k)
      { s with tly := { s.tly with ops := dropOps s.tly.ops ops } }).testWaits k) := by
  have hbad : (({ s with tly := { s.tly with ops := dropOps s.tly.ops ops } } : State).tallyFailed k && !ops.any (·.isSet)) = true := by
    have hany : ops.any (·.isSet) = false := List.any_eq_false.2 fun o ho => by simp [hadd o ho]
    rw [hany, Bool.not_false, Bool.and_true]
    exact hf
  simp only [execTallyOpEffect, hk, hops, List.isEmpty_iff, hne, hbad, decide_true, Bool.not_true, Bool.false_eq_true, if_false, if_true]
  have hval := foldl_tallyRefuse_val (k := k) ops { s with tly := { s.tly with ops := dropOps s.tly.ops ops } }
  generalize ops.foldl (fun (t : State) o => t.tallyRefuse o.dom k) { s with tly := { s.tly with ops := dropOps s.tly.ops ops } } = u at *
  have huv : u.tallyVal k = s.tallyVal k := by rw [State.tallyVal, hval, State.tallyVal]
  have hnew : tallyNew (u.tallyVal k) [] = (u.tallyVal k, false) := by
    rw [huv, tallyNew_eq]
    simp only [List.filter_nil, List.map_nil, if_true, List.sum_nil, Nat.add_zero]
    rw [min_eq_left (by omega), decide_eq_false (by omega)]
  have hset : Tab.set 0 u.tly.val k (u.tallyVal k) = u.tly.val := Tab.upd_self (f := fun x => x) (hval ▸ hwf) k rfl
  simp only [hnew, hset, Bool.false_eq_true, if_false]

end

/-! ### The test of waits and triggers -/

theorem Slot.testWait_default (k : Nat) (met : Nat → Bool) (late : Nat → Nat → Bool) : ({} : Slot).testWait k met late = {} := rfl

theorem Chan.testWait_default (k : Nat) (met : Nat → Bool) : ({} : Chan).testWait k met = {} := rfl

/-- A wait after the test of a tally. -/
theorem Slot.wait_testWait {x : Slot} {w : WaitSt} (hw : x.wait = some w) (k : Nat) (met : Nat → Bool) (late : Nat → Nat → Bool) :
    (x.testWait k met late).wait = some { w with
      sat := w.sat || (decide (w.tally = k) && !w.refused && met w.n && !late (x.uid.getD 0) w.cseq) } := by
  simp only [testWait, hw]
  split_ifs with h
  · obtain ⟨h1, h2, h3, h4⟩ := h
    simp only [h1, h2, h3, h4, decide_true, Bool.and_self, Bool.or_true]
  · have hno : (decide (w.tally = k) && !w.refused && met w.n && !late (x.uid.getD 0) w.cseq) = false := by
      simpa [and_assoc] using h
    rw [hno, Bool.or_false, hw]

theorem State.slot_testWaits (htabs : s.slotTabs c k = true) (n : Nat) :
    (s.testWaits n).slot c k = (s.slot c k).testWait n (fun m => s.waitMet n m) fun u m => s.ownPending u n m := by
  obtain ⟨h1, h2, -⟩ := slotTabs_iff.1 htabs
  have hcore := Tab.get_mapAll (d := ({} : Core)) (t := s.cores) (fun _ q => { q with
    slots := Tab.mapAll {} q.slots fun _ x => x.testWait n (fun m => s.waitMet n m) fun u m => s.ownPending u n m }) (fun _ => rfl) h1 c
  exact (congrArg (fun q : Core => q.slot k) hcore).trans
    (Tab.get_mapAll (d := ({} : Slot)) (fun _ x => x.testWait n (fun m => s.waitMet n m) fun u m => s.ownPending u n m) (fun _ => Slot.testWait_default ..) h2 k)

theorem State.task_testWaits {uid : Nat} {y : Task} (hy : s.task uid = some y) (n : Nat) :
    (s.testWaits n).task uid = some (y.testTrig n s.dt fun m => s.waitMet n m) := by
  have huid : ∀ t : Task, (t.testTrig n s.dt fun m => s.waitMet n m).uid = t.uid := fun t => by
    rw [Task.testTrig]
    split_ifs <;> rfl
  change (s.sched.tasks.map _).find? _ = _
  rw [List.find?_map]
  simp only [Function.comp_def, huid]
  change Option.map _ (s.task uid) = _
  rw [hy, Option.map_some]

/-! ### The obligation -/

/-- Settles O11: the instructions put an operation on its way or hold their slot; the operations that a tally takes together are a part of
those on their way, and their value rests on the set of them alone. -/
theorem tallyInstructionsAndOperations : Obligations.TallyInstructionsAndOperations := by
  refine ⟨?instructions, ?values, ?effect, ?tests⟩
  case instructions =>
    intro s c k f x n v d
    refine ⟨?ops, execTwait_issues, State.waitRefused_iff, rfl, fun w uid hs htabs hw hu => ⟨fun hsat href => ?met, fun h => ?unmet⟩⟩
    case ops =>
      simp only [List.forall_mem_cons, List.not_mem_nil, false_imp_iff, implies_true, and_true]
      exact ⟨fun h => tallyOp_issues h, fun h => tallyOp_issues h⟩
    case met => exact execWaitComplete_of_met hs htabs hw hu hsat href
    case unmet => exact execWaitComplete_of_unmet hs hw hu h
  case values =>
    intro v l m sets sum
    exact ⟨fun h => tallyNew_perm h v, tallyNew_of_no_set, fun o ho hmax => tallyNew_of_largest_set ho hmax⟩
  case effect =>
    intro s k n ops
    exact ⟨perm_append_dropOps pickOps_sublist, length_pickOps_le, fun o ho => ⟨(spec_of_mem_pickOps ho).1, (spec_of_mem_pickOps ho).2.1,
      fun u hu => ((spec_of_mem_pickOps ho).2.2 u hu).2⟩, pickOps_ne_nil, execTallyOpEffect_of_none,
      fun hk hne hok => execTallyOpEffect_of_taken hk rfl hne hok rfl,
      fun hk hne hf hadd hv hwf => execTallyOpEffect_of_failed hk rfl hne hf hadd hv hwf⟩
  case tests =>
    intro s k t
    refine ⟨fun c j w htabs hw => ?_, fun uid y hy => ?_, rfl, rfl⟩
    · rw [State.slot_testWaits htabs, Slot.wait_testWait hw]
      simp only [State.waitMet, Bool.and_assoc]
    · rw [State.task_testWaits hy, Task.testTrig]
      simp only [State.waitMet, Bool.and_eq_true, Bool.not_eq_true', decide_eq_true_eq]

end Sys2Proof.Machine
end

/-!
## The canonical form of memories and tables (O60)

The second claim of O60 assumes the form of the tables only. But an engine that starts a command stages the lines it reads, and what it
stages is a piece of its core's memory (`State.stageCmd`): where that memory lists a byte that reads as zero anyway, the staged bytes list
it too, and the table of staged bytes loses the form.
-/
section

namespace Sys2Proof.Machine

open Sys2Proof.Tests.Slice0 (tray aSlot lf hq)

/-- A VCOPY of one HQ32 element, from the start of core 0's memory to its place 0x1000. -/
def copyOfFirstWord : ECmd :=
  { uid := 1, slot := 0, cseq := 0, opc := 0x85, order := 0, f := lf, o0 := .tensor (TDesc.ofNat (hq 1)), o1 := .tensor (TDesc.ofNat (hq 0))
    o2 := .none, o3 := .none, preg := 0, g := [], sc := {}, refuse := false, reg := none, srcs := [] }

/-- A tray about to start that command. Core 0's memory lists its byte 0 with the value 0. -/
def trayWithListedZero : State :=
  { tray { mem := [(0, 0)], ve := { queue := [copyOfFirstWord] }, slots := [(0, aSlot)], grant := 4000 } with
    pending := [.engineCommandStart 0 .ve] }

/-- Whether an outcome is a next state whose tables are not all in canonical form. -/
def Out.losesForm : Out → Bool
  | .next t => !t.tabsOk
  | _ => false

theorem step_trayWithListedZero_losesForm :
    trayWithListedZero.tabsOk = true ∧ Out.losesForm (step trayWithListedZero) = true := by decide +kernel

/-- Refutes O60: the tables of `trayWithListedZero` are in canonical form, and after its step the bytes that engine VE has staged, which
list the zero byte of the memory they were read from, are not. -/
theorem not_stepsKeepMemoriesCanonical : ¬ Obligations.StepsKeepMemoriesCanonical := by
  rintro ⟨-, htabs, -⟩
  obtain ⟨hok, hlost⟩ := step_trayWithListedZero_losesForm
  cases hs : step trayWithListedZero with
  | next t => simp [hs, Out.losesForm, htabs _ t hok hs] at hlost
  | fault f => simp [hs, Out.losesForm] at hlost
  | refused r => simp [hs, Out.losesForm] at hlost

end Sys2Proof.Machine

end

/-!
## A step, and the state after reset (O57, O58)
-/
section

namespace Sys2Proof.Machine

variable {s : State}

theorem step_of_pending_cons {c : Instr} {rest : List Instr} : step { s with pending := c :: rest } = exec c { s with pending := rest } := rfl

/-- With nothing in the queue, a step is the idle one. -/
theorem step_of_pending_nil (h : s.pending = []) : step s = .next s.idle := by
  unfold step
  rw [h]

theorem State.idle_of_stopped (h : s.time.running = false) : s.idle = s.tickDie := by
  simp [idle, h]

theorem State.idle_of_running (h : s.time.running = true) : s.idle = s.tickDie.cycle := if_pos h

theorem State.tickDie_eq : s.tickDie = { s with boot := { s.boot with
    justReset := false, wdNow := if s.boot.inReset = true ∨ s.boot.step < 3 then s.boot.wdNow else s.boot.wdNow + 1 } } := by
  simp [tickDie]

/-- A timebase cycle: DT advances, and what it passes is frozen and flushed. -/
theorem State.cycle_eq : s.cycle = (match State.gridPassed { s with time := s.time.tick.settle } s.dt with
    | some p => (State.freezeAt { s with time := s.time.tick.settle } p.1 p.2).ringsFlush
    | none => State.ringsFlush { s with time := s.time.tick.settle }) := by
  cases h : State.gridPassed { s with time := s.time.tick.settle } s.dt with
  | none => simp only [cycle, h]
  | some p => simp only [cycle, h]

/-- Settles O57: `step` carries out the front command, or lets the die's clocks run. -/
theorem stepRunsTheFrontCommand : Obligations.StepRunsTheFrontCommand := by
  intro s
  refine ⟨fun c rest => step_of_pending_cons, fun hp ht => ?_, State.tickDie_eq, fun hp ht => ?_⟩
  · rw [step_of_pending_nil hp, State.idle_of_stopped ht]
  · rw [step_of_pending_nil hp, State.idle_of_running ht, State.cycle_eq]
    rfl

/-- After reset every byte reads zero: no memory lists one. -/
theorem State.rd_reset (a : Nat) : State.reset.rd a = 0 := by
  unfold rd
  split <;> rfl

/-- Settles O58: each part of the state after reset is at its default. -/
theorem resetLeavesTheTrayIdle : Obligations.ResetLeavesTheTrayIdle :=
  ⟨by decide, by decide, rfl, State.rd_reset, fun _ _ _ => rfl, fun _ => rfl, fun _ _ => ⟨rfl, rfl⟩, fun _ _ => rfl, fun _ => rfl,
    fun _ => rfl, rfl, rfl, rfl, rfl, rfl, rfl, rfl, rfl, rfl, rfl⟩

end Sys2Proof.Machine

end

/-!
## Well-formed commands (O59)

PCIE_COMPLETION_TIMEOUT of a ring's copy hands the argument of the ring's busy descriptor to JOB_LOAD_COMPLETE as a job's handle, which
faults for a handle that no job has. The claim assumes nothing of the state, so that argument may be any number.
-/
section

namespace Sys2Proof.Machine

open Sys2Proof.Tests.Slice0 (hcmd jobTray)

/-- A tray whose ring 15 of domain 15 loads a job of handle 256, which is one more than the last. -/
def trayLoadingJob256 : State := jobTray { hcmd 2 (0x10 * 2 ^ 312) 0 with st := .busy 256 } {}

/-- Whether an outcome is a next state. -/
def Out.completes : Out → Bool
  | .next _ => true
  | _ => false

theorem copyTimeout_trayLoadingJob256 :
    Out.completes (exec (.pcieCompletionTimeout (.copy 15 15)) trayLoadingJob256) = false := by decide +kernel

/-- Refutes O59: the timeout of the copy of ring 15 of domain 15 is well formed, and faults on `trayLoadingJob256`. -/
theorem not_wellFormedCommandsComplete : ¬ Obligations.WellFormedCommandsComplete := by
  intro h
  obtain ⟨t, ht⟩ := h (.pcieCompletionTimeout (.copy 15 15)) trayLoadingJob256 rfl
  have := copyTimeout_trayLoadingJob256
  simp [ht, Out.completes] at this

end Sys2Proof.Machine

end

/-!
## Instructions that decode refuses, and engine commands (O15, O14)

Decode answers every reserved field with one state, `State.decodeFault`; an engine command that passes stands in its queue.
-/
section

namespace Sys2Proof.Machine

variable {s : State} {c k opc : Nat}

/-! ### What decode refuses (R82, R254) -/

/-- A slot that can issue has no error in what it fetches, and its tables are in canonical form. -/
theorem State.atIssue_iff {w0 : Nat} {w1 : Option Nat} : s.atIssue c k w0 w1 = true ↔
    s.hasSlot c k = true ∧ s.ready c k = true ∧ s.fetch c k w0 w1 = .same ∧ s.fetchRead c k w0 w1 = s ∧ s.fetchClean c k w0 w1 = true
      ∧ (s.slot c k).cseq < 2 ^ 32 ∧ s.slotTabs c k = true := by
  simp only [atIssue, Bool.and_eq_true, decide_eq_true_eq, and_assoc]
  exact ⟨fun ⟨h1, h2, h3, h4, h⟩ => ⟨h1, h2, h3, fetchRead_of_clean h4, h4, h⟩, fun ⟨h1, h2, h3, _, h4, h⟩ => ⟨h1, h2, h3, h4, h⟩⟩

/-- A fault at decode stops issue, takes one CSEQ and changes nothing else. -/
theorem State.decodeFault_stops (h : s.slotTabs c k = true) :
    ((s.decodeFault c k opc).slot c k).stopIssue = true ∧ OnlySlot s (s.decodeFault c k opc) c k
      ∧ SlotIssued (s.slot c k) ((s.decodeFault c k opc).slot c k) (fun n => ⟨n, opc, 0, true, 1, [], some .malformed, .none⟩)
        (s.slot c k).pc (s.slot c k).cy [] := by
  have hslot := takeCseq_slot h (fun x => x) (fun n => ⟨n, opc, 0, true, 1, [], some .malformed, .none⟩)
    (fun x => { x with stopIssue := true })
  have honly := takeCseq_only h (fun x => x) (fun n => ⟨n, opc, 0, true, 1, [], some .malformed, .none⟩)
    (fun x => { x with stopIssue := true })
  rw [updSlot_self h] at hslot honly
  refine ⟨(congrArg Slot.stopIssue hslot).trans rfl, honly, ?_⟩
  exact
    { regs := fun r _ => (congrArg (·.reg r) hslot).trans rfl
      cy := (congrArg Slot.cy hslot).trans rfl
      pc := (congrArg Slot.pc hslot).trans rfl
      cseq := (congrArg Slot.cseq hslot).trans rfl
      ret := (congrArg Slot.ret hslot).trans rfl }

/-- An outcome that is a fault at decode, in the words of O15. -/
theorem stops_of_decodeFault {o : Out} (h : s.slotTabs c k = true) (ho : o = .next (s.decodeFault c k opc)) :
    ∃ t, o = .next t ∧ (t.slot c k).stopIssue = true ∧ OnlySlot s t c k
      ∧ SlotIssued (s.slot c k) (t.slot c k) (fun n => ⟨n, opc, 0, true, 1, [], some .malformed, .none⟩) (s.slot c k).pc
        (s.slot c k).cy [] :=
  ⟨_, ho, State.decodeFault_stops h⟩

theorem rndOk_eq_false_iff {f : SFields} :
    rndOk opc f = false ↔ if 0x18 ≤ opc ∧ opc ≤ 0x1F then 1 < f.rnd.toNat else f.rnd ≠ 0 := by
  by_cases h : 0x18 ≤ opc ∧ opc ≤ 0x1F
  · simp [rndOk, h]
  · have hz : f.rnd.toNat = 0 ↔ f.rnd = 0 := ⟨fun e => BitVec.eq_of_toNat_eq e, fun e => e ▸ rfl⟩
    have hb : (decide (0x18 ≤ opc) && decide (opc ≤ 0x1F)) = false := by simpa using h
    simp [rndOk, h, hb, hz]

/-- A short instruction with a reserved field stops issue. -/
theorem issueShort_stops {f : SFields} {rd wr : List Nat} {eff : State → Option Eff} {bad q : Bool} {o : Out}
    (ho : o = issueShort c k opc f bad rd wr eff s) (hq : q = bad) (ha : s.atIssue c k (shortWord opc f) none = true)
    (hf : f.res ≠ 0 ∨ q = true ∨ (if 0x18 ≤ opc ∧ opc ≤ 0x1F then 1 < f.rnd.toNat else f.rnd ≠ 0)) :
    ∃ t, o = .next t ∧ (t.slot c k).stopIssue = true ∧ OnlySlot s t c k
      ∧ SlotIssued (s.slot c k) (t.slot c k) (fun n => ⟨n, opc, 0, true, 1, [], some .malformed, .none⟩) (s.slot c k).pc
        (s.slot c k).cy [] := by
  subst hq
  obtain ⟨hslot, hready, hfetch, hread, -, -, htabs⟩ := State.atIssue_iff.1 ha
  refine stops_of_decodeFault htabs (ho.trans ?_)
  have hbad : (decide (2 ^ 32 ≤ (s.slot c k).cseq) || q || decide (f.res ≠ 0) || !rndOk opc f) = true := by
    rw [← rndOk_eq_false_iff] at hf
    simp only [Bool.or_eq_true, Bool.not_eq_true', decide_eq_true_eq]
    tauto
  simp only [issueShort, hslot, hready, hfetch, hread, Bool.not_true, Bool.false_eq_true, if_false, hbad, if_true]

/-- An operand named by an engine command that names nothing stands among the command's operands, relocated or not. -/
theorem Opnd.isWrong_moved (o : Opnd) (n : Nat) : (o.moved n).isWrong = o.isWrong := by cases o <;> rfl

theorem relocate_isWrong (r : Reloc) (x : Cmd) :
    (relocate r x).o0.isWrong = x.o0.isWrong ∧ (relocate r x).o1.isWrong = x.o1.isWrong
      ∧ (relocate r x).o2.isWrong = x.o2.isWrong ∧ (relocate r x).o3.isWrong = x.o3.isWrong := by
  unfold relocate
  split
  · exact ⟨rfl, rfl, rfl, rfl⟩
  · cases r <;> simp only [Opnd.isWrong_moved, and_self]

@[simp] theorem relocate_f (r : Reloc) (x : Cmd) : (relocate r x).f = x.f := by
  unfold relocate
  split
  · rfl
  · cases r <;> rfl

@[simp] theorem State.mkCmd_f (sp : CmdSpec) (f : LFields) : (s.mkCmd c k sp f).f = f := relocate_f ..

theorem State.mkCmd_isWrong (sp : CmdSpec) (f : LFields)
    (h : ∃ o ∈ [f.op0, f.op1, f.op2, f.op3], (resolve (s.slotJob c k) (s.slot c k) o).isWrong = true) :
    ((s.mkCmd c k sp f).o0.isWrong || (s.mkCmd c k sp f).o1.isWrong || (s.mkCmd c k sp f).o2.isWrong
      || (s.mkCmd c k sp f).o3.isWrong) = true := by
  obtain ⟨h0, h1, h2, h3⟩ := relocate_isWrong sp.reloc
    { c := c, opc := sp.opc, f := f, o0 := resolve (s.slotJob c k) (s.slot c k) f.op0, o1 := resolve (s.slotJob c k) (s.slot c k) f.op1
      o2 := resolve (s.slotJob c k) (s.slot c k) f.op2, o3 := resolve (s.slotJob c k) (s.slot c k) f.op3
      preg := if f.preg = 0 then 0 else ((s.slot c k).reg f.preg.toNat).toNat, g := (s.slot c k).g, sc := (s.slot c k).sc
      m := s.coreRd c }
  rw [mkCmd, h0, h1, h2, h3]
  simpa [or_assoc] using h

/-- An engine command that decode refuses stops issue. -/
theorem issueCmd_stops {sp : CmdSpec} {f : LFields} {o : Out} (ho : o = issueCmd c k sp f s)
    (ha : s.atIssue c k (longWord0 sp.opc f) (some (longWord1 f)) = true)
    (hf : f.res ≠ 0 ∨ 1 < f.rnd.toNat ∨ (∃ o ∈ [f.op0, f.op1, f.op2, f.op3], (resolve (s.slotJob c k) (s.slot c k) o).isWrong = true)
      ∨ (sp.e = .lte ∧ s.var.coreLte c = false) ∨ decodeBad sp.e sp.kinds (s.mkCmd c k sp f) = true) :
    ∃ t, o = .next t ∧ (t.slot c k).stopIssue = true ∧ OnlySlot s t c k
      ∧ SlotIssued (s.slot c k) (t.slot c k) (fun n => ⟨n, sp.opc, 0, true, 1, [], some .malformed, .none⟩) (s.slot c k).pc
        (s.slot c k).cy [] := by
  obtain ⟨hslot, hready, hfetch, hread, -, -, htabs⟩ := State.atIssue_iff.1 ha
  refine stops_of_decodeFault htabs (ho.trans ?_)
  have hbad : (sp.e = .lte ∧ s.var.coreLte c = false) ∨ decodeBad sp.e sp.kinds (s.mkCmd c k sp f) = true := by
    rcases hf with hf | hf | hf | hf | hf
    · exact .inr (by simp only [decodeBad, State.mkCmd_f, hf, ne_eq, not_false_eq_true, decide_true, Bool.true_or])
    · exact .inr (by simp [decodeBad, hf])
    · have := State.mkCmd_isWrong sp f hf
      simp only [Bool.or_eq_true] at this
      rcases this with ((h | h) | h) | h <;> exact .inr (by simp [decodeBad, h])
    · exact .inl hf
    · exact .inr hf
  simp only [issueCmd, hslot, hready, hfetch, hread, Bool.not_true, Bool.false_eq_true, if_false]
  rw [if_pos]
  rcases hbad with ⟨h, h'⟩ | h
  · simp [h, h']
  · simp [h]

/-- A COMMIT that decode refuses stops issue. -/
theorem execCommit_stops {f : LFields} (ha : s.atIssue c k (longWord0 0x34 f) (some (longWord1 f)) = true)
    (hf : f.res ≠ 0 ∨ 1 < f.rnd.toNat ∨ f.scl ≠ 0 ∨ f.preg ≠ 0
      ∨ ∃ o ∈ [f.op0, f.op1, f.op2, f.op3], (resolve (s.slotJob c k) (s.slot c k) o).isWrong = true) :
    ∃ t, execCommit c k f s = .next t ∧ (t.slot c k).stopIssue = true ∧ OnlySlot s t c k
      ∧ SlotIssued (s.slot c k) (t.slot c k) (fun n => ⟨n, 0x34, 0, true, 1, [], some .malformed, .none⟩) (s.slot c k).pc
        (s.slot c k).cy [] := by
  obtain ⟨hslot, hready, hfetch, hread, -, -, htabs⟩ := State.atIssue_iff.1 ha
  refine stops_of_decodeFault htabs ?_
  simp only [execCommit, hslot, hready, hfetch, hread, Bool.not_true, Bool.false_eq_true, if_false]
  rw [if_pos]
  simp only [Bool.or_eq_true, decide_eq_true_eq, List.any_eq_true]
  tauto

/-- A fraction length that HQ64 has not is 63. -/
theorem cvtFrac_reserved_iff (f : SFields) : decide (f.imm.toNat % 64 = 63) = decide (62 < cvtFrac f) := by
  unfold cvtFrac
  exact decide_eq_decide.2 ⟨fun h => by omega, fun h => by omega⟩

/-- Settles O15: every row is `issueShort`, `issueCmd` or COMMIT, and each answers a refused field by `State.decodeFault`. -/
theorem reservedFieldsStopIssue : Obligations.ReservedFieldsStopIssue := by
  intro s c k stops
  refine ⟨?_, fun f => ⟨?_, execCommit_stops⟩⟩
  · intro f odd cmp q63
    have hq : q63 = decide (62 < cvtFrac f) := cvtFrac_reserved_iff f
    have hodd : odd = decide (f.rd.toNat % 2 ≠ 0) := decide_eq_decide.2 ⟨fun h => by omega, fun h => by omega⟩
    simp only [List.forall_mem_cons, List.not_mem_nil, false_imp_iff, implies_true, and_true]
    clear_value odd q63
    subst hq hodd
    and_intros
    all_goals exact issueShort_stops (by dsimp only [exec, execNop, execAdd, execSub, execAddc, execSubb, execSetcy, execClrcy, execAnd, execOr, execXor, execShl,
      execShr, execSar, execCmplt, execCmpltu, execCmpeq, execMulu, execMuls, execDivu, execDivs, execLi, execLih,
      execSel, execSwap, execHadd, execHsub, execHmul, execHdiv, execHsqrt, execHcmp, execHcvti, execHcvtf, execLd32,
      execLd64, execSt32, execSt64, execXmove, execKget, execWopen, execWclose, execTadd, execTset, execTwait,
      execSpawn, execBr, execBnz, execBz, execBcy, execSolve, execOuter, execInner, execPrecswap, execFinish,
      execCorenum, aluOp, carryOp, pairOp, hfOp, tallyOp, branchOp]) rfl
  · simp only [List.forall_mem_cons, List.not_mem_nil, false_imp_iff, implies_true, and_true]
    and_intros
    all_goals exact issueCmd_stops rfl

end Sys2Proof.Machine

end

/-! ## O14: engine commands enter their queue and the scoreboard (R65, R81, R157, R256) -/
section

namespace Sys2Proof.Machine

variable {s : State} {c k : Nat} {sp : CmdSpec} {f : LFields}

@[simp] theorem Core.eng_setEng_self (q : Core) (e : Engine) (x : EngSt) : (q.setEng e x).eng e = x := by cases e <;> rfl
@[simp] theorem Core.setEng_slots (q : Core) (e : Engine) (x : EngSt) : (q.setEng e x).slots = q.slots := by cases e <;> rfl
@[simp] theorem Core.setEng_sb (q : Core) (e : Engine) (x : EngSt) : (q.setEng e x).sb = q.sb := by cases e <;> rfl
@[simp] theorem Core.setEng_mem (q : Core) (e : Engine) (x : EngSt) : (q.setEng e x).mem = q.mem := by cases e <;> rfl

theorem Core.updSlot_updSlot {q : Core} (h : Tab.wf ({} : Slot) q.slots = true) (k : Nat) (f g : Slot → Slot) :
    (q.updSlot k f).updSlot k g = q.updSlot k fun x => g (f x) := by
  simp only [updSlot]
  rw [Tab.upd_upd h]

/-- A core after one of its slots' instructions has taken its CSEQ. -/
def Core.takeCseq (q : Core) (k : Nat) (r : Nat → RetEntry) (f : Slot → Slot) : Core :=
  ({ q with steps := q.steps - 1 } : Core).updSlot k fun x => f { x with ret := x.ret ++ [r x.cseq], cseq := x.cseq + 1 }

theorem Core.takeCseq_updSlot {q : Core} (h : Tab.wf ({} : Slot) q.slots = true) (k : Nat) (r : Nat → RetEntry) (f g : Slot → Slot) :
    (q.takeCseq k r f).updSlot k g = q.takeCseq k r fun x => g (f x) :=
  updSlot_updSlot (q := { q with steps := q.steps - 1 }) h k _ g

theorem State.wf_takeCseq (h : Tab.wf ({} : Core) s.cores = true) (r : Nat → RetEntry) (g : Slot → Slot) :
    Tab.wf ({} : Core) (s.takeCseq c k r g).cores = true := wf_updCore h ..

theorem State.core_takeCseq (h : Tab.wf ({} : Core) s.cores = true) (r : Nat → RetEntry) (g : Slot → Slot) (c' : Nat) :
    (s.takeCseq c k r g).core c' = if c' = c then (s.core c).takeCseq k r g else s.core c' := core_updCore h ..

theorem Core.slot_takeCseq {q : Core} (h : Tab.wf ({} : Slot) q.slots = true) (r : Nat → RetEntry) (g : Slot → Slot) :
    (q.takeCseq k r g).slot k = g { q.slot k with ret := (q.slot k).ret ++ [r (q.slot k).cseq], cseq := (q.slot k).cseq + 1 } :=
  (slot_updSlot (k := { q with steps := q.steps - 1 }) h k k _).trans (if_pos rfl)

@[simp] theorem Core.takeCseq_eng (q : Core) (r : Nat → RetEntry) (g : Slot → Slot) (e : Engine) :
    (q.takeCseq k r g).eng e = q.eng e := by cases e <;> rfl

/-- A core with a command in an engine's queue and its ranges in the scoreboard. -/
def Core.queued (q : Core) (e : Engine) (m : ECmd) (sb : List SbRange) : Core :=
  ({ q with sb := q.sb ++ sb, orders := q.orders + 1 } : Core).setEng e { q.eng e with queue := (q.eng e).queue ++ [m] }

@[simp] theorem Core.queued_slots (q : Core) (e : Engine) (m : ECmd) (sb : List SbRange) : (q.queued e m sb).slots = q.slots := by
  simp [queued]

@[simp] theorem Core.queued_mem (q : Core) (e : Engine) (m : ECmd) (sb : List SbRange) : (q.queued e m sb).mem = q.mem := by simp [queued]

@[simp] theorem Core.queued_sb (q : Core) (e : Engine) (m : ECmd) (sb : List SbRange) : (q.queued e m sb).sb = q.sb ++ sb := by
  simp [queued]

@[simp] theorem Core.queued_eng (q : Core) (e : Engine) (m : ECmd) (sb : List SbRange) :
    (q.queued e m sb).eng e = { q.eng e with queue := (q.eng e).queue ++ [m] } := by simp [queued]

/-- The state after the issue of an engine command: its queue and the scoreboard, its CSEQ, and the solve control. -/
def State.cmdIssued (s : State) (c k : Nat) (sp : CmdSpec) (m : ECmd) (sb : List SbRange) (r : Bool) : State :=
  (s.enqueue c k sp m sb).updSlot c k fun y => { y with sc := stgAfter sp.opc r y.sc }

/-- The core after the issue of an engine command. -/
def Core.afterCmd (q : Core) (k : Nat) (sp : CmdSpec) (m : ECmd) (sb : List SbRange) (r : Bool) : Core :=
  (q.queued sp.e m sb).takeCseq k (fun n => ⟨n, sp.opc, engineNum sp.e, false, 0, [], none, .none⟩)
    fun x => { x with pc := x.pc + 16, sc := stgAfter sp.opc r x.sc }

theorem State.core_cmdIssued (h : s.slotTabs c k = true) (m : ECmd) (sb : List SbRange) (r : Bool) (c' : Nat) :
    (s.cmdIssued c k sp m sb r).core c' = if c' = c then (s.core c).afterCmd k sp m sb r else s.core c' := by
  obtain ⟨h1, h2, -⟩ := slotTabs_iff.1 h
  have hq : Tab.wf ({} : Slot) ((s.core c).queued sp.e m sb).slots = true := by rwa [Core.queued_slots]
  have h1' : Tab.wf ({} : Core) (s.updCore c fun q => q.queued sp.e m sb).cores = true := wf_updCore h1 c _
  change (((s.updCore c fun q => q.queued sp.e m sb).takeCseq c k _ _).updSlot c k _).core c' = _
  rw [core_updSlot (wf_takeCseq h1' _ _), core_takeCseq h1', core_takeCseq h1', if_pos rfl, core_updCore_self h1]
  split_ifs with e
  · exact Core.takeCseq_updSlot hq k _ _ _
  · rw [core_updCore h1, if_neg e]

/-- What the issue of an engine command leaves, in the words of O14. -/
theorem State.cmdIssued_spec (h : s.slotTabs c k = true) (r : Bool) {x : Cmd} {sb : List SbRange}
    (hsb : sb = x.ranges sp.roles ((s.slot c k).uid.getD 0) (s.slot c k).cseq) :
    CmdIssued s (s.cmdIssued c k sp (mkECmd sp s c k x) sb r) c k sp x (mkECmd sp s c k x) := by
  obtain ⟨h1, h2, -⟩ := slotTabs_iff.1 h
  have hcore := core_cmdIssued (sp := sp) h (mkECmd sp s c k x) sb r
  have hc := hcore c
  rw [if_pos rfl] at hc
  have hq : ((s.core c).queued sp.e (mkECmd sp s c k x) sb).slot k = s.slot c k := by rw [Core.slot, Core.queued_slots]; rfl
  have hslot := congrArg (·.slot k) hc
  simp only [Core.afterCmd] at hslot
  rw [Core.slot_takeCseq (by rwa [Core.queued_slots]), hq] at hslot
  have heng : ((s.cmdIssued c k sp (mkECmd sp s c k x) sb r).core c).eng sp.e
      = { (s.core c).eng sp.e with queue := ((s.core c).eng sp.e).queue ++ [mkECmd sp s c k x] } := by
    rw [hc, Core.afterCmd, Core.takeCseq_eng, Core.queued_eng]
  refine ⟨by rw [heng], by rw [heng], by rw [heng], ⟨rfl, rfl, rfl, rfl, rfl⟩, ⟨rfl, rfl, rfl, rfl, rfl, rfl, rfl, rfl⟩, rfl, rfl, ?_,
    ?_, rd_congr rfl rfl fun c' => ?_, rfl⟩
  · rw [hc, ← hsb]
    exact Core.queued_sb ..
  · exact
      { regs := fun r _ => (congrArg (·.reg r) hslot).trans rfl
        cy := (congrArg Slot.cy hslot).trans rfl
        pc := (congrArg Slot.pc hslot).trans rfl
        cseq := (congrArg Slot.cseq hslot).trans rfl
        ret := (congrArg Slot.ret hslot).trans rfl }
  · rw [hcore]
    split_ifs with e
    · rw [e]; exact Core.queued_mem ..
    · rfl

/-- An engine command that passes its checks issues. -/
theorem issueCmd_issues (h : s.issuesCmd c k sp f = true) :
    ∃ t m, issueCmd c k sp f s = .next t ∧ CmdIssued s t c k sp (s.mkCmd c k sp f) m := by
  simp only [State.issuesCmd, Bool.and_eq_true, Bool.not_eq_true', decide_eq_true_eq] at h
  obtain ⟨⟨⟨⟨⟨⟨⟨hat, hlte⟩, hdec⟩, hlen⟩, hheld⟩, hroom⟩, hconf⟩, hsb⟩ := h
  obtain ⟨hslot, hready, hfetch, hread, -, hcseq, htabs⟩ := State.atIssue_iff.1 hat
  refine ⟨_, _, ?_, State.cmdIssued_spec htabs (natBit f.param.toNat 30 && sp.reloc ≠ .none) rfl⟩
  have hlte : (sp.e == .lte && !s.var.coreLte c) = false := by
    simp only [Bool.or_eq_true, bne_iff_ne, ne_eq] at hlte
    simp only [Bool.and_eq_false_iff, beq_eq_false_iff_ne, ne_eq, Bool.not_eq_false']
    exact hlte
  simp only [issueCmd, hslot, hready, hfetch, hread, hlte, hdec, hheld, hroom, hconf, Nat.not_le.2 hcseq, Nat.not_lt.2 hlen,
    Nat.not_lt.2 hsb, decide_false, Bool.not_true, Bool.or_false, Bool.false_eq_true, if_false]
  rfl

/-- Settles O14: all 26 rows are `issueCmd`. -/
theorem engineCommandsEnterTheirQueues : Obligations.EngineCommandsEnterTheirQueues := by
  intro s c k f
  simp only [List.forall_mem_cons, List.not_mem_nil, false_imp_iff, implies_true, and_true]
  and_intros
  all_goals exact issueCmd_issues

end Sys2Proof.Machine

end

/-! ## O31: which frame a fill takes, and frames in a read (R192, R193, R199) -/
section

namespace Sys2Proof.Machine

/-! ### The entries of a table in canonical form -/

section
variable {α : Type} {d : α} {t : Tab α} {b : Nat}

theorem Tab.Above.le_key (h : Tab.Above d b t) : ∀ p ∈ t, b ≤ p.1 := by
  induction t generalizing b with
  | nil => simp
  | cons q t ih =>
    obtain ⟨hb, -, ht⟩ := h
    exact List.forall_mem_cons.2 ⟨hb, fun p hp => (ih ht p hp).trans' (by omega)⟩

theorem Tab.Above.pairwise_key (h : Tab.Above d b t) : t.Pairwise fun p q => p.1 < q.1 := by
  induction t generalizing b with
  | nil => exact .nil
  | cons q t ih => exact .cons (h.2.2.le_key) (ih h.2.2)

theorem Tab.Above.mem_iff_get (h : Tab.Above d b t) (i : Nat) (x : α) : (i, x) ∈ t ↔ Tab.get d t i = x ∧ x ≠ d := by
  induction t generalizing b with
  | nil => simp [Tab.get, eq_comm]
  | cons q t ih =>
    obtain ⟨k, v⟩ := q
    obtain ⟨hb, hv, ht⟩ := h
    rw [List.mem_cons, ih ht, Prod.mk.injEq, Tab.get]
    split_ifs with hk
    · rw [Tab.get_below ht (show i < k + 1 by omega)]
      constructor
      · rintro (⟨-, rfl⟩ | ⟨rfl, hd⟩)
        · exact ⟨rfl, hv⟩
        · exact absurd rfl hd
      · exact fun e => .inl ⟨hk, e.1.symm⟩
    · simp [hk]

end

/-! ### The frames that a fill may take, in increasing number -/

variable {s : State}

theorem State.mem_usableFrames (h : Tab.wf ({} : GranOwn) s.sched.ymap = true) (k : Nat) :
    k ∈ s.usableFrames ↔ (s.gran (k / 4)).knl = true ∧ (s.gran (k / 4)).leaving = false ∧ (s.gran (k / 4)).scrub = false := by
  have hmem := fun i x => (Tab.wf_iff.1 h).mem_iff_get i x
  simp only [usableFrames, List.mem_flatMap, List.mem_filter, Bool.and_eq_true, Bool.not_eq_true', List.mem_map, List.mem_range]
  constructor
  · rintro ⟨⟨g, x⟩, ⟨hp, ⟨hk, hl⟩, hs⟩, i, hi, rfl⟩
    have hg : (4 * g + i) / 4 = g := by omega
    rw [hg, gran, ((hmem g x).1 hp).1]
    exact ⟨hk, hl, hs⟩
  · rintro ⟨hk, hl, hs⟩
    refine ⟨(k / 4, s.gran (k / 4)), ⟨(hmem _ _).2 ⟨rfl, fun e => ?_⟩, ⟨hk, hl⟩, hs⟩, k % 4, by omega, by omega⟩
    rw [e] at hk
    exact absurd hk (by decide)

theorem State.usableFrames_pairwise (h : Tab.wf ({} : GranOwn) s.sched.ymap = true) : s.usableFrames.Pairwise (· < ·) := by
  have hkeys := ((Tab.wf_iff.1 h).pairwise_key).filter fun p => p.2.knl && !p.2.leaving && !p.2.scrub
  refine List.pairwise_flatMap.2 ⟨fun p _ => ?_, hkeys.imp fun {p q} hpq => ?_⟩
  · simp only [List.range, List.range.loop, List.map_cons, List.map_nil, List.pairwise_cons, List.mem_cons, List.not_mem_nil]
    grind
  · simp only [List.mem_map, List.mem_range]
    rintro x ⟨i, hi, rfl⟩ y ⟨j, hj, rfl⟩
    omega

/-- Whether the clock hand of a state meets frame `i` before frame `j`. -/
def State.handMeets (s : State) (i j : Nat) : Prop :=
  (s.knl.hand ≤ i ∧ j < s.knl.hand) ∨ ((s.knl.hand ≤ i ↔ s.knl.hand ≤ j) ∧ i < j)

/-- The usable frames in the order in which the clock hand meets them. -/
def State.handOrder (s : State) : List Nat :=
  s.usableFrames.filter (fun k => decide (s.knl.hand ≤ k)) ++ s.usableFrames.filter fun k => decide (k < s.knl.hand)

theorem State.mem_handOrder (k : Nat) : k ∈ s.handOrder ↔ k ∈ s.usableFrames := by
  simp only [handOrder, List.mem_append, List.mem_filter, decide_eq_true_eq]
  by_cases hk : s.knl.hand ≤ k
  · simp [hk]
  · simp [hk, Nat.lt_of_not_le hk]

theorem State.handOrder_pairwise (h : Tab.wf ({} : GranOwn) s.sched.ymap = true) : s.handOrder.Pairwise s.handMeets := by
  have hus := usableFrames_pairwise h
  refine List.pairwise_append.2 ⟨?_, ?_, fun i hi j hj => ?_⟩
  · refine (hus.filter _).imp_of_mem fun {i j} hi hj hij => ?_
    simp only [List.mem_filter, decide_eq_true_eq] at hi hj
    exact .inr ⟨by omega, hij⟩
  · refine (hus.filter _).imp_of_mem fun {i j} hi hj hij => ?_
    simp only [List.mem_filter, decide_eq_true_eq] at hi hj
    exact .inr ⟨by omega, hij⟩
  · simp only [List.mem_filter, decide_eq_true_eq] at hi hj
    exact .inl ⟨hi.2, hj.2⟩

theorem State.handMeets_asymm {i j : Nat} (h : s.handMeets i j) : ¬ s.handMeets j i := by
  simp only [handMeets] at h ⊢
  omega

/-- Where the hand's order is cut at a frame, the frames before the cut are those that the hand meets before it. -/
theorem State.mem_before_iff (h : Tab.wf ({} : GranOwn) s.sched.ymap = true) {l r : List Nat} {k : Nat} (he : s.handOrder = l ++ k :: r)
    (j : Nat) : (j ∈ l ↔ j ∈ s.usableFrames ∧ s.handMeets j k) ∧ (j ∈ s.usableFrames → j ∈ l ∨ j = k ∨ s.handMeets k j) := by
  have hp := handOrder_pairwise h
  rw [he, List.pairwise_append, List.pairwise_cons] at hp
  obtain ⟨-, ⟨hkr, -⟩, hlk⟩ := hp
  have hmem : j ∈ s.usableFrames ↔ j ∈ l ∨ j = k ∨ j ∈ r := by rw [← mem_handOrder, he, List.mem_append, List.mem_cons]
  refine ⟨⟨fun hj => ⟨hmem.2 (.inl hj), hlk j hj k (.head _)⟩, fun ⟨hj, hjk⟩ => ?_⟩, fun hj => ?_⟩
  · rcases hmem.1 hj with hl | rfl | hr
    · exact hl
    · exact absurd hjk (handMeets_asymm hjk)
    · exact absurd hjk (handMeets_asymm (hkr j hr))
  · exact (hmem.1 hj).imp_right (Or.imp_right (hkr j))

/-! ### The clock hand (R193) -/

/-- A pass of the hand that stops: on the first frame it may take whose REF is clear, with the REF of those before it cleared. -/
theorem clockPass_eq_some {fr : Nat → Frame} {l : List Nat} {k : Nat} (h : (clockPass fr l).2 = some k) :
    ∃ a b, l = a ++ k :: b ∧ (fr k).evictable = true ∧ (fr k).ref = false ∧ (∀ j ∈ a, (fr j).evictable = true → (fr j).ref = true)
      ∧ (clockPass fr l).1 = a.filter fun j => (fr j).evictable := by
  induction l with
  | nil => simp [clockPass] at h
  | cons i l ih =>
    rw [clockPass] at h ⊢
    split_ifs at h ⊢ with hev href
    · obtain ⟨a, b, rfl, hk, hr, ha, hc⟩ := ih h
      rw [Bool.not_eq_true'] at hev
      exact ⟨i :: a, b, rfl, hk, hr, by simpa [hev] using ha, by simp [hev, hc]⟩
    · obtain ⟨a, b, rfl, hk, hr, ha, hc⟩ := ih h
      rw [Bool.not_eq_true', Bool.not_eq_false] at hev
      exact ⟨i :: a, b, rfl, hk, hr, by simpa [href] using ha, by simp [hev, hc]⟩
    · obtain rfl : i = k := by simpa using h
      exact ⟨[], l, rfl, by simpa using hev, by simpa using href, by simp, rfl⟩

/-- A pass of the hand that does not stop clears the REF of every frame it may take. -/
theorem clockPass_eq_none {fr : Nat → Frame} {l : List Nat} (h : (clockPass fr l).2 = none) :
    (∀ j ∈ l, (fr j).evictable = true → (fr j).ref = true) ∧ (clockPass fr l).1 = l.filter fun j => (fr j).evictable := by
  induction l with
  | nil => simp [clockPass]
  | cons i l ih =>
    rw [clockPass] at h ⊢
    split_ifs at h ⊢ with hev href
    · rw [Bool.not_eq_true'] at hev
      obtain ⟨ha, hc⟩ := ih h
      exact ⟨by simpa [hev] using ha, by simp [hev, hc]⟩
    · rw [Bool.not_eq_true', Bool.not_eq_false] at hev
      obtain ⟨ha, hc⟩ := ih h
      exact ⟨by simpa [href] using ha, by simp [hev, hc]⟩

theorem Frame.evictable_iff (f : Frame) : f.evictable = true ↔ f.st = .resident ∧ f.reads = 0 := by
  simp [evictable]

/-- The state after the clock hand has stopped on frame `k` and has cleared the REF of these frames. -/
def State.handStops (s : State) (k : Nat) (cleared : List Nat) : State :=
  let t := cleared.foldl (fun s i => s.updFrame i fun f => { f with ref := false }) s
  { t with knl := { t.knl with hand := k + 1, victims := satAdd 32 t.knl.victims 1 } }

/-- Clearing REFs changes the frames alone, and in them REF alone. -/
theorem State.clearRefs (l : List Nat) : ∀ {s : State}, Tab.wf ({} : Frame) s.knl.frames = true → ∃ fr : Tab Frame,
    l.foldl (fun s i => s.updFrame i fun f => { f with ref := false }) s = { s with knl := { s.knl with frames := fr } }
      ∧ ∀ j, Tab.get {} fr j = if j ∈ l then { Tab.get ({} : Frame) s.knl.frames j with ref := false } else Tab.get {} s.knl.frames j := by
  induction l with
  | nil => exact fun {s} _ => ⟨s.knl.frames, rfl, fun j => by simp⟩
  | cons i l ih =>
    intro s h
    obtain ⟨fr, he, hfr⟩ := ih (s := s.updFrame i fun f => { f with ref := false }) (Tab.wf_upd h i fun f => { f with ref := false })
    refine ⟨fr, he, fun j => ?_⟩
    rw [hfr, updFrame, Tab.get_upd h]
    by_cases hi : j = i
    · subst hi
      simp
    · simp [hi]

theorem State.handStops_spec (h : Tab.wf ({} : Frame) s.knl.frames = true) (k : Nat) (l : List Nat) :
    (s.handStops k l).knl.hand = k + 1 ∧ (s.handStops k l).knl.victims = satAdd 32 s.knl.victims 1
      ∧ (∀ j, Tab.get {} (s.handStops k l).knl.frames j
        = if j ∈ l then { Tab.get ({} : Frame) s.knl.frames j with ref := false } else Tab.get {} s.knl.frames j)
      ∧ { s.handStops k l with knl := { (s.handStops k l).knl with
            frames := s.knl.frames, hand := s.knl.hand, victims := s.knl.victims } } = s := by
  obtain ⟨fr, he, hfr⟩ := clearRefs l h
  rw [handStops, he]
  exact ⟨rfl, rfl, hfr, rfl⟩

/-! ### The frame that a fill takes -/

/-- A usable frame that a fill takes at once, and one that the hand may take. -/
def State.isFree (s : State) (k : Nat) : Prop := k ∈ s.usableFrames ∧ (Tab.get ({} : Frame) s.knl.frames k).st = .free
def State.isOut (s : State) (k : Nat) : Prop := k ∈ s.usableFrames ∧ (Tab.get ({} : Frame) s.knl.frames k).evictable = true

/-- What the search answers: a free frame; the frame on which the hand stops, past frames `l` whose REF it clears; the first frame it may
take where it goes round without a stop; none. -/
inductive State.Takes (s : State) : Option (Nat × State) → Prop
  | free (k : Nat) (hk : s.isFree k) (hlow : ∀ j, s.isFree j → k ≤ j) : s.Takes (some (k, s))
  | stop (k : Nat) (l : List Nat) (hno : ∀ j, ¬ s.isFree j) (hk : s.isOut k) (href : (Tab.get ({} : Frame) s.knl.frames k).ref = false)
      (hl : ∀ j, j ∈ l ↔ s.isOut j ∧ s.handMeets j k)
      (hafter : ∀ j, s.isOut j → (Tab.get ({} : Frame) s.knl.frames j).ref = false → j = k ∨ s.handMeets k j) :
      s.Takes (some (k, s.handStops k (l.filter fun i => some k ≠ some i)))
  | round (k : Nat) (l : List Nat) (hno : ∀ j, ¬ s.isFree j) (hk : s.isOut k)
      (href : ∀ j, s.isOut j → (Tab.get ({} : Frame) s.knl.frames j).ref = true) (hl : ∀ j, j ∈ l ↔ s.isOut j)
      (hfirst : ∀ j, s.isOut j → j = k ∨ s.handMeets k j) :
      s.Takes (some (k, s.handStops k (l.filter fun i => some k ≠ some i)))
  | none (hno : ∀ j, ¬ s.isFree j) (hout : ∀ j, ¬ s.isOut j) : s.Takes none

theorem State.isOut_iff (j : Nat) : s.isOut j ↔ j ∈ s.handOrder ∧ (Tab.get ({} : Frame) s.knl.frames j).evictable = true := by
  rw [isOut, mem_handOrder]

theorem State.lowest_free (h : Tab.wf ({} : GranOwn) s.sched.ymap = true) {k : Nat}
    (hk : s.usableFrames.find? (fun k => (Tab.get ({} : Frame) s.knl.frames k).st == .free) = some k) :
    s.isFree k ∧ ∀ j, s.isFree j → k ≤ j := by
  obtain ⟨hst, l, r, he, hl⟩ := List.find?_eq_some_iff_append.1 hk
  have hp := usableFrames_pairwise h
  rw [he, List.pairwise_append, List.pairwise_cons] at hp
  obtain ⟨-, ⟨hkr, -⟩, -⟩ := hp
  refine ⟨⟨by simp [he], by simpa using hst⟩, fun j ⟨hj, hfree⟩ => ?_⟩
  rw [he, List.mem_append, List.mem_cons] at hj
  rcases hj with hj | rfl | hj
  · exact absurd hfree (by simpa using hl j hj)
  · exact le_rfl
  · exact (hkr j hj).le

theorem State.takeFrame_takes (h : Tab.wf ({} : GranOwn) s.sched.ymap = true) : s.Takes s.takeFrame := by
  rw [takeFrame]
  cases hfree : s.usableFrames.find? fun k => (Tab.get ({} : Frame) s.knl.frames k).st == .free with
  | some k =>
    obtain ⟨hk, hlow⟩ := lowest_free h hfree
    exact .free k hk hlow
  | none =>
    have hno : ∀ j, ¬ s.isFree j := fun j hj => absurd hj.2 (by simpa using List.find?_eq_none.1 hfree j hj.1)
    cases hpass : (clockPass (fun k => Tab.get ({} : Frame) s.knl.frames k) s.handOrder).2 with
    | some k =>
      obtain ⟨a, b, he, hev, href, ha, hc⟩ := clockPass_eq_some hpass
      rw [handOrder] at hpass hc
      simp only [hpass, hc]
      refine .stop k _ hno ((isOut_iff k).2 ⟨by simp [he], hev⟩) href (fun j => ?_) fun j hj hr => ?_
      · rw [List.mem_filter, (mem_before_iff h he j).1, isOut]
        tauto
      · rcases (mem_before_iff h he j).2 hj.1 with hja | hjk
        · exact absurd (ha j hja hj.2) (by simp [hr])
        · exact hjk
    | none =>
      obtain ⟨ha, hc⟩ := clockPass_eq_none hpass
      cases hfind : s.handOrder.find? fun k => (Tab.get ({} : Frame) s.knl.frames k).evictable with
      | some k =>
        obtain ⟨hev, a, b, he, hne⟩ := List.find?_eq_some_iff_append.1 hfind
        have hk : s.isOut k := (isOut_iff k).2 ⟨by simp [he], hev⟩
        have hl : ∀ j, j ∈ (s.handOrder.filter fun j => (Tab.get ({} : Frame) s.knl.frames j).evictable) ↔ s.isOut j := fun j => by
          rw [List.mem_filter, isOut_iff]
        rw [handOrder] at hpass hc hfind hl
        simp only [hpass, hc, hfind]
        refine .round k _ hno hk (fun j hj => ha j ((isOut_iff j).1 hj).1 hj.2) hl fun j hj => ?_
        rcases (mem_before_iff h he j).2 hj.1 with hja | hjk
        · exact absurd hj.2 (by simpa using hne j hja)
        · exact hjk
      | none =>
        have hout : ∀ j, ¬ s.isOut j := fun j hj => absurd hj.2 (by simpa using List.find?_eq_none.1 hfind j ((isOut_iff j).1 hj).1)
        rw [handOrder] at hpass hc hfind
        simp only [hpass, hfind]
        exact .none hno hout

/-! ### Frames in a read (R199) -/

@[simp] theorem State.scrubNext_knl (s : State) : s.scrubNext.knl = s.knl := by
  unfold scrubNext
  split <;> rfl

@[simp] theorem State.scrubAdd_knl (s : State) (l : List (Bool × Nat)) : (s.scrubAdd l).knl = s.knl := scrubNext_knl _

theorem State.foldl_updGran_knl (f : GranOwn → GranOwn) (l : List Nat) :
    ∀ s : State, (l.foldl (fun s g => s.updGran g f) s).knl = s.knl := by
  induction l with
  | nil => exact fun _ => rfl
  | cons g l ih => exact fun s => ih (s.updGran g f)

@[simp] theorem State.leaveWith_knl (s : State) (l : List Nat) : (s.leaveWith l).knl = s.knl := by
  rw [leaveWith]
  simp only [scrubAdd_knl, foldl_updGran_knl]

@[simp] theorem State.leaveGranules_knl (s : State) : s.leaveGranules.knl = s.knl := leaveWith_knl s []

/-- A frame after the pages that `pick` picks are doomed. -/
def Frame.doom (pick : Frame → Bool) (x : Frame) : Frame :=
  if !pick x then x
  else match x.st with
    | .resident => if x.reads = 0 then {} else { x with doomed := true }
    | .filling => { x with doomed := true }
    | _ => x

theorem Frame.doom_eq (pick : Frame → Bool) (x : Frame) : x.doom pick =
    if pick x = true ∧ x.st = .resident ∧ x.reads = 0 then {}
    else if pick x = true ∧ (x.st = .resident ∨ x.st = .filling) then { x with doomed := true } else x := by
  by_cases hp : pick x = true
  · rw [doom, hp]
    cases hst : x.st <;> simp
  · simp [doom, hp]

theorem State.frames_doomPages (s : State) (pick : Frame → Bool) :
    (s.doomPages pick).knl.frames = Tab.mapAll {} s.knl.frames fun _ x => x.doom pick := by
  rw [doomPages, leaveGranules_knl]
  rfl

theorem State.get_frames_doomPages (hf : Tab.wf ({} : Frame) s.knl.frames = true) (pick : Frame → Bool) (k : Nat) :
    Tab.get {} (s.doomPages pick).knl.frames k = (Tab.get ({} : Frame) s.knl.frames k).doom pick := by
  rw [frames_doomPages, Tab.get_mapAll (fun _ x => Frame.doom pick x) (fun _ => ?_) hf]
  exact ite_self _

theorem ref_cleared_iff {fr : Nat → Frame} {f : Frame} {j : Nat} {p q : Prop} [Decidable p] (hpq : p ↔ q)
    (hf : f = if p then { fr j with ref := false } else fr j) : (q → f = { fr j with ref := false }) ∧ (¬ q → f = fr j) := by
  rw [hf, ← hpq]
  exact ⟨fun h => if_pos h, fun h => if_neg h⟩

/-- Settles O31: the search by `State.takeFrame_takes`, and what it clears by `State.handStops_spec`. -/
theorem framesAreChosenAndKept : Obligations.FramesAreChosenAndKept := by
  refine ⟨fun s hy hf => ?_, fun s pick k hf => (State.get_frames_doomPages hf pick k).trans (Frame.doom_eq pick _)⟩
  intro fr usable free out before
  have husable : ∀ k, k ∈ s.usableFrames ↔ usable k := State.mem_usableFrames hy
  have hfree : ∀ k, s.isFree k ↔ free k := fun k => by rw [State.isFree, husable]
  have hout : ∀ k, s.isOut k ↔ out k := fun k => by rw [State.isOut, husable, Frame.evictable_iff]
  have htakes := State.takeFrame_takes hy
  refine ⟨husable, ?_, fun k u hku => ?_⟩
  · simp only [← hfree, ← hout]
    generalize s.takeFrame = r at htakes
    cases htakes with
    | free k hk hlow => simpa using ⟨k, fun h => absurd hk h⟩
    | stop k l hno hk href hl hafter => simpa using ⟨k, fun _ => hk⟩
    | round k l hno hk href hl hfirst => simpa using ⟨k, fun _ => hk⟩
    | none hno hnone => simpa using fun k => ⟨hno k, hnone k⟩
  · rw [hku] at htakes
    clear hku
    simp only [← hfree, ← hout]
    cases htakes with
    | free _ hk hlow => exact ⟨fun _ => ⟨hk, hlow, rfl⟩, fun hno => absurd hk (hno k)⟩
    | stop _ l hno hk href hl hafter =>
      obtain ⟨hhand, hvict, hget, hrest⟩ := State.handStops_spec hf k (l.filter fun i => some k ≠ some i)
      refine ⟨fun ⟨j, hj⟩ => absurd hj (hno j), fun _ => ⟨hk, hhand, hvict, fun _ => ⟨href, hafter, fun j => ?_⟩, fun hall => ?_, hrest⟩⟩
      · refine ref_cleared_iff ?_ (hget j)
        have hkk : ¬ s.handMeets k k := fun h => State.handMeets_asymm h h
        have hj : s.handMeets j k → k ≠ j := fun h e => hkk (e ▸ h)
        simp only [List.mem_filter, hl, ne_eq, Option.some.injEq, decide_eq_true_eq]
        exact ⟨fun h => h.1, fun h => ⟨h, hj h.2⟩⟩
      · exact absurd (hall k hk) (by simpa using href)
    | round _ l hno hk href hl hfirst =>
      obtain ⟨hhand, hvict, hget, hrest⟩ := State.handStops_spec hf k (l.filter fun i => some k ≠ some i)
      refine ⟨fun ⟨j, hj⟩ => absurd hj (hno j), fun _ => ⟨hk, hhand, hvict, fun ⟨j, hj, hr⟩ => ?_, fun _ => ⟨hfirst, fun j => ?_⟩, hrest⟩⟩
      · exact absurd (href j hj) (by simpa using hr)
      · refine ref_cleared_iff ?_ (hget j)
        simp only [List.mem_filter, hl, ne_eq, Option.some.injEq, decide_eq_true_eq]
        exact and_congr_right fun _ => not_congr eq_comm

end Sys2Proof.Machine
end

/-!
## Words built from fields

A list of fields, each below the place of the one before it, spells a number in which each field can be read back.
-/
section

namespace Sys2Proof

/-- The fields of a list stand below `top`, one below the other. -/
def FieldsFit : Nat → List (Nat × Nat) → Prop
  | _, [] => True
  | top, (o, v) :: l => o ≤ top ∧ v < 2 ^ (top - o) ∧ FieldsFit o l

theorem foldl_fields (l : List (Nat × Nat)) (a : Nat) : l.foldl (fun a p => a + p.2 * 2 ^ p.1) a = a + fields l := by
  induction l generalizing a with
  | nil => rfl
  | cons p l ih => rw [fields, List.foldl_cons, List.foldl_cons, ih, ih (0 + _), zero_add, Nat.add_assoc]

theorem fields_cons (o v : Nat) (l : List (Nat × Nat)) : fields ((o, v) :: l) = v * 2 ^ o + fields l := by
  rw [fields, List.foldl_cons, foldl_fields, zero_add]

theorem FieldsFit.fields_lt {top : Nat} {l : List (Nat × Nat)} (h : FieldsFit top l) : fields l < 2 ^ top := by
  induction l generalizing top with
  | nil => exact Nat.two_pow_pos top
  | cons p l ih =>
    obtain ⟨o, v⟩ := p
    obtain ⟨ho, hv, hl⟩ := h
    have hsplit : 2 ^ top = 2 ^ (top - o) * 2 ^ o := by rw [← pow_add, Nat.sub_add_cancel ho]
    have := ih hl
    have := Nat.mul_le_mul_right (2 ^ o) hv
    rw [Nat.succ_mul] at this
    rw [fields_cons, hsplit]
    omega

/-- The place where the field before the `n`th begins; for the first one it is `top`. -/
def fieldTop (top : Nat) (l : List (Nat × Nat)) : Nat → Nat
  | 0 => top
  | n + 1 => (l.getD n (0, 0)).1

theorem FieldsFit.fieldTop_le {top : Nat} {l : List (Nat × Nat)} (h : FieldsFit top l) (n : Nat) : fieldTop top l n ≤ top := by
  induction n generalizing top l with
  | zero => exact le_rfl
  | succ n ih =>
    cases l with
    | nil => exact Nat.zero_le _
    | cons p l => exact Nat.le_trans (by cases n with | zero => exact le_rfl | succ n => exact ih h.2.2) h.1

/-- What stands at or above bit `hi + 1` does not show in the bits `hi` to `lo`. -/
theorem natBits_add_of_dvd {x y hi lo o : Nat} (ho : hi + 1 ≤ o) : natBits (y * 2 ^ o + x) hi lo = natBits x hi lo := by
  obtain ⟨i, rfl⟩ := Nat.exists_eq_add_of_le ho
  by_cases hlo : lo ≤ hi + 1
  · obtain ⟨w, hw⟩ := Nat.exists_eq_add_of_le hlo
    have hy : y * 2 ^ (hi + 1 + i) = 2 ^ lo * (2 ^ w * (y * 2 ^ i)) := by rw [hw]; ring
    rw [Machine.natBits_eq_div_mod, Machine.natBits_eq_div_mod, hy, Nat.mul_add_div (Nat.two_pow_pos lo), hw, Nat.add_sub_cancel_left,
      Nat.mul_add_mod]
  · have hw : hi + 1 - lo = 0 := by omega
    rw [Machine.natBits_eq_div_mod, Machine.natBits_eq_div_mod, hw, pow_zero, Nat.mod_one, Nat.mod_one]

/-- A field of a word, read back. -/
theorem FieldsFit.natBits {top : Nat} {l : List (Nat × Nat)} (h : FieldsFit top l) {hi lo v : Nat} (n : Nat) (hn : l[n]? = some (lo, v))
    (hhi : hi + 1 = fieldTop top l n) : natBits (fields l) hi lo = v := by
  induction n generalizing top l with
  | zero =>
    cases l with
    | nil => simp at hn
    | cons p l =>
      obtain rfl : p = (lo, v) := by simpa using hn
      obtain ⟨ho, hv, hl⟩ := h
      obtain rfl : hi + 1 = top := hhi
      rw [fields_cons, Machine.natBits_eq_div_mod, Nat.mul_comm, Nat.mul_add_div (Nat.two_pow_pos lo), Nat.div_eq_of_lt hl.fields_lt,
        Nat.add_zero, Nat.mod_eq_of_lt hv]
  | succ n ih =>
    cases l with
    | nil => simp at hn
    | cons p l =>
      obtain ⟨o, w⟩ := p
      obtain ⟨ho, hv, hl⟩ := h
      have htop : hi + 1 = fieldTop o l n := by cases n with | zero => exact hhi | succ n => exact hhi
      rw [fields_cons, natBits_add_of_dvd (htop ▸ hl.fieldTop_le n)]
      exact ih hl (by simpa using hn) htop

end Sys2Proof
end

/-! ## O18: the terminating event, the stop, and the end of a task (R27, R118, R120, R135, R142) -/
section

namespace Sys2Proof.Machine

variable {s : State} {c k uid : Nat}

/-! ### An abandoned commit copy (R120, R127) -/

theorem State.recordN_eq (s : State) (count cls code : Nat) (dom : Option Nat) (skind sidx addr detail : Nat) :
    ∃ r, s.recordN count cls code dom skind sidx addr detail = { s with ras := r } := by
  unfold recordN
  split_ifs <;> exact ⟨_, rfl⟩

theorem State.record_eq (s : State) (cls code : Nat) (dom : Option Nat) (skind sidx addr detail : Nat) :
    ∃ r, s.record cls code dom skind sidx addr detail = { s with ras := r } := recordN_eq ..

theorem State.ueMet_eq (s : State) (code : Nat) (dom : Option Nat) (skind sidx addr : Nat) :
    ∃ r, s.ueMet code dom skind sidx addr = { s with ras := r } := record_eq ({ s with ras := _ } : State) ..

theorem State.pickOne_eq (s : State) (l : List Nat) : ∃ n, (s.pickOne l).2 = { s with freeCtr := n } := by
  cases l <;> exact ⟨_, rfl⟩

theorem writeChecked_nil (u : Nat) (hu : 0 < u) (m : Mem) (bad : List Nat) : writeChecked u m bad [] = (m, bad, []) := by
  have hcov : (List.range u).all (fun _ => false) = false := by
    rw [List.all_eq_false]
    exact ⟨0, List.mem_range.2 hu, by simp⟩
  simp [writeChecked, Mem.puts, hcov]

theorem State.coreWrite_nil (h : Tab.wf ({} : Core) s.cores = true) (c : Nat) : (s.coreWrite c []).1 = s := by
  have hweak : ∀ q : Core, unmet 4 q.weak [] = q.weak := fun q => by simp [unmet]
  have hcores : Tab.upd ({} : Core) s.cores c (fun q => { q with mem := (s.core c).mem, bad := (s.core c).bad, weak := unmet 4 q.weak [] })
      = s.cores := Tab.upd_self h c (by rw [hweak]; rfl)
  rw [coreWrite, writeChecked_nil 4 (by decide)]
  exact congrArg (fun t => { s with cores := t }) hcores

/-- The lines of a commit copy lie in its half. -/
theorem CommitJob.lines_in_half (j : CommitJob) (sc : SolveCtl) {l : CopyLine} (hl : l ∈ j.lines c sc) :
    l.hi - l.lo ≤ 64 ∧ l.at_ + 64 ≤ sc.halfBytes := by
  simp only [lines, parts, List.mem_flatMap, List.mem_cons, List.not_mem_nil, or_false, List.mem_map, List.mem_range] at hl
  obtain ⟨p, hp, i, hi, rfl⟩ := hl
  refine ⟨by dsimp only; omega, ?_⟩
  have hup : ∀ x, lineUp x / 64 * 64 = lineUp x := fun x => by unfold lineUp; omega
  have hi' : 64 * i + 64 ≤ lineUp p.2.1 := by have := hup p.2.1; omega
  dsimp only [SolveCtl.halfBytes]
  rcases hp with rfl | rfl | rfl <;> dsimp only at hi' ⊢ <;> omega

theorem State.copyLine_in_half (j : CommitJob) (sc : SolveCtl) {l : CopyLine} (hl : l ∈ j.lines c sc) {p : Nat × Byte}
    (hp : p ∈ s.copyLine c sc j l) : j.target c sc ≤ p.1 ∧ p.1 < j.target c sc + sc.halfBytes := by
  obtain ⟨hlen, hat⟩ := j.lines_in_half sc hl
  obtain ⟨i, hi, he⟩ := exists_mem_bytesAt (P := (p.1 = ·)).1 ⟨p, hp, rfl⟩
  simp only [List.length_append, Mem.read, List.length_map, List.length_range] at hi
  omega

/-- The half that the commit copy of a slot fills, by offset. -/
def Slot.copies (x : Slot) (c off : Nat) : Prop :=
  ∃ j, x.copy = some j ∧ j.target c x.sc ≤ off ∧ off < j.target c x.sc + x.sc.halfBytes

theorem State.copySome_eq {j : CommitJob} (hj : (s.slot c k).copy = some j) : ∃ w n,
    s.copySome c (s.slot c k).sc j = { (s.coreWrite c w).1 with freeCtr := n } ∧ ∀ p ∈ w, (s.slot c k).copies c p.1 := by
  refine ⟨_, _, rfl, fun p hp => ?_⟩
  obtain ⟨l, hl, hp⟩ := List.mem_flatMap.1 hp
  obtain ⟨q, hq, rfl⟩ := List.mem_map.1 (List.mem_filter.1 hl).1
  exact ⟨j, hj, copyLine_in_half j _ (List.fst_mem_of_mem_zipIdx (List.mem_filter.1 hq).1) hp⟩

/-- What a stop leaves of a commit copy: writes of bytes of its half, and a record. -/
theorem State.copyStop_eq (h : Tab.wf ({} : Core) s.cores = true) (c k : Nat) : ∃ w r n,
    s.copyStop c k = { (s.coreWrite c w).1 with ras := r, freeCtr := n } ∧ ∀ p ∈ w, (s.slot c k).copies c p.1 := by
  have hnone : ∃ w r n, s = { (s.coreWrite c w).1 with ras := r, freeCtr := n } ∧ ∀ p ∈ w, (s.slot c k).copies c p.1 :=
    ⟨[], s.ras, s.freeCtr, by rw [coreWrite_nil h], by simp⟩
  unfold copyStop
  dsimp only
  split
  · exact hnone
  next j hj =>
    split
    · exact hnone
    · obtain ⟨w, n, hw, hin⟩ := copySome_eq hj
      obtain ⟨n', hn⟩ := (s.copySome c (s.slot c k).sc j).pickOne_eq (s.copyBad c (s.slot c k).sc j)
      rw [hw] at hn
      split
      · exact ⟨w, s.ras, n', by rw [hw, hn]; rfl, hin⟩
      · split
        · obtain ⟨r, hr⟩ := ueMet_eq _ 0 (some (s.owner c).dom) skCore c (lineAddr (coreBase c + _))
          exact ⟨w, r, _, hr.trans (by rw [hw, hn]; rfl), hin⟩
        · exact ⟨w, _, _, by rw [hw, hn]; rfl, hin⟩

/-! ### The terminating event (R118, R120) -/

@[simp] theorem Core.dropQueued_slots (q : Core) (uid : Nat) : (q.dropQueued uid).slots = q.slots := by
  simp only [dropQueued, engineAll, List.foldl_cons, List.foldl_nil, setEng_slots]

theorem Core.dropQueued_eng (q : Core) (uid : Nat) (e : Engine) :
    (q.dropQueued uid).eng e = { q.eng e with queue := (q.eng e).queue.filter fun m => m.uid ≠ uid } := by
  cases e <;> rfl

/-- A slot whose task has met its terminating event. -/
def Slot.ended (m : Term) (x : Slot) : Slot := { x with term := some m, stopIssue := true, wait := none, copy := none, yield := none }

/-- A core after its slot's task has met its terminating event. -/
def Core.ended (q : Core) (k uid : Nat) (m : Term) : Core := (q.dropQueued uid).updSlot k (Slot.ended m)

theorem Core.ended_slot {q : Core} (h : Tab.wf ({} : Slot) q.slots = true) (m : Term) : (q.ended k uid m).slot k = (q.slot k).ended m := by
  rw [ended, slot_updSlot (by rwa [dropQueued_slots]), if_pos rfl, slot, dropQueued_slots]
  rfl

theorem Core.ended_eng (q : Core) (m : Term) (e : Engine) :
    (q.ended k uid m).eng e = { q.eng e with queue := (q.eng e).queue.filter fun m => m.uid ≠ uid } := by
  rw [← dropQueued_eng]
  cases e <;> rfl

theorem Core.ended_mem (q : Core) (m : Term) : (q.ended k uid m).mem = q.mem := mem_dropQueued q uid

/-- What a task's first terminating event leaves: its core and its tasks, the ADDs that wait no longer, and what its commit copy left. -/
structure State.Ends (s t : State) (c k uid : Nat) (m : Term) (w : List (Nat × Byte)) : Prop where
  core : ∀ c', t.core c' = if c' = c then ((s.coreWrite c w).1.core c).ended k uid m else s.core c'
  rest : ∃ r n, t = { s with cores := t.cores, ras := r, freeCtr := n, tly := (s.dropAdds uid (s.neverDone c k uid)).tly
                             sched := (s.updTask uid fun t => { t with st := .draining c k }).sched }

theorem State.terminate_ends (h : s.slotTabs c k = true) (hu : (s.slot c k).uid = some uid) (hm : (s.slot c k).term = none)
    (st ca cs : Nat) (l : Option Nat) :
    ∃ w, (∀ p ∈ w, (s.slot c k).copies c p.1) ∧ s.Ends (s.terminate c k st ca cs l) c k uid ⟨st, ca, s.dt, cs, l⟩ w := by
  obtain ⟨h1, h2, -⟩ := slotTabs_iff.1 h
  obtain ⟨w, r, n, he, hw⟩ := copyStop_eq h1 c k
  refine ⟨w, hw, ?_⟩
  have hwf : Tab.wf ({} : Core) (s.coreWrite c w).1.cores = true := wf_updCore h1 c _
  have ht : s.terminate c k st ca cs l = ((((s.copyStop c k).dropAdds uid (s.neverDone c k uid)).updCore c
      fun x => x.dropQueued uid).updSlot c k (Slot.ended ⟨st, ca, (s.copyStop c k).dt, cs, l⟩)).updTask uid
        fun t => { t with st := .draining c k } := by
    rw [terminate, hu]
    dsimp only
    rw [hm]
    rfl
  have hdt : (s.copyStop c k).dt = s.dt := by rw [he]; rfl
  rw [hdt] at ht
  refine ⟨fun c' => ?_, r, n, ?_⟩
  · have hcores : (s.copyStop c k).cores = (s.coreWrite c w).1.cores := by rw [he]
    have hd : Tab.wf ({} : Core) ((s.copyStop c k).dropAdds uid (s.neverDone c k uid)).cores = true := hcores ▸ hwf
    have hc : ∀ i, ((s.copyStop c k).dropAdds uid (s.neverDone c k uid)).core i = (s.coreWrite c w).1.core i := core_congr hcores
    rw [ht, core_congr (updTask_cores ..), core_updSlot (wf_updCore hd c _), core_updCore_self hd, core_updCore hd, hc, hc]
    split_ifs with hi
    · rfl
    · rw [coreWrite, core_updCore h1, if_neg hi]
  · rw [ht, he]
    rfl

/-- The writes of an abandoned copy lie in its half, so every other byte reads as it stood. -/
theorem State.rd_coreWrite_of_notMem (h : s.memsOk = true) {w : List (Nat × Byte)} {a : Nat} (ha : ∀ p ∈ w, coreBase c + p.1 ≠ a) :
    (s.coreWrite c w).1.rd a = s.rd a := by
  obtain ⟨h1, -⟩ := memsOk_iff.1 h
  have hplace : (s.coreWrite c w).1.place a = s.place a := rfl
  cases hp : s.place a with
  | core t off =>
    rw [rd_of_core (hplace.trans hp), rd_of_core hp, coreWrite, core_updCore h1]
    split_ifs with ht
    · subst ht
      refine congrArg BitVec.toNat (Mem.get_puts_of_notMem (memOk_core h t) fun p hw hoff => ?_)
      exact ha p (List.mem_filter.1 hw).1 (hoff ▸ ((place_eq_core_iff.1 hp).1).symm)
    · rfl
  | _ => simp only [rd, hplace, hp] <;> rfl

/-- The task that a list of tasks answers for a number has that number. -/
theorem State.uid_of_task {v : Nat} {t : Task} (h : s.task v = some t) : t.uid = v := by
  simpa using List.find?_some h

theorem State.task_updTask {v : Nat} {f : Task → Task} {y : Task} (h : (s.updTask uid f).task v = some y) (hv : v = uid) :
    ∃ x, y = f x := by
  have hy := uid_of_task h
  obtain ⟨x, -, rfl⟩ := List.mem_map.1 (List.mem_of_find?_eq_some h)
  split_ifs at hy ⊢ with hx
  · exact ⟨x, rfl⟩
  · exact absurd (hy.trans hv) hx

section
variable {t : State} {m : Term} {w : List (Nat × Byte)} (h : s.Ends t c k uid m w)
include h

theorem State.Ends.slot (htabs : s.slotTabs c k = true) : t.slot c k = (s.slot c k).ended m := by
  obtain ⟨h1, h2, -⟩ := slotTabs_iff.1 htabs
  have hq : ((s.coreWrite c w).1.core c).slots = (s.core c).slots := by rw [coreWrite, core_updCore_self h1]
  rw [State.slot, h.core, if_pos rfl, Core.ended_slot (by rwa [hq]), Core.slot, hq]
  rfl

theorem State.Ends.eng (htabs : s.slotTabs c k = true) (e : Engine) :
    (t.core c).eng e = { (s.core c).eng e with queue := ((s.core c).eng e).queue.filter fun m => m.uid ≠ uid } := by
  have heng : ((s.coreWrite c w).1.core c).eng e = (s.core c).eng e := by
    rw [coreWrite, core_updCore_self (slotTabs_iff.1 htabs).1]
    cases e <;> rfl
  rw [h.core, if_pos rfl, Core.ended_eng, heng]

theorem State.Ends.task {v : Nat} {y : Task} (hy : t.task v = some y) (hv : v = uid) : y.st = .draining c k := by
  obtain ⟨r, n, he⟩ := h.rest
  rw [he] at hy
  obtain ⟨x, rfl⟩ := task_updTask (s := s) (f := fun t => { t with st := .draining c k }) hy hv
  rfl

/-- Every byte reads as after the writes of the commit copy. -/
theorem State.Ends.rd (htabs : s.slotTabs c k = true) (a : Nat) : t.rd a = (s.coreWrite c w).1.rd a := by
  obtain ⟨r, n, he⟩ := h.rest
  refine rd_congr (by rw [he]; rfl) (by rw [he]; rfl) (fun c' => ?_) a
  rw [h.core]
  split_ifs with hc
  · rw [hc, Core.ended_mem]
  · rw [coreWrite, core_updCore (slotTabs_iff.1 htabs).1, if_neg hc]

end

/-- The first terminating event of a task, in the words of O18. -/
theorem State.terminate_spec (htabs : s.slotTabs c k = true) (hu : (s.slot c k).uid = some uid) (hterm : (s.slot c k).term = none)
    (st ca cs : Nat) (l : Option Nat) : let t := s.terminate c k st ca cs l
    let never := (s.core c).queuedOf uid ++ if (s.slot c k).copy.isSome then [(s.slot c k).commitCseq] else []
    (t.slot c k).term = some ⟨st, ca, s.dt, cs, l⟩ ∧ (t.slot c k).stopIssue = true
      ∧ { t.slot c k with
          term := none, stopIssue := (s.slot c k).stopIssue, wait := (s.slot c k).wait, copy := (s.slot c k).copy,
          yield := (s.slot c k).yield } = s.slot c k
      ∧ (∀ e, ((t.core c).eng e).run = ((s.core c).eng e).run
          ∧ ((t.core c).eng e).queue = ((s.core c).eng e).queue.filter fun m => m.uid ≠ uid)
      ∧ (∀ v y, t.task v = some y → v = uid → y.st = .draining c k)
      ∧ t.tly.ops = (s.tly.ops.filter fun o => !(o.uid == some uid && !o.isSet && never.any fun n => decide (n < o.cseq))) := by
  intro t never
  obtain ⟨w, -, hends⟩ := terminate_ends htabs hu hterm st ca cs l
  have hslot : t.slot c k = (s.slot c k).ended ⟨st, ca, s.dt, cs, l⟩ := hends.slot htabs
  obtain ⟨r, n, he⟩ := hends.rest
  refine ⟨by rw [hslot]; rfl, by rw [hslot]; rfl, ?_, fun e => ?_, fun v y hy hv => hends.task hy hv, ?_⟩
  · rw [hslot]
    exact congrArg (fun m => { s.slot c k with term := m }) hterm.symm
  · rw [hends.eng htabs]
    exact ⟨rfl, rfl⟩
  · exact (congrArg (·.tly.ops) he).trans rfl

/-- Without a commit copy a terminating event leaves every byte, and all but the core, the tallies' operations and the tasks. -/
theorem State.terminate_of_no_copy (htabs : s.slotTabs c k = true) (hu : (s.slot c k).uid = some uid)
    (hterm : (s.slot c k).term = none) (hcopy : (s.slot c k).copy = none) (st ca cs : Nat) (l : Option Nat) :
    let t := s.terminate c k st ca cs l
    (∀ a, t.rd a = s.rd a)
      ∧ { t with cores := s.cores, tly := { t.tly with ops := s.tly.ops }, sched := { t.sched with tasks := s.sched.tasks } } = s := by
  intro t
  obtain ⟨w, hw, hends⟩ := terminate_ends htabs hu hterm st ca cs l
  obtain rfl : w = [] := List.eq_nil_iff_forall_not_mem.2 fun p hp => by
    obtain ⟨j, hj, -⟩ := hw p hp
    simp [hcopy] at hj
  refine ⟨fun a => (hends.rd htabs a).trans (by rw [coreWrite_nil (slotTabs_iff.1 htabs).1]), ?_⟩
  have hstop : s.copyStop c k = s := by
    unfold copyStop
    dsimp only
    rw [hcopy]
  simp only [t, terminate, hu, hterm, hstop]
  rfl

/-- A commit copy that a terminating event abandons has written bytes of its half only. -/
theorem State.terminate_copy (htabs : s.slotTabs c k = true) (hu : (s.slot c k).uid = some uid)
    (hterm : (s.slot c k).term = none) {j : CommitJob} (hj : (s.slot c k).copy = some j) (hmem : s.memsOk = true) (st ca cs : Nat)
    (l : Option Nat) : let n := (s.slot c k).sc.halfBytes
    let h := j.cib + 64 + j.half * n
    coreBase c ≤ h → ∀ a, ¬ (h ≤ a ∧ a < h + n) → (s.terminate c k st ca cs l).rd a = s.rd a := by
  intro n h hbase a ha
  obtain ⟨w, hw, hends⟩ := terminate_ends htabs hu hterm st ca cs l
  rw [hends.rd htabs]
  refine rd_coreWrite_of_notMem hmem fun p hp hpa => ha ?_
  obtain ⟨i, hi, hlo, hhi⟩ := hw p hp
  obtain rfl : j = i := Option.some.inj (hj.symm.trans hi)
  change j.cib + 64 + j.half * n - coreBase c ≤ p.1 at hlo
  change p.1 < j.cib + 64 + j.half * n - coreBase c + n at hhi
  omega

/-! ### The stop cycle, and the end of a drained task (R120, R135 to R138) -/

theorem SolveCtl.deadlineStatus_eq (sc : SolveCtl) :
    sc.deadlineStatus = if sc.retired ∧ sc.method < 2 ∧ sc.committed ∧ sc.cv then 2 else 3 := by
  simp [deadlineStatus, and_assoc]

theorem State.retireReady_of_not_canRetire (h : s.canRetire c k = false) : s.retireReady c k = s := by
  unfold retireReady
  cases (s.slot c k).ret.length with
  | zero => rfl
  | succ n => rw [retireN, h]; rfl

theorem State.stopDue_of_le {t : Task} {d : Nat} (hd : t.deadline = some d) (hdue : d ≤ s.dt + 4000) : s.stopDue t = true := by
  simp [stopDue, hd, hdue]

theorem State.not_canRetire_of_late {t : Task} {d : Nat} (hu : (s.slot c k).uid = some uid) (ht : s.task uid = some t)
    (hd : t.deadline = some d) (hlate : d ≤ s.dt) : s.canRetire c k = false := by
  simp [canRetire, pastDeadline, hu, ht, hd, hlate]

/-- The stop cycle of a running task. -/
theorem execDeadlineStop_running {t : Task} (ht : s.task uid = some t) (hdue : s.stopDue t = true) (hst : t.st = .running c k) :
    execDeadlineStop uid s = .next ((s.retireReady c k).terminate c k ((s.retireReady c k).slot c k).sc.deadlineStatus 2
      (((s.retireReady c k).slot c k).lastRet - 1) none) := by
  simp only [execDeadlineStop, ht, hdue, hst]
  rfl

/-- The stop cycle of a parked task. -/
theorem execDeadlineStop_parked {t : Task} (ht : s.task uid = some t) (hdue : s.stopDue t = true) {p : Parked} (hst : t.st = .parked c)
    (hp : (s.core c).parkedOf uid = some p) :
    execDeadlineStop uid s = .next
      ((s.updCore c fun q => { q with parked := q.parked.filter fun r => r.slot.uid ≠ some uid }).endTask t p.slot
        ⟨p.slot.sc.deadlineStatus, 2, s.dt, p.slot.lastRet - 1, none⟩) := by
  have huid := State.uid_of_task ht
  subst huid
  simp only [execDeadlineStop, ht, hdue, hst, hp, State.endIdle]
  rfl

/-- The stop cycle of a task that waits for its dispatch. -/
theorem execUndispatchedDeadline_pending {t : Task} (ht : s.task uid = some t) (hdue : s.stopDue t = true)
    (hst : t.st = .waiting ∨ t.st = .ready) :
    execUndispatchedDeadline uid s = .next (s.endTask { t with tDisp := 0 } {} ⟨3, 3, s.dt, 0, none⟩) := by
  rcases hst with hst | hst <;>
  · have hpend : t.pending = true := by simp [Task.pending, hst]
    simp only [execUndispatchedDeadline, ht, hdue, hpend, State.endIdle, hst]
    rfl

theorem execTaskDrainComplete_drained {t : Task} (ht : s.task uid = some t) {m : Term} (hst : t.st = .draining c k)
    (hm : (s.slot c k).term = some m) (hdr : s.drained c uid = true) :
    execTaskDrainComplete uid s = .next (((s.freeSlot c k).endTask t (s.slot c k) m).noteFall c) := by
  simp only [execTaskDrainComplete, ht, hst, hdr, hm]
  rfl

/-! ### The task result record and the end of a task (R142, R380) -/

@[simp] theorem State.record_hif (s : State) (cls code : Nat) (dom : Option Nat) (skind sidx addr detail : Nat) :
    (s.record cls code dom skind sidx addr detail).hif = s.hif := by
  obtain ⟨r, hr⟩ := s.record_eq cls code dom skind sidx addr detail
  rw [hr]

@[simp] theorem State.writeAt_hif (s : State) (dom a : Nat) (l : List Byte) : (s.writeAt dom a l).hif = s.hif := by
  unfold writeAt
  dsimp only
  split
  · split_ifs
    · rfl
    · exact record_hif ..
  · split_ifs
    · rfl
    · exact record_hif ..
  · rfl

@[simp] theorem State.tallyAdd_hif (s : State) (d k n : Nat) : (s.tallyAdd d k n).hif = s.hif := by
  unfold tallyAdd tallyIssue
  split_ifs
  · rfl
  · rfl
  · exact record_hif ..

theorem length_resultRecord (t : Task) (x : Slot) (m : Term) : (resultRecord t x m).length = 96 := by
  simp [resultRecord, ExcRec.bytes, length_toLE]

theorem leNat_append (a b : List Byte) : leNat (a ++ b) = leNat a + 256 ^ a.length * leNat b := by
  induction a with
  | nil => simp [leNat]
  | cons x a ih =>
    rw [List.cons_append, leNat, leNat, ih, List.length_cons, pow_succ]
    ring

theorem leNat_lt (a : List Byte) : leNat a < 256 ^ a.length := by
  induction a with
  | nil => simp [leNat]
  | cons x a ih =>
    have := x.isLt
    rw [leNat, List.length_cons, pow_succ]
    omega

theorem leNat_toLE (n x : Nat) : leNat (toLE n x) = x % 256 ^ n := by
  induction n generalizing x with
  | zero => simp [toLE, leNat, Nat.mod_one]
  | succ n ih => rw [toLE, leNat, ih, BitVec.toNat_ofNat, pow_succ' (256 : ℕ) n, Nat.mod_mul (a := 256)]

theorem leNat_toLE_of_lt {n x : Nat} (h : x < 256 ^ n) : leNat (toLE n x) = x := by rw [leNat_toLE, Nat.mod_eq_of_lt h]

/-- A field that stands past the first bytes of a list is one of the number that the rest spells. -/
theorem natBits_leNat_append (a b : List Byte) {hi lo : Nat} (hhi : 8 * a.length ≤ hi) (hlo : 8 * a.length ≤ lo) :
    natBits (leNat (a ++ b)) hi lo = natBits (leNat b) (hi - 8 * a.length) (lo - 8 * a.length) := by
  have hw : hi + 1 - lo = hi - 8 * a.length + 1 - (lo - 8 * a.length) := by omega
  have hp : 2 ^ lo = 256 ^ a.length * 2 ^ (lo - 8 * a.length) := by
    rw [show 256 = 2 ^ 8 by decide, ← pow_mul, ← pow_add, Nat.add_sub_cancel' hlo]
  rw [leNat_append, natBits_eq_div_mod, natBits_eq_div_mod, hp, ← Nat.div_div_eq_div_mul, Nat.add_comm,
    Nat.mul_add_div (by positivity), Nat.div_eq_of_lt (leNat_lt a), Nat.add_zero, hw]

/-- The fields of a task result record past its exception record, with their places (R142). -/
def recordFields (t : Task) (x : Slot) (m : Term) : List (Nat × Nat) :=
  let sc := x.sc
  let iv := iterV sc m.status
  let np := if sc.active = 0 then sc.np0 else sc.np1
  let kk := if sc.active = 0 then sc.k0 else sc.k1
  let piv := sc.pivFirst.getD (0, ⟨0, 0, 0⟩)
  [(448, m.t % 2 ^ 64), (384, t.tDisp % 2 ^ 64), (320, if iv then np % 2 ^ 64 else 0), (272, if iv then sc.cib % 2 ^ 48 else 0),
    (256, if iv then kk else 0), (208, (m.derr.getD 0) % 2 ^ 48), (192, sc.outDone % 65536), (160, sc.innerDone % 2 ^ 32),
    (128, sc.pivCnt), (96, piv.1 % 2 ^ 32), (88, piv.2.stage % 256), (82, piv.2.col % 64), (80, piv.2.kind % 4),
    (48, m.stopCseq % 2 ^ 32), (16, t.taskId), (12, finalStatus sc m.status), (8, m.status), (4, m.cause), (3, bit iv),
    (2, if iv then sc.active else 0), (1, bit m.derr.isSome), (0, bit sc.retired)]

theorem resultRecord_eq (t : Task) (x : Slot) (m : Term) :
    resultRecord t x m = x.exc.bytes x.flags ++ toLE 64 (fields (recordFields t x m)) := rfl

theorem finalStatus_lt {sc : SolveCtl} {st : Nat} (h : st < 16) : finalStatus sc st < 16 := by
  unfold finalStatus
  split_ifs
  · decide
  · exact h

theorem ite_zero_lt {p : Prop} [Decidable p] {a n : Nat} (hn : 0 < n) (h : a < n) : (if p then a else 0) < n := by
  split_ifs
  · exact h
  · exact hn

theorem recordFields_fit {t : Task} {x : Slot} {m : Term} (hst : m.status < 16) (hca : m.cause < 16) (hact : x.sc.active < 2)
    (hk0 : x.sc.k0 < 65536) (hk1 : x.sc.k1 < 65536) (hpiv : x.sc.pivCnt < 2 ^ 32) (hid : t.taskId < 2 ^ 32) :
    FieldsFit 512 (recordFields t x m) := by
  have hkk : (if x.sc.active = 0 then x.sc.k0 else x.sc.k1) < 65536 := by split_ifs <;> assumption
  have hmod : ∀ a n : Nat, 0 < n → a % n < n := fun a n hn => Nat.mod_lt a hn
  simp only [recordFields, FieldsFit, Nat.reduceLeDiff, Nat.reduceSub, true_and, and_true]
  refine ⟨hmod _ _ (by decide), hmod _ _ (by decide), ite_zero_lt (by decide) (hmod _ _ (by decide)),
    ite_zero_lt (by decide) (hmod _ _ (by decide)), ite_zero_lt (by decide) hkk, hmod _ _ (by decide), hmod _ _ (by decide),
    hmod _ _ (by decide), hpiv, hmod _ _ (by decide), hmod _ _ (by decide), hmod _ _ (by decide), hmod _ _ (by decide),
    hmod _ _ (by decide), hid, finalStatus_lt hst, hst, hca, bit_lt_two _, ite_zero_lt (by decide) hact, bit_lt_two _, bit_lt_two _⟩

/-- A field of a task result record. -/
theorem natBits_resultRecord {t : Task} {x : Slot} {m : Term} (h : FieldsFit 512 (recordFields t x m)) {hi lo v : Nat} (n : Nat)
    (hn : (recordFields t x m)[n]? = some (lo - 256, v)) (hlo : 256 ≤ lo) (hhi' : 256 ≤ hi)
    (hhi : hi - 256 + 1 = fieldTop 512 (recordFields t x m) n) :
    natBits (leNat (resultRecord t x m)) hi lo = v := by
  have hlen : 8 * (x.exc.bytes x.flags).length = 256 := by rw [ExcRec.bytes, length_toLE]
  rw [resultRecord_eq, natBits_leNat_append _ _ (hlen ▸ hhi') (hlen ▸ hlo), hlen,
    leNat_toLE_of_lt (h.fields_lt.trans_eq (by rw [show 256 = 2 ^ 8 by decide, ← pow_mul]))]
  exact h.natBits n hn hhi

/-- The end of a task: its event is told by the settings that its record and its ADD leave as they stood. -/
theorem State.endTask_eq (s : State) (t : Task) (x : Slot) (m : Term) :
    let w := s.writeAt t.dom t.result (resultRecord t x m)
    let a := if t.doneV then w.tallyAdd t.dom t.doneTally 1 else w
    let st := finalStatus x.sc m.status
    let p := if natBits (s.domevt t.dom) 63 62 = 2 ∨ (natBits (s.domevt t.dom) 63 62 = 1 ∧ st ≠ 0)
      then a.post t.dom (natBits (s.domevt t.dom) 61 60) 2 (m.cause * 16 + st) t.job t.taskId else a
    s.endTask t x m
      = ({ p with sched := { p.sched with tasks := p.sched.tasks.filter fun u => u.uid ≠ t.uid } } : State).fenceProgress := by
  intro w a st p
  have ha : a.domevt t.dom = s.domevt t.dom := by
    have : a.hif = s.hif := by simp only [a, w, apply_ite State.hif, tallyAdd_hif, writeAt_hif, ite_self]
    rw [domevt, domevt, this]
  change (let b := if natBits (a.domevt t.dom) 63 62 = 2 ∨ (natBits (a.domevt t.dom) 63 62 = 1 ∧ st ≠ 0)
      then a.post t.dom (natBits (a.domevt t.dom) 61 60) 2 (m.cause * 16 + st) t.job t.taskId else a
    ({ b with sched := { b.sched with tasks := b.sched.tasks.filter fun u => u.uid ≠ t.uid } } : State).fenceProgress) = _
  rw [ha]

/-- Settles O18: the terminating event by `State.terminate_ends`, the stop cycle by its three rows, the record by its fields. -/
theorem tasksEndInOrder : Obligations.TasksEndInOrder := by
  refine ⟨fun s c k uid st ca cs l htabs hu => ⟨fun hterm => ?_, fun hterm => ?_⟩, fun s uid d t ht => ⟨fun hd hdue => ?_, ?_⟩,
    fun s t x m => ?_⟩
  · rw [State.terminate, hu]
    exact if_pos hterm
  · obtain ⟨h1, h2, h3, h4, h5, h6⟩ := State.terminate_spec htabs hu hterm st ca cs l
    exact ⟨h1, h2, h3, h4, h5, h6, fun hcopy => State.terminate_of_no_copy htabs hu hterm hcopy st ca cs l,
      fun j hj hmem => State.terminate_copy htabs hu hterm hj hmem st ca cs l⟩
  · have hstop := State.stopDue_of_le hd hdue
    refine ⟨fun c k hst => ⟨?_, fun hno => State.retireReady_of_not_canRetire ?_⟩, fun c p hst hp => ?_, fun hst => ?_⟩
    · rw [← SolveCtl.deadlineStatus_eq]
      exact execDeadlineStop_running ht hstop hst
    · rcases hno with hno | ⟨hu, hlate⟩
      · simp [State.canRetire, hno]
      · exact State.not_canRetire_of_late hu ht hd hlate
    · exact (execDeadlineStop_parked ht hstop hst hp).trans (by rw [SolveCtl.deadlineStatus_eq])
    · exact execUndispatchedDeadline_pending ht hstop hst
  · exact fun c k m hst hm hdr => execTaskDrainComplete_drained ht hst hm hdr
  · refine ⟨State.endTask_eq s t x m, length_resultRecord t x m, ?_⟩
    intro hst hca hact hk0 hk1 hpiv hid v
    have hfit := recordFields_fit hst hca hact hk0 hk1 hpiv hid
    refine ⟨natBits_resultRecord hfit 15 rfl (by decide) (by decide) rfl, natBits_resultRecord hfit 16 rfl (by decide) (by decide) rfl,
      natBits_resultRecord hfit 17 rfl (by decide) (by decide) rfl, natBits_resultRecord hfit 14 rfl (by decide) (by decide) rfl,
      natBits_resultRecord hfit 13 rfl (by decide) (by decide) rfl, ?_, natBits_resultRecord hfit 8 rfl (by decide) (by decide) rfl,
      natBits_resultRecord hfit 7 rfl (by decide) (by decide) rfl, natBits_resultRecord hfit 6 rfl (by decide) (by decide) rfl,
      natBits_resultRecord hfit 1 rfl (by decide) (by decide) rfl, natBits_resultRecord hfit 0 rfl (by decide) (by decide) rfl⟩
    have hpiv : (x.sc.pivFirst.map (·.1)).getD 0 = (x.sc.pivFirst.getD (0, ⟨0, 0, 0⟩)).1 := by cases x.sc.pivFirst <;> rfl
    rw [hpiv]
    exact natBits_resultRecord hfit 9 rfl (by decide) (by decide) rfl

end Sys2Proof.Machine
end

/-!
## What an event, a record and a commit can change

An event changes the host interface only, a record the error log only, and what a loop commits the plant outputs only.
-/
section

namespace Sys2Proof.Machine

variable {s : State}

theorem State.updFn_eq (s : State) (fn : Fn) (f : FnSt → FnSt) : ∃ h, s.updFn fn f = { s with hif := h } := by
  cases fn <;> exact ⟨_, rfl⟩

theorem State.updEvq_eq (s : State) (d q : Nat) (f : EvQ → EvQ) : ∃ h, s.updEvq d q f = { s with hif := h } := ⟨_, rfl⟩

/-- Changes of the host interface, one after the other. -/
theorem State.hif_trans {t u : State} (h : ∃ x, t = { s with hif := x }) (h' : ∃ x, u = { t with hif := x }) :
    ∃ x, u = { s with hif := x } := by
  obtain ⟨x, rfl⟩ := h
  obtain ⟨y, rfl⟩ := h'
  exact ⟨y, rfl⟩

theorem State.msix_eq (s : State) (fn : Fn) (vec : Nat) : ∃ h, s.msix fn vec = { s with hif := h } := by
  unfold msix
  split_ifs
  · exact updFn_eq ..
  · exact updFn_eq ..
  · exact ⟨_, rfl⟩

theorem State.signalEq_eq (s : State) (d q : Nat) : ∃ h, s.signalEq d q = { s with hif := h } := by
  unfold signalEq
  dsimp only
  split_ifs
  · exact msix_eq ..
  · split
    · exact updEvq_eq ..
    · exact hif_trans (msix_eq ..) (updEvq_eq ..)

theorem State.postAt_eq (s : State) (t d q kind code aux id : Nat) : ∃ h, s.postAt t d q kind code aux id = { s with hif := h } := by
  unfold postAt
  dsimp only
  split_ifs
  · exact ⟨_, rfl⟩
  · exact ⟨_, rfl⟩
  · exact ⟨_, rfl⟩
  · exact hif_trans (updFn_eq ..) (hif_trans (updEvq_eq ..) (signalEq_eq ..))

theorem State.post_eq (s : State) (d q kind code aux id : Nat) : ∃ h, s.post d q kind code aux id = { s with hif := h } := postAt_eq ..

theorem State.postDevice_eq (s : State) (kind code aux id : Nat) : ∃ h, s.postDevice kind code aux id = { s with hif := h } := by
  unfold postDevice
  dsimp only
  split_ifs
  · exact post_eq ..
  · exact ⟨_, rfl⟩

theorem State.commitTarget_eq (s : State) (code : Nat) (v : LoopOut) :
    ∃ p n, s.commitTarget code v = { s with pio := p, freeCtr := n } := by
  unfold commitTarget
  dsimp only
  split <;> exact ⟨_, _, rfl⟩

theorem State.loopCommit_eq (s : State) (n : Nat) (v : LoopOut) :
    ∃ l p f, s.loopCommit n v = { s with loop := l, pio := p, freeCtr := f } := by
  unfold loopCommit
  dsimp only
  split_ifs
  · exact ⟨_, _, _, rfl⟩
  · obtain ⟨p, f, h⟩ := commitTarget_eq (s.updLoop n fun x => { x with inhib := !s.loop.auth }) (s.loopSlot n).target v
    exact ⟨_, p, f, h⟩
  · exact ⟨_, _, _, rfl⟩

theorem State.loopSafe_eq (s : State) (n : Nat) : ∃ l p f, s.loopSafe n = { s with loop := l, pio := p, freeCtr := f } := by
  unfold loopSafe
  split
  · exact loopCommit_eq ..
  · exact ⟨_, _, _, rfl⟩

@[simp] theorem State.postAt_time (s : State) (t d q kind code aux id : Nat) : (s.postAt t d q kind code aux id).time = s.time := by
  obtain ⟨h, e⟩ := s.postAt_eq t d q kind code aux id
  rw [e]

@[simp] theorem State.postDevice_time (s : State) (kind code aux id : Nat) : (s.postDevice kind code aux id).time = s.time := by
  obtain ⟨h, e⟩ := s.postDevice_eq kind code aux id
  rw [e]

@[simp] theorem State.loopCommit_time (s : State) (n : Nat) (v : LoopOut) : (s.loopCommit n v).time = s.time := by
  obtain ⟨l, p, f, e⟩ := s.loopCommit_eq n v
  rw [e]

@[simp] theorem State.loopSafe_time (s : State) (n : Nat) : (s.loopSafe n).time = s.time := by
  obtain ⟨l, p, f, e⟩ := s.loopSafe_eq n
  rw [e]

@[simp] theorem State.setAuth_time (s : State) (on : Bool) : (s.setAuth on).time = s.time := by
  unfold setAuth
  cases on <;> rfl

@[simp] theorem State.authTake_time (s : State) (on : Bool) : (s.authTake on).time = s.time := by
  unfold authTake
  split_ifs
  · rfl
  · rw [postDevice_time, setAuth_time]

@[simp] theorem State.authAtCommit_time (s : State) : s.authAtCommit.time = s.time := by
  unfold authAtCommit
  split
  · exact authTake_time ..
  · rfl

/-- A property of every state that a loop over a list passes through. -/
theorem foldl_keeps {α β : Type} {P : α → Prop} {f : α → β → α} (hf : ∀ a b, P a → P (f a b)) (l : List β) {a : α} (h : P a) :
    P (l.foldl f a) := by
  induction l generalizing a with
  | nil => exact h
  | cons b l ih => exact ih (hf a b h)

theorem foldl_time {β : Type} {f : State → β → State} (hf : ∀ s b, (f s b).time = s.time) (l : List β) (s : State) :
    (l.foldl f s).time = s.time :=
  foldl_keeps (P := fun t => t.time = s.time) (fun t b h => (hf t b).trans h) l rfl

end Sys2Proof.Machine

end

/-! ## O41: grid instants are frozen, loops sample by their laws and commit (R287, R290, R293, R296 to R299) -/
section

namespace Sys2Proof.Machine

/-! ### One sample (R296 to R299) -/

/-- A list with its places, by its places alone. -/
theorem zipIdx_eq_map_range {α : Type} (l : List α) (d : α) : l.zipIdx = (List.range l.length).map fun i => (l.getD i d, i) := by
  refine List.ext_getElem (by simp) fun i h1 h2 => ?_
  have hi : i < l.length := by simpa using h1
  simp [hi]

theorem getD_map_range {α : Type} (f : Nat → α) (n i : Nat) (d : α) (h : i < n) : ((List.range n).map f).getD i d = f i := by
  simp [h]

theorem LoopSlot.due_iff (x : LoopSlot) (k t : Nat) :
    x.due k t = true ↔ (x.st = .armed ∧ x.tAcc + 5000 ≤ t ∨ x.st = .ramp ∨ x.st = .closed) ∧ 0 < x.period ∧ k % x.period = x.phase := by
  simp only [due, live, Bool.and_eq_true, Bool.or_eq_true, beq_iff_eq, decide_eq_true_eq]
  constructor
  · rintro ⟨⟨⟨hst, hp⟩, hk⟩, hacc⟩
    refine ⟨?_, hp, hk⟩
    rcases hst with (hst | hst) | hst
    · exact .inl ⟨hst, hacc.resolve_left fun h => h hst⟩
    · exact .inr (.inl hst)
    · exact .inr (.inr hst)
  · rintro ⟨⟨hst, hacc⟩ | hst | hst, hp, hk⟩
    · exact ⟨⟨⟨.inl (.inl hst), hp⟩, hk⟩, .inr hacc⟩
    · exact ⟨⟨⟨.inl (.inr hst), hp⟩, hk⟩, .inl (by simp [hst])⟩
    · exact ⟨⟨⟨.inr hst, hp⟩, hk⟩, .inl (by simp [hst])⟩

theorem any_isNone_iff {raws : List (Option Int)} : raws.any (·.isNone) = true ↔ none ∈ raws := by
  simp [List.any_eq_true]

/-- The trips of a sample, in their order, and its law. -/
theorem LoopSlot.sample_eq (x : LoopSlot) (raws : List (Option Int)) (stuck ok : Bool) (u j t : Nat) :
    let y := if x.st = .armed then { x with st := if x.rampN = 0 then .closed else .ramp } else x
    let c := if j = 0 ∧ x.spsrc = 0 then y.consume t else (y, false, false)
    let z := c.1.compute (x.st == .armed) (raws.map (·.getD 0)) u j
    x.sample raws stuck ok u j t =
      if x.bad = true then (y.trip 5, 1)
      else if x.spsrc = 1 ∧ ok = false then (y.trip 6, 1)
      else if none ∈ raws then (y.trip 3, 1)
      else if stuck = true then (y.trip 4, 1)
      else if c.2.2 = true then (c.1.trip 2, 1)
      else (z, bit c.2.1 + bit (z.st == .tripped)) := by
  intro y c z
  have hy : (if (x.st == .armed) = true then { x with st := if x.rampN = 0 then .closed else .ramp } else x) = y := by
    simp only [beq_iff_eq, y]
  have hb : y.bad = x.bad := by simp only [y]; split_ifs <;> rfl
  have hs : y.spsrc = x.spsrc := by simp only [y]; split_ifs <;> rfl
  rw [sample]
  dsimp only
  rw [hy, hb, hs]
  simp only [Bool.and_eq_true, decide_eq_true_eq, Bool.not_eq_true', any_isNone_iff]
  rfl

/-! ### The law of a sample (R296, R298, R308) -/

section
variable (x : LoopSlot) (first : Bool) (raws : List Int) (pu j : Nat)

/-- The measured states of a sample. -/
def LoopSlot.mea (i : Nat) : Nat := hAdd (hMul (hCvt (raws.getD i 0)) (hfLo (x.msc i))) (hfHi (x.msc i))

/-- The reference of a measured state. -/
def LoopSlot.refAt (i : Nat) : Nat :=
  let c := x.cur.getD ⟨0, 0, 0, 0, 0, 0, 0, false⟩
  if x.spsrc = 1 then pu else if x.spsrc = 2 then hfLo x.osc
  else if x.law < 2 then hAdd c.v0 (hMul (hCvt j) c.v1) else [c.v0, c.v1, c.v2].getD i 0

/-- The feed-forward of a sample. -/
def LoopSlot.feedForward : Nat :=
  let c := x.cur.getD ⟨0, 0, 0, 0, 0, 0, 0, false⟩
  if x.spsrc = 1 ∨ x.spsrc = 2 then 0 else if x.law < 2 then c.v2 else c.v3

theorem LoopSlot.nm_le_three : x.nm ≤ 3 := by
  have hnx : x.nx < 4 := by
    rw [nx, natBits_eq_div_mod]
    exact Nat.mod_lt _ (by decide)
  unfold nm
  split_ifs <;> omega

theorem LoopSlot.nm_of_law (h : x.law ≠ 2) : x.nm = 1 := if_neg h

/-- A loop has a reference for each of its measured states, and its feed-forward. -/
theorem LoopSlot.refs_eq (h2 : x.law = 2 → x.spsrc = 0) : x.refs pu j = ((List.range x.nm).map (x.refAt pu j), x.feedForward) := by
  have hone : x.law ≠ 2 → ∀ f : Nat → Nat, (List.range x.nm).map f = [f 0] := fun h f => by rw [x.nm_of_law h]; rfl
  unfold refs feedForward refAt
  dsimp only
  split
  next h =>
    rw [hone fun e => by simp [h2 e] at h]
    simp only [h, if_pos, true_or]
  next h =>
    rw [hone fun e => by simp [h2 e] at h]
    simp only [h, if_pos, or_true, OfNat.ofNat_ne_one, if_false]
  next h1 h2 =>
    rw [if_neg (not_or.2 ⟨h1, h2⟩)]
    simp only [if_neg (show ¬ x.spsrc = 1 from h1), if_neg (show ¬ x.spsrc = 2 from h2)]
    split_ifs with hlaw
    · rw [hone (by omega)]
    · refine congrArg (·, _) (List.ext_getElem ?_ fun i hi hi' => ?_)
      · have := x.nm_le_three
        simp only [List.length_take, List.length_cons, List.length_nil, List.length_map, List.length_range]
        omega
      · simp only [List.length_map, List.length_range] at hi'
        have hi3 : i < 3 := by have := x.nm_le_three; omega
        simp [hi3]

end

theorem isNaN_iff (b : Nat) : isNaN b = true ↔ hfVal b = .nan := by simp [isNaN]

theorem LoopSlot.compute_eq (x : LoopSlot) (first : Bool) (raws : List Int) (pu j : Nat) (hlen : raws.length = x.nm) (hnm : 0 < x.nm)
    (h2 : x.law = 2 → x.spsrc = 0) :
    let mea := x.mea raws
    let x0 := if first then (List.range x.nm).map mea else x.x0
    let m := if first then 0 else x.m
    let usat := if first then 0 else x.usat
    let acc := if first then x.i0.toInt else x.integ
    let ref := x.refAt pu j
    let r := fun (i : Nat) => if x.st = .ramp then
        hAdd (x0.getD i 0) (hMul (hDiv (hCvt m) (hCvt x.rampN)) (hSub (ref i) (x0.getD i 0))) else ref i
    let ff := x.feedForward
    let e := hSub (r 0) (mea 0)
    let inc := qOfH x.ifrac (hMul (hfLo x.g0) e)
    let held := x.aw = true ∧ ((0 < usat ∧ 0 < inc) ∨ (usat < 0 ∧ inc < 0))
    let next := if held then acc else max x.imin.toInt (min x.imax.toInt (acc + inc))
    let yprev := if first then mea 0 else x.yprev
    let der := if first then 0 else x.d
    let d := if x.law = 1 then hAdd (hMul (hfHi x.g1) der) (hMul (hfLo x.g1) (hSub yprev (mea 0))) else der
    let p := if x.law < 2 then hAdd ff (hMul (hfHi x.g0) e)
      else (List.range x.nm).foldl (fun a i => hAdd a (hMul (x.gain i) (hSub (r i) (mea i)))) ff
    let q := hAdd p (hOfQ x.ifrac next)
    let out := if x.law = 1 then hAdd q d else q
    let low := hfCmp 0 out (hfLo x.lim)
    let high := hfCmp 4 out (hfHi x.lim)
    let h := if hfCmp 1 (e % 2 ^ 23) (hfHi x.heel) = true then 0 else satAdd 16 x.hcnt 1
    x.compute first raws pu j =
      if hfVal e = .nan ∨ hfVal out = .nan then { x with st := .tripped, cause := 5, openAt := none }
      else if x.htime < h then { x with hcnt := h, st := .tripped, cause := 1, openAt := none }
      else { x with
        u := if low then hPosZero (hfLo x.lim) else if high then hPosZero (hfHi x.lim) else out
        usat := if low then -1 else if high then 1 else 0
        usatBit := low || high
        e := e, integ := next, d := d, x0 := x0, hcnt := h
        ihold := decide (held ∨ next ≠ acc + inc)
        yprev := if x.law = 1 then mea 0 else yprev
        rlast := (List.range x.nm).map r
        m := if x.st = .ramp then m + 1 else m
        st := if x.st = .ramp ∧ m + 1 = x.rampN then .closed else x.st } := by
  intro mea x0 m usat acc ref r ff e inc held next yprev der d p q out low high h
  unfold compute
  extract_lets xs xi yp₀ x0₀ rf w r₀ e₀ inc₀ held₀ sum clamped next₀ d₀ yp₁ s1 s2 out₀ umin umax low₀ high₀ h₀ m₁
  have hxs : xs = (List.range x.nm).map mea := by
    simp only [xs, mea, zipIdx_eq_map_range raws 0, hlen, List.map_map]
    rfl
  have hxi : ∀ i, i < x.nm → xi i = mea i := fun i hi => by simp only [xi, hxs, getD_map_range mea _ _ _ hi]
  have hyp₀ : yp₀ = yprev := by simp only [yp₀, yprev, hxi 0 hnm]
  have hx0 : x0₀ = x0 := by simp only [x0₀, x0, hxs]
  have hr₀ : r₀ = (List.range x.nm).map r := by
    simp only [r₀, rf, x.refs_eq pu j h2, zipIdx_eq_map_range _ 0, List.length_map, List.length_range, List.map_map, hx0]
    split_ifs with hst
    · refine List.map_congr_left fun i hi => ?_
      simp only [Function.comp, getD_map_range _ _ _ _ (List.mem_range.1 hi), r, if_pos hst, w, ref]
    · exact List.map_congr_left fun i _ => (if_neg hst).symm
  have he : e₀ = e := by simp only [e₀, e, hr₀, getD_map_range r _ _ _ hnm, hxi 0 hnm]
  have hinc : inc₀ = inc := by simp only [inc₀, inc, he]
  have hheld : held₀ = true ↔ held := by
    simp only [held₀, held, hinc, Bool.and_eq_true, Bool.or_eq_true, decide_eq_true_eq]
  have hnext : next₀ = next := by simp only [next₀, next, hheld, clamped, sum, hinc]
  have hd : d₀ = d := by simp only [d₀, d, hyp₀, hxi 0 hnm]
  have hs1 : s1 = p := by
    simp only [s1, p, he, rf, x.refs_eq pu j h2, hr₀, zipIdx_eq_map_range _ 0, List.length_map, List.length_range, List.foldl_map]
    split_ifs with hlaw
    · rfl
    · refine List.foldl_ext _ _ _ fun a i hi => ?_
      have hi := List.mem_range.1 hi
      rw [getD_map_range r _ _ _ hi, hxi i hi]
  have hout : out₀ = out := by simp only [out₀, out, s2, q, hs1, hnext, hd]
  have hlow : low₀ = low := by simp only [low₀, low, hout, umin]
  have hhigh : high₀ = high := by simp only [high₀, high, hout, umax]
  have hh : h₀ = h := by simp only [h₀, h, he]
  have hst : (x.st = .ramp ∧ m₁ = x.rampN) ↔ (x.st = .ramp ∧ m + 1 = x.rampN) :=
    and_congr_right fun e => by simp only [m₁, if_pos e]
  have hhold : (held₀ || decide (clamped ≠ sum)) = decide (held ∨ next ≠ acc + inc) := by
    have hc : clamped = max x.imin.toInt (min x.imax.toInt sum) := rfl
    have hs : sum = acc + inc := by simp only [sum, hinc]
    by_cases hb : held
    · simp [hb, hheld.2 hb]
    · have hnb : next = clamped := by simp only [next, if_neg hb, hc, hs]
      have hb' : held₀ = false := by simpa using mt hheld.1 hb
      simp only [hb', hb, hnb, hs, Bool.false_or, false_or]
  simp only [Bool.or_eq_true, isNaN_iff, he, hout, hh, hhold, hlow, hhigh, hnext, hd, hx0, hr₀, hst, trip, yp₁, hyp₀, hxi 0 hnm, umin, umax]
  rfl

/-- The integrator stays between its clamps. -/
theorem LoopSlot.compute_integ (x : LoopSlot) (first : Bool) (raws : List Int) (pu j : Nat) (hlo : x.imin.toInt ≤ x.i0.toInt)
    (hhi : x.i0.toInt ≤ x.imax.toInt) (hlo' : x.imin.toInt ≤ x.integ) (hhi' : x.integ ≤ x.imax.toInt) :
    x.imin.toInt ≤ (x.compute first raws pu j).integ ∧ (x.compute first raws pu j).integ ≤ x.imax.toInt := by
  have hacc : x.imin.toInt ≤ (if first then x.i0.toInt else x.integ) ∧ (if first then x.i0.toInt else x.integ) ≤ x.imax.toInt := by
    split_ifs <;> exact ⟨by assumption, by assumption⟩
  have hclamp : ∀ a : Int, x.imin.toInt ≤ max x.imin.toInt (min x.imax.toInt a) ∧ max x.imin.toInt (min x.imax.toInt a) ≤ x.imax.toInt :=
    fun a => ⟨le_max_left _ _, max_le (hlo.trans hhi) (min_le_left _ _)⟩
  unfold compute
  extract_lets xs xi integ d yprev usat m x0 rf w r e inc held sum clamped next
  have hnext : x.imin.toInt ≤ next ∧ next ≤ x.imax.toInt := by
    simp only [next]
    split_ifs
    · exact hacc
    · exact hclamp sum
  split
  · exact ⟨hlo', hhi'⟩
  · split
    · exact ⟨hlo', hhi'⟩
    · exact hnext

/-! ### The sweep and its commit (R290) -/

variable {s : State}

theorem sweepOne_n (z : State) (k t : Nat) (p : State × Sweep) (n : Nat) :
    (sweepOne z k t p n).2.n = p.2.n + 1 ∧ (sweepOne z k t p n).2.t = p.2.t := ⟨rfl, rfl⟩

theorem foldl_sweepOne (z : State) (k t : Nat) (l : List Nat) (p : State × Sweep) :
    (l.foldl (sweepOne z k t) p).2.n = p.2.n + l.length ∧ (l.foldl (sweepOne z k t) p).2.t = p.2.t := by
  induction l generalizing p with
  | nil => exact ⟨rfl, rfl⟩
  | cons n l ih =>
    obtain ⟨hn, ht⟩ := sweepOne_n z k t p n
    obtain ⟨ihn, iht⟩ := ih (sweepOne z k t p n)
    rw [List.foldl_cons, List.length_cons]
    exact ⟨by rw [ihn, hn]; omega, iht.trans ht⟩

theorem Sweep.commitAt_bounds (w : Sweep) : 100000 * w.commitAt < 100000 * (w.t + 1000) + 1953125 * w.n + 100000
    ∧ 100000 * (w.t + 1000) + 1953125 * w.n ≤ 100000 * w.commitAt := by
  unfold Sweep.commitAt
  omega

/-! ### The freeze of a grid instant (R290, R293) -/

/-- Two states that differ at most in the capture inputs and the error log. -/
def State.sameButCaps (s t : State) : Prop := ∃ caps ras, t = { s with pio := { s.pio with caps := caps }, ras := ras }

theorem State.sameButCaps.refl (s : State) : s.sameButCaps s := ⟨_, _, rfl⟩

theorem State.sameButCaps.trans {s t u : State} (h : s.sameButCaps t) (h' : t.sameButCaps u) : s.sameButCaps u := by
  obtain ⟨c, r, rfl⟩ := h
  obtain ⟨c', r', rfl⟩ := h'
  exact ⟨c', r', rfl⟩

theorem State.sameButCaps_updCap (s : State) (n : Nat) (f : CapSt → CapSt) : s.sameButCaps (s.updCap n f) := ⟨_, _, rfl⟩

theorem State.sameButCaps_pioRecord (s : State) (cls code u addr : Nat) : s.sameButCaps (s.pioRecord cls code u addr) := by
  obtain ⟨r, hr⟩ := s.record_eq cls code (s.pioDom u) skPio u addr 0
  exact ⟨s.pio.caps, r, hr⟩

theorem State.sameButCaps_encSettle (s : State) (n t : Nat) : s.sameButCaps (s.encSettle n t) := by
  unfold encSettle
  split_ifs
  · exact foldl_keeps (P := s.sameButCaps) (fun u _ h => h.trans (u.sameButCaps_pioRecord ..)) _ (s.sameButCaps_updCap ..)
  · exact .refl s

theorem State.sameButCaps_latchCaps (s : State) (t : Nat) : s.sameButCaps (s.latchCaps t) := by
  refine foldl_keeps (P := s.sameButCaps) (fun u n h => ?_) _ (.refl s)
  split_ifs
  · exact h.trans ((u.sameButCaps_encSettle n t).trans (sameButCaps_updCap ..))
  · exact h

theorem State.freezeAt_frozen (s : State) (k t : Nat) :
    (s.freezeAt k t).loop.frozen = s.loop.frozen ++ [⟨t, k, s.pio.own, (s.latchCaps t).pio.caps, s.pio.rxf, s.pio.dins⟩] := by
  obtain ⟨c, r, h⟩ := s.sameButCaps_latchCaps t
  simp only [freezeAt, h]

theorem State.gridPassed_of_at {k old : Nat} (hacts : s.var.acts = true) (hold : old = s.loop.base.toNat + 5000 * k)
    (hdt : s.dt = old + 1) : s.gridPassed old = some (k, old) := by
  have hk : (s.dt - 1 - s.loop.base.toNat) / 5000 = k := by omega
  unfold gridPassed
  dsimp only
  rw [hk, if_pos ⟨by omega, by omega, hacts⟩, hold]

theorem State.step_at_grid {k : Nat} (hp : s.pending = []) (hrun : s.time.running = true) (hacts : s.var.acts = true)
    (ht : s.dt = s.loop.base.toNat + 5000 * k) (hu : ({ s.tickDie with time := s.time.tick.settle } : State).dt = s.dt + 1) :
    step s = .next (({ s.tickDie with time := s.time.tick.settle } : State).freezeAt k s.dt).ringsFlush := by
  have hpass : ({ s.tickDie with time := s.tickDie.time.tick.settle } : State).gridPassed s.tickDie.dt = some (k, s.dt) :=
    gridPassed_of_at (s := { s.tickDie with time := s.tickDie.time.tick.settle }) hacts ht hu
  rw [step_of_pending_nil hp, idle_of_running hrun, cycle_eq, hpass]
  rfl

theorem foldl_ite_contains {α : Type} (l : List (Nat × LoopOut)) (o : List Nat) (f : α → Nat × LoopOut → α) (a : α) :
    l.foldl (fun s p => if o.contains p.1 then s else f s p) a = (l.filter fun p => !o.contains p.1).foldl f a := by
  rw [List.foldl_filter]
  refine List.foldl_ext _ _ _ fun a p _ => ?_
  cases o.contains p.1 <;> rfl

/-- The slots that a sweep opens, and those that owe their output a safe value. -/
def Sweep.opens (w : Sweep) (a : State) : List Nat :=
  (a.loop.slots.filter fun p => p.2.live && p.2.openAt.any (fun b => decide (b + 5000 ≤ w.t))).map (·.1)
def State.safes (a : State) : List Nat := (a.loop.slots.filter fun p => p.2.safeDue).map (·.1)

/-- A slot's output by SAFE where it owes it, and as it opens. -/
def State.settleSlot (s : State) (n : Nat) : State := (s.loopSafe n).updLoop n fun x => { x with safeDue := false }
def State.openSlot (s : State) (n : Nat) : State := (s.loopSafe n).updLoop n fun x => { x with st := .open_, openAt := none }

/-- The outputs of a sweep's commit (R294, R295). -/
def Sweep.outputs (w : Sweep) (a : State) : State :=
  (w.opens a).foldl State.openSlot (w.trips.foldl (fun s p => s.loopSafe p.1)
    ((w.outs.filter fun p => !(w.opens a).contains p.1).foldl (fun s p => s.loopCommit p.1 p.2) (a.safes.foldl State.settleSlot a)))

/-- The tallies and events of a sweep's commit (R306). -/
def Sweep.events (w : Sweep) (s : State) : State :=
  w.trips.foldl (fun s p => s.post (s.loopSlot p.1).dom (natBits (s.domevt (s.loopSlot p.1).dom) 57 56) 4 p.2 0 p.1)
    (w.evSlots.foldl State.loopEvent (w.outerSlots.foldl (fun s n => (s.loopOuter n).snapshot n) s))

@[simp] theorem State.settleSlot_time (s : State) (n : Nat) : (s.settleSlot n).time = s.time :=
  (updLoop_time ..).trans (loopSafe_time ..)
@[simp] theorem State.openSlot_time (s : State) (n : Nat) : (s.openSlot n).time = s.time :=
  (updLoop_time ..).trans (loopSafe_time ..)

theorem Sweep.outputs_time (w : Sweep) (a : State) : (w.outputs a).time = a.time := by
  have hsafe : ∀ (u : State) (p : Nat × Nat), (u.loopSafe p.1).time = u.time := fun u p => u.loopSafe_time p.1
  have hcommit : ∀ (u : State) (p : Nat × LoopOut), (u.loopCommit p.1 p.2).time = u.time := fun u p => u.loopCommit_time p.1 p.2
  rw [outputs, foldl_time State.openSlot_time, foldl_time hsafe, foldl_time hcommit, foldl_time State.settleSlot_time]

theorem execLoopCommit_due {w : Sweep} (hs : s.loop.sweep = some w) (hdt : w.commitAt ≤ s.dt) :
    let a := ({ s with loop := { s.loop with sweep := none } } : State).authAtCommit
    execLoopCommit s = .next (w.events ((w.outputs a).mapsDue w.k s.dt)).loopProgress := by
  intro a
  have ht : s.dt = (w.outputs a).dt := congrArg Time.dt ((w.outputs_time a).trans (State.authAtCommit_time _)).symm
  rw [ht, Sweep.outputs, ← foldl_ite_contains]
  simp only [execLoopCommit, hs, if_neg (Nat.not_lt.2 hdt)]
  rfl

/-- Settles O41: the law by `LoopSlot.compute_eq`, the trips by `LoopSlot.sample_eq`, the instants by `State.step_at_grid`. -/
theorem loopsSampleAndCommit : Obligations.LoopsSampleAndCommit := by
  refine ⟨?_, ?_, Sweep.commitAt_bounds, ?_, LoopSlot.due_iff, fun x raws stuck ok u j t => LoopSlot.sample_eq x raws stuck ok u j t,
    fun x first raws pu j hlen hnm h2 => LoopSlot.compute_eq x first raws pu j hlen hnm h2, LoopSlot.compute_integ⟩
  · intro s k u t hp hrun hacts ht hu
    exact ⟨by rw [← ht]; exact State.step_at_grid hp hrun hacts ht (ht ▸ hu), u.freezeAt_frozen k t⟩
  · intro s f rest due p t hf hs
    obtain ⟨hn, ht⟩ := foldl_sweepOne (s.seen f) f.k f.t due (s, ⟨f.t, f.k, 0, [], [], [], []⟩)
    refine ⟨?_, hn.trans (Nat.zero_add _), ht⟩
    change execGridInstant s = _
    rw [execGridInstant, hf]
    dsimp only
    rw [hs]
    rfl
  · intro s w hs hdt a opens safes o1 o2 o3 o4 e1 e2 e3
    change execLoopCommit s = _
    exact execLoopCommit_due hs hdt

end Sys2Proof.Machine
end

/-!
## Doorbells, rings and their descriptors, and a fetch that times out (R369 to R377)
-/
section

namespace Sys2Proof.Machine

variable {s : State} {fn : Fn} {d r : Nat}

theorem hasRing_of_lt (hd : d < 16) (hr : r < 16) : hasRing d r = true := by simp [hasRing, hd, hr]

/-! ### Doorbells -/

theorem State.pageTakes_true (hd : s.isDriver fn d = true) (hi : s.ideBlocks fn = false) : s.pageTakes fn d true = true := by
  simp [pageTakes, ideFilters_true, hd, hi]

theorem State.pageTakes_of_filtered (h : s.isDriver fn d = false ∨ s.ideBlocks fn = true) (ide : Bool) : s.pageTakes fn d ide = false := by
  rcases h with h | h
  · simp [pageTakes, h]
  · obtain ⟨hr, ha⟩ : s.ideReq fn = true ∧ s.anySecure fn = false := by simpa [ideBlocks] using h
    simp [pageTakes, ideFilters, hr, ha]

theorem State.pageTakes_of_not_ide (h : s.ideReq fn = true) : s.pageTakes fn d false = false := by simp [pageTakes, ideFilters, h]

theorem State.pageTakes_of_no_ideReq (h : s.ideReq fn = false) : s.pageTakes fn d false = s.pageTakes fn d true := by
  simp [pageTakes, ideFilters, h]

theorem sqTailWrite_filtered (hd : d < 16) (hr : r < 16) (ha : s.fnAnswers fn = true) {ide : Bool} (hp : s.pageTakes fn d ide = false)
    (v : Word) : exec (.sqTailWrite fn d r v ide) s = .next s.filtered := by
  change execSqTailWrite fn d r v ide s = _
  simp [execSqTailWrite, hasRing_of_lt hd hr, ha, hp]

theorem eqHeadWrite_filtered {q : Nat} (hd : d < 16) (hq : q < 4) (ha : s.fnAnswers fn = true) {ide : Bool}
    (hp : s.pageTakes fn d ide = false) (v : Word) : exec (.eqHeadWrite fn d q v ide) s = .next s.filtered := by
  change execEqHeadWrite fn d q v ide s = _
  simp [execEqHeadWrite, hd, hq, ha, hp]

theorem tallyAdd_filtered (hd : d < 16) (ha : s.fnAnswers fn = true) {ide : Bool} (hp : s.pageTakes fn d ide = false)
    (v : Word) : exec (.tallyAdd fn d v ide) s = .next s.filtered := by
  change execTallyAdd fn d v ide s = _
  simp [execTallyAdd, hd, ha, hp]

/-- Settles O23: what a doorbell page takes, and what it filters. -/
theorem doorbellsAreTaken : Obligations.DoorbellsAreTaken := by
  intro s fn d v hd ha
  refine ⟨fun hdr hi => ?_, fun h q ide hq => ?_, fun h q hq => ?_, fun h q hq => ?_⟩
  · have hp := State.pageTakes_true hdr hi
    refine ⟨fun r hr hv => ?_, fun r hr hv => ?_, fun q hq hv => ?_, fun q hq hv => ?_, ?_⟩
    · change execSqTailWrite fn d r v true s = _
      simp [execSqTailWrite, hasRing_of_lt hd hr, ha, hp, hv]
    · change execSqTailWrite fn d r v true s = _
      simp [execSqTailWrite, hasRing_of_lt hd hr, ha, hp, hv, State.badDoorbell, skFn]
    · change execEqHeadWrite fn d q v true s = _
      simp [execEqHeadWrite, hd, hq, ha, hp, hv]
    · change execEqHeadWrite fn d q v true s = _
      simp [execEqHeadWrite, hd, hq, ha, hp, hv, State.badDoorbell, skFn]
    · rintro k rfl hz
      change execTallyAdd fn d v true s = _
      simp [execTallyAdd, hd, ha, hp, hz, State.tallyAdd]
  · have hp := State.pageTakes_of_filtered h ide
    exact ⟨sqTailWrite_filtered hd (by omega) ha hp v, eqHeadWrite_filtered hd hq ha hp v, tallyAdd_filtered hd ha hp v⟩
  · have hp : s.pageTakes fn d false = false := State.pageTakes_of_not_ide h
    exact ⟨sqTailWrite_filtered hd (by omega) ha hp v, eqHeadWrite_filtered hd hq ha hp v, tallyAdd_filtered hd ha hp v⟩
  · have hp : s.pageTakes fn d false = s.pageTakes fn d true := State.pageTakes_of_no_ideReq h
    refine ⟨?_, ?_, ?_⟩
    · change execSqTailWrite fn d q v false s = execSqTailWrite fn d q v true s
      rw [execSqTailWrite, hp, execSqTailWrite]
    · change execEqHeadWrite fn d q v false s = execEqHeadWrite fn d q v true s
      rw [execEqHeadWrite, hp, execEqHeadWrite]
    · change execTallyAdd fn d v false s = execTallyAdd fn d v true s
      rw [execTallyAdd, hp, execTallyAdd]

/-! ### The life of a descriptor -/

/-- The fields of a status that fit their places. -/
theorem statusBytes_fit (t index ring hres result : Nat) : FieldsFit 128 [(127, 1), (64, t % 2 ^ 63), (48, index % 65536), (44, ring % 16),
    (24, hres % 256), (0, if hres = 0 then result % 2 ^ 24 else 0)] := by
  have hres' : (if hres = 0 then result % 2 ^ 24 else 0) < 2 ^ 24 := by split_ifs <;> omega
  simp only [FieldsFit, and_true]
  omega

theorem leNat_statusBytes (t index ring hres result : Nat) : leNat (statusBytes t index ring hres result) = fields [(127, 1),
    (64, t % 2 ^ 63), (48, index % 65536), (44, ring % 16), (24, hres % 256), (0, if hres = 0 then result % 2 ^ 24 else 0)] :=
  leNat_toLE_of_lt (statusBytes_fit ..).fields_lt

theorem ownByte_toNat (t : Nat) : (ownByte t).toNat = t / 2 ^ 56 % 128 := by
  rw [ownByte, BitVec.toNat_ofNat]
  omega

/-- OWN in the last byte of a descriptor. -/
theorem own_eq (bs : List Byte) (b : Bool) (h : (bs.getD 63 0).toNat / 128 % 2 = bit b) : natBit (bs.getD 63 0).toNat 7 = b := by
  rw [natBit_eq_decide]
  cases b <;> simpa [bit] using h

/-- The descriptor that a ring accepts. -/
def State.acceptedCmd (s : State) (x : Ring) (bs : List Byte) : HostCmd :=
  { index := x.head, bytes := bs.take 48, st := .fresh, seq := s.hif.accepted, locked := s.sec.lock, ctl := s.hif.holder == some x.fn }

theorem HostCmd.begin_eq (h : HostCmd) (store : Bool) (t : Nat) : h.begin store t =
    if store = false ∧ (h.cls = 3 ∨ (h.cls = 2 ∧ h.op = 0x10)) then .fresh
    else if h.hres ≠ 0 then .done h.hres 0 t else match h.badOp with
      | some e => .done 0 e t
      | none => .fresh := by
  cases store <;> simp [HostCmd.begin] <;> rfl

/-- Settles O21: fetch, acceptance, and the two writes of the completion, each by its own row. -/
theorem hostDescriptorsAreCarriedOut : Obligations.HostDescriptorsAreCarriedOut := by
  intro s d r hd hr x
  have hring := hasRing_of_lt hd hr
  refine ⟨fun h1 h2 h3 h4 h5 h6 h7 => ?_, fun bs h1 h2 h3 => ?_, fun bs h1 h2 h3 => ?_, fun h ha hb => ?_, fun h e v t h1 h2 h3 h4 => ?_,
    fun h e v t h1 h2 h3 h4 => ?_⟩
  · have hm : x.mayRead = true := by simp [Ring.mayRead, h1, h2, h3, h4, h5, h6]
    change execSqDescriptorFetch d r s = _
    simp only [execSqDescriptorFetch, hring, hm, h7, Bool.not_true, Bool.false_eq_true, if_false, show s.ring d r = x from rfl]
  · refine ⟨{ s.acceptedCmd x bs with st := (s.acceptedCmd x bs).begin s.boot.store s.dt }, rfl, rfl, rfl, rfl, rfl, ?_,
      HostCmd.begin_eq ..⟩
    change execSqDescriptorReturn d r (.data bs) s = _
    simp only [execSqDescriptorReturn, hring, show s.ring d r = x from rfl, h1, h2, own_eq bs true h3, Bool.not_true, Bool.false_eq_true,
      if_false, if_true]
    rfl
  · change execSqDescriptorReturn d r (.data bs) s = _
    simp only [execSqDescriptorReturn, hring, show s.ring d r = x from rfl, h1, h2, own_eq bs false h3, Bool.not_true, Bool.false_eq_true,
      if_false]
    rfl
  · change execHostNop d r s = _
    rw [execHostNop, hostRow_of_accepts ha, if_pos hb]
  · refine ⟨?_, ?_⟩
    · change execHostDescriptorComplete d r true s = _
      simp only [execHostDescriptorComplete, hring, show s.ring d r = x from rfl, h1, h2, h3, h4, Bool.not_true, Bool.or_self,
        Bool.false_eq_true, if_false]
    · rw [leNat_statusBytes]
      exact (statusBytes_fit t h.index r e v).natBits 0 rfl rfl
  · refine ⟨?_, ?_, ?_⟩
    · change execHostDescriptorComplete d r true s = _
      simp only [execHostDescriptorComplete, hring, show s.ring d r = x from rfl, h1, h2, h3, h4, Bool.not_true, Bool.or_self,
        Bool.false_eq_true, if_false]
      exact (apply_ite Host.Outcome.next ..).symm
    · rw [ownByte_toNat]
      omega
    · have := (statusBytes_fit t h.index r e v).natBits 1 (hi := 126) rfl rfl
      rw [natBits_eq_div_mod] at this
      rw [ownByte_toNat, leNat_statusBytes]
      omega

/-! ### A fetch that times out -/

/-- A tray after bring-up whose channel 0 of domain 0 fetches a descriptor from function A's host memory. -/
def trayFetchingFromHost : State :=
  { Tests.Slice0.hostTray [] with
    yrd := { chans := [(0, { cfg := BitVec.ofNat 64 (2 ^ 60 + 2 ^ 16), en := true, st := .fetch, nM1 := 1 })] } }

/-- What the device has asked of function A's host last, after an outcome. -/
def Out.readSentA : Out → Option (Option (Nat × Nat × Nat))
  | .next s => some s.hif.a.readSent
  | _ => none

theorem fetch_timeout_readSent :
    Out.readSentA (exec (.pcieCompletionTimeout (.chan 0)) trayFetchingFromHost) = some (some (0, 64, 512))
    ∧ Out.readSentA (.next (trayFetchingFromHost.chanHaltPlain 0 8 3 1 0)) = some none
    ∧ (trayFetchingFromHost.chan 0).st = .fetch ∧ (trayFetchingFromHost.chan 0).wb = none ∧ (trayFetchingFromHost.chan 0).space = 1 := by
  decide +kernel

/-- Refutes O22: a channel whose fetch from host memory times out halts, but the read that it sent has left the device too, so the state is
not that of the halt alone. -/
theorem not_failedReadsHaltTheirRequesters : ¬ Obligations.FailedReadsHaltTheirRequesters := by
  rintro ⟨-, -, h⟩
  obtain ⟨hsent, hnone, hst, hwb, hsp⟩ := fetch_timeout_readSent
  have hnext := (h trayFetchingFromHost 0 (by omega)).1 hst hwb (.inl hsp)
  rw [hnext, hnone] at hsent
  cases hsent

end Sys2Proof.Machine
end

/-!
## Events, messages, and TASK_SUBMIT (R212, R359, R379 to R388)
-/
section

namespace Sys2Proof

/-- A bit that is a field of its own. -/
theorem FieldsFit.natBit {top : Nat} {l : List (Nat × Nat)} (h : FieldsFit top l) {i : Nat} {b : Bool} (n : Nat)
    (hn : l[n]? = some (i, bit b)) (hi : i + 1 = fieldTop top l n) : natBit (fields l) i = b := by
  have hb := h.natBits n hn hi
  rw [Machine.natBits_eq_div_mod, Nat.add_sub_cancel_left, pow_one] at hb
  rw [Machine.natBit_eq_decide, hb]
  cases b <;> rfl

end Sys2Proof

namespace Sys2Proof.Machine

variable {s : State} {fn : Fn}

/-! ### A function's own state -/

@[simp] theorem State.fnSt_updFn (s : State) (fn : Fn) (f : FnSt → FnSt) : (s.updFn fn f).fnSt fn = f (s.fnSt fn) := by cases fn <;> rfl

@[simp] theorem State.fnSt_updFn_other (s : State) (fn : Fn) (f : FnSt → FnSt) : (s.updFn fn f).fnSt (fnOther fn) = s.fnSt (fnOther fn) := by
  cases fn <;> rfl

/-- A function reaches its host as before where its link, its power state and its settings stand as before. -/
theorem State.fnReachAt_updFn {f : FnSt → FnSt} (hls : (f (s.fnSt fn)).ls = (s.fnSt fn).ls) (hb : (f (s.fnSt fn)).bme = (s.fnSt fn).bme)
    (hd : (f (s.fnSt fn)).d3 = (s.fnSt fn).d3) (hc : (f (s.fnSt fn)).cfg = (s.fnSt fn).cfg) (a n : Nat) :
    (s.updFn fn f).fnReachAt fn a n = s.fnReachAt fn a n := by
  simp only [fnReachAt, fnReach, ideBlocks, ideReq, anySecure, fnSt_updFn, updFn_sec, hls, hb, hd, hc]

/-! ### Posting an event -/

theorem eventEntry_fit (ph lostf : Bool) (kind code aux id t : Nat) : FieldsFit 128 [(127, bit ph), (126, bit lostf), (120, kind % 64),
    (112, code % 256), (96, aux % 65536), (64, id % 2 ^ 32), (0, t % 2 ^ 64)] := by
  have := bit_lt_two ph
  have := bit_lt_two lostf
  simp only [FieldsFit, and_true]
  omega

theorem leNat_eventEntry (ph lostf : Bool) (kind code aux id t : Nat) : leNat (eventEntry ph lostf kind code aux id t) =
    fields [(127, bit ph), (126, bit lostf), (120, kind % 64), (112, code % 256), (96, aux % 65536), (64, id % 2 ^ 32), (0, t % 2 ^ 64)] :=
  leNat_toLE_of_lt (eventEntry_fit ..).fields_lt

/-- A ring of entries is full when its tail stands just before its head. -/
theorem full_iff {tail head n : Nat} (ht : tail ≤ n) (hh : head ≤ n) :
    (tail + (n + 1) - head) % (n + 1) = n + 1 - 1 ↔ (tail + 1) % (n + 1) = head := by
  obtain h | h := Nat.lt_or_ge tail head
  · have h1 : (tail + (n + 1) - head) % (n + 1) = tail + (n + 1) - head := Nat.mod_eq_of_lt (by omega)
    have h2 : (tail + 1) % (n + 1) = tail + 1 := Nat.mod_eq_of_lt (by omega)
    omega
  · have h1 : (tail + (n + 1) - head) % (n + 1) = tail - head := by
      rw [show tail + (n + 1) - head = tail - head + (n + 1) by omega, Nat.add_mod_right, Nat.mod_eq_of_lt (by omega)]
    obtain h' | rfl : tail < n ∨ tail = n := by omega
    · have h2 : (tail + 1) % (n + 1) = tail + 1 := Nat.mod_eq_of_lt (by omega)
      omega
    · rw [h1, Nat.mod_self]
      omega

section
variable {d q : Nat} (t kind code aux id : Nat)

theorem State.postAt_off (h : (s.evq d q).en = false) : s.postAt t d q kind code aux id = s := by
  simp [postAt, h]

variable (he : (s.evq d q).en = true) (ht : (s.evq d q).tail ≤ (s.evq d q).nM1) (hh : (s.evq d q).head ≤ (s.evq d q).nM1)
include he ht hh

theorem State.postAt_full (hf : ((s.evq d q).tail + 1) % ((s.evq d q).nM1 + 1) = (s.evq d q).head) :
    s.postAt t d q kind code aux id = s.updEvq d q fun y => { y with lost := satAdd 32 y.lost 1, lostf := true } := by
  simp only [postAt, he, Bool.not_true, Bool.false_eq_true, if_false, if_pos ((full_iff ht hh).2 hf)]

theorem State.postAt_unreachable (hf : ((s.evq d q).tail + 1) % ((s.evq d q).nM1 + 1) ≠ (s.evq d q).head)
    (hr : s.fnReachAt (s.evq d q).fn ((s.evq d q).base + 16 * (s.evq d q).tail) 16 = false) :
    s.postAt t d q kind code aux id = s.updEvq d q EvQ.off := by
  simp only [postAt, he, hr, Bool.not_true, Bool.not_false, Bool.false_eq_true, if_true, if_false, if_neg (mt (full_iff ht hh).1 hf)]

theorem State.postAt_room (hf : ((s.evq d q).tail + 1) % ((s.evq d q).nM1 + 1) ≠ (s.evq d q).head)
    (hr : s.fnReachAt (s.evq d q).fn ((s.evq d q).base + 16 * (s.evq d q).tail) 16 = true) :
    s.postAt t d q kind code aux id =
      let e := s.evq d q
      let entry := eventEntry e.phase e.lostf kind code aux id t
      (((s.updFn e.fn fun f => { f with mem := f.mem.write (e.base + 16 * e.tail) entry }).updEvq d q fun y => { y with
        tail := (y.tail + 1) % (e.nM1 + 1)
        phase := if y.tail + 1 = e.nM1 + 1 then !y.phase else y.phase
        lostf := false }).signalEq d q) := by
  simp only [postAt, he, hr, Bool.not_true, Bool.false_eq_true, if_false, if_neg (mt (full_iff ht hh).1 hf)]

end

theorem State.evq_updFn (s : State) (fn : Fn) (f : FnSt → FnSt) (d q : Nat) : (s.updFn fn f).evq d q = s.evq d q := by cases fn <;> rfl

/-- Two changes of a queue that agree on what it holds. -/
theorem State.updEvq_congr {d q : Nat} {f g : EvQ → EvQ} (h : f (s.evq d q) = g (s.evq d q)) : s.updEvq d q f = s.updEvq d q g := by
  rw [updEvq, updEvq, Tab.upd, Tab.upd]
  exact congrArg (fun x => { s with hif := { s.hif with eqs := Tab.set {} s.hif.eqs (eqKey d q) x } }) h

/-- Two changes of a function's own state that agree on what it holds. -/
theorem State.updFn_congr {f g : FnSt → FnSt} (h : f (s.fnSt fn) = g (s.fnSt fn)) : s.updFn fn f = s.updFn fn g := by
  cases fn
  · exact congrArg (fun x => { s with hif := { s.hif with a := x } }) h
  · exact congrArg (fun x => { s with hif := { s.hif with b := x } }) h

/-! ### A vector's mask is cleared -/

theorem natBit_sub_two_pow {x n : Nat} (h : natBit x n = true) : natBit (x - 2 ^ n) n = false := by
  rw [natBit_eq_decide, decide_eq_true_eq] at h
  rw [natBit_eq_decide, decide_eq_false_iff_not]
  have hdiv := Nat.sub_mul_div x (2 ^ n) 1
  rw [Nat.mul_one] at hdiv
  rw [hdiv]
  omega

/-- Clearing the mask of a vector whose pending message can be sent sends it. -/
theorem State.msixUnmask_sends {n : Nat} (hm : natBit (s.fnSt fn).msixMask n = true) (hp : natBit (s.fnSt fn).msixPend n = true)
    (hen : (s.fnSt fn).cfg.msixEn = true) (hf : (s.fnSt fn).cfg.fnMask = false)
    (hr : s.fnReachAt fn (Tab.get 0 (s.fnSt fn).msixAddr n) 4 = true) :
    s.msixUnmask fn n = ((s.updFn fn fun f => { f with msixMask := f.msixMask - 2 ^ n }).updFn fn fun f =>
      { f with msixPend := f.msixPend - 2 ^ n }).updFn fn fun f => { f with msixSent := Tab.upd 0 f.msixSent n (· + 1) } := by
  have hset : s.updFn fn (fun f => { f with msixMask := if natBit f.msixMask n then f.msixMask - 2 ^ n else f.msixMask }) =
      s.updFn fn fun f => { f with msixMask := f.msixMask - 2 ^ n } := updFn_congr (by rw [if_pos hm])
  have hheld : ((s.updFn fn fun f => { f with msixMask := f.msixMask - 2 ^ n }).fnSt fn).msixHeld n = false := by
    simp [FnSt.msixHeld, hen, hf, natBit_sub_two_pow hm]
  have hpend : natBit ((s.updFn fn fun f => { f with msixMask := f.msixMask - 2 ^ n }).fnSt fn).msixPend n = true := by simpa using hp
  rw [msixUnmask, hset]
  rw [hpend, hheld, Bool.not_false, Bool.and_true, if_pos rfl, msix, if_neg, fnReachAt_updFn, fnReachAt_updFn, if_pos]
  all_goals simp [FnSt.msixHeld, hen, hf, hr, natBit_sub_two_pow hm]

/-- What a write of 0 to a vector's control does: the vector's data, whose bits it does not carry, and then its mask. -/
theorem exec_msixVectorUnmask {n : Nat} (hn : n < 64) (ha : s.fnAnswers fn = true) (hb : s.ideBlocks fn = false)
    (hst : s.sec.statusMode = false) :
    ∃ x : Tab Nat, ∃ u, u = s.updFn fn (fun f => { f with msixData := x })
      ∧ exec (.msixVectorUnmask fn n) s = .next (u.msixUnmask fn n) := by
  refine ⟨Tab.upd 0 (s.fnSt fn).msixData n fun a => natBits (regMerge (BitVec.ofNat 64 a) (partMask .hi) (maskBits 31 0) 0).toNat 31 0,
    _, rfl, ?_⟩
  have hdec : bar0Decodes (0x110008 + 16 * n) 8 = true := by simp [bar0Decodes]; omega
  have hin : 0x110000 ≤ 0x110008 + 16 * n ∧ 0x110008 + 16 * n < 0x111000 := by omega
  have hoff : 0x110008 + 16 * n - 0x110000 = 8 + 16 * n := by omega
  have hvec : (8 + 16 * n) / 16 = n := by omega
  have hlow : ¬ (8 + 16 * n) % 16 < 8 := by omega
  have htab : ¬ 0x400 ≤ 8 + 16 * n := by omega
  have hctl : natBit (partMask .hi) 32 = true := by decide
  change execMsixVectorUnmask fn n s = _
  rw [execMsixVectorUnmask, regRow, if_pos (decide_eq_true hn), State.regWrite]
  simp only [State.regWriteIn, State.ideFilters_true, ha, hb, hst, hdec, if_pos hin, hoff, Bool.not_true, Bool.false_eq_true, if_false]
  simp only [State.msixWrite, hvec, if_neg hlow, if_neg htab, hctl, Bool.not_true, Bool.false_eq_true, if_false]
  exact congrArg (fun t : State => Host.Outcome.next (t.msixUnmask fn n)) (State.updFn_congr rfl)

/-- Settles O24: an entry that is posted, lost or discarded, the end of an interval, and a vector whose mask is cleared. -/
theorem eventsArePosted : Obligations.EventsArePosted := by
  refine ⟨?_, ?_, ?_⟩
  · intro s t d q kind code aux id e
    refine ⟨rfl, fun h => State.postAt_off _ _ _ _ _ h, fun he ht hh hf => State.postAt_full _ _ _ _ _ he ht hh hf,
      fun he ht hh hf hr => State.postAt_unreachable _ _ _ _ _ he ht hh hf hr, fun he ht hh hf hr => ?_, fun hk hc ha hi ht => ?_⟩
    · rw [State.postAt_room _ _ _ _ _ he ht hh hf hr]
      refine congrArg (State.signalEq · d q) (State.updEvq_congr ?_)
      rw [State.evq_updFn]
      simp only [Nat.add_right_cancel_iff]
      rfl
    · have hfit := eventEntry_fit e.phase e.lostf kind code aux id t
      intro n
      have hn : n = _ := leNat_eventEntry e.phase e.lostf kind code aux id t
      rw [hn]
      refine ⟨(hfit.natBits 6 rfl rfl).trans (Nat.mod_eq_of_lt ht), (hfit.natBits 5 rfl rfl).trans (Nat.mod_eq_of_lt hi),
        (hfit.natBits 4 rfl rfl).trans (Nat.mod_eq_of_lt ha), (hfit.natBits 3 rfl rfl).trans (Nat.mod_eq_of_lt hc),
        (hfit.natBits 2 rfl rfl).trans (Nat.mod_eq_of_lt hk), hfit.natBit 1 rfl rfl, hfit.natBit 0 rfl rfl⟩
  · intro s d q t e hd hq he ht
    change execEqItimeExpiry d q s = _
    have hnt : ¬ s.dt < t := Nat.not_lt.2 ht
    simp only [execEqItimeExpiry, hd, hq, show (s.evq d q) = e from rfl, he, hnt, decide_true, Bool.and_self, Bool.not_true,
      Bool.false_eq_true, if_false]
    exact (apply_ite Host.Outcome.next ..).symm
  · intro s fn n hn hm hp ha hb hst hen hf hr
    obtain ⟨x, u, hu, hu'⟩ := exec_msixVectorUnmask hn ha hb hst
    have hsends := State.msixUnmask_sends (s := u) (fn := fn) (n := n) (by simpa [hu] using hm) (by simpa [hu] using hp)
      (by simpa [hu] using hen) (by simpa [hu] using hf) (by rw [hu, State.fnReachAt_updFn rfl rfl rfl rfl]; simpa using hr)
    refine ⟨_, hu', ?_⟩
    rw [hsends, hu]
    simp [natBit_sub_two_pow hm, natBit_sub_two_pow hp]

/-! ### TASK_SUBMIT -/

theorem State.submitRes_of_accepted {d : Nat} {b : TaskBlock} (h : s.blockRefusal d b = none) (hr : s.blockRoom d b = true) :
    s.submitRes d b = 0 := by
  rw [submitRes, h]
  exact if_pos hr

/-- A block for which the queues have no room is refused for that, unless its job is not loaded. -/
theorem State.submitRes_of_full {d : Nat} {b : TaskBlock} (hr : s.blockRoom d b = false) (h : s.blockRefusal d b ≠ some 1) :
    s.submitRes d b = 2 := by
  rw [submitRes]
  cases he : s.blockRefusal d b with
  | none => simp [hr, sresQueueFull]
  | some e =>
    have : e ≠ 1 := fun h' => h (h' ▸ he)
    simp [hr, sresNoJob, this, sresQueueFull]

theorem State.submitRes_of_refused {d e : Nat} {b : TaskBlock} (hr : s.blockRoom d b = true) (h : s.blockRefusal d b = some e) :
    s.submitRes d b = e := by
  rw [submitRes, h]
  simp [hr]

/-- What refuses a block is a result other than OK. -/
theorem State.blockRefusal_ne_zero {d e : Nat} {b : TaskBlock} (h : s.blockRefusal d b = some e) : e ≠ 0 := by
  rw [blockRefusal] at h
  split_ifs at h <;> cases h <;> decide

/-- Settles O25: the three answers to a block. -/
theorem submittedTasksEnterTheQueue : Obligations.SubmittedTasksEnterTheQueue := by
  intro s d r h b ha
  have hrow : exec (.taskSubmit d r) s =
      .next ((if s.submitRes d b = sresOk then s.acceptBlock d b else s).cmdDone (ringKey d r) (s.submitRes d b)) := by
    change execTaskSubmit d r s = _
    exact hostRow_of_accepts ha _
  refine ⟨fun hno hroom => ?_, fun hroom hno => ?_, fun e hroom he => ?_⟩
  · rw [hrow, State.submitRes_of_accepted hno hroom]
    exact ⟨s.acceptBlock d b, rfl, rfl, rfl, rfl⟩
  · rw [hrow, State.submitRes_of_full hroom hno]
    rfl
  · rw [hrow, State.submitRes_of_refused hroom he, sresOk, if_neg (State.blockRefusal_ne_zero he)]

end Sys2Proof.Machine
end

/-!
## JOB_LOAD, JOB_UNLOAD and the FELL commands (R209, R210, R235 to R240, R247, R248, R431)
-/
section

namespace Sys2Proof.Machine

variable {s : State}

/-! ### A job is claimed -/

/-- A read after a write of a value other than the default, whatever the table. -/
theorem Tab.get_set_of_ne {α : Type} [DecidableEq α] {d x : α} (h : x ≠ d) (t : Tab α) (i j : Nat) :
    Tab.get d (Tab.set d t i x) j = if j = i then x else Tab.get d t j := by
  induction t with
  | nil => simp [Tab.set, h, Tab.get]
  | cons p t ih =>
    obtain ⟨k, v⟩ := p
    rw [Tab.set]
    split_ifs with hlt heq hj hj hj
    all_goals simp_all [Tab.get]

theorem State.foldl_updModel (l : List Nat) (f : Model → Model) (s : State) :
    l.foldl (fun s id => s.updModel id f) s =
      { s with knl := { s.knl with models := l.foldl (fun t id => Tab.upd {} t id f) s.knl.models } } := by
  induction l generalizing s with
  | nil => rfl
  | cons a l ih => rw [List.foldl_cons, ih]; rfl

theorem State.foldl_updOwner (l : List Nat) (g : Nat → Nat) (f : CoreOwn → CoreOwn) (s : State) :
    l.foldl (fun s i => s.updOwner (g i) f) s =
      { s with sched := { s.sched with cmap := l.foldl (fun t i => Tab.upd {} t (g i) f) s.sched.cmap } } := by
  induction l generalizing s with
  | nil => rfl
  | cons a l ih => rw [List.foldl_cons, ih]; rfl

/-- A job `x` takes the handle `j` and its models, and an LC job the cores `lo` to `hi` of its pack (R209, R210). -/
def State.claim (s : State) (j : Nat) (x : Job) (be : Bool) (hi lo : Nat) : State :=
  let s := s.updJob j fun _ => x
  let s := (s.job j).named.foldl (fun s id => s.updModel id fun m => { m with refs := m.refs + 1 }) s
  if be then s
  else (List.range (hi + 1 - lo)).foldl (fun s i => s.updOwner (lo + i) fun o => { o with pack := true, job := j }) s

theorem State.claim_eq {x : Job} (hx : x ≠ {}) (s : State) (j : Nat) (be : Bool) (hi lo : Nat) : s.claim j x be hi lo =
    { s with
      sched := { s.sched with
        jobs := Tab.set {} s.sched.jobs j x
        cmap := if be then s.sched.cmap else (List.range (hi + 1 - lo)).foldl
          (fun m i => Tab.upd {} m (lo + i) fun o => { o with pack := true, job := j }) s.sched.cmap }
      knl := { s.knl with models := x.named.foldl (fun l id => Tab.upd {} l id fun m => { m with refs := m.refs + 1 }) s.knl.models } } := by
  have hj : (s.updJob j fun _ => x).job j = x := (Tab.get_set_of_ne hx _ _ _).trans (if_pos rfl)
  rw [claim, hj, foldl_updModel]
  split_ifs
  · rfl
  · rw [foldl_updOwner]
    rfl

/-- Settles O26: the claim of a load, the verification of its image, and the job's becoming LOADED. -/
theorem jobsAreLoaded : Obligations.JobsAreLoaded := by
  refine ⟨?_, ?_, ?_⟩
  · intro s d r j h be hi lo models x ha hstore hsop halign hfirst hfree
    have hx : x ≠ {} := fun h => by cases congrArg Job.st h
    have hclaim := State.claim_eq hx s j be hi lo
    have hrow : exec (.jobLoad d r) s =
        .next (((s.claim j x be hi lo).sendRead ((s.claim j x be hi lo).ring d r).fn (h.field 63 0) h.xlen).setCmd (ringKey d r) (.busy j)) := by
      have halign' : natBits h.body 63 0 % 64 = 0 := halign
      have hfirst' : s.loadFirst d (natBit h.body 303) (natBits h.body 295 288) (natBits h.body 287 280) (modelsField h.body) = 0 := hfirst
      change execJobLoad d r s = _
      rw [execJobLoad, hostRow_of_accepts ha]
      dsimp only
      rw [if_neg (by simp [hstore]), if_neg (by simp [hsop, halign']), if_neg (by simp [sresOk, hfirst']), hfree]
      rfl
    rw [show (s.claim j x be hi lo).ring d r = s.ring d r by rw [hclaim]; rfl] at hrow
    refine ⟨_, s.claim j x be hi lo, hrow, rfl, ?_⟩
    rw [hclaim]
    exact ⟨rfl, rfl, rfl, rfl⟩
  · intro s j bs job img e hj hst
    have hrow : ∀ r, exec (.jobLoadComplete j r) s = execJobLoadComplete j r s := fun _ => rfl
    have hj' : ¬ 256 ≤ j := by omega
    have hst' : ¬ job.st ≠ .loading := not_not.2 hst
    refine ⟨fun r hv => ?_, fun hv hreach => ?_⟩
    · rw [hrow, execJobLoadComplete, if_neg hj']
      dsimp only
      rw [if_neg hst', if_pos hv]
    · have hdata : exec (.jobLoadComplete j (.data bs)) s =
          if e ≠ 0 then .next ((s.jobDrop j).cmdDone job.ring (8 + 65536 * e))
          else if !s.pinRoom job.dom (s.loadPins j) then .next ((s.jobDrop j).cmdDone job.ring 7)
          else .next ((s.jobVerified j img).jobLoaded j) := by
        rw [hrow, execJobLoadComplete, if_neg hj']
        dsimp only
        rw [if_neg hst', if_neg (by simpa using hv), State.answered, if_pos hreach]
        rfl
      refine ⟨fun he hp => ?_, fun he hp => ?_, fun he => ?_⟩
      · simp [hdata, he, hp]
      · simp [hdata, he, hp]
      · rw [hdata, if_pos he]
  · intro s j job cs loaded g
    refine ⟨fun h => ?_, fun hf hb => ⟨fun hc => ?_, fun hc hg => ?_, fun hc hg => ?_⟩⟩
    · rw [State.jobLoaded]
      refine if_pos ?_
      rcases h with h | ⟨h1, h2⟩
      · simp [show (s.job j).frame = none from h]
      · simp [show (s.job j).be = false from h1, show (s.job j).named.all s.allPinned = false from h2]
    all_goals
      have hgo : (job.frame.isNone || (!job.be && !job.named.all s.allPinned)) = false := by
        rcases hb with hb | hb <;> simp [Option.isNone_eq_false_iff.2 hf, hb]
      have hcs : (if job.be then [] else s.packCores j) = cs := rfl
    · simp only [State.jobLoaded, show s.job j = job from rfl, hcs, hgo, hc, sresOk, Nat.zero_add, m6Next, if_true, Bool.not_true,
        Bool.false_eq_true, if_false]
      rfl
    · have hg' : cs.all (s.grantFloors cs).floorHeld = true := hg
      simp only [State.jobLoaded, show s.job j = job from rfl, hcs, hgo, hc, hg', sresOk, Nat.zero_add, m6Next, Bool.not_true,
        Bool.false_eq_true, if_false]
      rfl
    · have hg' : cs.all (s.grantFloors cs).floorHeld = false := hg
      simp only [State.jobLoaded, show s.job j = job from rfl, hcs, hgo, hc, hg', Bool.not_false, Bool.false_eq_true, if_false, if_true]
      rfl

/-! ### JOB_UNLOAD and the FELL commands -/

/-- A job that stays one of its domain keeps its channels. -/
theorem State.jobChans_updJob {j : Nat} {f : Job → Job} (hf : f (s.job j) ≠ {}) (hdom : (f (s.job j)).dom = (s.job j).dom) (i : Nat) :
    (s.updJob j f).jobChans i = s.jobChans i := by
  have hjob : ∀ n, ((s.updJob j f).job n).dom = (s.job n).dom := fun n => by
    have hget : (s.updJob j f).job n = if n = j then f (s.job j) else s.job n := Tab.get_set_of_ne hf _ _ _
    rw [hget]
    split_ifs with hn
    · rw [hn]; exact hdom
    · rfl
  simp only [jobChans, hasJob, hjob]
  rfl

/-- What a FELL does to a task that runs on a slot, to one that drains, and to one that holds no slot. -/
theorem State.fellOne_running {uid c k : Nat} {t : Task} (ht : s.task uid = some t) (hst : t.st = .running c k) :
    s.fellOne uid = (s.retireReady c k).terminate c k 8 6 ((((s.retireReady c k).slot c k).lastRet) - 1) none := by
  rw [fellOne, ht]
  dsimp only
  rw [hst]
  rfl

theorem State.fellOne_draining {uid c k : Nat} {t : Task} (ht : s.task uid = some t) (hst : t.st = .draining c k) : s.fellOne uid = s := by
  rw [fellOne, ht]
  dsimp only
  rw [hst]

theorem State.fellOne_pending {uid : Nat} {t : Task} (ht : s.task uid = some t) (hst : t.st = .waiting ∨ t.st = .ready) :
    s.fellOne uid = s.endTask { t with tDisp := 0 } {} ⟨8, 6, s.dt, 0, none⟩ := by
  rw [fellOne, ht]
  rcases hst with h | h
  all_goals
    dsimp only
    rw [h]
    dsimp only
    rw [endIdle, h]
    rfl

theorem State.fellOne_parked {uid c : Nat} {t : Task} {p : Parked} (ht : s.task uid = some t) (hst : t.st = .parked c)
    (hp : (s.core c).parkedOf t.uid = some p) : s.fellOne uid =
      (s.updCore c fun q => { q with parked := q.parked.filter fun r => r.slot.uid ≠ some t.uid }).endTask t p.slot
        ⟨8, 6, s.dt, p.slot.lastRet - 1, none⟩ := by
  rw [fellOne, ht]
  dsimp only
  rw [hst]
  dsimp only
  rw [endIdle, hst]
  dsimp only
  rw [hp]
  rfl

/-- Settles O27: the rows of the commands, and what a FELL does to a task by the task's state. -/
theorem jobsAreFelledAndUnloaded : Obligations.JobsAreFelledAndUnloaded := by
  refine ⟨?_, ?_⟩
  · intro s d r h key j job
    refine ⟨fun ha hsop hdom hst hno => ?_, fun ha hsop hdom hst => ?_, fun ha hsop hdom hst => ?_, fun f hr hf hu hc => ?_⟩
    · intro u
      have hfree : ¬ (job.st = .free || job.dom ≠ d) = true := by rcases hst with h | h <;> simp [h, hdom]
      have hbusy : ¬ (!(job.st == .loaded || job.st == .felled) || s.sched.tasks.any (·.job = j)) = true := by
        rcases hst with h | h <;> simp only [h, hno] <;> decide
      change execJobUnload d r s = _
      rw [execJobUnload, hostRow_of_accepts ha]
      refine congrArg Host.Outcome.next ((if_neg (by simp [hsop])).trans ((if_neg hfree).trans ((if_neg hbusy).trans ?_)))
      cases hbe : job.be
      · simp only [show (s.job (natBits h.body 311 304)).be = false from hbe, Bool.false_eq_true, if_false]
        rfl
      · simp only [show (s.job (natBits h.body 311 304)).be = true from hbe, if_true]
        rfl
    · intro uids u chans
      have hfree : ¬ (job.st = .free || job.dom ≠ d) = true := by simp [hst, hdom]
      change execFellJob d r s = _
      rw [execFellJob, hostRow_of_accepts ha]
      refine congrArg Host.Outcome.next ((if_neg (by simp [hsop])).trans ((if_neg hfree).trans ?_))
      dsimp only
      rw [show (s.job (natBits h.body 311 304)).st = .loaded from hst]
      dsimp only
      rw [State.jobChans_updJob (fun h => by cases congrArg Job.st h) rfl]
      rfl
    · intro uids u
      have hno : ¬ (job.st ≠ .loaded || job.dom ≠ d) = true := by simp [hst, hdom]
      change execFellTask d r s = _
      rw [execFellTask, hostRow_of_accepts ha]
      refine congrArg Host.Outcome.next ((if_neg (by simp [hsop])).trans ((if_neg hno).trans ?_))
      by_cases he : uids = []
      · rw [if_pos he]
        exact if_pos (List.isEmpty_iff.2 he)
      · rw [if_neg he]
        exact if_neg (fun hn => he (List.isEmpty_iff.1 hn))
    · intro u
      have hfin : f.finished s = true := by
        simp only [FellCmd.finished, Bool.and_eq_true, List.all_eq_true, Option.isNone_iff_eq_none, Bool.not_eq_true']
        exact ⟨hu, hc⟩
      change execFellComplete d r s = _
      rw [execFellComplete, hr, State.fellFinish, hf]
      simp only [hfin]
      rfl
  · intro s uid
    refine ⟨fun h => by rw [State.fellOne, h], fun t ht => ⟨fun c k hst => ?_, ?_, fun hst => ?_, fun c p hst hp => ?_⟩⟩
    · exact ⟨State.fellOne_running ht hst, fun hc => State.retireReady_of_not_canRetire (by rw [State.canRetire, hc]; rfl)⟩
    · rintro ⟨c, k, hst⟩
      exact State.fellOne_draining ht hst
    · exact State.fellOne_pending ht hst
    · exact State.fellOne_parked ht hst hp

end Sys2Proof.Machine
end

/-!
## ASSIGN and the scrub engine (R176 to R180, R206, R239)
-/
section

namespace Sys2Proof.Machine

variable {s : State}

/-! ### The scrub engine -/

theorem State.scrubNext_eq (s : State) : ∃ x, s.scrubNext = { s with sec := x } := by
  unfold scrubNext
  split <;> exact ⟨_, rfl⟩

theorem AssignCmd.names_false {a : AssignCmd} (u : Nat) (hk : a.kind = 0) (hu : a.units.contains u = true) : a.names false u = true := by
  rw [names, hk, hu]
  rfl

/-- No unit of a row of `n` that ends within the device lies outside it. -/
theorem any_units_absent {first n top : Nat} (h : first + n ≤ top) : ((List.range n).map (first + ·)).any (fun u => decide (top ≤ u)) = false := by
  simp only [List.any_map, List.any_eq_false, List.mem_range, Function.comp, decide_eq_true_eq]
  omega

/-- Settles O28: the rows of ASSIGN, and those of the scrub engine. -/
theorem unitsAreScrubbedAndAssigned : Obligations.UnitsAreScrubbedAndAssigned := by
  refine ⟨?_, ?_, ?_, ?_, ?_, ?_⟩
  · intro s d r h kind first n units a u ha hz hctl hbusy
    have hfirst : ∀ top, first + n ≤ top → units.any (fun u => decide (top ≤ u)) = false := fun _ h => any_units_absent h
    have hrow : exec (.assign d r) s = execAssign d r s := rfl
    have hgran : (kind = 1 ∨ kind = 2) → first + n ≤ s.var.granules → exec (.assign d r) s = .next
        (((units.filter fun g => !(s.gran g).knl).foldl (fun s g => s.updGran g fun x => { x with scrub := true })
          ((units.filter fun g => (s.gran g).knl).foldl (fun s g => s.updGran g fun x => { x with leaving := true }) u)).doomGranules
            (units.filter fun g => (s.gran g).knl) (units.filter fun g => !(s.gran g).knl)) := fun hk hn => by
      have hk3 : kind ≠ 3 := by omega
      have hk0 : kind ≠ 0 := by omega
      have hbad : ¬ (kind = 3 || h.field 279 0 ≠ 0 || units.any (fun u =>
          if kind = 0 then decide (s.var.cores ≤ u) || s.ras.fence.contains u else decide (s.var.granules ≤ u))) = true := by
        simp only [if_neg hk0, hfirst _ hn, hk3, hz]
        decide
      rw [hrow, execAssign, hostRow_of_accepts ha]
      exact congrArg Host.Outcome.next ((if_neg hbad).trans ((if_neg (by simp [hctl])).trans ((if_neg (Bool.eq_false_iff.1 hbusy)).trans
        (if_neg hk0))))
    refine ⟨fun hk hn hf => ?_, fun hk hn hg => ?_, hgran⟩
    · intro v on
      have hbad : ¬ (kind = 3 || h.field 279 0 ≠ 0 || units.any (fun u =>
          if kind = 0 then decide (s.var.cores ≤ u) || s.ras.fence.contains u else decide (s.var.granules ≤ u))) = true := by
        have hpres : units.any (fun u => decide (s.var.cores ≤ u) || s.ras.fence.contains u) = false := by
          rw [List.any_eq_false]
          intro c hc
          have := List.any_eq_false.1 (hfirst _ hn) c hc
          simp only [hf c hc, Bool.or_false]
          exact this
        simp only [hk, if_true, hpres, hz]
        decide
      rw [hrow, execAssign, hostRow_of_accepts ha]
      refine congrArg Host.Outcome.next ((if_neg hbad).trans ((if_neg (by simp [hctl])).trans ((if_neg (Bool.eq_false_iff.1 hbusy)).trans
        ((if_pos hk).trans rfl))))
    · have hkn : units.filter (fun g => (s.gran g).knl) = [] := by simpa using hg
      have hrest : units.filter (fun g => !(s.gran g).knl) = units := by simpa using hg
      rw [hgran hk hn, hkn, hrest]
      rfl
  · intro s rest gone
    exact ⟨(gone ++ rest).insertionSort (· ≤ ·), List.perm_insertionSort .., List.pairwise_insertionSort .., rfl⟩
  · intro s c o hc hcl hsc hnamed hidle hfence
    obtain ⟨a, ha, hk, hu⟩ := hnamed
    have hany : s.sched.assigns.any (fun a => a.names false c) = true := List.any_eq_true.2 ⟨a, ha, a.names_false c hk hu⟩
    have hfen : s.ras.fencing.any (·.1 = c) = false := by simpa using hfence
    have hgo : ((s.owner c).closing && !(s.owner c).scrub && s.sched.assigns.any (fun a => a.names false c) && s.coreIdle c
        && !s.ras.fencing.any (·.1 = c)) = true := by
      rw [show (s.owner c).closing = true from hcl, show (s.owner c).scrub = false from hsc, hany, hidle, hfen]
      rfl
    change execCoreScrubStart c s = _
    rw [execCoreScrubStart, if_neg (by simp [hc])]
    exact if_pos hgo
  · intro s c a hc hb ha f
    obtain ⟨x, hx⟩ := State.scrubNext_eq f
    change execCoreScrubComplete c true s = _
    rw [execCoreScrubComplete, if_neg (by simp [hc]), if_neg (not_not.2 hb)]
    have hfind : (s.scrubEnd true skCore c (coreBase c)).sched.assigns.find? (fun a => a.names false c) = some a := by
      rw [show s.scrubEnd true skCore c (coreBase c) = f.scrubNext from rfl, hx]
      exact ha
    dsimp only
    rw [if_neg (by decide), hfind]
    rfl
  · intro s c hc hb f
    change execCoreScrubComplete c false s = _
    rw [execCoreScrubComplete, if_neg (by simp [hc]), if_neg (not_not.2 hb)]
    rfl
  · intro s g a hg hb ha hm lo f z
    obtain ⟨x, hx⟩ := State.scrubNext_eq ({ s with sec := { s.sec with scrubBusy := none } } : State)
    refine ⟨?_, Mem.get_zero (State.memsOk_iff.1 hm).2.2.1 lo (lo + 65536)⟩
    have hfind : (s.scrubEnd true skSlice (s.slice (65536 * g)) (yardBase + 65536 * g)).sched.assigns.find? (fun a => a.names true g) =
        some a := by
      rw [show s.scrubEnd true skSlice _ _ = ({ s with sec := { s.sec with scrubBusy := none } } : State).scrubNext from rfl, hx]
      exact ha
    have hyard : (s.scrubEnd true skSlice (s.slice (65536 * g)) (yardBase + 65536 * g)).yard = s.yard := by
      rw [show s.scrubEnd true skSlice _ _ = ({ s with sec := { s.sec with scrubBusy := none } } : State).scrubNext from rfl, hx]
    change execGranuleScrubComplete g true s = _
    rw [execGranuleScrubComplete, if_neg (by simp [hg]), if_neg (not_not.2 hb)]
    dsimp only
    rw [if_neg (by decide), hfind, hyard]
    rfl

end Sys2Proof.Machine
end

/-!
## The Kennel's commands (R188 to R202, R404, R405)
-/
section

namespace Sys2Proof.Machine

variable {s : State}

/-! ### What reading and writing lines of the two tables can change -/

theorem State.lvtBump_eq (s : State) (l : List Nat) :
    ∃ m b t, s.lvtBump l = { s with knl := { s.knl with store := m, badLines := b, lvt := t } } := by
  refine foldl_keeps (P := fun u => ∃ m b t, u = { s with knl := { s.knl with store := m, badLines := b, lvt := t } })
    (fun u i hu => ?_) l.dedup ⟨s.knl.store, s.knl.badLines, s.knl.lvt, rfl⟩
  obtain ⟨m, b, t, rfl⟩ := hu
  exact ⟨_, _, _, rfl⟩

/-- A change of the error log and the security block alone. -/
def State.SameButLog (s t : State) : Prop := ∃ r x, t = { s with ras := r, sec := x }

theorem State.SameButLog.trans {t u : State} (h : s.SameButLog t) (h' : t.SameButLog u) : s.SameButLog u := by
  obtain ⟨r, x, rfl⟩ := h
  obtain ⟨r', x', rfl⟩ := h'
  exact ⟨r', x', rfl⟩

theorem State.SameButLog.record (s : State) (cls code : Nat) (dom : Option Nat) (skind sidx addr detail : Nat) :
    s.SameButLog (s.record cls code dom skind sidx addr detail) := by
  obtain ⟨r, h⟩ := s.record_eq cls code dom skind sidx addr detail
  exact ⟨r, s.sec, h⟩

theorem State.SameButLog.ueMet (s : State) (code : Nat) (dom : Option Nat) (skind sidx addr : Nat) :
    s.SameButLog (s.ueMet code dom skind sidx addr) := by
  obtain ⟨r, h⟩ := s.ueMet_eq code dom skind sidx addr
  exact ⟨r, s.sec, h⟩

theorem State.SameButLog.correctedIn_none (s : State) (kind word sk ix a det : Nat) (dom : Option Nat) :
    s.SameButLog (s.correctedIn kind word none sk ix a det dom) := by
  have hcount : ∀ r, s.SameButLog { s with ras := r } := fun r => ⟨r, s.sec, rfl⟩
  rw [correctedIn]
  dsimp only
  split_ifs
  · exact (hcount _).trans (record ..)
  · exact ((hcount _).trans (record ..)).trans (record ..)

theorem State.SameButLog.storeFixed (s : State) (o : Nat) (dom : Option Nat) : s.SameButLog (s.storeFixed o dom) := correctedIn_none ..

theorem State.SameButLog.forgeAsk (s : State) : s.SameButLog s.forgeAsk := by
  rw [State.forgeAsk]
  split_ifs
  · exact ⟨_, s.sec, rfl⟩
  · exact ⟨s.ras, s.sec, rfl⟩

theorem State.SameButLog.lineNotGood (s : State) (forge : Bool) : s.SameButLog (s.lineNotGood forge) :=
  State.SameButLog.trans ⟨s.ras, _, rfl⟩ (forgeAsk _)

theorem State.SameButLog.lineFails (s : State) (o : Nat) (dom : Option Nat) (forge : Bool) : s.SameButLog (s.lineFails o dom forge) :=
  (lineNotGood s forge).trans (ueMet ..)

theorem State.SameButLog.tableRead (s : State) (r : LineRun) : s.SameButLog (s.tableRead r) := by
  have hfix : s.SameButLog (r.fixed.foldl (fun s i => s.storeFixed (s.var.tableOff i) none) s) :=
    foldl_keeps (P := s.SameButLog) (fun u i hu => hu.trans (storeFixed ..)) r.fixed ⟨s.ras, s.sec, rfl⟩
  rw [State.tableRead]
  split
  · exact hfix.trans (lineFails ..)
  · exact hfix

theorem State.SameButLog.lvtCan {t : State} (h : s.SameButLog t) (l : List Nat) : t.lvtCan l = s.lvtCan l := by
  obtain ⟨r, x, rfl⟩ := h
  rfl

theorem State.tableRead_clean (s : State) : s.tableRead ⟨[], none⟩ = s := rfl

/-! ### The rows of the Kennel's commands -/

theorem knlRow_of_accepts {d r op : Nat} {h : HostCmd} (ha : s.accepts d r 3 (some op) h) (hs : s.boot.store = true)
    (f : HostCmd → State → State) : knlRow d r op s f = .next (f h s) := by
  rw [knlRow, hostRow_of_accepts ha, if_pos hs]

theorem State.knlLines_eq (s : State) (key id : Nat) (errs : List LineErr) (l : List Nat) (f : State → State) :
    s.knlLines key id errs l f =
      if (s.tableRun errs l).bad = none ∧ s.lvtCan l = true then f (s.tableRead (s.tableRun errs l))
      else (s.tableRead (s.tableRun errs l)).cmdDone key (7 + 256 * id) := by
  rw [knlLines]
  rw [(SameButLog.tableRead s _).lvtCan]
  simp only [Bool.and_eq_true, Option.isNone_iff_eq_none]
  rfl

theorem State.knlLines_clean {errs : List LineErr} {l : List Nat} (hrun : s.tableRun errs l = ⟨[], none⟩) (hcan : s.lvtCan l = true)
    (key id : Nat) (f : State → State) : s.knlLines key id errs l f = f s := by
  rw [knlLines_eq, hrun, if_pos ⟨rfl, hcan⟩, tableRead_clean]

/-- The row of a command that names a loaded model of its ring's domain, with no field of LOAD. -/
theorem knlOnModel_of_accepts {d r op : Nat} {h : HostCmd} (ha : s.accepts d r 3 (some op) h) (hs : s.boot.store = true)
    (hres : knlReserved h.body = false) (hpn : h.field 291 256 = 0) (hsrc : h.field 127 64 = 0) (hpin : natBit h.body 0 = false)
    (hv : (s.model (h.field 307 296)).valid = true) (hl : (s.model (h.field 307 296)).loading = false)
    (hw : ∀ w ∈ s.knl.cmds, w.isLoad = true → w.id ≠ h.field 307 296) (hd : (s.model (h.field 307 296)).dom = d)
    (f : Nat → Model → State → State) :
    knlOnModel d r op s f = .next (f (h.field 307 296) (s.model (h.field 307 296)) s) := by
  have hready : s.modelReady (h.field 307 296) = true := by
    have : s.knl.cmds.any (fun w => w.isLoad && w.id == h.field 307 296) = false := by simpa using hw
    rw [State.modelReady, hv, hl, this]
    rfl
  have hbad : ¬ (knlReserved h.body || natBits h.body 291 256 ≠ 0 || natBits h.body 127 64 ≠ 0 || natBit h.body 0) = true := by
    rw [hres, hpin, show natBits h.body 291 256 = 0 from hpn, show natBits h.body 127 64 = 0 from hsrc]
    decide
  have hno : ¬ (!s.modelReady (h.field 307 296) || (s.model (h.field 307 296)).dom ≠ d) = true := by
    rw [hready, hd]
    simp
  rw [knlOnModel, knlRow_of_accepts ha hs]
  exact congrArg Host.Outcome.next ((if_neg hbad).trans (if_neg hno))

theorem State.putPages_eq (s : State) (m : Model) (bs : List Byte) :
    ∃ x b, s.putPages m bs = { s with knl := { s.knl with store := x, badLines := b } } := by
  refine foldl_keeps (P := fun u => ∃ x b, u = { s with knl := { s.knl with store := x, badLines := b } }) (fun u i hu => ?_) _
    ⟨s.knl.store, s.knl.badLines, rfl⟩
  obtain ⟨x, b, rfl⟩ := hu
  exact ⟨_, _, rfl⟩

/-- A copy that ends leaves every model as it is. -/
theorem State.model_copied (m : Model) (bs : List Byte) (dir : Tab DirEnt) (l : List Nat) (i : Nat) :
    (State.lvtBump { s.putPages m bs with knl := { (s.putPages m bs).knl with dir := dir } } l).model i = s.model i := by
  obtain ⟨x, b, t, hb⟩ := State.lvtBump_eq { s.putPages m bs with knl := { (s.putPages m bs).knl with dir := dir } } l
  obtain ⟨x', b', hp⟩ := s.putPages_eq m bs
  rw [hb, hp]
  rfl

theorem State.updModel_congr {id : Nat} {x : Model} (hx : s.model id = x) {f g : Model → Model} (h : f x = g x) :
    s.updModel id f = s.updModel id g := by
  subst hx
  exact congrArg (fun x => { s with knl := { s.knl with models := Tab.set {} s.knl.models id x } }) h

/-- The store frames that a LOAD binds, and those it retires. -/
def boundFrames (pick : List Nat × List Nat) (t : Tab SFrame) : Tab SFrame :=
  pick.1.foldl (fun t f => Tab.upd {} t f fun x => { x with bound := true, lastver := x.lastver + 1 })
    (pick.2.foldl (fun t f => Tab.upd {} t f fun x => { x with retired := true }) t)

/-- A LOAD's model takes its identifier, and the entries of its pages take their frames. -/
def State.loadEntries (s : State) (sf : Tab SFrame) (id base n d : Nat) (pin : Bool) (pick : List Nat × List Nat) : State :=
  let u := s.updModel id fun _ => { valid := true, pnBase := base, npages := n, dom := d, hpin := pin, loading := true }
  { u with knl := { u.knl with dir := pick.1.zipIdx.foldl (fun (t : Tab DirEnt) (p : Nat × Nat) =>
      Tab.set {} t (base + p.2) ⟨false, d, pin, (Tab.get {} sf p.1).lastver, id, p.1⟩) u.knl.dir } }

/-- What a LOAD claims before its copy runs (R188, R201). -/
def State.loadClaim (s : State) (id base n d : Nat) (pin : Bool) (pick : List Nat × List Nat) : State :=
  (({ s with knl := { s.knl with sframes := boundFrames pick s.knl.sframes } } : State).lvtBump
    (pick.1.map verLine ++ pick.2.map verLine)).loadEntries (boundFrames pick s.knl.sframes) id base n d pin pick

/-- Settles O29: LOAD and the end of its copy, the commands on a loaded model, and what the reading of table lines leaves behind. -/
theorem modelsAreLoadedAndUnloaded : Obligations.ModelsAreLoadedAndUnloaded := by
  refine ⟨⟨?_, ?_⟩, ?_, ?_⟩
  · intro s d r id errs h base n pin pick ha hs hres hid lines hsrc hload hfree hcan hrun
    have hbad : ¬ (knlReserved h.body || natBits h.body 307 296 ≠ 0 || natBits h.body 127 64 % 64 ≠ 0) = true := by
      rw [hres, show natBits h.body 307 296 = 0 from hid, show natBits h.body 127 64 % 64 = 0 from hsrc]
      decide
    obtain ⟨x, y, z, hx⟩ := State.lvtBump_eq { s with knl := { s.knl with sframes := boundFrames pick s.knl.sframes } }
      (pick.1.map verLine ++ pick.2.map verLine)
    have hex : exec (.knlLoad d ⟨r, errs⟩) s = .next (((s.loadClaim id base n d pin pick).sendRead
        ((s.loadClaim id base n d pin pick).ring d r).fn (h.field 127 64) (n * 16384)).setCmd (ringKey d r) (.busy id)) := by
      change execKnlLoad d ⟨r, errs⟩ s = _
      rw [execKnlLoad, knlRow_of_accepts ha hs]
      refine congrArg Host.Outcome.next ((if_neg hbad).trans ((if_neg (not_not.2 hload)).trans ?_))
      refine (State.knlLines_clean hrun hcan _ _ _).trans ?_
      rw [hfree]
      rfl
    have hclaim : s.loadClaim id base n d pin pick = _ := congrArg (fun u : State => State.loadEntries u (boundFrames pick s.knl.sframes) id base n d pin pick) hx
    rw [hclaim] at hex
    exact ⟨_, hex, rfl, rfl, rfl, rfl⟩
  · intro s d r id errs h bs m n p u hr hcur hst hcls hop hload hreach hcan hrun
    have hex : exec (.knlLoadCopyComplete d ⟨r, errs⟩ (.data bs)) s =
        if m.hpin then .next (u.knlAwait (ringKey d r) true id) else .next (u.cmdDone (ringKey d r) (256 * id)) := by
      change execKnlLoadCopyComplete d ⟨r, errs⟩ (.data bs) s = _
      rw [execKnlLoadCopyComplete, if_neg (by simp [hr])]
      rw [hcur]
      dsimp only
      rw [hst, hcls, hop]
      refine (if_neg (by simp [show (s.model id).loading = true from hload])).trans ?_
      rw [State.answered, if_pos (show s.fnReachAt _ (natBits h.body 127 64) ((s.model id).npages * 16384) = true from hreach)]
      dsimp only
      rw [show s.tableRun errs ((s.model id).pages.map dirLine) = ⟨[], none⟩ from hrun, State.tableRead_clean, if_neg (by
        rw [show s.lvtCan ((s.model id).pages.map dirLine) = true from hcan]; decide), kresult, Nat.zero_add]
      have hu : u = _ := State.updModel_congr (State.model_copied _ bs _ _ id) (g := fun m => { m with
        loading := false, digest := Config.shake256 32 (padTo (m.npages * 16384) bs) }) rfl
      rw [hu]
    exact ⟨fun hp => by rw [hex, hp]; rfl, fun hp => by rw [hex, hp]; rfl⟩
  · intro s d r op errs h key id m ok met ha hs hres hpn hsrc hpin hv hl hw hd
    have hrow : ∀ f, knlOnModel d r op s f = .next (f id m s) := knlOnModel_of_accepts ha hs hres hpn hsrc hpin hv hl hw hd
    refine ⟨?_, ?_, ?_, ?_⟩
    · rintro rfl l
      have hex : exec (.knlPin d ⟨r, errs⟩) s = .next (if !m.pinned && !s.pinRoom d m.npages then s.cmdDone key (5 + 256 * id)
          else if ok l then ((((met l).updModel id fun m => { m with hpin := true }).restate id).setCmd key (.busy id)).knlAwait key false id
          else (met l).cmdDone key (7 + 256 * id)) := by
        change execKnlPin d ⟨r, errs⟩ s = _
        rw [execKnlPin, hrow]
        dsimp only
        rw [State.knlLines_eq]
        rfl
      rw [hex]
      refine ⟨fun hp hok => ?_, fun hp hok => ?_, fun hp hroom => ?_⟩
      · rw [if_neg (by rcases hp with hp | hp <;> simp [hp]), if_pos hok]
      · rw [if_neg (by rcases hp with hp | hp <;> simp [hp]), if_neg hok]
      · rw [if_pos (by simp [hp, hroom])]
    · rintro rfl l
      change execKnlUnpin d ⟨r, errs⟩ s = _
      rw [execKnlUnpin, hrow]
      dsimp only
      rw [State.knlLines_eq, kresult, Nat.zero_add]
    · rintro rfl
      change execKnlEvict d r s = _
      rw [execKnlEvict, hrow, kresult, Nat.zero_add]
    · rintro rfl l
      have hex : exec (.knlUnload d ⟨r, errs⟩) s = .next (if m.pinned || 0 < m.refs then s.cmdDone key (6 + 256 * id)
          else if ok l then ((met l).unloadModel id).cmdDone key (256 * id) else (met l).cmdDone key (7 + 256 * id)) := by
        change execKnlUnload d ⟨r, errs⟩ s = _
        rw [execKnlUnload, hrow]
        dsimp only
        rw [State.knlLines_eq, kresult, kresult, Nat.zero_add]
      rw [hex]
      refine ⟨fun hp hz => ?_, fun hp => ?_⟩
      · rw [if_neg (by simp [hp, hz])]
      · rw [if_pos (by rcases hp with hp | hp <;> simp [hp])]
  · intro s r
    refine ⟨fun hb hf => ?_, fun i f hf hb => ?_⟩
    · rw [State.tableRead, hf, hb]
      rfl
    · intro n u o hn
      rw [State.tableRead, hf, hb]
      change (u.forgeAsk).ueMet 0 none 2 _ _ = _
      rw [State.forgeAsk, if_neg]
      · rfl
      · simp only [Bool.and_eq_true, decide_eq_true_eq, not_and_or]
        exact .inl (Nat.not_le.2 hn)

end Sys2Proof.Machine
end

/-!
## Lines of the store, and fills (R186, R192, R193, R401, R402, R405)
-/
section

namespace Sys2Proof.Machine

variable {s : State}

/-! ### Bytes written and read back -/

theorem toLE_leNat (l : List Byte) : toLE l.length (leNat l) = l := by
  induction l with
  | nil => rfl
  | cons x l ih =>
    have hx := x.isLt
    have hlow : BitVec.ofNat 8 (x.toNat + 256 * leNat l) = x := BitVec.eq_of_toNat_eq (by rw [BitVec.toNat_ofNat]; omega)
    have hhigh : (x.toNat + 256 * leNat l) / 256 = leNat l := by omega
    rw [List.length_cons, leNat, toLE, hlow, hhigh, ih]

@[simp] theorem Mem.length_read (m : Mem) (a n : Nat) : (m.read a n).length = n := by simp [Mem.read]

/-- Bytes that have been written are read back. -/
theorem Mem.read_write {m : Mem} (h : memOk m = true) (a : Nat) (l : List Byte) : (m.write a l).read a l.length = l := by
  refine List.ext_getElem (by simp) fun i hi hi' => ?_
  simp only [Mem.read, List.getElem_map, List.getElem_range, Mem.get_write h]
  rw [if_pos (by omega), Nat.add_sub_cancel_left, List.getD_eq_getElem _ _ hi']

/-- A read that a write does not meet. -/
theorem Mem.read_write_of_disjoint {m : Mem} (h : memOk m = true) {a b n : Nat} {l : List Byte} (hd : b + n ≤ a ∨ a + l.length ≤ b) :
    (m.write a l).read b n = m.read b n := by
  refine List.map_congr_left fun i hi => ?_
  have := List.mem_range.1 hi
  rw [Mem.get_write h, if_neg (by omega)]

/-! ### A line of a store frame -/

theorem Variant.region_frame {v : Variant} {f i : Nat} (hf : f < v.storeFrames) (hi : i < 256) :
    v.region (f * 16384 + 64 * i) = .frame f := by
  have hlt : f * 16384 + 64 * i < v.dirOff := by cases v <;> simp only [dirOff, storeFrames] at * <;> omega
  rw [region, if_pos hlt]
  congr 1
  omega

/-- The data of a line of a store frame stands below its channel's metadata. -/
theorem Variant.dataAt_add_le_metaAt {v : Variant} {f i : Nat} (hf : f < v.storeFrames) (hi : i < 256) :
    v.dataAt (f * 16384 + 64 * i) + 64 ≤ v.metaAt (f * 16384 + 64 * i) := by
  have hq : (f * 16384 + 64 * i) / 64 / v.channels < 1835008 := by
    cases v <;> simp only [channels, storeFrames] at * <;> omega
  rw [dataAt, metaAt, metaStart]
  omega

theorem length_xtsSeal (key : List Byte) (a ver : Nat) (l : List Byte) : (xtsSeal key a ver l).length = 64 := length_toLE _ _

theorem length_lineTag (key : List Byte) (a ver : Nat) (c : List Byte) : (lineTag key a ver c).length = 4 := by simp [lineTag]

theorem length_lineMeta (key : List Byte) (a ver : Nat) (c : List Byte) : (lineMeta key a ver c).length = 8 := by
  simp [lineMeta, length_lineTag]

theorem leNat_toLE_toNat {n : Nat} (x : BitVec (8 * n)) : leNat (toLE n x.toNat) = x.toNat := by
  refine leNat_toLE_of_lt ?_
  rw [show 256 = 2 ^ 8 by decide, ← pow_mul]
  exact x.isLt

/-- A sealed line opens to what it was. -/
theorem xtsOpen_xtsSeal (key : List Byte) (a ver : Nat) {l : List Byte} (hl : l.length = 64) :
    xtsOpen key a ver (xtsSeal key a ver l) = l := by
  have hpow : (256 : ℕ) ^ 64 = 2 ^ 512 := by rw [show 256 = 2 ^ 8 by decide, ← pow_mul]
  have hlt : leNat l < 2 ^ 512 := by
    have := leNat_lt l
    rwa [hl, hpow] at this
  have hback : ∀ x : BitVec 512, BitVec.ofNat 512 (leNat (toLE 64 x.toNat)) = x := fun x => by
    rw [leNat_toLE_toNat (n := 64) x, BitVec.ofNat_toNat, BitVec.setWidth_eq]
  rw [xtsOpen, xtsSeal, hback, Equiv.symm_apply_apply, BitVec.toNat_ofNat, Nat.mod_eq_of_lt hlt, ← hl, toLE_leNat]

theorem State.putLine_store (s : State) (o v : Nat) (l : List Byte) : (s.putLine o v l).knl.store =
    (s.knl.store.write (s.var.dataAt o) (xtsSeal s.sec.kxts (storeBase + o) v l)).write (s.var.metaAt o)
      (lineMeta s.sec.ktag (storeBase + o) v (xtsSeal s.sec.kxts (storeBase + o) v l)) := by rw [putLine]

@[simp] theorem State.putLine_var (s : State) (o v : Nat) (l : List Byte) : (s.putLine o v l).var = s.var := by
  obtain ⟨m, b, h⟩ : ∃ m b, s.putLine o v l = { s with knl := { s.knl with store := m, badLines := b } } := ⟨_, _, rfl⟩
  rw [h]
  rfl

/-- What stands at a line of a store frame once it has been put. -/
theorem State.storedLine_putLine (hm : s.memsOk = true) {f i : Nat} (hf : f < s.var.storeFrames) (hi : i < 256) (v : Nat) (l : List Byte) :
    let o := f * 16384 + 64 * i
    let c := xtsSeal s.sec.kxts (storeBase + o) v l
    (s.putLine o v l).storedLine o = (c, lineMeta s.sec.ktag (storeBase + o) v c) := by
  intro o c
  have hstore : memOk s.knl.store = true := (memsOk_iff.1 hm).2.2.2.1
  have hgap : s.var.dataAt o + 64 ≤ s.var.metaAt o := Variant.dataAt_add_le_metaAt hf hi
  have hc : c.length = 64 := length_xtsSeal ..
  have hmeta := length_lineMeta s.sec.ktag (storeBase + o) v c
  have hdata : (s.putLine o v l).knl.store.read (s.var.dataAt o) 64 = c := by
    rw [putLine_store, Mem.read_write_of_disjoint (memOk_write hstore _ _) (.inl hgap)]
    exact hc ▸ Mem.read_write hstore (s.var.dataAt o) c
  have hread : (s.putLine o v l).knl.store.read (s.var.metaAt o) 8 = lineMeta s.sec.ktag (storeBase + o) v c := by
    rw [putLine_store]
    exact hmeta ▸ Mem.read_write (memOk_write hstore _ _) (s.var.metaAt o) _
  rw [storedLine, putLine_var, Variant.region_frame hf hi]
  dsimp only
  rw [if_neg (by decide), hdata, hread]

theorem State.openLine_putLine (hm : s.memsOk = true) {f i : Nat} (hf : f < s.var.storeFrames) (hi : i < 256) (v : Nat) {l : List Byte}
    (hl : l.length = 64) : (s.putLine (f * 16384 + 64 * i) v l).openLine (f * 16384 + 64 * i) v = l := by
  rw [openLine, storedLine_putLine hm hf hi]
  exact xtsOpen_xtsSeal _ _ _ hl

theorem State.lineFault_putLine (hm : s.memsOk = true) {f i : Nat} (hf : f < s.var.storeFrames) (hi : i < 256) (v : Nat) (l : List Byte) :
    (s.putLine (f * 16384 + 64 * i) v l).lineFault (f * 16384 + 64 * i) v = none := by
  have hbad : (s.putLine (f * 16384 + 64 * i) v l).knl.badLines.contains ((f * 16384 + 64 * i) / 64) = false := by
    simp [putLine]
  rw [lineFault, storedLine_putLine hm hf hi]
  dsimp only
  rw [hbad, if_neg (by decide), if_pos]
  exact List.take_left' (length_lineTag ..)

/-! ### Lines read one after another -/

/-- Lines of which none is not good: those that are corrected are told. -/
theorem readLines_of_good {f : Nat → LineEnd} {l : List Nat} (h : ∀ i ∈ l, ∀ g, f i ≠ .bad g) :
    readLines f l = ⟨l.filter fun i => f i = .fixed, none⟩ := by
  induction l with
  | nil => rfl
  | cons i l ih =>
    have ih := ih fun j hj => h j (List.mem_cons_of_mem _ hj)
    rw [readLines]
    cases hi : f i with
    | bad g => exact absurd hi (h i List.mem_cons_self g)
    | fixed => simp [ih, hi]
    | good => simp [ih, hi]

theorem bad_readLines_append {f : Nat → LineEnd} {l l' : List Nat} (h : ∀ i ∈ l, ∀ g, f i ≠ .bad g) :
    (readLines f (l ++ l')).bad = (readLines f l').bad := by
  induction l with
  | nil => rfl
  | cons i l ih =>
    have ih := ih fun j hj => h j (List.mem_cons_of_mem _ hj)
    rw [List.cons_append, readLines]
    cases hi : f i with
    | bad g => exact absurd hi (h i List.mem_cons_self g)
    | fixed => exact ih
    | good => exact ih

/-- The first line that is not good ends a read of lines in rising order. -/
theorem bad_readLines_range {f : Nat → LineEnd} {n i : Nat} {g : Bool} (hi : i < n) (hg : f i = .bad g)
    (h : ∀ j, j < i → ∀ g, f j ≠ .bad g) : (readLines f (List.range n)).bad = some (i, g) := by
  obtain ⟨k, rfl⟩ := Nat.exists_eq_add_of_le (Nat.succ_le_of_lt hi)
  have hsplit : List.range (i + 1 + k) = List.range i ++ i :: (List.range k).map (i + 1 + ·) := by
    rw [List.range_add, List.range_succ, List.append_assoc]
    rfl
  rw [hsplit, bad_readLines_append fun j hj => h j (List.mem_range.1 hj), readLines, hg]

/-- What the check symbols make of a line's errors, by the first read of it that they can correct. -/
theorem codewordEnd_eq (x : LineErr) : codewordEnd x =
    if byteErrs x.first ≤ 2 ∨ byteErrs x.second ≤ 2 then
      (if 0 < byteErrs (if byteErrs x.first ≤ 2 then x.first else x.second) then .fixed else .good)
    else .bad x.clean := by
  rw [codewordEnd]
  grind

/-- How a line ends that stands good or with a fault, where errors are told of it or not. -/
theorem lineEnd_fault (f : Bool) (errs : List LineErr) (i : Nat) : lineEnd (some f) errs i = .bad f := rfl

theorem lineEnd_told {errs : List LineErr} {i : Nat} {x : LineErr} (h : errs.find? (fun x => x.line == i) = some x) :
    lineEnd none errs i = codewordEnd x := by rw [lineEnd, h]

theorem lineEnd_untold {errs : List LineErr} {i : Nat} (h : errs.find? (fun x => x.line == i) = none) :
    lineEnd none errs i = .good := by rw [lineEnd, h]

/-- A line without a fault whose errors can be corrected is not bad, and is told as corrected where it has one. -/
theorem lineEnd_of_good {errs : List LineErr} {i : Nat}
    (h : ∀ x, errs.find? (fun x => x.line == i) = some x → byteErrs x.first ≤ 2 ∨ byteErrs x.second ≤ 2) :
    (∀ g, lineEnd none errs i ≠ .bad g) ∧ (lineEnd none errs i = .fixed ↔ ∃ x, errs.find? (fun x => x.line == i) = some x
      ∧ 0 < byteErrs (if byteErrs x.first ≤ 2 then x.first else x.second)) := by
  cases htold : errs.find? (fun x => x.line == i) with
  | none => rw [lineEnd_untold htold]; simp
  | some x =>
    rw [lineEnd_told htold, codewordEnd_eq, if_pos (h x htold)]
    by_cases hx : 0 < byteErrs (if byteErrs x.first ≤ 2 then x.first else x.second)
    · rw [if_pos hx]
      exact ⟨fun g => by simp, ⟨fun _ => ⟨x, rfl, hx⟩, fun _ => rfl⟩⟩
    · rw [if_neg hx]
      refine ⟨fun g => by simp, ⟨fun h => (by cases h), ?_⟩⟩
      rintro ⟨y, hy, hpos⟩
      cases hy
      exact absurd hpos hx

/-- A page's line under the entry that the fill has read. -/
theorem State.fillLine_eq {pn : Nat} {e : DirEnt} (he : Tab.get {} s.knl.dir pn = e) (errs : List LineErr) (i : Nat) :
    s.fillLine pn e errs i = lineEnd (s.lineFault (s.fillOff pn e i) (if i = 256 then s.lvtOf (dirLine pn) else e.version)) errs i := by
  rw [fillLine, he, if_neg (not_not.2 rfl)]

theorem State.fillEnd_tells {pn : Nat} {e : DirEnt} (errs : List LineErr) (he : Tab.get {} s.knl.dir pn = e) :
    let fault := fun (i : Nat) => s.lineFault (s.fillOff pn e i) (if i = 256 then s.lvtOf (dirLine pn) else e.version)
    let told := fun (i : Nat) => errs.find? fun x => x.line == i
    let good := fun (i : Nat) => fault i = none ∧ ∀ x, told i = some x → byteErrs x.first ≤ 2 ∨ byteErrs x.second ≤ 2
    let r := s.fillEnd pn e errs
    ((∀ i, i ≤ 256 → good i) → r.bad = none
      ∧ ∀ i, i ∈ r.fixed ↔ i ≤ 256 ∧ ∃ x, told i = some x
        ∧ 0 < byteErrs (if byteErrs x.first ≤ 2 then x.first else x.second))
    ∧ (∀ i, i < 256 → good 256 → (∀ j, j < i → good j) →
      (∀ f, fault i = some f → r.bad = some (i, f))
      ∧ (∀ x, fault i = none → told i = some x → 2 < byteErrs x.first → 2 < byteErrs x.second → r.bad = some (i, x.clean))) := by
  intro fault told good r
  have hline : ∀ i, s.fillLine pn e errs i = lineEnd (fault i) errs i := fun i => fillLine_eq he errs i
  have hgood : ∀ i, good i → (∀ g, s.fillLine pn e errs i ≠ .bad g) := fun i hi g => by
    rw [hline, hi.1]
    exact (lineEnd_of_good hi.2).1 g
  have hmem : ∀ i, i ∈ 256 :: List.range 256 ↔ i ≤ 256 := fun i => by simp; omega
  refine ⟨fun h => ?_, fun i hi h256 hlow => ?_⟩
  · have hr : r = _ := readLines_of_good fun i hi => hgood i (h i ((hmem i).1 hi))
    rw [hr]
    refine ⟨rfl, fun i => ?_⟩
    rw [List.mem_filter, hmem]
    refine and_congr_right fun hi => ?_
    rw [decide_eq_true_eq, hline, (h i hi).1]
    exact (lineEnd_of_good (h i hi).2).2
  · have hbad : ∀ g, s.fillLine pn e errs i = .bad g → r.bad = some (i, g) := fun g hg => by
      rw [show r = s.fillEnd pn e errs from rfl, fillEnd, ← List.singleton_append, bad_readLines_append fun j hj => by
        rw [List.mem_singleton.1 hj]
        exact hgood 256 h256]
      exact bad_readLines_range hi hg fun j hj => hgood j (hlow j hj)
    refine ⟨fun f hf => hbad f (by rw [hline, hf, lineEnd_fault]), fun x hf hx h1 h2 => hbad x.clean ?_⟩
    rw [hline, hf, lineEnd_told hx, codewordEnd_eq, if_neg (by omega)]

/-! ### A fill that ends well -/

theorem Tab.upd_congr {α : Type} [DecidableEq α] {d : α} {t : Tab α} {i : Nat} {f g : α → α} (h : f (Tab.get d t i) = g (Tab.get d t i)) :
    Tab.upd d t i f = Tab.upd d t i g := by rw [Tab.upd, Tab.upd, h]

/-- A frame that is not doomed stays. -/
theorem State.frameGoes_of_not_doomed {k : Nat} (h : (Tab.get {} s.knl.frames k).doomed = false) : s.frameGoes k = s := by
  rw [frameGoes]
  exact if_pos (by simp [h])

theorem Frame.waits_iff {f : Frame} (hg : f.gone = false) (t : Touch) : f.waits t = true ↔ t.pn = f.pn ∧ t.frame = none := by
  simp [Frame.waits, hg]

theorem State.waitingOn_eq {f : Frame} (hg : f.gone = false) :
    s.waitingOn f = s.knl.touches.filter fun t => t.pn = f.pn ∧ t.frame = none :=
  List.filter_congr fun t _ => by rw [Bool.eq_iff_iff, Frame.waits_iff hg, decide_eq_true_iff]

theorem length_openLine (s : State) (o v : Nat) : (s.openLine o v).length = 64 := length_toLE _ _

theorem length_flatMap_of_length (n : Nat) {g : Nat → List Byte} (hg : ∀ i, (g i).length = 64) :
    ((List.range n).flatMap g).length = 64 * n := by
  rw [List.length_flatMap, List.map_congr_left fun i _ => hg i]
  simp [Nat.mul_comm]

theorem getD_flatMap_of_length {n : Nat} {g : Nat → List Byte} (hg : ∀ i, (g i).length = 64) {i : Nat} (hi : i < 64 * n) :
    ((List.range n).flatMap g).getD i 0 = (g (i / 64)).getD (i % 64) 0 := by
  induction n with
  | zero => omega
  | succ n ih =>
    have hlen := length_flatMap_of_length n hg
    rw [List.range_succ, List.flatMap_append, List.flatMap_singleton]
    by_cases h : i < 64 * n
    · rw [List.getD_append _ _ _ _ (by omega), ih h]
    · rw [List.getD_append_right _ _ _ _ (by omega), hlen, show i / 64 = n by omega, show i - 64 * n = i % 64 by omega]

/-- The bytes of a page as a fill writes them into its frame. -/
theorem State.yard_pageBytes (hm : s.memsOk = true) {k : Nat} (e : DirEnt) (hb : s.yardBadIn (16384 * k) (16384 * k + 16384) = []) {i : Nat}
    (hi : i < 16384) : Tab.get 0 (s.yardWrite (bytesAt (16384 * k) (s.pageBytes e))).1.yard.mem (16384 * k + i) =
      (s.openLine (e.sframe * 16384 + 64 * (i / 64)) e.version).getD (i % 64) 0 := by
  have hlen : (s.pageBytes e).length = 16384 := length_flatMap_of_length 256 fun i => length_openLine ..
  have hmem : (s.yardWrite (bytesAt (16384 * k) (s.pageBytes e))).1.yard.mem = s.yard.mem.write (16384 * k) (s.pageBytes e) :=
    (writeChecked_of_unitsIn_nil (by omega) (by rw [hlen]; exact hb)).1
  rw [hmem, Mem.get_write (memsOk_iff.1 hm).2.2.1, if_pos (by omega), Nat.add_sub_cancel_left, pageBytes,
    getD_flatMap_of_length (fun i => length_openLine ..) (by omega)]

/-- A frame once its page stands in it, with the touches that wait reading it. -/
def State.fillServed (s : State) (k : Nat) (f : Frame) (pinned : Bool) (n : Nat) : State :=
  let s := s.updFrame k fun f => { f with st := if pinned && !f.doomed then .pinned else .resident, ref := true, reads := f.reads + n }
  { s with knl := { s.knl with touches := s.knl.touches.map fun t => if f.waits t then { t with frame := some k } else t } }

theorem State.fillGood_eq {f : Frame} (hg : f.gone = false) (k id : Nat) : s.fillGood k f (some id) =
    let w := (s.yardWrite (bytesAt (16384 * k) (s.pageBytes f.ent))).1
    ((w.fillServed k f (s.model id).pinned (w.waitingOn f).length).frameGoes k).knlFilled f.pn := by
  rw [fillGood, hg]
  rfl

theorem kennelFillComplete_of_good {k id : Nat} {m : Model} {errs : List LineErr} {f : Frame} (hk : Tab.get {} s.knl.frames k = f)
    (hst : f.st = .filling) (hd : f.doomed = false) (hg : f.gone = false) (hm : s.modelOf f.pn = some (id, m))
    (he : s.fillEnd f.pn f.ent errs = ⟨[], none⟩) :
    let w := (s.yardWrite (bytesAt (16384 * k) (s.pageBytes f.ent))).1
    let n := (s.knl.touches.filter fun t => t.pn = f.pn ∧ t.frame = none).length
    exec (.kennelFillComplete k errs) s = .next (State.knlFilled
      { w with knl := { w.knl with
          frames := Tab.upd {} s.knl.frames k fun f =>
            { f with st := if (s.model id).pinned then .pinned else .resident, ref := true, reads := f.reads + n }
          touches := s.knl.touches.map fun t => if t.pn = f.pn ∧ t.frame = none then { t with frame := some k } else t } } f.pn) := by
  intro w n
  have hserved : w.fillServed k f (s.model id).pinned n = { w with knl := { w.knl with
      frames := Tab.upd {} s.knl.frames k fun f =>
        { f with st := if (s.model id).pinned then .pinned else .resident, ref := true, reads := f.reads + n }
      touches := s.knl.touches.map fun t => if t.pn = f.pn ∧ t.frame = none then { t with frame := some k } else t } } := by
    have hframes : Tab.upd {} s.knl.frames k (fun g => { g with
          st := if (s.model id).pinned && !g.doomed then .pinned else .resident, ref := true, reads := g.reads + n }) =
        Tab.upd {} s.knl.frames k fun g => { g with
          st := if (s.model id).pinned then .pinned else .resident, ref := true, reads := g.reads + n } :=
      Tab.upd_congr (by rw [hk, hd, Bool.not_false, Bool.and_true])
    rw [State.fillServed, ← hframes]
    simp only [Frame.waits_iff hg]
    rfl
  have hstays : (Tab.get {} (w.fillServed k f (s.model id).pinned n).knl.frames k).doomed = false := by
    rw [hserved]
    refine (congrArg Frame.doomed (Tab.get_set_of_ne (fun h => by cases congrArg Frame.ref h) _ _ _)).trans ?_
    rw [if_pos rfl, hk]
    exact hd
  change execKennelFillComplete k errs s = _
  rw [execKennelFillComplete, hk]
  refine (if_neg (not_not.2 hst)).trans ?_
  rw [he, hg, hm]
  refine congrArg Host.Outcome.next ((State.fillGood_eq (s := s) hg k id).trans (congrArg (State.knlFilled · f.pn) ?_))
  rw [show (w.waitingOn f).length = n from congrArg List.length (State.waitingOn_eq hg), State.frameGoes_of_not_doomed hstays, hserved]

/-- Settles O30: the start and the end of a fill, how its lines end, and a line of the store put and read. -/
theorem pagesAreFilled : Obligations.PagesAreFilled := by
  refine ⟨?_, ?_, ?_, fun s pn e errs he => State.fillEnd_tells errs he, fun s f i v l hf hi hl hm =>
    ⟨State.openLine_putLine hm hf hi v hl, State.lineFault_putLine hm hf hi v l⟩⟩
  · intro s u pn k rest hw hfills hs ht
    have hgo : ¬ (64 ≤ s.fills || !s.boot.store) = true := by simp [hs]; omega
    change execKennelFillStart s = _
    rw [execKennelFillStart, hw]
    refine (if_neg hgo).trans ?_
    rw [ht]
  · intro s u j rest hw ht
    change execKennelFillStart s = _
    rw [execKennelFillStart, hw]
    dsimp only
    rw [ht]
  · intro s k id m errs f w n hst hd hg hm he
    exact ⟨kennelFillComplete_of_good rfl hst hd hg hm he, fun i hi hmem hb => State.yard_pageBytes hmem f.ent hb hi⟩

end Sys2Proof.Machine
end

/-!
## Yields, slices and segments (R221 to R228, R251, R252)
-/
section

namespace Sys2Proof.Machine

variable {s : State}

/-- No pack's yield is in progress where every yield of its slots is one at the end of a slice. -/
theorem no_pack_yield {cs : List Nat} (h : ∀ b ∈ cs, ∀ i, i < 8 → ∀ y, (s.slot b i).yield = some y → y.1 = true) :
    (cs.any fun c => (List.range 8).any fun k => match (s.slot c k).yield with
      | some (slice, _) => !slice
      | none => false) = false := by
  rw [List.any_eq_false]
  intro b hb hany
  obtain ⟨i, hi, hy⟩ := List.any_eq_true.1 hany
  cases hy' : (s.slot b i).yield with
  | none => rw [hy'] at hy; cases hy
  | some y =>
    rw [hy'] at hy
    have := h b hb i (List.mem_range.1 hi) y hy'
    simp [this] at hy

/-- The highest slot of eight that meets a condition. -/
theorem find_reverse_range_eight {p : Nat → Bool} {k : Nat} (hk : k < 8) (hp : p k = true) (h : ∀ i, k < i → i < 8 → p i = false) :
    (List.range 8).reverse.find? p = some k := by
  rw [List.find?_eq_some_iff_append]
  refine ⟨hp, ((List.range (8 - (k + 1))).map (k + 1 + ·)).reverse, (List.range k).reverse, ?_, fun i hi => ?_⟩
  · have hsplit : List.range 8 = List.range k ++ k :: (List.range (8 - (k + 1))).map (k + 1 + ·) := by
      rw [show 8 = k + 1 + (8 - (k + 1)) by omega, List.range_add, List.range_succ, List.append_assoc, Nat.add_sub_cancel_left]
      rfl
    rw [hsplit]
    simp
  · simp only [List.mem_reverse, List.mem_map, List.mem_range] at hi
    obtain ⟨j, hj, rfl⟩ := hi
    rw [h _ (by omega) (by omega)]
    rfl

/-- What a yield saves of a slot. -/
theorem Slot.saved_eq {x : Slot} {sl : Bool} {from_ : Nat} (h : x.yield = some (sl, from_)) (dt slice : Nat) : x.saved dt slice =
    if sl then { x with yield := none, sliceUsed := 0, sliceLen := max (slice - (dt - from_)) 1000 }
    else { x with yield := none, sliceUsed := x.sliceUsed + (dt - x.sliceFrom) } := by
  cases sl <;> simp [saved, h]

theorem Seg.upset_eq (g : Seg) (u : List (Nat × Bool)) : g.upset u =
    if g.filling = true then { g with filling := false, bad := (u.filter fun p => !p.2).map (·.1), weak := (u.filter (·.2)).map (·.1) }
    else { g with bad := g.bad ++ (u.filter fun p => !p.2).map (·.1), weak := g.weak ++ (u.filter (·.2)).map (·.1) } := rfl

/-- Settles O20: the rows of a yield, of a slice's end, of a context's saving and resumption, and of a segment's fill. -/
theorem yieldsSlicesAndSegments : Obligations.YieldsSlicesAndSegments := by
  refine ⟨?_, ?_, ?_, ?_, ?_⟩
  · intro s j c k cs hbe hlc hfree hyield hfind hk hcan hhigh
    have hfree' : (cs.any fun c => (s.dispatchSlot c).isSome) = false := by
      rw [List.any_eq_false]
      intro b hb
      simp [hfree b hb]
    have hgo : ¬ ((s.job j).be || (s.firstLc j).isNone || (cs.any fun c => (s.dispatchSlot c).isSome)
        || cs.any fun c => (List.range 8).any fun k => match (s.slot c k).yield with
          | some (slice, _) => !slice
          | none => false) = true := by
      rw [hbe, hfree', no_pack_yield hyield, Option.isNone_eq_false_iff.2 hlc]
      decide
    change execBeYieldForLc j s = _
    rw [execBeYieldForLc]
    refine (if_neg hgo).trans ?_
    rw [show (s.packCores j).find? _ = some c from hfind]
    dsimp only
    rw [find_reverse_range_eight hk hcan hhigh]
  · intro s uid c k t x end_ waits ht hst hbe hy hterm hend
    have hgo : ¬ (!t.be || x.yield.isSome || x.term.isSome || decide (s.dt < end_)) = true := by
      rw [hbe, hy, hterm, decide_eq_false (Nat.not_lt.2 hend)]
      decide
    have hwaits : ((match s.headBe t.dom with
        | some h => (s.bePlace h).isNone
        | none => false) && decide ((s.core c).parked.length < 8)) = true ↔ waits = true ∧ (s.core c).parked.length < 8 := by
      cases h : s.headBe t.dom <;> simp [waits, h]
    change execBeSliceEnd uid s = _
    rw [execBeSliceEnd, ht]
    dsimp only
    rw [hst]
    exact (if_neg hgo).trans ((if_congr hwaits rfl rfl).trans (apply_ite Host.Outcome.next ..).symm)
  · intro s uid c k from_ sl t x slice saved ht hst hy hterm hret hrem hpark
    refine ⟨_, ?_, rfl⟩
    have hgo : ¬ (x.yield.isNone || x.term.isSome || !x.ret.isEmpty || x.remote.isSome || decide (8 ≤ (s.core c).parked.length)) = true := by
      rw [hy, hterm, hret, hrem, decide_eq_false (Nat.not_le.2 hpark)]
      simp
    change execYieldContextSave uid s = _
    rw [execYieldContextSave, ht]
    dsimp only
    rw [hst]
    refine (if_neg hgo).trans ?_
    rw [show (s.slot c k).saved s.dt (1000 * (s.job t.job).slice) = saved from Slot.saved_eq hy _ _, show (s.slot c k).yield = _ from hy]
    cases sl <;> rfl
  · intro s c k uid p rest o hc hpark huid hslot hlc hbe hdue hfence hscrub
    have hlc' : (o.pack && (s.firstLc o.job).isSome) = false := by
      cases hp : o.pack with
      | false => rfl
      | true => rw [hlc hp]; rfl
    have hbe' : (match s.headBe o.dom with
        | some h => decide (h.queueTime < p.at_) && s.beFits h c
        | none => false) = false := by
      cases h : s.headBe o.dom with
      | none => rfl
      | some h' => simp only [decide_eq_false (Nat.not_lt.2 (hbe h' h)), Bool.false_and]
    have hgo : ¬ ((o.pack && (s.firstLc o.job).isSome) || (match s.headBe o.dom with
        | some h => decide (h.queueTime < p.at_) && s.beFits h c
        | none => false) || (s.task uid).any s.stopDue || s.ras.fence.contains c || o.scrub) = true := by
      rw [hlc', hbe', hdue, hfence, hscrub]
      decide
    change execParkedResume c s = _
    rw [execParkedResume, if_neg (by simp [hc])]
    dsimp only
    rw [hpark]
    dsimp only
    rw [huid, hslot]
    exact if_neg hgo
  · intro s c seg g upset hc hseg hg hcores hslots start bad weak
    have hstart : (fun x : Slot => if x.uid.isSome && x.seg == seg then { x with started := true } else x) = start := by
      funext x
      simp only [start, Bool.and_eq_true, beq_iff_eq]
    have hex : exec (.segmentFillComplete c seg upset) s = .next (s.updCore c fun q => { q with
        segs := Tab.set none q.segs seg (some (g.upset upset))
        slots := Tab.mapAll {} q.slots fun _ x => start x
        parked := q.parked.map fun p => { p with slot := start p.slot } }) := by
      change execSegmentFillComplete c seg upset s = _
      rw [execSegmentFillComplete, if_neg (by simp [hc, hseg]), hg, ← hstart]
    refine ⟨_, hex, fun k => ?_, ?_, ?_, rfl⟩
    · rw [State.slot, State.core_updCore_self hcores]
      exact Tab.get_mapAll (fun _ => start) (fun _ => rfl) hslots k
    · rw [State.core_updCore_self hcores]
    · rw [State.core_updCore_self hcores, Seg.upset_eq]

end Sys2Proof.Machine
end

/-!
## What Leash can change

A grant, a step and the note of a demand that has fallen change Leash's own fields of a core and of the power block, and nothing else.
-/
section

namespace Sys2Proof.Machine

/-- A core that differs from another in Leash's fields alone. -/
def Core.SameButLeash (q r : Core) : Prop :=
  { r with grant := q.grant, step := q.step, stepNext := q.stepNext, fallAt := q.fallAt } = q

theorem Core.SameButLeash.refl (q : Core) : q.SameButLeash q := rfl

theorem Core.SameButLeash.trans {q r t : Core} (h : q.SameButLeash r) (h' : r.SameButLeash t) : q.SameButLeash t := by
  rw [SameButLeash] at h h'
  rw [SameButLeash, ← h, ← h']

section
variable {q r : Core} (h : q.SameButLeash r)
include h

theorem Core.SameButLeash.slots : r.slots = q.slots := by rw [SameButLeash] at h; rw [← h]
theorem Core.SameButLeash.mem : r.mem = q.mem := by rw [SameButLeash] at h; rw [← h]

end

/-- A state that differs from another in the power block and in Leash's fields of the cores. -/
structure State.LeashMoves (s t : State) : Prop where
  rest : { t with cores := s.cores, pwr := s.pwr } = s
  wf : Tab.wf ({} : Core) s.cores = true → Tab.wf ({} : Core) t.cores = true
  core : Tab.wf ({} : Core) s.cores = true → ∀ c, (s.core c).SameButLeash (t.core c)

variable {s t u : State}

theorem State.LeashMoves.refl (s : State) : s.LeashMoves s := ⟨rfl, fun h => h, fun _ _ => .refl _⟩

theorem State.LeashMoves.trans (h : s.LeashMoves t) (h' : t.LeashMoves u) : s.LeashMoves u where
  rest := by
    have h1 := h.rest
    rw [← h'.rest] at h1
    exact h1
  wf hs := h'.wf (h.wf hs)
  core hs c := (h.core hs c).trans (h'.core (h.wf hs) c)

theorem State.LeashMoves.pwr (s : State) (p : Pwr) : s.LeashMoves { s with pwr := p } := ⟨rfl, fun h => h, fun _ _ => .refl _⟩

theorem State.LeashMoves.updCore (s : State) (c : Nat) {f : Core → Core} (hf : ∀ q : Core, q.SameButLeash (f q)) :
    s.LeashMoves (s.updCore c f) := by
  refine ⟨rfl, fun h => wf_updCore h c f, fun h c' => ?_⟩
  rw [core_updCore h]
  split_ifs with hc
  · exact hc ▸ hf _
  · exact .refl _

theorem State.LeashMoves.setGrant (s : State) (c g : Nat) : s.LeashMoves (s.setGrant c g) := by
  rw [State.setGrant]
  dsimp only
  split_ifs
  · exact .refl _
  · exact (updCore s c (f := fun k => { k with grant := g }) fun _ => rfl).trans (pwr _ _)

theorem State.LeashMoves.setStep (s : State) (c step : Nat) : s.LeashMoves (s.setStep c step) := by
  rw [State.setStep]
  dsimp only
  split_ifs
  · exact .refl _
  · exact (pwr s _).trans (updCore _ c (f := fun k => { k with stepNext := _ }) fun _ => rfl)
  · exact updCore s c (f := fun k => { k with stepNext := _ }) fun _ => rfl

theorem State.LeashMoves.noteFall (s : State) (c : Nat) : s.LeashMoves (s.noteFall c) := by
  rw [State.noteFall]
  split_ifs
  · exact updCore s c (f := fun k => { k with fallAt := _ }) fun _ => rfl
  · exact updCore s c (f := fun k => { k with fallAt := none }) fun _ => rfl

theorem State.LeashMoves.cover (s : State) (c : Nat) (e : Option Engine) : s.LeashMoves (s.cover c e).2 := by
  rw [State.cover]
  dsimp only
  split
  · exact .refl _
  · split
    · exact .setGrant ..
    · split
      · exact (setStep ..).trans (setGrant ..)
      · exact .refl _

theorem State.LeashMoves.slotCredits (s : State) (c : Nat) : s.LeashMoves (s.slotCredits c) := (cover s c none).trans (noteFall ..)

section
variable (h : s.LeashMoves t)
include h

theorem State.LeashMoves.sched : t.sched = s.sched := by rw [← h.rest]
theorem State.LeashMoves.id : t.id = s.id := by rw [← h.rest]
theorem State.LeashMoves.yard : t.yard = s.yard := by rw [← h.rest]

theorem State.LeashMoves.slot (hs : Tab.wf ({} : Core) s.cores = true) (c k : Nat) : t.slot c k = s.slot c k := by
  rw [State.slot, State.slot, Core.slot, Core.slot, (h.core hs c).slots]

theorem State.LeashMoves.rd (hs : Tab.wf ({} : Core) s.cores = true) (a : Nat) : t.rd a = s.rd a :=
  rd_congr h.id (congrArg Yard.mem h.yard) (fun c => (h.core hs c).mem) a

end

end Sys2Proof.Machine
end

/-!
## Release, dispatch and the order of dispatch (R215 to R220)
-/
section

namespace Sys2Proof.Machine

variable {s : State}

/-! ### Lists searched in order -/

/-- The first hit in a list whose keys do not fall comes before every element of a higher key. -/
theorem findSome_of_sorted {α β : Type} {l : List α} {f : α → Option β} {b : β} {key : α → Nat}
    (hl : l.Pairwise fun x y => key x ≤ key y) (h : l.findSome? f = some b) :
    ∃ a ∈ l, f a = some b ∧ ∀ x ∈ l, key x < key a → f x = none := by
  obtain ⟨l₁, a, l₂, rfl, ha, hno⟩ := List.findSome?_eq_some_iff.1 h
  refine ⟨a, by simp, ha, fun x hx hlt => ?_⟩
  obtain hx | rfl | hx : x ∈ l₁ ∨ x = a ∨ x ∈ l₂ := by simpa using hx
  · exact hno x hx
  · exact absurd hlt (Nat.lt_irrefl _)
  · exact absurd hlt (Nat.not_lt.2 ((List.pairwise_cons.1 (List.pairwise_append.1 hl).2.1).1 x hx))

/-- The order of two keys of two numbers. -/
def keyLe (x y : Nat × Nat) : Prop := x.1 < y.1 ∨ (x.1 = y.1 ∧ x.2 ≤ y.2)

theorem keyLe.trans {x y z : Nat × Nat} (h : keyLe x y) (h' : keyLe y z) : keyLe x z := by
  rw [keyLe] at *
  omega

/-- Searching the first by a key starts from the best so far. -/
theorem foldl_firstBy (key : Task → Nat × Nat) (l : List Task) (b : Task) :
    ∃ t, l.foldl (fun a t => match a with
        | none => some t
        | some b => if (key t).1 < (key b).1 || ((key t).1 == (key b).1 && (key t).2 < (key b).2) then some t else a) (some b) = some t
      ∧ (t = b ∨ t ∈ l) ∧ keyLe (key t) (key b) ∧ ∀ u ∈ l, keyLe (key t) (key u) := by
  induction l generalizing b with
  | nil => exact ⟨b, rfl, .inl rfl, .inr ⟨rfl, le_rfl⟩, by simp⟩
  | cons x l ih =>
    rw [List.foldl_cons]
    by_cases hx : (key x).1 < (key b).1 ∨ ((key x).1 = (key b).1 ∧ (key x).2 < (key b).2)
    · obtain ⟨t, ht, hm, hb, hl⟩ := ih x
      refine ⟨t, ?_, ?_, hb.trans (by rw [keyLe]; omega), ?_⟩
      · dsimp only
        rw [if_pos (by simpa using hx)]
        exact ht
      · rcases hm with rfl | hm
        · exact .inr List.mem_cons_self
        · exact .inr (List.mem_cons_of_mem _ hm)
      · intro u hu
        rcases List.mem_cons.1 hu with rfl | hu
        · exact hb
        · exact hl u hu
    · obtain ⟨t, ht, hm, hb, hl⟩ := ih b
      refine ⟨t, ?_, hm.imp_right (List.mem_cons_of_mem _), hb, ?_⟩
      · dsimp only
        rw [if_neg (by simpa using hx)]
        exact ht
      · intro u hu
        rcases List.mem_cons.1 hu with rfl | hu
        · exact hb.trans (by rw [keyLe]; omega)
        · exact hl u hu

/-- The first of a list by a key is in it, and no element comes before it. -/
theorem firstBy_eq_some {key : Task → Nat × Nat} {l : List Task} {t : Task} (h : firstBy key l = some t) :
    t ∈ l ∧ ∀ u ∈ l, keyLe (key t) (key u) := by
  cases l with
  | nil => cases h
  | cons x l =>
    obtain ⟨t', ht', hm, hb, hl⟩ := foldl_firstBy key l x
    obtain rfl : t' = t := Option.some.inj (ht'.symm.trans h)
    refine ⟨?_, fun u hu => ?_⟩
    · rcases hm with rfl | hm
      · exact List.mem_cons_self
      · exact List.mem_cons_of_mem _ hm
    · rcases List.mem_cons.1 hu with rfl | hu
      · exact hb
      · exact hl u hu

theorem firstBy_ne_none {key : Task → Nat × Nat} {l : List Task} {u : Task} (hu : u ∈ l) : firstBy key l ≠ none := by
  cases l with
  | nil => cases hu
  | cons x l =>
    obtain ⟨t, ht, -⟩ := foldl_firstBy key l x
    intro hnone
    cases ht.symm.trans hnone

/-! ### The order of dispatch -/

theorem State.mem_firstLc {j : Nat} {t : Task} (h : s.firstLc j = some t) :
    t ∈ s.readyTasks ∧ t.be = false ∧ t.job = j
      ∧ ∀ u ∈ s.readyTasks, u.be = false → u.job = j → keyLe (t.deadline.getD 0, t.release) (u.deadline.getD 0, u.release) := by
  obtain ⟨hm, hle⟩ := firstBy_eq_some h
  simp only [List.mem_filter, Bool.and_eq_true, Bool.not_eq_true', beq_iff_eq] at hm hle
  exact ⟨hm.1, hm.2.1, hm.2.2, fun u hu hb hj => hle u ⟨hu, hb, hj⟩⟩

theorem State.mem_headBe {d : Nat} {t : Task} (h : s.headBe d = some t) :
    t ∈ s.readyTasks ∧ t.be = true ∧ t.dom = d
      ∧ ∀ u ∈ s.readyTasks, u.be = true → u.dom = d → keyLe (t.queueTime, t.uid) (u.queueTime, u.uid) := by
  obtain ⟨hm, hle⟩ := firstBy_eq_some h
  simp only [List.mem_filter, Bool.and_eq_true, beq_iff_eq] at hm hle
  exact ⟨hm.1, hm.2.1, hm.2.2, fun u hu hb hj => hle u ⟨hu, hb, hj⟩⟩

/-- The LC jobs stand in the order of their PACK_LO. -/
theorem State.pairwise_lcJobs (h : Tab.wf ({} : Job) s.sched.jobs = true) :
    s.lcJobs.Pairwise fun i j => (s.job i).packLo ≤ (s.job j).packLo := by
  have hjob : ∀ p ∈ (s.sched.jobs.filter fun p => !p.2.be && p.2.st ≠ .free && p.2.st ≠ .loading).map (fun p => (p.2.packLo, p.1)),
      (s.job p.2).packLo = p.1 := by
    intro p hp
    obtain ⟨⟨k, x⟩, hx, rfl⟩ := List.mem_map.1 hp
    exact congrArg Job.packLo ((Tab.Above.mem_iff_get (Tab.wf_iff.1 h) k x).1 (List.mem_filter.1 hx).1).1
  have htot : Std.Total (fun a b : Nat × Nat => a.1 ≤ b.1) := ⟨fun a b => Nat.le_total a.1 b.1⟩
  have htrans : IsTrans (Nat × Nat) (fun a b => a.1 ≤ b.1) := ⟨fun a b c h h' => Nat.le_trans h h'⟩
  rw [lcJobs, List.pairwise_map]
  refine (List.pairwise_insertionSort (fun a b : Nat × Nat => a.1 ≤ b.1) _).imp_of_mem fun ha hb hle => ?_
  rw [hjob _ ((List.mem_insertionSort _).1 ha), hjob _ ((List.mem_insertionSort _).1 hb)]
  exact hle

theorem State.pairwise_packCores (s : State) (j : Nat) : (s.packCores j).Pairwise fun b c => b ≤ c :=
  ((List.pairwise_map.2 (List.pairwise_le_range.imp fun h => Nat.add_le_add_left h _))).filter _

/-- The lowest free slot of a core. -/
def State.LowestFree (s : State) (c k : Nat) : Prop := k < 8 ∧ (s.slot c k).uid = none ∧ ∀ i, i < k → (s.slot c i).uid ≠ none

theorem State.dispatchSlot_eq_some {c k : Nat} : s.dispatchSlot c = some k ↔ s.coreOpen c = true ∧ s.LowestFree c k := by
  have hfree : (s.core c).freeSlotNo = some k ↔ s.LowestFree c k := by
    rw [Core.freeSlotNo, List.find?_range_eq_some, List.mem_range, Option.isNone_iff_eq_none]
    simp only [LowestFree, slot, Bool.not_eq_true', Option.isNone_eq_false_iff, Option.isSome_iff_ne_none]
    tauto
  rw [dispatchSlot]
  cases h : s.coreOpen c
  · simp
  · simpa using hfree

theorem State.isSome_dispatchSlot {c : Nat} : (s.dispatchSlot c).isSome = true ↔ s.coreOpen c = true ∧ ∃ k, s.LowestFree c k := by
  simp only [Option.isSome_iff_exists, dispatchSlot_eq_some, exists_and_left]

theorem State.beFits_iff {t : Task} {c : Nat} : s.beFits t c = true ↔
    s.coreOpen c = true ∧ (∃ k, s.LowestFree c k) ∧ (s.owner c).dom = t.dom ∧ (∀ p ∈ (s.core c).parked, t.queueTime < p.at_)
    ∧ (if (s.owner c).pack = true then s.firstLc (s.owner c).job = none ∧ ((s.boundTasks c).filter (·.be)).length < 8
       else ((s.boundTasks c).filter (·.be)).length < 16)
    ∧ ((∃ g, (s.core c).segOf t.job = some g) ∨ (s.boundBeJobs c).length < 8) := by
  have hvalid : s.coreOpen c = true → (s.owner c).valid = true := fun h => by
    simp only [coreOpen, Bool.and_eq_true] at h
    exact h.1.1.1
  have hpack : (if (s.owner c).pack then (s.firstLc (s.owner c).job).isNone && decide (((s.boundTasks c).filter (·.be)).length < 8)
      else decide (((s.boundTasks c).filter (·.be)).length < 16)) = true ↔
      (if (s.owner c).pack = true then s.firstLc (s.owner c).job = none ∧ ((s.boundTasks c).filter (·.be)).length < 8
        else ((s.boundTasks c).filter (·.be)).length < 16) := by
    split_ifs <;> simp
  simp only [beFits, Bool.and_eq_true, hpack, beq_iff_eq, List.all_eq_true, decide_eq_true_eq, Bool.or_eq_true,
    Option.isSome_iff_exists, dispatchSlot_eq_some, exists_and_left]
  tauto

/-- The choice among LC tasks: of the packs in their order the first with a ready task and a free slot. -/
theorem State.lcChoice_eq_some (h : Tab.wf ({} : Job) s.sched.jobs = true) {t : Task} {c k : Nat} (hc : s.lcChoice = some (t, c, k)) :
    t ∈ s.readyTasks ∧ t.be = false
    ∧ (∀ u ∈ s.readyTasks, u.be = false → u.job = t.job → keyLe (t.deadline.getD 0, t.release) (u.deadline.getD 0, u.release))
    ∧ c ∈ s.packCores t.job ∧ s.coreOpen c = true ∧ s.LowestFree c k ∧ (∀ b ∈ s.packCores t.job, b < c → s.dispatchSlot b = none)
    ∧ (∀ u ∈ s.readyTasks, u.be = false → u.job ∈ s.lcJobs → (s.job u.job).packLo < (s.job t.job).packLo →
      ∀ b ∈ s.packCores u.job, s.dispatchSlot b = none) := by
  obtain ⟨j, hj, hf, hlow⟩ := findSome_of_sorted (s.pairwise_lcJobs h) hc
  cases hlc : s.firstLc j with
  | none => rw [hlc] at hf; cases hf
  | some t' =>
    rw [hlc] at hf
    dsimp only at hf
    obtain ⟨c', hc', hs, hlow'⟩ := findSome_of_sorted (s.pairwise_packCores j) hf
    obtain ⟨k', hk', he⟩ := Option.map_eq_some_iff.1 hs
    obtain ⟨rfl, rfl, rfl⟩ : t' = t ∧ c' = c ∧ k' = k := by simpa using he
    obtain ⟨hm, hbe, rfl, hle⟩ := mem_firstLc hlc
    obtain ⟨hopen, hfree⟩ := dispatchSlot_eq_some.1 hk'
    refine ⟨hm, hbe, hle, hc', hopen, hfree, fun b hb hlt => by simpa using hlow' b hb hlt, fun u hu hub huj hlt b hb => ?_⟩
    have hnone := hlow u.job huj hlt
    cases hu' : s.firstLc u.job with
    | none => exact absurd hu' (firstBy_ne_none (List.mem_filter.2 ⟨hu, by simp [hub]⟩))
    | some v =>
      rw [hu'] at hnone
      simpa using List.findSome?_eq_none_iff.1 hnone b hb

theorem State.lcChoice_eq_none (hc : s.lcChoice = none) {u : Task} (hu : u ∈ s.readyTasks) (hb : u.be = false) (hj : u.job ∈ s.lcJobs) :
    ∀ b ∈ s.packCores u.job, s.dispatchSlot b = none := by
  intro b hb'
  have hnone := List.findSome?_eq_none_iff.1 hc u.job hj
  cases hu' : s.firstLc u.job with
  | none => exact absurd hu' (firstBy_ne_none (List.mem_filter.2 ⟨hu, by simp [hb]⟩))
  | some v =>
    rw [hu'] at hnone
    simpa using List.findSome?_eq_none_iff.1 hnone b hb'

/-- The choice among BE tasks: of the domains in round robin the first whose head fits a core. -/
theorem State.beChoice_eq_some {t : Task} {c k : Nat} (hc : s.beChoice = some (t, c, k)) :
    t ∈ s.readyTasks ∧ t.be = true ∧ (∀ u ∈ s.readyTasks, u.be = true → u.dom = t.dom → keyLe (t.queueTime, t.uid) (u.queueTime, u.uid))
    ∧ c < s.var.cores ∧ s.beFits t c = true ∧ (∀ b, b < c → s.beFits t b = false) ∧ s.LowestFree c k
    ∧ ∃ i, i < 16 ∧ t.dom = (s.sched.rrDom + i) % 16
      ∧ ∀ i', i' < i → ∀ h, s.headBe ((s.sched.rrDom + i') % 16) = some h → s.bePlace h = none := by
  obtain ⟨i, hi, hf, hlow⟩ := findSome_of_sorted (key := fun i => i) List.pairwise_le_range hc
  have hi := List.mem_range.1 hi
  cases hhead : s.headBe ((s.sched.rrDom + i) % 16) with
  | none => rw [hhead] at hf; cases hf
  | some t' =>
    rw [hhead] at hf
    dsimp only at hf
    cases hplace : s.bePlace t' with
    | none => rw [hplace] at hf; cases hf
    | some c' =>
      rw [hplace] at hf
      obtain ⟨k', hk', he⟩ := Option.map_eq_some_iff.1 hf
      obtain ⟨rfl, rfl, rfl⟩ : t' = t ∧ c' = c ∧ k' = k := by simpa using he
      obtain ⟨hm, hbe, hdom, hle⟩ := mem_headBe hhead
      obtain ⟨hfits, hc', hno⟩ := List.find?_range_eq_some.1 hplace
      refine ⟨hm, hbe, fun u hu hub hud => hle u hu hub (hud.trans hdom), List.mem_range.1 hc', hfits, fun b hb => by simpa using hno b hb,
        (dispatchSlot_eq_some.1 hk').2, i, hi, hdom, fun i' hi' h hh => ?_⟩
      have hnone := hlow i' (List.mem_range.2 (by omega)) hi'
      rw [hh] at hnone
      dsimp only at hnone
      cases hp : s.bePlace h with
      | none => rfl
      | some b =>
        have hslot := isSome_dispatchSlot.2 ⟨(beFits_iff.1 (List.find?_range_eq_some.1 hp).1).1, (beFits_iff.1 (List.find?_range_eq_some.1 hp).1).2.1⟩
        rw [hp] at hnone
        obtain ⟨m, hm⟩ := Option.isSome_iff_exists.1 hslot
        simp [hm] at hnone

/-! ### A task that is placed -/

/-- A task that has been changed in place, read back. -/
theorem State.task_updTask_self {uid : Nat} {t : Task} {f : Task → Task} (h : s.task uid = some t) (hf : ∀ u, (f u).uid = u.uid) :
    (s.updTask uid f).task uid = some (f t) := by
  have hkey : ((fun u : Task => u.uid == uid) ∘ fun u => if u.uid = uid then f u else u) = fun u => u.uid == uid := by
    funext u
    simp only [Function.comp]
    split_ifs <;> simp_all
  have hfind : s.sched.tasks.find? (fun u => u.uid == uid) = some t := h
  rw [task, updTask]
  dsimp only
  rw [List.find?_map, hkey, hfind, Option.map_some, if_pos (uid_of_task h)]

theorem reg_startRegs (t : Task) (r : Nat) : Tab.get 0 (startRegs t) r =
    if r = 0 then BitVec.ofNat 64 t.arg else if r = 1 then BitVec.ofNat 64 t.taskId
    else if r = 2 then BitVec.ofNat 64 (t.deadline.getD 0) else if r = 3 then BitVec.ofNat 64 t.release else 0 := by
  have h0 : Tab.wf (0 : Word) [] = true := rfl
  have h1 := Tab.wf_set h0 0 (BitVec.ofNat 64 t.arg)
  have h2 := Tab.wf_set h1 1 (BitVec.ofNat 64 t.taskId)
  have h3 := Tab.wf_set h2 2 (BitVec.ofNat 64 (t.deadline.getD 0))
  rw [startRegs]
  rw [Tab.get_set h3, Tab.get_set h2, Tab.get_set h1, Tab.get_set h0]
  grind [Tab.get]

/-- What a dispatch leaves: a task placed in a slot, and the credits that Leash moves for it. -/
theorem State.dispatch_eq (s : State) (t : Task) (c k : Nat) : ∃ u seg started,
    s.dispatch t c k = ((u.updSlot c k fun _ => s.startSlot t seg started).updTask t.uid fun t =>
      { t with st := .running c k, tDisp := s.dt }).slotCredits c
    ∧ (u = s ∨ ∃ segs : Core → Tab (Option Seg), u = s.updCore c fun q => { q with segs := segs q }) := by
  rw [dispatch]
  generalize (if (!t.be) = true then _ else _ : Nat × Bool × Bool) = x
  obtain ⟨seg, started, fill⟩ := x
  cases fill
  · exact ⟨s, seg, started, rfl, .inl rfl⟩
  · exact ⟨_, seg, started, rfl, .inr ⟨_, rfl⟩⟩

/-- A task that is placed runs in its slot, with the registers of a start, and no byte has changed. -/
theorem State.dispatch_places {t : Task} {c k : Nat} (htabs : s.slotTabs c k = true) (ht : s.task t.uid = some t) :
    ∃ seg started, (s.dispatch t c k).slot c k = s.startSlot t seg started
      ∧ (s.dispatch t c k).task t.uid = some { t with st := .running c k, tDisp := s.dt }
      ∧ (s.dispatch t c k).sched.rrDom = s.sched.rrDom ∧ ∀ a, (s.dispatch t c k).rd a = s.rd a := by
  obtain ⟨u, seg, started, he, hu⟩ := s.dispatch_eq t c k
  have hcores := (slotTabs_iff.1 htabs).1
  obtain ⟨hsched, hid, hyard, hmem, hwf, hslots⟩ : u.sched = s.sched ∧ u.id = s.id ∧ u.yard = s.yard
      ∧ (∀ c, (u.core c).mem = (s.core c).mem) ∧ Tab.wf ({} : Core) u.cores = true ∧ (u.core c).slots = (s.core c).slots := by
    rcases hu with rfl | ⟨segs, rfl⟩
    · exact ⟨rfl, rfl, rfl, fun _ => rfl, hcores, rfl⟩
    · refine ⟨rfl, rfl, rfl, fun c' => ?_, wf_updCore hcores .., ?_⟩
      · rw [core_updCore hcores]
        split_ifs with hc
        · rw [hc]
        · rfl
      · rw [core_updCore_self hcores]
  have hslots' : Tab.wf ({} : Slot) (u.core c).slots = true := hslots ▸ (slotTabs_iff.1 htabs).2.1
  have hwf' : Tab.wf ({} : Core) (u.updSlot c k fun _ => s.startSlot t seg started).cores = true := wf_updSlot hwf ..
  have hleash := LeashMoves.slotCredits ((u.updSlot c k fun _ => s.startSlot t seg started).updTask t.uid fun t =>
    { t with st := .running c k, tDisp := s.dt }) c
  refine ⟨seg, started, ?_, ?_, ?_, fun a => ?_⟩
  · rw [he, hleash.slot hwf']
    exact (slot_updSlot hwf c k c k _ hslots').trans (if_pos ⟨rfl, rfl⟩)
  · have ht' : (u.updSlot c k fun _ => s.startSlot t seg started).task t.uid = some t := by
      rw [task, show (u.updSlot c k _).sched = s.sched from hsched]
      exact ht
    have hself := task_updTask_self (f := fun t => { t with st := .running c k, tDisp := s.dt }) ht' fun _ => rfl
    rw [he, task, hleash.sched]
    exact hself
  · rw [he, hleash.sched]
    change u.sched.rrDom = s.sched.rrDom
    rw [hsched]
  · rw [he, hleash.rd hwf']
    exact rd_congr (t := u.updSlot c k fun _ => s.startSlot t seg started) hid (congrArg Yard.mem hyard) (fun c' => (mem_updSlot hwf c k c' _).trans (hmem c')) a

/-- The domain that BE dispatch serves next (R218). -/
def State.setRrDom (s : State) (d : Nat) : State := { s with sched := { s.sched with rrDom := d } }

theorem State.setRrDom_fields (s : State) (d : Nat) : (s.setRrDom d).cores = s.cores ∧ (s.setRrDom d).sched.tasks = s.sched.tasks
    ∧ (s.setRrDom d).id = s.id ∧ (s.setRrDom d).yard = s.yard ∧ (s.setRrDom d).sched.rrDom = d := ⟨rfl, rfl, rfl, rfl, rfl⟩

/-- Settles O19: the release of a task, the placing of one, and the order in which tasks are placed. -/
theorem tasksAreReleasedAndDispatched : Obligations.TasksAreReleasedAndDispatched := by
  refine ⟨?_, ?_, ?_⟩
  · intro s uid t ht hst hsat hstop
    have hgo : (t.st == .waiting && t.trigSat && !s.stopDue t) = true := by rw [hst, hsat, hstop]; decide
    change execTaskRelease uid s = _
    rw [execTaskRelease, ht]
    refine (if_pos hgo).trans (congrArg (fun l => Host.Outcome.next { s with sched := { s.sched with tasks := l } })
      (List.map_congr_left fun u _ => if_congr ?_ rfl rfl))
    simp only [Bool.and_eq_true, beq_iff_eq, Bool.not_eq_true', and_assoc]
  · intro s t c k hchoice htabs ht j
    obtain ⟨seg, started, hslot, htask, hrr, hrd⟩ := State.dispatch_places htabs ht
    generalize hv : s.dispatch t c k = v at hslot htask hrr hrd
    have hplaced : ∀ u : State, u.cores = v.cores → u.sched.tasks = v.sched.tasks →
        u.id = v.id → u.yard = v.yard →
        u.task t.uid = some { t with st := .running c k, tDisp := s.dt } ∧ u.slot c k = s.startSlot t seg started ∧ ∀ a, u.rd a = s.rd a :=
      fun u hc htk hid hy => ⟨by rw [State.task, htk]; exact htask, (State.slot_congr hc c k).trans hslot,
        fun a => (State.rd_congr hid (congrArg Yard.mem hy) (fun c' => congrArg Core.mem (State.core_congr hc c')) a).trans (hrd a)⟩
    have hex : ∃ u, exec .taskDispatch s = .next u ∧ u.cores = v.cores ∧ u.sched.tasks = v.sched.tasks
        ∧ u.id = v.id ∧ u.yard = v.yard
        ∧ u.sched.rrDom = (if s.lcChoice.isSome then s.sched.rrDom else (t.dom + 1) % 16) := by
      have hrow : exec .taskDispatch s = execTaskDispatch s := rfl
      rcases hchoice with h | ⟨h, hb⟩
      · refine ⟨v, ?_, rfl, rfl, rfl, rfl, ?_⟩
        · rw [hrow, execTaskDispatch, h, ← hv]
        · rw [h, Option.isSome_some, if_pos rfl, hrr]
      · obtain ⟨hc, htk, hid, hy, hrr'⟩ := v.setRrDom_fields ((t.dom + 1) % 16)
        refine ⟨v.setRrDom ((t.dom + 1) % 16), ?_, hc, htk, hid, hy, ?_⟩
        · rw [hrow, execTaskDispatch, h]
          dsimp only
          rw [hb, ← hv, State.setRrDom]
        · rw [h, Option.isSome_none, if_neg (by decide), hrr']
    obtain ⟨u, hu, hc, htk, hid, hy, hrr'⟩ := hex
    obtain ⟨htask', hslot', hrd'⟩ := hplaced u hc htk hid hy
    refine ⟨u, hu, htask', ?_, fun r => ?_, ?_, ?_, ?_, ?_, ?_, ?_, hrr', hrd'⟩
    all_goals rw [hslot']
    · rfl
    · exact reg_startRegs t r
    all_goals rfl
  · intro s hjobs le due since slotOf packFull
    exact ⟨fun t c k h => State.lcChoice_eq_some hjobs h, fun h u hu hb hj => State.lcChoice_eq_none h hu hb hj,
      fun t c k h => State.beChoice_eq_some h, fun t c => State.beFits_iff⟩

end Sys2Proof.Machine
end

/-! ## O32: the rows that write a set-up register (R5 to R7, R361 to R363, R412)

Every row is one write of BAR0 at its register's address; what such a write does is then said once, by whether it is answered, filtered
or reaches its register. -/

section
namespace Sys2Proof.Machine

variable {s : State} {fn : Fn} {a : Nat}

/-! ### A write of BAR0 that does not reach its register -/

/-- A function that does not answer takes no write. -/
theorem State.regWriteIn_of_not_answers (h : s.fnAnswers fn = false) (ide : Bool) (p : Part) (v : Word) :
    s.regWriteIn fn ide a p v = s := by
  rw [regWriteIn, h]; rfl

/-- A write that IDE turns away is counted, wherever it goes. -/
theorem State.regWriteIn_of_ideFilters {ide : Bool} (h : s.fnAnswers fn = true) (hi : s.ideFilters fn ide = true) (p : Part) (v : Word) :
    s.regWriteIn fn ide a p v = s.filtered := by
  rw [regWriteIn, h, hi]; rfl

/-- Where IDE is not required the stream of a write makes no difference. -/
theorem State.ideFilters_of_not_ideReq (h : s.ideReq fn = false) (ide : Bool) : s.ideFilters fn ide = false := by
  rw [ideFilters, h]; rfl

/-- Where IDE is required a write outside every stream is filtered. -/
theorem State.ideFilters_outside (h : s.ideReq fn = true) : s.ideFilters fn false = true := by rw [ideFilters, h]; rfl

/-! ### The rows -/

/-- What a row that writes a register is: the write of BAR0 at an aligned address outside the MSI-X table, where its unit exists. -/
def State.WritesRegister (s : State) (fn : Fn) (x : Instr × Bool × Nat × Part × Word) : Prop :=
  x.2.1 = true → exec x.1 s = .next (s.regWrite fn x.2.2.1 x.2.2.2.1 x.2.2.2.2) ∧ x.2.2.1 % 8 = 0 ∧ (x.2.2.1 < 0x110000 ∨ 0x111000 ≤ x.2.2.1)

/-- A row that is written as a register row. -/
theorem State.WritesRegister.of_regRow {i : Instr} {ok : Bool} {p : Part} {v : Word} (hrow : exec i s = regRow ok fn a p v s)
    (h8 : a % 8 = 0) (hm : ok = true → a < 0x110000 ∨ 0x111000 ≤ a) : s.WritesRegister fn (i, ok, a, p, v) :=
  fun hok => ⟨hrow.trans (if_pos hok), h8, hm hok⟩

/-- A row whose register stands after the MSI-X table wherever its unit exists. -/
theorem State.WritesRegister.of_above {i : Instr} {ok : Bool} {p : Part} {v : Word} (hrow : exec i s = regRow ok fn a p v s)
    (h8 : a % 8 = 0) (hm : 0x111000 ≤ a) : s.WritesRegister fn (i, ok, a, p, v) := of_regRow hrow h8 fun _ => .inr hm

/-- A row of a register that reaches its register, is filtered, or is not answered. -/
theorem State.WritesRegister.effects {x : Instr × Bool × Nat × Part × Word} (h : s.WritesRegister fn x) (hok : x.2.1 = true) :
    (s.reaches fn x.2.2.1 = true → x.2.2.1 < 0x1000000 →
      exec x.1 s = .next (s.writeReg fn x.2.2.1 (partMask x.2.2.2.1) x.2.2.2.2.toNat))
    ∧ (s.fnAnswers fn = true → s.ideBlocks fn = true ∨ (s.allowed fn x.2.2.1 = false ∧ x.2.2.1 < 0x1000000) →
      exec x.1 s = .next s.filtered)
    ∧ (s.fnAnswers fn = false → exec x.1 s = .next s) := by
  obtain ⟨hrow, h8, hm⟩ := h hok
  refine ⟨fun hr hlt => ?_, fun ha hf => ?_, fun ha => ?_⟩
  · rw [hrow, State.regWrite_of_reaches hr h8 (by omega) hm]
  · rw [hrow]
    refine congrArg _ ?_
    cases hb : s.ideBlocks fn with
    | true => exact State.regWriteIn_of_ideFilters ha ((State.ideFilters_true s fn).trans hb) _ _
    | false =>
      obtain ⟨hal, hlt⟩ := hf.resolve_left (by rw [hb]; decide)
      have hdec : bar0Decodes x.2.2.1 8 = true := by simp [bar0Decodes, h8]; omega
      exact State.regWrite_of_filtered ha hb hdec hm hal _ _
  · rw [hrow]
    exact congrArg _ (State.regWriteIn_of_not_answers ha _ _ _)

/-! ### Registers of absent units (R7) -/

/-- The registers of cores that the variant does not have. -/
theorem State.absent_core (h : 0x400000 + 0x1000 * s.var.cores ≤ a) (h' : a < 0x500000) (k w : Nat) :
    s.readReg a = 0 ∧ s.writeReg fn a k w = s := by
  have hc : s.var.cores ≤ (a - 0x400000) / 0x1000 := by omega
  constructor
  · unfold readReg
    repeat rw [if_neg (by omega : ¬ a < _)]
    rw [if_pos h', coreRegs, if_pos hc, ite_self]
  · unfold writeReg
    repeat rw [if_neg (by omega : ¬ a < _)]
    rw [if_pos h', coreRegWrite, decide_eq_false (by omega), Bool.false_and, Bool.false_and, if_neg Bool.false_ne_true, ite_self]

/-- The registers of the loop engine and of plant I/O where the variant has neither. -/
theorem State.absent_act (hv : s.var.acts = false) (h : 0xA00000 ≤ a) (h' : a < 0xD00000) (k w : Nat) :
    s.readReg a = 0 ∧ s.writeReg fn a k w = s := by
  have hne : ¬ s.var.acts = true := by rw [hv]; decide
  constructor
  · unfold readReg
    repeat rw [if_neg (by omega : ¬ a < _)]
    rw [if_neg hne, if_neg hne, if_pos h', ite_self, ite_self]
  · unfold writeReg
    repeat rw [if_neg (by omega : ¬ a < _)]
    rw [if_neg hne, if_neg hne, if_pos h', ite_self, ite_self]

/-- The registers of the twin where the variant has none. -/
theorem State.absent_twin (hv : s.var.acts = false) (h : 0xF20000 ≤ a) (k w : Nat) :
    s.readReg a = 0 ∧ s.writeReg fn a k w = s := by
  constructor
  · unfold readReg
    repeat rw [if_neg (by omega : ¬ a < _)]
    rw [twinRead, hv]
    exact ite_self _
  · unfold writeReg
    repeat rw [if_neg (by omega : ¬ a < _)]
    rw [twinWrite, hv]
    exact ite_self _

/-- Settles O32: each row is a register write by its definition, which reaches its register, is filtered or is not answered. -/
theorem registerWritesPassTheFilter : Obligations.RegisterWritesPassTheFilter := by
  intro s fn d r q n u addr p v v32 x hx hok
  have hw : s.WritesRegister fn x := by
    clear hok
    revert x
    simp only [List.forall_mem_cons, List.not_mem_nil, false_implies, implies_true, and_true]
    refine ⟨.of_regRow rfl (by omega) fun h => .inl ?sq, .of_regRow rfl (by omega) fun h => .inl ?sq',
      .of_regRow rfl (by omega) fun h => .inl ?eq, ?_⟩
    case sq | sq' | eq =>
      simp only [Bool.and_eq_true, decide_eq_true_eq] at h
      omega
    refine ⟨.of_regRow rfl rfl (by decide), .of_regRow rfl rfl (by decide), .of_regRow rfl rfl (by decide), .of_regRow rfl rfl (by decide),
      .of_regRow rfl rfl (by decide), .of_regRow rfl rfl (by decide), ?_⟩
    constructorm* _ ∧ _
    rotate_right
    · exact fun hok => ⟨rfl, Nat.mul_mod_right 8 addr, by simpa using hok⟩
    all_goals exact .of_above rfl (by omega) (by omega)
  obtain ⟨hreach, hfilt, hoff⟩ := hw.effects hok
  refine ⟨hreach, hfilt, hoff, fun hi => ?_, fun ha hi => ?_, fun a k w hab => ?_⟩
  · change Host.Outcome.next (s.regWriteIn fn false addr p v) = .next (s.regWriteIn fn true addr p v)
    simp only [State.regWriteIn, State.ideFilters_of_not_ideReq hi]
  · exact congrArg _ (State.regWriteIn_of_ideFilters ha (State.ideFilters_outside hi) _ _)
  · obtain ⟨h, h'⟩ | ⟨hv, ⟨h, h'⟩ | ⟨h, -⟩⟩ := hab
    · exact State.absent_core h h' k w
    · exact State.absent_act hv h h' k w
    · exact State.absent_twin hv h k w

end Sys2Proof.Machine
end

/-! ## O33: the bits of a register write, whom registers are given to, undecoded accesses and reads (R14, R325, R361 to R363, R369) -/

section
namespace Sys2Proof.Machine

variable {s : State} {fn : Fn} {a : Nat}

/-! ### The bits of a write (R14) -/

/-- The bits of a word outside a mask are the word without those inside it. -/
theorem sub_and_eq_and_not (x m : Word) : x - (x &&& m) = x &&& ~~~m := by
  have hsplit : x = (x &&& m) + (x &&& ~~~m) := by
    rw [BitVec.add_eq_or_of_and_eq_zero]
    · ext i hi; simp; cases x[i] <;> cases m[i] <;> rfl
    · ext i hi; simp; intro h1 h2; simp [h2]
  nth_rw 1 [hsplit]
  rw [BitVec.add_comm, BitVec.add_sub_cancel]

/-- A write takes the bits of its mask from the value and keeps the others. -/
theorem regMerge_eq (old : Word) (k rw v : Nat) :
    regMerge old k rw v = (old &&& ~~~BitVec.ofNat 64 (k &&& rw)) ||| (BitVec.ofNat 64 v &&& BitVec.ofNat 64 (k &&& rw)) := by
  have hle : old.toNat &&& (k &&& rw) ≤ old.toNat := Nat.and_le_left
  have hkept : BitVec.ofNat 64 (old.toNat - (old.toNat &&& (k &&& rw))) = old &&& ~~~BitVec.ofNat 64 (k &&& rw) := by
    rw [← BitVec.ofNat_sub_ofNat_of_le _ _ (lt_of_le_of_lt hle old.isLt) hle, BitVec.ofNat_and, BitVec.ofNat_toNat,
      BitVec.setWidth_eq, sub_and_eq_and_not]
  rw [regMerge, BitVec.ofNat_add, hkept, BitVec.ofNat_and (x := v), BitVec.add_eq_or_of_and_eq_zero]
  ext i hi
  simp only [BitVec.getElem_and, BitVec.getElem_not]
  cases (BitVec.ofNat 64 (k &&& rw))[i] <;> simp

/-- A write changes the writable bits that it carries, and no other bit. -/
theorem getLsbD_regMerge (old : Word) (k rw v : Nat) {i : Nat} (hi : i < 64) :
    (regMerge old k rw v).getLsbD i = if natBit k i && natBit rw i then natBit v i else old.getLsbD i := by
  have hbit : (regMerge old k rw v).getLsbD i =
      (old.getLsbD i && !(natBit k i && natBit rw i) || natBit v i && (natBit k i && natBit rw i)) := by
    simp only [regMerge_eq, BitVec.getLsbD_or, BitVec.getLsbD_and, BitVec.getLsbD_not, BitVec.getLsbD_ofNat, hi, decide_true,
      Bool.true_and, Nat.testBit_and, natBit]
  rw [hbit]
  cases natBit k i && natBit rw i <;> simp

/-! ### Whom a register is given to (R363) -/

/-- The PIO_OWN register of unit `u` belongs to that unit. -/
theorem pioUnitOf_own {u : Nat} (hu : u < 764) : pioUnitOf (8 * u) = some u := by
  have hin : 0 ≤ 8 * u ∧ 8 * u < 0 + 8 * 764 := by omega
  have hdiv : (8 * u - 0) / 8 = u := by omega
  simp only [pioUnitOf, if_pos hin, hdiv, id]

/-- The ring a HIF_SQCFG register belongs to. -/
theorem hifDom_sq {d r : Nat} (hd : d < 16) (hr : r < 16) : hifDom (0x2000 + 0x200 * d + 0x20 * r) = some d := by
  rw [hifDom, if_neg (by omega), if_pos (by omega)]
  congr 1
  omega

theorem State.allowed_everyone (h : a ∈ [0, 8, 0x100000, 0x100010, 0x100018]) : s.allowed fn a = true := by
  simp only [List.mem_cons, List.not_mem_nil, or_false] at h
  rcases h with rfl | rfl | rfl | rfl | rfl <;> rfl

theorem State.allowed_holder
    (h : a ∈ [0x100008, 0x100020, 0x300018, 0x600000, 0xB00000, 0xD00018, 0xE00008, 0xF00000, 0xF10000, 0xF20000, 0x203100]) :
    s.allowed fn a = (s.hif.holder == some fn) := by
  simp only [List.mem_cons, List.not_mem_nil, or_false] at h
  rcases h with rfl | rfl | rfl | rfl | rfl | rfl | rfl | rfl | rfl | rfl | rfl <;> rfl

theorem State.allowed_sq {d r : Nat} (hd : d < 16) (hr : r < 16) :
    s.allowed fn (0x102000 + 0x200 * d + 0x20 * r) = (s.isDriver fn d || s.hif.holder == some fn) := by
  have hoff : 0x102000 + 0x200 * d + 0x20 * r - 0x100000 = 0x2000 + 0x200 * d + 0x20 * r := by omega
  have hown : s.regOwner (0x102000 + 0x200 * d + 0x20 * r) = .domain (some d) true := by
    rw [regOwner, if_neg (by simp; omega), if_pos (by omega), hoff, hifDom_sq hd hr]
  rw [allowed, hown]
  rfl

theorem State.allowed_chan {n : Nat} (hn : n < 128) :
    s.allowed fn (0x700018 + 0x40 * n) =
      if (s.chan n).dvalid then s.isDriver fn (s.chan n).dom || s.hif.holder == some fn else s.hif.holder == some fn := by
  have hown : s.regOwner (0x700018 + 0x40 * n) = .domain (if (s.chan n).dvalid then some (s.chan n).dom else none) true := by
    rw [regOwner, if_neg (by simp; omega), if_neg (by omega), if_neg (by omega), if_pos (by omega),
      show (0x700018 + 0x40 * n - 0x700000) / 0x40 = n by omega]
  rw [allowed, hown]
  split_ifs <;> rfl

theorem State.allowed_loop {n : Nat} (hn : n < 4096) :
    s.allowed fn (0xA00000 + 0x100 * n) =
      if (s.loopSlot n).dvalid then s.isDriver fn (s.loopSlot n).dom || s.hif.holder == some fn else s.hif.holder == some fn := by
  have hown : s.regOwner (0xA00000 + 0x100 * n) = .domain (if (s.loopSlot n).dvalid then some (s.loopSlot n).dom else none) true := by
    rw [regOwner, if_neg (by simp; omega), if_neg (by omega), if_neg (by omega), if_neg (by omega), if_neg (by omega), if_pos (by omega),
      show (0xA00000 + 0x100 * n - 0xA00000) / 0x100 = n by omega]
  rw [allowed, hown]
  split_ifs <;> rfl

/-- A register of a unit of plant I/O. -/
theorem State.allowed_pio {off u : Nat} (hu : pioUnitOf off = some u) (hlt : off < 0x100000) :
    s.allowed fn (0xC00000 + off) = (match s.pioDom u with
      | some d => s.isDriver fn d || s.hif.holder == some fn
      | none => s.hif.holder == some fn) := by
  have hown : s.regOwner (0xC00000 + off) = .domain (s.pioDom u) true := by
    rw [regOwner, if_neg (by simp; omega), if_neg (by omega), if_neg (by omega), if_neg (by omega), if_neg (by omega), if_neg (by omega),
      if_pos (by omega), Nat.add_sub_cancel_left, hu]
  rw [allowed, hown]
  cases s.pioDom u <;> rfl

theorem State.allowed_tally {k : Nat} (hk : k < 262144) :
    s.allowed fn (0x800000 + 8 * k) = (match s.tallyDom k with
      | some d => s.isDriver fn d
      | none => s.hif.holder == some fn) := by
  have hown : s.regOwner (0x800000 + 8 * k) = .domain (s.tallyDom k) false := by
    rw [regOwner, if_neg (by simp; omega), if_neg (by omega), if_neg (by omega), if_neg (by omega), if_pos (by omega),
      show (0x800000 + 8 * k - 0x800000) / 8 = k by omega]
  rw [allowed, hown]
  cases s.tallyDom k with
  | none => rfl
  | some d => exact Bool.or_false _

/-! ### Accesses that decode nowhere, and reads (R325, R361 to R363, R369) -/

/-- Two changes of a function's state are one. -/
theorem State.updFn_updFn (s : State) (fn : Fn) (f g : FnSt → FnSt) : (s.updFn fn f).updFn fn g = s.updFn fn fun x => g (f x) := by
  cases fn <;> rfl

/-- A function's access that its IDE setting lets pass. -/
theorem State.ideFilters_of_not_blocks (h : s.ideBlocks fn = false) : s.ideFilters fn true = false := (ideFilters_true s fn).trans h

/-- A write or read of BAR0 that decodes nowhere is counted; a write is logged, a read answers nothing (R362). -/
theorem exec_bar0Undecoded {n : Nat} (w : Bool) (ha : s.fnAnswers fn = true) (hi : s.ideBlocks fn = false)
    (hd : bar0Decodes a n = false) :
    exec (.bar0UndecodedAccess fn false a n w true) s = .next
      (s.countUr.updFn fn fun f => if w then f.logUr (Config.tlpHeader (fnNum fn) a n) else { f with rdata := none }) := by
  change execBar0UndecodedAccess fn false a n w true s = _
  simp only [execBar0UndecodedAccess, ha, hd, State.ideFilters_of_not_blocks hi, Bool.not_true, Bool.false_eq_true, if_false,
    State.unsupported]
  cases w with
  | true => rfl
  | false => exact congrArg _ ((if_neg Bool.false_ne_true).trans (State.updFn_updFn ..))

/-- What a read of a host returns where its function answers. -/
theorem exec_read {rd : HostRd} {ide : Bool} {v : Option Nat} {t : State} (hc : ∀ r, rd ≠ .cfg r) (ha : s.fnAnswers fn = true)
    (h : s.hostRd fn ide rd = (v, t)) :
    exec (.timeDtLowRead fn rd ide) s = .next (t.updFn fn fun f => { f with rdata := v }) := by
  change execTimeDtLowRead fn rd ide s = _
  cases rd with
  | cfg r => exact absurd rfl (hc r)
  | bar0 | bar2 => simp only [execTimeDtLowRead, ha, h, Bool.not_true, Bool.false_eq_true, if_false]

/-- A read of a register of BAR0 outside the MSI-X table that is allowed (R363). -/
theorem State.bar0Read_allowed {p : Part} (hi : s.ideBlocks fn = false) (hd : bar0Decodes a 8 = true)
    (hm : a < 0x110000 ∨ 0x111000 ≤ a) (hal : s.allowed fn a = true) :
    s.bar0Read fn a p true = if a = 0xD00000 && !s.sec.statusMode then ((some (s.dtRead fn p).1), (s.dtRead fn p).2)
      else (some (partOf p (s.readReg a)), s) := by
  have hm' : ¬ (0x110000 ≤ a ∧ a < 0x111000) := by omega
  have hm'' : (decide (0x110000 ≤ a) && decide (a < 0x111000)) = false := by simpa using hm'
  rw [bar0Read, ideFilters_of_not_blocks hi, hd, hm'', hal, fnReg, if_neg hm']
  rfl

/-- A read that the filter turns away answers 0 (R363). -/
theorem State.bar0Read_filtered {p : Part} (hi : s.ideBlocks fn = false) (hd : bar0Decodes a 8 = true)
    (hm : a < 0x110000 ∨ 0x111000 ≤ a) (hal : s.allowed fn a = false) :
    s.bar0Read fn a p true = (some 0, s.filtered) := by
  have hm'' : (decide (0x110000 ≤ a) && decide (a < 0x111000)) = false := by simp; omega
  rw [bar0Read, ideFilters_of_not_blocks hi, hd, hm'', hal]
  rfl

/-- Settles O33: the mask of a write bit by bit, the owner of each kind of register, and each kind of access by the branch it takes. -/
theorem registersAndTheirOwners : Obligations.RegistersAndTheirOwners := by
  refine ⟨fun old k rw v i => getLsbD_regMerge old k rw v, fun s fn => ?owners, fun s fn ha hi => ?accesses⟩
  case owners =>
    refine ⟨fun a => State.allowed_everyone, fun a => State.allowed_holder, fun d r => State.allowed_sq, fun n d hn => ?_,
      fun n => State.allowed_loop, fun u hu => State.allowed_pio (pioUnitOf_own hu) (by omega), fun k => State.allowed_tally⟩
    rw [State.allowed_chan hn]
    exact ⟨fun ⟨hv, hd⟩ => by rw [if_pos hv, hd], fun hv => if_neg (by rw [hv]; decide)⟩
  case accesses =>
    intro ur shows latch
    have hif := State.ideFilters_of_not_blocks hi
    have bar2 (a : Nat) (ide : Bool) : s.hostRd fn ide (.bar2 a) = (some 0, if s.ideFilters fn ide then s.filtered else s) := rfl
    refine ⟨fun a n w hd => exec_bar0Undecoded w ha hi hd, fun a n => ⟨?bar2_read, ?_, fun hreq => ⟨?bar2_outside, ?_⟩, fun hd => ?bar2_write⟩,
      fun a p h8 hb hm hne => ?read, fun hh hst => ?dt⟩
    case bar2_read =>
      change execBar0UndecodedAccess fn true a n false true s = _
      rw [execBar0UndecodedAccess, ha, hif]
      rfl
    case bar2_outside =>
      change execBar0UndecodedAccess fn true a n false false s = _
      rw [execBar0UndecodedAccess, ha, State.ideFilters_outside hreq]
      rfl
    case bar2_write =>
      change execBar0UndecodedAccess fn true a n true true s = _
      rw [execBar0UndecodedAccess, ha, hd, State.pageTakes, hif]
      cases s.isDriver fn (a / 65536 % 16) <;> rfl
    case read =>
      have hdec : bar0Decodes a 8 = true := by simp [bar0Decodes, h8, hb]
      cases hal : s.allowed fn a with
      | false => exact exec_read nofun ha (State.bar0Read_filtered hi hdec hm hal)
      | true =>
        refine exec_read nofun ha ((State.bar0Read_allowed hi hdec hm hal).trans (if_neg ?_))
        simp [hne]
    case dt =>
      have hal : s.allowed fn 0xD00000 = true := beq_iff_eq.2 hh
      have hdt (p : Part) : s.hostRd fn true (.bar0 0xD00000 p) = (some (s.dtRead fn p).1, (s.dtRead fn p).2) := by
        refine (State.bar0Read_allowed hi rfl (.inr (by decide)) hal).trans (if_pos ?_)
        simp [hst]
      exact ⟨exec_read nofun ha (hdt .lo), exec_read nofun ha (hdt .hi)⟩
    · exact exec_read nofun ha ((bar2 a true).trans (by rw [hif]; rfl))
    · exact exec_read nofun ha ((bar2 a false).trans (by rw [State.ideFilters_outside hreq]; rfl))

end Sys2Proof.Machine
end

/-! ## O34: set-up control and the full reset that a host asks for (R364, R365, R389) -/

section
namespace Sys2Proof.Machine

variable {s : State} {fn : Fn} {a : Nat}

/-- A register of BAR0 is reached where the function answers, IDE lets it pass, the filter allows it and the die is not in status mode. -/
theorem State.reaches_of (ha : s.fnAnswers fn = true) (hi : s.ideBlocks fn = false) (hal : s.allowed fn a = true)
    (hst : s.sec.statusMode = false) : s.reaches fn a = true := by rw [reaches, ha, hi, hal, hst]; rfl

/-- A row of the host interface that reaches its register, HIF_RST apart. -/
theorem regRow_hif (h : s.reaches fn (0x100000 + a) = true) (h8 : a % 8 = 0) (ha : a < 0x10000) (hr : a ≠ 0x10) (p : Part) (v : Word) :
    regRow true fn (0x100000 + a) p v s = .next (s.hifWrite fn a (partMask p) v.toNat) := by
  have hst := (State.answers_of_reaches h).2.2.2
  rw [regRow_of_reaches rfl h (by omega) (by omega) (by omega), State.writeReg_hif hst (by omega) (by omega) (by omega),
    Nat.add_sub_cancel_left]

/-- A write of HIF_CTL with the command bits of `v`. -/
theorem exec_hifCtl (ha : s.fnAnswers fn = true) (hi : s.ideBlocks fn = false) (hst : s.sec.statusMode = false) (v : Word) :
    regRow true fn 0x100000 .full v s = .next (s.hifCtl fn (partMask .full) v.toNat) :=
  regRow_hif (a := 0) (State.reaches_of ha hi rfl hst) rfl (by decide) (by decide) .full v

/-- A field whose bits are all writable and carried is taken from the value that is written. -/
theorem natBits_regMerge {hi lo k rw : Nat} (hhi : hi < 64) (hin : ∀ i, lo ≤ i → i ≤ hi → (natBit k i && natBit rw i) = true)
    (old : Word) (v : Nat) : natBits (regMerge old k rw v).toNat hi lo = natBits v hi lo := by
  refine Nat.eq_of_testBit_eq fun i => ?_
  simp only [natBits, Nat.testBit_mod_two_pow, Nat.testBit_shiftRight]
  by_cases h : i < hi + 1 - lo
  · have hbit := getLsbD_regMerge old k rw v (i := lo + i) (by omega)
    rw [hin _ (by omega) (by omega), if_pos rfl] at hbit
    rw [← BitVec.getLsbD, hbit, natBit]
  · simp only [h, decide_false, Bool.false_and]

/-- A write of the whole of HIF_FNDOM by the holder (R365). -/
theorem State.fndomWrite_full (hl : s.sec.lock = false) (v : Word) :
    let a := v.toNat % 65536
    let b := v.toNat / 65536 % 65536
    s.fndomWrite (partMask .full) v.toNat =
      (({ s with hif := { s.hif with doma := a, domb := b } } : State).haltFn .a (s.hif.doma - (s.hif.doma &&& a)) hrMask).haltFn .b
        (s.hif.domb - (s.hif.domb &&& b)) hrMask := by
  have hlow (w : Word) : natBits (regMerge w (partMask .full) (maskBits 31 0) v.toNat).toNat 15 0 = v.toNat % 65536 :=
    natBits_regMerge (by decide) (by decide) w _
  have hhigh (w : Word) : natBits (regMerge w (partMask .full) (maskBits 31 0) v.toNat).toNat 31 16 = v.toNat / 65536 % 65536 := by
    rw [natBits_regMerge (by decide) (by decide), natBits_eq_div_mod]
    rfl
  simp only [fndomWrite, hl, hlow, hhigh, Bool.false_eq_true, if_false]

/-- The state after set-up control changes hands. -/
def State.withControl (s : State) (holder : Option Fn) (rstany : Bool) : State :=
  { s with hif := { s.hif with holder := holder, rstany := rstany } }

/-- Nothing changes hands. -/
theorem State.withControl_self {h : Option Fn} (hh : s.hif.holder = h) : s.withControl h s.hif.rstany = s := by
  subst hh
  rfl

/-- CLAIM: a free set-up control is taken unless it is locked; RSTANY is written with it. -/
theorem State.hifCtl_claim : s.hifCtl fn (partMask .full) 1 =
    let h := if s.hif.holder.isNone && !s.sec.lock then some fn else s.hif.holder
    s.withControl h (if h == some fn && !s.sec.lock then false else s.hif.rstany) := rfl

/-- RELEASE: the holder gives set-up control back unless it is locked. -/
theorem State.hifCtl_release : s.hifCtl fn (partMask .full) 2 =
    let h := if s.hif.holder == some fn && !s.sec.lock then none else s.hif.holder
    s.withControl h (if h == some fn && !s.sec.lock then false else s.hif.rstany) := rfl

/-- TAKE: another function's set-up control is taken once that function's tunnel is lost, locked or not. -/
theorem State.hifCtl_take {h : Fn} (hh : s.hif.holder = some h) : s.hifCtl fn (partMask .full) 4 =
    let x := if h ≠ fn && s.holderLost h then some fn else some h
    s.withControl x (if x == some fn && !s.sec.lock then false else s.hif.rstany) := by
  simp only [hifCtl, hh]
  rfl

/-- A function that may write HIF_RST arms the reset with 0xA5 (R389). -/
theorem State.rstWrite_arm (hmay : (s.holds fn || s.hif.rstany || s.hif.holder.isNone) = true) :
    s.rstWrite fn (partMask .full) 0xA5 = { s with hif := { s.hif with armed := some (fn, s.dt + 1000000) } } := by
  simp only [rstWrite, hmay]
  rfl

/-- With 0x5A it starts the reset that it has armed (R389). -/
theorem State.rstWrite_start (hmay : (s.holds fn || s.hif.rstany || s.hif.holder.isNone) = true) {t : Nat}
    (harm : s.hif.armed = some (fn, t)) (ht : s.dt < t) : s.rstWrite fn (partMask .full) 0x5A = s.fullReset (causeFnA + fnNum fn) 0 := by
  have hlive : (fn == fn && decide (s.dt < t)) = true := by simp [ht]
  simp only [rstWrite, hmay, harm, hlive]
  rfl

/-- A write of HIF_RST passes the filter, whoever makes it. -/
theorem exec_hifRst (ha : s.fnAnswers fn = true) (hi : s.ideBlocks fn = false) (hst : s.sec.statusMode = false) (v : Word) :
    regRow true fn 0x100010 .full v s = .next (s.rstWrite fn (partMask .full) v.toNat) := by
  rw [regRow_of_reaches rfl (State.reaches_of ha hi rfl hst) (by decide) (by decide) (by decide), State.writeReg, hst]
  rfl

/-- Settles O34: HIF_CTL bit by bit in the order CLAIM, RELEASE, TAKE, RSTANY; HIF_FNDOM with what leaves the two masks; HIF_RST by its
key. -/
theorem setUpControlIsClaimed : Obligations.SetUpControlIsClaimed := by
  intro s fn ha hi hst
  have hctl := exec_hifCtl ha hi hst
  have claim : exec (.hifClaim fn) s = _ := (hctl 1).trans (congrArg _ State.hifCtl_claim)
  have release : exec (.hifRelease fn) s = _ := (hctl 2).trans (congrArg _ State.hifCtl_release)
  have take {h : Fn} (hh : s.hif.holder = some h) : exec (.hifTake fn) s = _ := (hctl 4).trans (congrArg _ (State.hifCtl_take hh))
  have fndom (hh : s.hif.holder = some fn) (p : Part) (v : Word) :
      exec (.hifFndomWrite fn p v) s = .next (s.fndomWrite (partMask p) v.toNat) :=
    regRow_hif (a := 8) (State.reaches_of ha hi (beq_iff_eq.2 hh) hst) rfl (by decide) (by decide) p v
  refine ⟨fun hl => ⟨fun hh => ?free, fun h hh hne => ?another, fun hh => ?release, fun v hh => ?fndom⟩,
    fun hl => ⟨?locked_claim, ?locked_release, fun p v hh => ?locked_fndom⟩, fun h hh hne hls hdown => ?take, fun h hh hup => ?not_lost,
    fun hmay => ?rst, fun f t harm ht => ?expiry⟩
  case free =>
    rw [claim]
    simp [hh, hl, State.withControl]
  case another =>
    rw [claim, release]
    simp [hh, hl, hne, State.withControl_self hh]
  case release =>
    rw [release]
    simp [hh, hl, State.withControl]
  case fndom =>
    intro a b t _ _
    exact (fndom hh .full v).trans (congrArg _ (State.fndomWrite_full hl v))
  case locked_claim =>
    rw [claim]
    simp [hl, State.withControl_self]
  case locked_release =>
    rw [release]
    simp [hl, State.withControl_self]
  case locked_fndom =>
    rw [fndom hh, State.fndomWrite, hl]
    rfl
  case take =>
    rw [take hh]
    simp [hne, State.holderLost, hls, hdown, State.withControl]
  case not_lost =>
    have hheld : s.holderLost h = false := by
      simp only [State.holderLost, Bool.and_eq_false_iff, decide_eq_false_iff_not, not_not, Nat.not_le]
      exact hup
    rw [take hh, hheld]
    by_cases hf : h = fn ∧ s.sec.lock = false
    · obtain ⟨rfl, hl⟩ := hf
      simp [hl, State.withControl, hh]
    · have hany : (some h == some fn && !s.sec.lock) = false := by simpa using hf
      rw [if_neg hf]
      simp only [Bool.and_false, Bool.false_eq_true, if_false, hany, State.withControl_self hh]
  case rst =>
    have hpass : (s.holds fn || s.hif.rstany || s.hif.holder.isNone) = true := by
      obtain h | h | h := hmay <;> simp [State.holds, h]
    have hrst := exec_hifRst ha hi hst
    exact ⟨(hrst 0xA5).trans (congrArg _ (State.rstWrite_arm hpass)),
      fun t harm ht => (hrst 0x5A).trans (congrArg _ (State.rstWrite_start hpass harm ht))⟩
  case expiry =>
    change execHifRstArmExpiry s = _
    simp only [execHifRstArmExpiry, harm, if_pos ht]

end Sys2Proof.Machine
end

/-! ## O35: rings and event queues are enabled and disabled (R374, R377, R383) -/

section
namespace Sys2Proof.Machine

variable {s : State} {fn : Fn} {d r q : Nat}

/-- A whole write carries bit 63 as its value has it. -/
theorem writes1_full_top (v : Nat) : writes1 (partMask .full) v 63 = natBit v 63 := by
  rw [writes1, natBit_partMask_full (by decide), Bool.true_and]

/-- A ring's register row that reaches HIF_SQCFG. -/
theorem regRow_sqCfg (hd : d < 16) (hr : r < 16) (h : s.reaches fn (0x102000 + 0x200 * d + 0x20 * r) = true) (p : Part) (v : Word) :
    regRow (hasRing d r) fn (0x102000 + 0x200 * d + 0x20 * r) p v s =
      .next (s.sqCfgWrite fn d r (0x2000 + 0x200 * d + 0x20 * r) (partMask p) v.toNat) := by
  have hst := (State.answers_of_reaches h).2.2.2
  have hoff : 0x102000 + 0x200 * d + 0x20 * r - 0x100000 = 0x2000 + 0x200 * d + 0x20 * r := by omega
  have hring : (0x2000 + 0x200 * d + 0x20 * r - 0x2000) % 0x200 / 32 = r := by omega
  have hreg : (0x2000 + 0x200 * d + 0x20 * r) % 32 / 8 = 0 := by omega
  rw [regRow_of_reaches (hasRing_of_lt hd hr) h (by omega) (by omega) (by omega), State.writeReg_hif hst (by omega) (by omega) (by omega),
    hoff, State.hifWrite, hifDom_sq hd hr]
  simp only []
  rw [if_neg (by omega), if_pos (by omega), State.sqWrite, hring, hreg]
  rfl

/-- The event queue a HIF_EQCFG register belongs to. -/
theorem hifDom_eq {d q : Nat} (hd : d < 16) (hq : q < 4) : hifDom (0x6000 + 0x100 * d + 0x20 * q) = some d := by
  rw [hifDom, if_neg (by omega), if_neg (by omega), if_pos (by omega)]
  congr 1
  omega

/-- An event queue's register row that reaches HIF_EQCFG. -/
theorem regRow_eqCfg (hd : d < 16) (hq : q < 4) (h : s.reaches fn (0x106000 + 0x100 * d + 0x20 * q) = true) (p : Part) (v : Word) :
    regRow (decide (d < 16) && decide (q < 4)) fn (0x106000 + 0x100 * d + 0x20 * q) p v s =
      .next (s.eqCfgWrite fn d q (0x6000 + 0x100 * d + 0x20 * q) (partMask p) v.toNat) := by
  have hst := (State.answers_of_reaches h).2.2.2
  have hoff : 0x106000 + 0x100 * d + 0x20 * q - 0x100000 = 0x6000 + 0x100 * d + 0x20 * q := by omega
  have hqueue : (0x6000 + 0x100 * d + 0x20 * q - 0x6000) % 0x100 / 32 = q := by omega
  have hreg : (0x6000 + 0x100 * d + 0x20 * q) % 32 / 8 = 0 := by omega
  rw [regRow_of_reaches (by simp [hd, hq]) h (by omega) (by omega) (by omega), State.writeReg_hif hst (by omega) (by omega) (by omega),
    hoff, State.hifWrite, hifDom_eq hd hq]
  simp only []
  rw [if_neg (by omega), if_neg (by omega), if_pos (by omega), State.eqWrite, hqueue, hreg]
  rfl

/-- Two changes of a ring are one. -/
theorem State.updRing_updRing (h : Tab.wf ({} : Ring) s.hif.rings = true) (d r : Nat) (f g : Ring → Ring) :
    (s.updRing d r f).updRing d r g = s.updRing d r fun x => g (f x) :=
  congrArg (fun t => ({ s with hif := { s.hif with rings := t } } : State)) (Tab.upd_upd h _ f g)

/-- Two changes of an event queue are one. -/
theorem State.updEvq_updEvq (h : Tab.wf ({} : EvQ) s.hif.eqs = true) (d q : Nat) (f g : EvQ → EvQ) :
    (s.updEvq d q f).updEvq d q g = s.updEvq d q fun x => g (f x) :=
  congrArg (fun t => ({ s with hif := { s.hif with eqs := t } } : State)) (Tab.upd_upd h _ f g)

/-- A disabled ring of its function's domain is enabled empty, with the fields that are written (R374). -/
theorem State.sqCfgWrite_enable {off v : Nat} (w : Nat)
    (hw : w = (regMerge (BitVec.ofNat 64 (s.ring d r).cfgReg) (partMask .full) (rwMask [(60, 56), (15, 0)]) v).toNat)
    (hoff : (s.ring d r).en = false) (hon : natBit v 63 = true) (hbase : (s.ring d r).base % 64 = 0)
    (hdrv : s.isDriver (fnOfBool (natBit w 60)) d = true) (hwf : Tab.wf ({} : Ring) s.hif.rings = true) :
    s.sqCfgWrite fn d r off (partMask .full) v = s.updRing d r fun _ => Ring.enable
      { s.ring d r with fn := fnOfBool (natBit w 60), eq := natBits w 59 58, evt := natBits w 57 56, nM1 := natBits w 15 0 } := by
  have hok : s.queueOk (fnOfBool (natBit w 60)) d (s.ring d r).base = true := Bool.and_eq_true_iff.2 ⟨hdrv, beq_iff_eq.2 hbase⟩
  rw [State.sqCfgWrite, ← hw, if_neg (by rw [hoff]; decide), writes1_full_top, hon]
  refine (if_neg (by decide)).trans ((if_pos hok).trans (State.updRing_updRing hwf d r _ _))

/-- A ring that is disabled (R377). -/
theorem State.sqCfgWrite_disable {off v : Nat} (hon : (s.ring d r).en = true) (hv : natBit v 63 = false) :
    s.sqCfgWrite fn d r off (partMask .full) v = s.updRing d r Ring.disable := by
  rw [State.sqCfgWrite, if_pos hon, natBit_partMask_full (by decide), hv]
  rfl

/-- A disabled event queue of its function's domain is enabled empty, with the fields that are written (R383). -/
theorem State.eqCfgWrite_enable {off v : Nat} (w : Nat)
    (hw : w = (regMerge (BitVec.ofNat 64 (s.evq d q).cfgReg) (partMask .full) (rwMask [(62, 48), (15, 0)]) v).toNat)
    (hoff : (s.evq d q).en = false) (hon : natBit v 63 = true) (hbase : (s.evq d q).base % 64 = 0)
    (hdrv : s.isDriver (fnOfBool (natBit w 62)) d = true) (hn : natBits w 15 0 ≠ 0) (hwf : Tab.wf ({} : EvQ) s.hif.eqs = true) :
    s.eqCfgWrite fn d q off (partMask .full) v = s.updEvq d q fun _ => EvQ.enable
      { s.evq d q with fn := fnOfBool (natBit w 62), vec := natBits w 61 56, itime := natBits w 55 48, nM1 := natBits w 15 0 } := by
  have hok : (s.queueOk (fnOfBool (natBit w 62)) d (s.evq d q).base && natBits w 15 0 != 0) = true :=
    Bool.and_eq_true_iff.2 ⟨Bool.and_eq_true_iff.2 ⟨hdrv, beq_iff_eq.2 hbase⟩, bne_iff_ne.2 hn⟩
  rw [State.eqCfgWrite, ← hw, if_neg (by rw [hoff]; decide), writes1_full_top, hon]
  refine (if_neg (by decide)).trans ((if_pos hok).trans (State.updEvq_updEvq hwf d q _ _))

/-- Settles O35: each row is a write of its CFG register; an enable that is accepted sets the fields, then starts the queue empty. -/
theorem ringsAndQueuesAreEnabled : Obligations.RingsAndQueuesAreEnabled := by
  intro s fn d r q v hd hr hq x e w z
  refine ⟨fun hreach hoff hon hbase hdrv hwf => ?sq_enable, fun hreach hon hv => ?sq_disable,
    fun hreach hoff hon hbase hdrv hn hwf => ?eq_enable⟩
  case sq_enable =>
    exact (regRow_sqCfg hd hr hreach .full v).trans (congrArg _ (State.sqCfgWrite_enable w rfl hoff hon hbase hdrv hwf))
  case sq_disable => exact (regRow_sqCfg hd hr hreach .full v).trans (congrArg _ (State.sqCfgWrite_disable hon hv))
  case eq_enable =>
    exact (regRow_eqCfg hd hq hreach .full v).trans (congrArg _ (State.eqCfgWrite_enable z rfl hoff hon hbase hdrv hn hwf))

end Sys2Proof.Machine
end

/-! ## O36: registers of time, set-up, tallies, Kennel, cores, scheduler, loop engine and plant I/O (R17, R156, R190 to R424) -/

section
namespace Sys2Proof.Machine

variable {s : State} {fn : Fn} {a n : Nat}

/-! ### Bits of a whole write -/

/-- A writable bit that is carried is taken from the value that is written. -/
theorem natBit_regMerge {i k rw : Nat} (hi : i < 64) (hin : (natBit k i && natBit rw i) = true) (old : Word) (v : Nat) :
    natBit (regMerge old k rw v).toNat i = natBit v i :=
  (getLsbD_regMerge old k rw v hi).trans (if_pos hin)

/-- A whole write of a register whose bits are all writable is its value. -/
theorem regMerge_full (old v : Word) : regMerge old (partMask .full) (maskBits 63 0) v.toNat = v := by
  refine BitVec.eq_of_getLsbD_eq fun i hi => ?_
  rw [getLsbD_regMerge _ _ _ _ hi, natBit_partMask_full hi, show natBit (maskBits 63 0) i = true from natBit_partMask_full hi]
  rfl

/-- A whole write of 1 writes bit 0. -/
theorem writes1_full_one : writes1 (partMask .full) (1 : Word).toNat 0 = true := by decide

/-! ### Device time (R322, R325 to R327) -/

/-- A row of the TIME block that reaches its register. -/
theorem regRow_time (h : s.reaches fn (0xD00000 + a) = true) (h8 : a % 8 = 0) (ha : a < 0x100000) (p : Part) (v : Word) :
    regRow true fn (0xD00000 + a) p v s = .next (s.timeWrite a (partMask p) v.toNat) := by
  have hst := (State.answers_of_reaches h).2.2.2
  rw [regRow_of_reaches rfl h (by omega) (by omega) (by omega), State.writeReg_time hst (by omega) (by omega), Nat.add_sub_cancel_left]

/-- A whole write of TIME_DISC. -/
theorem State.timeWrite_disc (hv : s.var.acts = true) (v : Word) :
    s.timeWrite 0x18 (partMask .full) v.toNat =
      { s with time := Time.setEn { s.time with pol := natBit v.toNat 59, dly := natBits v.toNat 47 32 } (natBit v.toNat 63) } := by
  have hbit (w : Word) (i : Nat) (hi : i = 59 ∨ i = 63) :
      natBit (regMerge w (partMask .full) (maskBits 63 63 + maskBits 59 59 + maskBits 47 32) v.toNat).toNat i = natBit v.toNat i := by
    obtain rfl | rfl := hi <;> exact natBit_regMerge (by decide) (by decide) _ _
  have hdly (w : Word) :
      natBits (regMerge w (partMask .full) (maskBits 63 63 + maskBits 59 59 + maskBits 47 32) v.toNat).toNat 47 32 =
        natBits v.toNat 47 32 := natBits_regMerge (by decide) (by decide) _ _
  simp only [timeWrite, hv, hbit _ 59 (.inl rfl), hbit _ 63 (.inr rfl), hdly, natBit_partMask_full (by decide : 63 < 64)]
  rfl

/-- A whole write of TIME_EPOCH. -/
theorem State.timeWrite_epoch (v : Word) :
    s.timeWrite 0x08 (partMask .full) v.toNat = { s with time := s.time.setEpoch v } := by
  rw [timeWrite, regMerge_full]

/-- A write of the lower half of TIME_FREQ. -/
theorem State.timeWrite_freq (hv : s.var.acts = true) (u : BitVec 32) :
    s.timeWrite 0x10 (partMask .lo) (BitVec.ofNat 64 u.toNat).toNat = { s with time := s.time.setFreq u.toInt } := by
  have hu : sgn 32 (natBits (BitVec.ofNat 64 u.toNat).toNat 31 0) = u.toInt := by
    have := u.isLt
    rw [natBits_eq_div_mod, BitVec.toNat_ofNat, BitVec.toInt_eq_toNat_cond, sgn]
    simp only [Nat.reduceAdd, Nat.reduceSub, Nat.reducePow, Nat.pow_zero, Nat.div_one] at *
    split_ifs <;> omega
  rw [timeWrite]
  simp only [hv, hu, show natBit (partMask .lo) 0 = true by decide]
  rfl

/-! ### Set-up of domains, the counters (R156, R190, R203, R232, R424) -/

/-- A whole write of SEC_SETUP that requires IDE of no function. -/
theorem State.setupWrite_open (hl : s.sec.lock = false) {v : Nat} (h0 : natBits v 62 61 = 0) :
    s.setupWrite (partMask .full) v = { s with sec := { s.sec with lock := natBit v 63, ideA := false, ideB := false } } := by
  have hbits : natBit v 62 = false ∧ natBit v 61 = false := by
    rw [natBits_eq_div_mod] at h0
    constructor <;> rw [natBit_eq_decide] <;> simp only [decide_eq_false_iff_not] <;> omega
  have hbit (w : Word) (i : Nat) (hi : i = 61 ∨ i = 62 ∨ i = 63) :
      natBit (regMerge w (partMask .full) (maskBits 63 61) v).toNat i = natBit v i := by
    obtain rfl | rfl | rfl := hi <;> exact natBit_regMerge (by decide) (by decide) _ _
  have hopen (t : State) (g : Fn) (ha : t.sec.ideA = false) (hb : t.sec.ideB = false) : t.ideBlocks g = false := by
    cases g <;> simp [ideBlocks, ideReq, ha, hb]
  simp only [setupWrite, hl, hbit _ 63 (by decide), hbit _ 62 (by decide), hbit _ 61 (by decide), hbits,
    hopen { s with sec := { s.sec with lock := natBit v 63, ideA := false, ideB := false } } _ rfl rfl, Bool.and_false,
    Bool.false_eq_true, if_false]

/-- While LOCK is 1 SEC_SETUP takes no write (R17). -/
theorem State.setupWrite_locked (hl : s.sec.lock = true) (k v : Nat) : s.setupWrite k v = s := by rw [setupWrite, hl]; rfl

/-- A whole write of TLY_DRANGEd while LOCK is 0: refused with a record, or taken with the tallies whose owner changes set to 0. -/
theorem State.tlyDrangeWrite_open {d k v : Nat} (hl : s.sec.lock = false) :
    let w := regMerge (Tab.get 0 s.tly.drange d) k (rwMask [(50, 32), (17, 0)]) v
    let t : State := { s with tly := { s.tly with drange := Tab.set 0 s.tly.drange d w } }
    let bad := 262144 < natBits w.toNat 50 32 ∨ ∃ e < 16, e ≠ d ∧ rangesMeet w.toNat (Tab.get 0 s.tly.drange e).toNat = true
    (¬ bad → s.tlyDrangeWrite d k v = { t with tly := { t.tly with val := t.tly.val.filter fun p => s.tallyDom p.1 = t.tallyDom p.1 } })
    ∧ (bad → s.tlyDrangeWrite d k v =
      s.record 4 0 (some d) skTally 0 (tallyAddr (natBits w.toNat 17 0)) (natBits w.toNat 17 0)) := by
  intro w t bad
  have hbad : (decide (tallies < natBits w.toNat 50 32) ||
      (List.range 16).any fun e => e ≠ d && rangesMeet w.toNat (Tab.get 0 s.tly.drange e).toNat) = true ↔ bad := by
    rw [Bool.or_eq_true, decide_eq_true_iff, List.any_eq_true]
    simp [bad, tallies]
  have hopen : ¬ s.sec.lock = true := by rw [hl]; decide
  exact ⟨fun h => (if_neg hopen).trans (if_neg fun hb => h (hbad.1 hb)), fun h => (if_neg hopen).trans (if_pos (hbad.2 h))⟩

/-- A row of the TLY block that reaches TLY_DRANGEd. -/
theorem exec_tlyDrange {d : Nat} (hd : d < 16) (h : s.reaches fn (0x600000 + 8 * d) = true) (p : Part) (v : Word) :
    exec (.tlyDrangeWrite fn d p v) s = .next (s.tlyDrangeWrite d (partMask p) v.toNat) := by
  change regRow (decide (d < 16)) fn (0x600000 + 8 * d) p v s = _
  have hst := (State.answers_of_reaches h).2.2.2
  rw [regRow_of_reaches (decide_eq_true hd) h (by omega) (by omega) (by omega), State.writeReg, hst]
  simp only [Bool.false_and, Bool.false_eq_true, if_false]
  repeat rw [if_neg (by omega : ¬ 0x600000 + 8 * d < _)]
  rw [if_pos (by omega), if_pos (by omega), show (0x600000 + 8 * d - 0x600000) / 8 = d by omega]

/-- A row of the KNL block that reaches its register. -/
theorem regRow_knl {ok : Bool} (ho : ok = true) (h : s.reaches fn (0x300000 + a) = true) (h8 : a % 8 = 0) (ha : a < 0x100000) (p : Part)
    (v : Word) : regRow ok fn (0x300000 + a) p v s = .next (s.knlWrite a (partMask p) v.toNat) := by
  have hst := (State.answers_of_reaches h).2.2.2
  rw [regRow_of_reaches ho h (by omega) (by omega) (by omega), State.writeReg, hst]
  simp only [Bool.false_and, Bool.false_eq_true, if_false]
  repeat rw [if_neg (by omega : ¬ 0x300000 + a < _)]
  rw [if_pos (by omega), Nat.add_sub_cancel_left]

/-- CORE_CONF_CTL.CLR of a present core. -/
theorem exec_coreConfClr {c : Nat} (hc : c < s.var.cores) (h : s.reaches fn (0x400090 + 0x1000 * c) = true) :
    exec (.coreConfClr fn c) s = .next (s.confClr c) := by
  change regRow (decide (c < 256)) fn (0x400090 + 0x1000 * c) .full 1 s = _
  have hst := (State.answers_of_reaches h).2.2.2
  have h256 : c < 256 := Nat.lt_of_lt_of_le hc (by cases s.var <;> decide)
  have hoff : (0x400090 + 0x1000 * c - 0x400000) / 0x1000 = c ∧ (0x400090 + 0x1000 * c - 0x400000) % 0x1000 = 0x90 := by omega
  rw [regRow_of_reaches (decide_eq_true h256) h (by omega) (by omega) (by omega), State.writeReg, hst]
  simp only [Bool.false_and, Bool.false_eq_true, if_false]
  repeat rw [if_neg (by omega : ¬ 0x400090 + 0x1000 * c < _)]
  rw [if_pos (by omega), State.coreRegWrite, hoff.1, hoff.2, writes1_full_one, decide_eq_true hc]
  rfl

/-- SCHED_CTL.CLR. -/
theorem exec_schedCtlClr (h : s.reaches fn 0x203100 = true) : exec (.schedCtlClr fn) s = .next s.schedClr := by
  change regRow true fn 0x203100 .full 1 s = _
  rw [regRow_of_reaches rfl h (by decide) (by decide) (by decide), State.writeReg, (State.answers_of_reaches h).2.2.2,
    writes1_full_one]
  rfl

/-- SEC_SETUP. -/
theorem exec_secSetup (h : s.reaches fn 0xE00008 = true) (p : Part) (v : Word) :
    exec (.secSetupLock fn p v) s = .next (s.setupWrite (partMask p) v.toNat) := by
  change regRow true fn 0xE00008 p v s = _
  rw [regRow_of_reaches rfl h (by decide) (by decide) (by decide), State.writeReg, (State.answers_of_reaches h).2.2.2]
  rfl

end Sys2Proof.Machine
end

/-! ### The loop engine's and the plant interface's registers (R310 to R320, R336 to R351) -/

section
namespace Sys2Proof.Machine

variable {s : State} {fn : Fn} {a n : Nat}

/-! #### The loop engine -/

/-- A row of the LOOP block that reaches its register, on a variant that has one. -/
theorem regRow_loop {ok : Bool} (ho : ok = true) (hv : s.var.acts = true) (h : s.reaches fn (0xA00000 + a) = true) (h8 : a % 8 = 0)
    (ha : a < 0x200000) (p : Part) (v : Word) :
    regRow ok fn (0xA00000 + a) p v s = .next (s.loopWrite (s.holds fn) a (partMask p) v.toNat) := by
  have hst := (State.answers_of_reaches h).2.2.2
  rw [regRow_of_reaches ho h (by omega) (by omega) (by omega), State.writeReg_loop hst hv (by omega) (by omega), Nat.add_sub_cancel_left]

/-- A write of LOOP_CFGn. -/
theorem State.loopWrite_cfg (hn : n < 4096) (holder : Bool) (k v : Nat) :
    s.loopWrite holder (0x100 * n) k v = s.loopCfgWrite holder n 0 k v := by
  rw [loopWrite, if_pos (by omega), show 0x100 * n % 0x100 = 0 by omega, show 0x100 * n / 0x100 = n by omega, if_pos (by decide)]

/-- LOOP_CFG of a live slot is not written: the write is counted and recorded (R311). -/
theorem State.loopCfgWrite_live (hl : (s.loopSlot n).live = true) (holder : Bool) (k v : Nat) :
    s.loopCfgWrite holder n 0 k v =
      (s.updLoop n fun z => { z with wign := satAdd 16 z.wign 1 }).record 4 0 (some (s.loopSlot n).dom) skLoop n (0xA00000 + 0x100 * n) 0 :=
  if_pos hl

/-- A whole write of LOOP_CFG of a slot that is not live, by the holder of set-up control. -/
theorem State.loopCfgWrite_holder (hl : (s.loopSlot n).live = false) (v : Word) :
    let y := { s.loopSlot n with cfg := v }
    s.loopCfgWrite true n 0 (partMask .full) v.toNat =
      if natBit v.toNat 63 && (s.loopSlot n).st = .disabled then s.updLoop n fun _ => { y with st := .open_, safeDue := true }
      else if !natBit v.toNat 63 && (s.loopSlot n).st ≠ .disabled then
        s.updLoop n fun _ => { y with st := .disabled, queue := [], arrived := [], safeDue := false }
      else s.updLoop n fun _ => y := by
  have hset (x : LoopSlot) :
      x.setCfgReg 0 (regMerge (x.cfgReg 0) (partMask .full) (maskBits 63 0) v.toNat) = { x with cfg := v } := by
    rw [regMerge_full]
    rfl
  have hrw : loopRw 0 = maskBits 63 0 := rfl
  simp only [loopCfgWrite, hl, hrw, hset, Bool.false_eq_true, if_false, Bool.not_true, Bool.and_false, ne_eq, not_true_eq_false,
    LoopSlot.dvalid]

/-! #### Plant I/O -/

/-- A row of the PIO block that reaches its register, on a variant that has one. -/
theorem regRow_pio {ok : Bool} (ho : ok = true) (hv : s.var.acts = true) (h : s.reaches fn (0xC00000 + a) = true) (h8 : a % 8 = 0)
    (ha : a < 0x100000) (p : Part) (v : Word) :
    regRow ok fn (0xC00000 + a) p v s = .next (s.pioWrite (s.holds fn) a (partMask p) v.toNat) := by
  have hst := (State.answers_of_reaches h).2.2.2
  rw [regRow_of_reaches ho h (by omega) (by omega) (by omega), State.writeReg_pio hst hv (by omega) (by omega), Nat.add_sub_cancel_left]

/-- The register PIO_RINGAn belongs to receive ring `n`. -/
theorem pioUnitOf_ring (hn : n < 64) : pioUnitOf (0x20000 + 0x20 * n) = some (uRing n) := by
  have hbelow : ∀ base top, top ≤ 0x20000 → ¬ (base ≤ 0x20000 + 0x20 * n ∧ 0x20000 + 0x20 * n < top) := by omega
  have hin : 0x20000 ≤ 0x20000 + 0x20 * n ∧ 0x20000 + 0x20 * n < 0x20000 + 0x20 * 64 := by omega
  have hdiv : (0x20000 + 0x20 * n - 0x20000) / 0x20 = n := by omega
  rw [pioUnitOf]
  simp only [if_pos hin, hdiv]
  simp only [Nat.reduceMul, Nat.reduceAdd, Nat.reduceLeDiff, hbelow, if_false]

/-- The register PIO_CANCTLn belongs to CAN controller `n`. -/
theorem pioUnitOf_canCtl (hn : n < 8) : pioUnitOf (0x30008 + 0x100 * n) = some (uCan n) := by
  have hbelow : ∀ base top, top ≤ 0x30000 → ¬ (base ≤ 0x30008 + 0x100 * n ∧ 0x30008 + 0x100 * n < top) := by omega
  have hin : 0x30000 ≤ 0x30008 + 0x100 * n ∧ 0x30008 + 0x100 * n < 0x30000 + 0x100 * 8 := by omega
  have hdiv : (0x30008 + 0x100 * n - 0x30000) / 0x100 = n := by omega
  rw [pioUnitOf]
  simp only [if_pos hin, hdiv]
  simp only [Nat.reduceMul, Nat.reduceAdd, Nat.reduceLeDiff, hbelow, if_false]

/-- The register PIO_DINCn belongs to digital input `n`. -/
theorem pioUnitOf_din (hn : n < 32) : pioUnitOf (0x60000 + 0x10 * n) = some (uDin n) := by
  have hbelow : ∀ base top, top ≤ 0x60000 → ¬ (base ≤ 0x60000 + 0x10 * n ∧ 0x60000 + 0x10 * n < top) := by omega
  have hin : 0x60000 ≤ 0x60000 + 0x10 * n ∧ 0x60000 + 0x10 * n < 0x60000 + 0x10 * 32 := by omega
  have hdiv : (0x60000 + 0x10 * n - 0x60000) / 0x10 = n := by omega
  rw [pioUnitOf]
  simp only [if_pos hin, hdiv]
  simp only [Nat.reduceMul, Nat.reduceAdd, Nat.reduceLeDiff, hbelow, if_false]

/-- The writes of the PIO block that the rows make. -/
theorem State.pioWrite_own (hn : n < 764) (holder : Bool) (k v : Nat) :
    s.pioWrite holder (8 * n) k v = s.pioOwnWrite holder n k v := by
  simp only [pioWrite, pioUnitOf_own hn]
  rw [if_pos (by omega)]

theorem State.pioWrite_canCtl (hn : n < 8) (holder : Bool) (k v : Nat) :
    s.pioWrite holder (0x30008 + 0x100 * n) k v = if writes1 k v 0 then s.canRecover n else s := by
  have hmod : (0x30008 + 0x100 * n) % 0x100 = 8 := by omega
  simp only [pioWrite, pioUnitOf_canCtl hn, hmod, uCan]
  rw [if_neg (by omega), if_neg (by omega), if_pos (by omega), if_neg (by decide), if_pos trivial, Nat.add_sub_cancel_left]

theorem State.pioWrite_cap (hn : n < 16) (holder : Bool) (k v : Nat) :
    s.pioWrite holder (0x50000 + 0x20 * n) k v = s.capCWrite n k v := by
  have hu : pioUnitOf (0x50000 + 0x20 * n) = some (12 + n) := pioUnitOf_cap (r := 0) hn (by decide)
  simp only [pioWrite, hu]
  rw [if_neg (by omega), if_neg (by omega), if_neg (by omega), if_pos (by omega), if_pos (by omega), Nat.add_sub_cancel_left]

theorem State.pioWrite_din (hn : n < 32) (holder : Bool) (k v : Nat) :
    s.pioWrite holder (0x60000 + 0x10 * n) k v = s.dinCWrite n k v := by
  simp only [pioWrite, pioUnitOf_din hn, uDin]
  rw [if_neg (by omega), if_neg (by omega), if_neg (by omega), if_neg (by omega), if_pos (by omega), if_pos (by omega),
    Nat.add_sub_cancel_left]

theorem State.pioWrite_ring (hn : n < 64) (holder : Bool) (k v : Nat) :
    s.pioWrite holder (0x20000 + 0x20 * n) k v = s.ringAWrite n k v := by
  simp only [pioWrite, pioUnitOf_ring hn, uRing]
  rw [if_neg (by omega), if_neg (by omega), if_neg (by omega), if_neg (by omega), if_neg (by omega), if_neg (by omega), if_neg (by omega),
    if_pos (by omega), if_pos (by omega), Nat.add_sub_cancel_left]

/-- A register whose EN is 0 takes every writable bit. -/
theorem enMerge_off {old : Word} (h : natBit old.toNat 63 = false) (k rw v : Nat) : enMerge old k rw v = regMerge old k rw v := by
  rw [enMerge, h]
  rfl

/-- An enable of a receive ring whose fields are in range (R340). -/
theorem State.ringAWrite_enable {v : Nat} (hoff : natBit (s.rxRing n).a.toNat 63 = false) (hon : natBit v 63 = true)
    (hlo : 10 ≤ natBits (s.rxRing n).b.toNat 26 23) (hhi : natBits (s.rxRing n).b.toNat 26 23 ≤ 14)
    (hsz : 8 ≤ natBits (s.rxRing n).b.toNat 22 16) :
    s.ringAWrite n (partMask .full) v = s.updRxRing n fun x =>
      { x with a := regMerge (s.rxRing n).a (partMask .full) rwRingA v, frames := 0, full := 0, refused := 0, waiting := [] } := by
  have hen : (natBit (regMerge (s.rxRing n).a (partMask .full) rwRingA v).toNat 63 && !natBit (s.rxRing n).a.toNat 63) = true := by
    rw [natBit_regMerge (by decide) (by decide), hon, hoff]
    rfl
  rw [ringAWrite, enMerge_off hoff]
  refine (if_pos hen).trans (if_neg ?_)
  simp only [Bool.or_eq_true, decide_eq_true_iff]
  omega

/-- An enable of a capture input: refused with a record, or taken with its counters and status cleared (R349). -/
theorem State.capCWrite_enable {v : Nat} (hoff : natBit (s.cap n).cfg.toNat 63 = false) (hon : natBit v 63 = true) :
    let c := regMerge (s.cap n).cfg (partMask .full) rwCap v
    s.capCWrite n (partMask .full) v =
      if capEnableBad c.toNat = true then (s.updCap n fun x => { x with cfg := enOff c }).pioRecord 4 1 (uCap n) (0xC50000 + 0x20 * n)
      else s.updCap n fun x =>
        CapSt.follow { x with cfg := c, lastEdge := none, prevCal := none, good := none, errRun := 0, status := [] } := by
  have hnew : natBit (regMerge (s.cap n).cfg (partMask .full) rwCap v).toNat 63 = true := by
    rw [natBit_regMerge (by decide) (by decide), hon]
  simp only [capCWrite, enMerge_off hoff, hnew, hoff, Bool.not_false, Bool.and_self, Bool.true_and, if_true]

/-- An enable of a digital input: refused with a record, or taken as inactive from now on (R351). -/
theorem State.dinCWrite_enable {v : Nat} (hoff : natBit (s.din n).cfg.toNat 63 = false) (hon : natBit v 63 = true) :
    let c := regMerge (s.din n).cfg (partMask .full) rwDin v
    s.dinCWrite n (partMask .full) v =
      if dinEnableBad c.toNat = true then (s.updDin n fun x => { x with cfg := enOff c }).pioRecord 4 1 (uDin n) (0xC60000 + 0x10 * n)
      else s.updDin n fun x => { x with cfg := c, rawAt := s.dt, filt := false, filtAt := none, stuck := false } := by
  have hnew : natBit (regMerge (s.din n).cfg (partMask .full) rwDin v).toNat 63 = true := by
    rw [natBit_regMerge (by decide) (by decide), hon]
  simp only [dinCWrite, hnew, hoff, Bool.not_false, Bool.and_self, if_true]

/-! #### The obligation -/

/-- TIME_EPOCH steps the time of day; a servo that tracks or holds over starts to track anew (R327). -/
theorem Time.setEpoch_eq (x : Time) (v : Word) :
    x.setEpoch v = { x with
      epoch := v, lastStep := v.toInt - x.epoch.toInt, tbi := (x.tbi + 1) % 65536
      disc := if x.disc = .free ∨ x.disc = .acquire then x.disc else .track
      nok := if x.disc = .free ∨ x.disc = .acquire then x.nok else 0 } := by
  unfold setEpoch
  by_cases h : x.disc = .free ∨ x.disc = .acquire
  · simp only [if_pos h]
  · simp only [if_neg h]

/-- A write of KNL_DRANGEd. -/
theorem State.knlWrite_drange {d : Nat} (hd : d < 16) (k v : Nat) : s.knlWrite (0x100 + 8 * d) k v = s.knlDrangeWrite d k v := by
  rw [knlWrite, if_neg (by omega), if_pos (by omega), show (0x100 + 8 * d - 0x100) / 8 = d by omega]

/-- Settles O36: each row is the write of its register, which is then followed through its block to what that register does. -/
theorem setUpRegistersTakeEffect : Obligations.SetUpRegistersTakeEffect := by
  constructor
  · intro s fn v x
    refine ⟨fun h hv => ?disc, fun h => ?epoch, fun u h hv => ?freq, fun h hl h0 => ?setup, fun hl h => ?locked, fun d hd h hl => ?tallies,
      fun d hd h hl => ?kennel, fun c hc h => exec_coreConfClr hc h, fun h => ?kennel_clear, exec_schedCtlClr⟩
    case disc =>
      have hw := (regRow_time (a := 0x18) h (by decide) (by decide) .full v).trans (congrArg _ (State.timeWrite_disc hv v))
      refine ⟨fun hon hfree => hw.trans ?_, fun hoff => hw.trans ?_⟩
      · rw [hon, Time.setEn, if_pos rfl]
        exact congrArg _ (congrArg (fun t => ({ s with time := t } : State)) (if_pos hfree))
      · rw [hoff]
        rfl
    case epoch =>
      refine (regRow_time (a := 8) h (by decide) (by decide) .full v).trans (congrArg _ ((State.timeWrite_epoch v).trans ?_))
      rw [Time.setEpoch_eq]
    case freq =>
      refine (regRow_time (a := 0x10) h (by decide) (by decide) .lo _).trans (congrArg _ ((State.timeWrite_freq hv u).trans ?_))
      rw [Time.setFreq]
      split_ifs <;> rfl
    case setup => exact (exec_secSetup h .full v).trans (congrArg _ (State.setupWrite_open hl h0))
    case locked => exact (exec_secSetup h .full v).trans (congrArg _ (State.setupWrite_locked hl _ _))
    case tallies =>
      intro w t bad
      obtain ⟨hgood, hbad⟩ := State.tlyDrangeWrite_open hl
      exact ⟨fun hb => (exec_tlyDrange hd h .full v).trans (congrArg _ (hgood hb)),
        fun hb => (exec_tlyDrange hd h .full v).trans (congrArg _ (hbad hb))⟩
    case kennel =>
      intro w
      have ha : 0x300100 + 8 * d = 0x300000 + (0x100 + 8 * d) := by omega
      have hrow : exec (.knlDrangeWrite fn d .full v) s = .next (s.knlDrangeWrite d (partMask .full) v.toNat) := by
        change regRow (decide (d < 16)) fn (0x300100 + 8 * d) .full v s = _
        rw [ha, regRow_knl (decide_eq_true hd) (ha ▸ h) (by omega) (by omega), State.knlWrite_drange hd]
      exact hrow.trans (congrArg _ (if_neg (by rw [hl]; decide)))
    case kennel_clear =>
      refine (regRow_knl (a := 0x18) rfl h (by decide) (by decide) .full 1).trans (congrArg _ ?_)
      rw [State.knlWrite, if_pos rfl, writes1_full_one]
      rfl
  · intro s fn n v hv v63
    refine ⟨fun x hx hn h hh => ?loop, fun h => ?base, fun h => ?loop_clear, fun hn h hb => ?can, fun hn h hoff hon hlo hhi hsz => ?ring,
      fun hn h hoff hon => ?capture, fun hn h hoff hon => ?din, fun hn h hh hoff hnamed => ?own⟩
    case loop =>
      intro y
      subst hx
      have hholds : s.holds fn = true := beq_iff_eq.2 hh
      have hrow : regRow (decide (n < 4096)) fn (0xA00000 + 0x100 * n) .full v s =
          .next (s.loopCfgWrite true n 0 (partMask .full) v.toNat) := by
        rw [regRow_loop (decide_eq_true hn) hv h (by omega) (by omega), State.loopWrite_cfg hn, hholds]
      refine ⟨fun hl hst hon => hrow.trans (congrArg _ ((State.loopCfgWrite_holder hl v).trans (if_pos ?_))),
        fun hl hst hoff => hrow.trans (congrArg _ ((State.loopCfgWrite_holder hl v).trans ((if_neg ?_).trans (if_pos ?_)))),
        fun hl => hrow.trans (congrArg _ (State.loopCfgWrite_live hl _ _ _))⟩
      · exact Bool.and_eq_true_iff.2 ⟨hon, decide_eq_true hst⟩
      · rw [show natBit v.toNat 63 = false from hoff]
        exact Bool.false_ne_true
      · rw [show natBit v.toNat 63 = false from hoff]
        exact decide_eq_true hst
    case base =>
      have hrow : exec (.loopBaseWrite fn .full v) s = .next (s.loopBaseWrite (partMask .full) v.toNat) :=
        regRow_loop (a := 0x100000) rfl hv h (by decide) (by decide) .full v
      refine ⟨fun hlive hl => hrow.trans (congrArg _ ((if_neg (not_not.2 hlive)).trans (if_pos hl))), fun hlive hl => ?_,
        fun hlive => hrow.trans (congrArg _ (if_pos hlive))⟩
      intro u
      refine hrow.trans (congrArg _ ?_)
      rw [State.loopBaseWrite, if_neg (not_not.2 hlive), if_neg (by rw [hl]; decide)]
      simp only [regMerge_full, u]
    case loop_clear =>
      refine (regRow_loop (a := 0x100010) rfl hv h (by decide) (by decide) .full 1).trans (congrArg _ ?_)
      rw [State.loopWrite, writes1_full_one]
      rfl
    case can =>
      have ha : 0xC30008 + 0x100 * n = 0xC00000 + (0x30008 + 0x100 * n) := by omega
      change regRow (decide (n < 8)) fn (0xC30008 + 0x100 * n) .full 1 s = _
      rw [ha, regRow_pio (decide_eq_true hn) hv (ha ▸ h) (by omega) (by omega), State.pioWrite_canCtl hn, if_pos writes1_full_one,
        State.canRecover, if_pos hb]
    case ring =>
      have ha : 0xC20000 + 0x20 * n = 0xC00000 + (0x20000 + 0x20 * n) := by omega
      change regRow (decide (n < 64)) fn (0xC20000 + 0x20 * n) .full v s = _
      rw [ha, regRow_pio (decide_eq_true hn) hv (ha ▸ h) (by omega) (by omega), State.pioWrite_ring hn,
        State.ringAWrite_enable hoff hon hlo hhi hsz]
    case capture =>
      have ha : 0xC50000 + 0x20 * n = 0xC00000 + (0x50000 + 0x20 * n) := by omega
      have hrow : exec (.captureEnable fn n .full v) s = .next (s.capCWrite n (partMask .full) v.toNat) := by
        change regRow (decide (n < 16)) fn (0xC50000 + 0x20 * n) .full v s = _
        rw [ha, regRow_pio (decide_eq_true hn) hv (ha ▸ h) (by omega) (by omega), State.pioWrite_cap hn]
      exact hrow.trans (congrArg _ (State.capCWrite_enable hoff hon))
    case din =>
      have ha : 0xC60000 + 0x10 * n = 0xC00000 + (0x60000 + 0x10 * n) := by omega
      have hrow : exec (.dinEnable fn n .full v) s = .next (s.dinCWrite n (partMask .full) v.toNat) := by
        change regRow (decide (n < 32)) fn (0xC60000 + 0x10 * n) .full v s = _
        rw [ha, regRow_pio (decide_eq_true hn) hv (ha ▸ h) (by omega) (by omega), State.pioWrite_din hn]
      exact hrow.trans (congrArg _ (State.dinCWrite_enable hoff hon))
    case own =>
      have hholds : s.holds fn = true := beq_iff_eq.2 hh
      have hrow : exec (.pioOwnWrite fn n .full v) s = .next (s.pioOwnWrite true n (partMask .full) v.toNat) := by
        change regRow (decide (n < 764)) fn (0xC00000 + 8 * n) .full v s = _
        rw [regRow_pio (decide_eq_true hn) hv h (by omega) (by omega), State.pioWrite_own hn, hholds]
      have hopen : ¬ (natBit (s.pioCfg n) 63 || s.unitNamed n) = true := by rw [hoff, hnamed]; decide
      exact hrow.trans (congrArg _ ((if_neg (by decide)).trans (if_neg hopen)))

end Sys2Proof.Machine
end

/-! ## What the events beside a channel leave alone

A correction, a fence, a frame that goes and an entry of an event queue change neither the Yarder nor device time: a channel finds itself
as it was. -/

section
namespace Sys2Proof.Machine

/-- A state with the Yarder and the device time of another. -/
def State.KeepsYrd (s t : State) : Prop := t.yrd = s.yrd ∧ t.time = s.time

variable {s t u : State}

theorem State.KeepsYrd.refl (s : State) : s.KeepsYrd s := ⟨rfl, rfl⟩

theorem State.KeepsYrd.trans (h : s.KeepsYrd t) (h' : t.KeepsYrd u) : s.KeepsYrd u := ⟨h'.1.trans h.1, h'.2.trans h.2⟩

theorem State.KeepsYrd.chan (h : s.KeepsYrd t) (n : Nat) : t.chan n = s.chan n := by
  rw [State.chan, State.chan, h.1]

theorem State.KeepsYrd.dt (h : s.KeepsYrd t) : t.dt = s.dt := congrArg Time.dt h.2

/-- Every step of a fold keeps the Yarder, so the fold does. -/
theorem State.KeepsYrd.foldl {β : Type} {f : State → β → State} (hf : ∀ (v : State) (b : β), v.KeepsYrd (f v b)) (l : List β)
    (s : State) : s.KeepsYrd (l.foldl f s) :=
  foldl_keeps (P := s.KeepsYrd) (fun u b hu => hu.trans (hf u b)) l (.refl s)

theorem State.KeepsYrd.updFn (s : State) (fn : Fn) (f : FnSt → FnSt) : s.KeepsYrd (s.updFn fn f) := by cases fn <;> exact ⟨rfl, rfl⟩

theorem State.KeepsYrd.sendRead (s : State) (fn : Fn) (a n : Nat) : s.KeepsYrd (s.sendRead fn a n) := by
  rw [State.sendRead]
  split_ifs
  · exact updFn ..
  · exact refl s

theorem State.KeepsYrd.record (s : State) (cls code : Nat) (dom : Option Nat) (skind sidx addr detail : Nat) :
    s.KeepsYrd (s.record cls code dom skind sidx addr detail) := by
  rw [State.record, State.recordN]
  split_ifs <;> exact ⟨rfl, rfl⟩

theorem State.KeepsYrd.ueMet (s : State) (code : Nat) (dom : Option Nat) (skind sidx addr : Nat) :
    s.KeepsYrd (s.ueMet code dom skind sidx addr) :=
  trans (t := { s with ras := { s.ras with ue := satAdd 32 s.ras.ue 1 } }) ⟨rfl, rfl⟩ (record ..)

theorem State.KeepsYrd.post (s : State) (t d q kind code aux id : Nat) : s.KeepsYrd (s.postAt t d q kind code aux id) := by
  obtain ⟨h, e⟩ := postAt_eq s t d q kind code aux id
  rw [e]
  exact ⟨rfl, rfl⟩

/-! ### The scrub engine and the fence of a core (R178, R206, R450) -/

theorem State.KeepsYrd.scrubNext (s : State) : s.KeepsYrd s.scrubNext := by
  rw [State.scrubNext]
  split <;> exact ⟨rfl, rfl⟩

theorem State.KeepsYrd.scrubAdd (s : State) (l : List (Bool × Nat)) : s.KeepsYrd (s.scrubAdd l) :=
  trans (t := { s with sec := { s.sec with scrubQ := s.sec.scrubQ ++ l } }) ⟨rfl, rfl⟩ (scrubNext _)

theorem State.KeepsYrd.setGrant (s : State) (c g : Nat) : s.KeepsYrd (s.setGrant c g) := by
  rw [State.setGrant]
  dsimp only
  split_ifs <;> exact ⟨rfl, rfl⟩

theorem State.KeepsYrd.cmdDone (s : State) (key result : Nat) : s.KeepsYrd (s.cmdDone key result) := ⟨rfl, rfl⟩

theorem State.KeepsYrd.unitDone (s : State) (gran : Bool) (u : Nat) (failed : Bool) : s.KeepsYrd (s.unitDone gran u failed) := by
  rw [State.unitDone]
  exact trans (t := { s with sched := _ }) ⟨rfl, rfl⟩ (foldl (fun s a => cmdDone s _ _) _ _)

theorem State.KeepsYrd.fenceDone (s : State) (c code : Nat) : s.KeepsYrd (s.fenceDone c code) := by
  rw [State.fenceDone]
  split_ifs
  · exact refl s
  · have hgrant := setGrant s c ((s.core c).grant - s.room false)
    generalize s.setGrant c ((s.core c).grant - s.room false) = g at hgrant ⊢
    refine trans ?_ (unitDone ..)
    refine trans ?_ (record ..)
    refine trans ?_ (scrubNext _)
    exact hgrant.trans ⟨rfl, rfl⟩

theorem State.KeepsYrd.fenceProgress (s : State) : s.KeepsYrd s.fenceProgress :=
  foldl (fun s p => by
    split_ifs
    · exact fenceDone ..
    · exact refl s) _ s

theorem State.KeepsYrd.fenceStart (s : State) (c code : Nat) : s.KeepsYrd (s.fenceStart c code) := by
  rw [State.fenceStart]
  split_ifs
  · exact refl s
  · exact trans (t := { s.updOwner c _ with ras := _ }) ⟨rfl, rfl⟩ (fenceProgress _)

/-! ### Corrections (R439, R441) -/

theorem State.KeepsYrd.correctedIn (s : State) (kind word : Nat) (core : Option Nat) (sk ix a det : Nat) (dom : Option Nat) :
    s.KeepsYrd (s.correctedIn kind word core sk ix a det dom) := by
  rw [State.correctedIn]
  dsimp only
  have hcount (r : Ras) : s.KeepsYrd (({ s with ras := r } : State).record 1 0 dom sk ix a det) := trans ⟨rfl, rfl⟩ (record ..)
  split_ifs
  · exact hcount _
  · cases core with
    | none => exact (hcount _).trans (record ..)
    | some c => exact (hcount _).trans ((record ..).trans (fenceStart ..))

theorem State.KeepsYrd.devRead (s : State) (a len : Nat) (dom : Option Nat) : s.KeepsYrd (s.devRead a len dom) := by
  rw [State.devRead]
  split
  · exact foldl (fun s b => correctedIn ..) _ _
  · exact foldl (fun s b => correctedIn ..) _ _
  · exact refl s

/-! ### Frames of the Kennel (R192, R199) -/

theorem State.KeepsYrd.updGran (s : State) (g : Nat) (f : GranOwn → GranOwn) : s.KeepsYrd (s.updGran g f) := ⟨rfl, rfl⟩

theorem State.KeepsYrd.leaveWith (s : State) (others : List Nat) : s.KeepsYrd (s.leaveWith others) := by
  rw [State.leaveWith]
  exact (foldl (fun s g => updGran s g _) _ _).trans (scrubAdd ..)

theorem State.KeepsYrd.updFrame (s : State) (k : Nat) (f : Frame → Frame) : s.KeepsYrd (s.updFrame k f) := ⟨rfl, rfl⟩

theorem State.KeepsYrd.wantPages (s : State) (l : List Nat) : s.KeepsYrd (s.wantPages l) := ⟨rfl, rfl⟩

theorem State.KeepsYrd.frameGoes (s : State) (k : Nat) : s.KeepsYrd (s.frameGoes k) := by
  have hfree : s.KeepsYrd (s.freeFrame k).leaveGranules := (updFrame s k _).trans (leaveWith _ [])
  rw [State.frameGoes]
  split_ifs
  · exact refl s
  · exact hfree.trans (wantPages ..)
  · exact hfree

theorem State.KeepsYrd.readEnds (s : State) (k : Nat) : s.KeepsYrd (s.readEnds k) := (updFrame s k _).trans (frameGoes ..)

/-! ### What a channel gives up -/

/-- What a descriptor's read leaves behind does not reach the channel itself. -/
theorem State.KeepsYrd.descRead (s : State) (n : Nat) : s.KeepsYrd (s.descRead n) := by
  rw [State.descRead]
  split
  · exact sendRead ..
  · split
    · exact ueMet ..
    · exact devRead ..

theorem State.KeepsYrd.updChan (h : s.KeepsYrd t) (n : Nat) (f : Chan → Chan) : (s.updChan n f).KeepsYrd (t.updChan n f) :=
  ⟨congrArg (fun y : Yrd => { y with chans := Tab.upd {} y.chans n f }) h.1, h.2⟩

/-- The touch of a channel ends, and with it the read of its frame. -/
theorem State.KeepsYrd.touchEnds (s : State) (t : Touch) : s.KeepsYrd (match t.frame with
    | some k => s.readEnds k
    | none => s) := by
  split
  · exact readEnds ..
  · exact refl s

/-- What a channel gives up is its burst slot, its touches and its burst; the rest of the Yarder stays. -/
theorem State.chanRelease_keeps (s : State) (n : Nat) :
    ∃ slots, (({ s with yrd := { s.yrd with slots := slots } } : State).updChan n fun h => { h with burst := none }).KeepsYrd
      (s.chanRelease n) := by
  refine ⟨Tab.mapAll none s.yrd.slots fun _ x => if x = some n then none else x, .trans ?_ (.fenceProgress _)⟩
  refine .updChan ?_ n _
  exact .trans ⟨rfl, rfl⟩ (.foldl (fun v t => .touchEnds v t) _ _)

theorem State.chanRelease_chans (s : State) (n : Nat) :
    (s.chanRelease n).yrd.chans = Tab.upd {} s.yrd.chans n fun h => { h with burst := none } := by
  obtain ⟨slots, h⟩ := s.chanRelease_keeps n
  rw [h.1]
  rfl

end Sys2Proof.Machine
end

/-! ## O38: channels run their descriptors (R262 to R268, R275 to R283, R439, R442) -/

section
namespace Sys2Proof.Machine

variable {s t : State} {fn : Fn} {n : Nat}

/-! ### Rows of a channel that exists -/

/-- A change of a channel depends on the channel alone. -/
theorem State.updChan_congr {f g : Chan → Chan} (h : f (s.chan n) = g (s.chan n)) : s.updChan n f = s.updChan n g :=
  congrArg (fun c => ({ s with yrd := { s.yrd with chans := c } } : State)) (Tab.upd_congr h)

/-- Two changes of a channel are one. -/
theorem State.updChan_updChan (h : Tab.wf ({} : Chan) s.yrd.chans = true) (n : Nat) (f g : Chan → Chan) :
    (s.updChan n f).updChan n g = s.updChan n fun x => g (f x) :=
  congrArg (fun c => ({ s with yrd := { s.yrd with chans := c } } : State)) (Tab.upd_upd h _ f g)

/-- A channel after it is changed. -/
theorem State.chan_updChan (h : Tab.wf ({} : Chan) s.yrd.chans = true) (n : Nat) (f : Chan → Chan) :
    (s.updChan n f).chan n = f (s.chan n) := (Tab.get_upd h n n f).trans (if_pos rfl)

/-- A row that executes the instruction of its opcode at a running channel's word. -/
theorem yRow_of_at {opc : Nat} (hn : n < 128) {h : Chan} (hc : s.chan n = h)
    (hat : h.st = .run ∧ h.word < 6 ∧ yOpc (h.wd h.word) = opc ∧ h.passDone = none ∧ h.wb = none) (f : Chan → State → State) :
    yRow n opc s f = .next (f h s) := by
  subst hc
  exact (if_neg (by omega)).trans (if_pos hat)

/-- A row that ends a descriptor. -/
theorem yEndRow_of_wb (hn : n < 128) (hwb : (s.chan n).wb.isSome = true) (errs : Nat) (isEnd : Bool) (here : Chan → Bool) :
    yEndRow n errs isEnd here s = .next (s.wbStep n errs) := (if_neg (by omega)).trans (if_pos hwb)

theorem yEndRow_of_here (hn : n < 128) (hwb : (s.chan n).wb = none) {here : Chan → Bool}
    (hat : (s.chan n).st = .run ∧ (s.chan n).passDone = none ∧ here (s.chan n) = true) (errs : Nat) (isEnd : Bool) :
    yEndRow n errs isEnd here s = .next (s.chanFinish n isEnd errs) :=
  (if_neg (by omega)).trans ((if_neg (by rw [hwb]; decide)).trans (if_pos hat))

/-! ### Fetch (R264, R266, R275) -/

/-- A descriptor that is read has met an answer. -/
theorem State.descMet_of_fetched {resp : HostRead} {bs : List Byte} (h : s.fetchDesc n resp = some bs) : s.descMet n resp = true := by
  unfold fetchDesc at h
  unfold descMet
  cases hsp : spaceFn (s.chan n).space with
  | some fn =>
    simp only [hsp] at h ⊢
    split_ifs at h with hok
    simp only [Bool.and_eq_true] at hok ⊢
    exact hok.1
  | none =>
    simp only [hsp] at h ⊢
    cases resp with
    | data x =>
      split_ifs at h with hok
      simp only [Bool.and_eq_true] at hok ⊢
      exact ⟨⟨trivial, hok.1.1⟩, hok.1.2⟩
    | ur | _ => cases h

/-- A channel that fetches, with what its read leaves behind. -/
theorem exec_fetch (hn : n < 128) {resp : HostRead} (hst : (s.chan n).st = .fetch) (hwb : (s.chan n).wb = none) :
    exec (.yrdDescriptorFetch n resp) s =
      let u := if s.descMet n resp then s.descRead n else s
      match s.fetchDesc n resp with
      | none => .next (u.chanHaltPlain n yFetch 3 1 0)
      | some bs =>
        if !natBit (bs.getD 63 0).toNat 7 then .next (u.updChan n fun h => { h with st := .idle, pollFrom := u.dt })
        else
          let ws := (List.range 6).map fun i => leNat ((bs.drop (8 * i)).take 8)
          let v := u.updChan n fun h => { h with
            w := ws.map (BitVec.ofNat 64 ·), word := 0, iter := 0, passDone := none, retriesMax := 0, burst := none }
          if yBadDescriptor ws then .next (v.chanHalt n yBadInstr 0 false)
          else .next (v.updChan n fun h => { h with st := .run }) := by
  change execYrdDescriptorFetch n resp s = _
  rw [execYrdDescriptorFetch, if_neg (by omega), if_neg (by simp [hst, hwb])] <;> rfl

/-- On the device a descriptor is read where its channel may read, the path stands and no byte is uncorrectable. -/
theorem State.fetchDesc_device {resp : HostRead} {bs : List Byte} (hsp : spaceFn (s.chan n).space = none) :
    s.fetchDesc n resp = some bs ↔ (∃ x, resp = .data x) ∧ s.chanCheck (s.chan n) (s.chan n).descAt 64 = none
      ∧ s.rangeCut (s.chan n).descAt 64 = false ∧ s.firstBad (s.chan n).descAt 64 = none ∧ bs = s.rdBytes (s.chan n).descAt 64 := by
  unfold fetchDesc
  simp only [hsp]
  cases resp with
  | data x =>
    simp only [Bool.and_eq_true, Option.isNone_iff_eq_none, Bool.not_eq_true', Option.ite_none_right_eq_some, Option.some.injEq,
      HostRead.data.injEq, exists_eq', true_and, and_assoc]
    tauto
  | _ => simp

/-! ### The writes that end a descriptor (R263, R275, R278, R280, R281) -/

/-- The status write, with OWN still 1. -/
theorem State.wbStep_status {b : WBack} (hb : (s.chan n).wb = some b) (hown : b.own = none)
    (hw : s.ringWrite n 48 (yStatus b.ended b.residue (s.chan n).iter (min (s.chan n).retriesMax 7) b.word b.yres) = some t) :
    s.wbStep n 0 = t.updChan n fun x => { x with wb := some { b with own := some (BitVec.ofNat 8 (natBits b.ended 62 56)) } } := by
  simp [State.wbStep, hb, hown, hw]

/-- The level of the event at a descriptor's end: 3 where the channel halts with it. -/
def WBack.level (b : WBack) (abort : Bool) : Nat :=
  if abort then 3 else match b.fin with
    | .fetch => 1
    | .idle => 2
    | .halt _ => 3

/-- The channel after the write of OWN, and the event of its descriptor's end. -/
def State.wbEnds (t : State) (n : Nat) (b : WBack) (h : Chan) : State :=
  (t.updChan n fun x => { x with head := (x.head + 1) % (x.nM1 + 1), wb := none }).chanEvent b.ended n b.yres b.word h.head (b.level h.abort)

/-- The write of OWN ends the descriptor: a halt, an ABORT met meanwhile, or the next descriptor. -/
theorem State.wbStep_own {b : WBack} {top : Byte} (hb : (s.chan n).wb = some b) (hown : b.own = some top)
    (hw : s.ringWrite n 63 [top] = some t) :
    s.wbStep n 0 =
      let v := t.wbEnds n b (s.chan n)
      match b.fin with
      | .halt aborted => v.chanHalted n b.yres aborted
      | e =>
        if (s.chan n).abort then v.chanHalted n yAborted true
        else v.updChan n fun x => { x with st := if e = .idle then .idle else .fetch, pollFrom := v.dt } := by
  simp [State.wbStep, hb, hown, hw]
  rfl

/-- The event of a descriptor's end takes no time. -/
theorem State.KeepsYrd.chanEvent (s : State) (t n yres word idx lvl : Nat) : s.KeepsYrd (s.chanEvent t n yres word idx lvl) := by
  rw [State.chanEvent]
  split_ifs
  · exact .post ..
  · exact .refl s

theorem State.wbEnds_dt (t : State) (n : Nat) (b : WBack) (h : Chan) : (t.wbEnds n b h).dt = t.dt := by
  rw [State.wbEnds]
  exact (State.KeepsYrd.chanEvent ..).dt

/-- A write that fails halts the channel with BUS_ERROR. -/
theorem State.wbStep_fails {b : WBack} (hb : (s.chan n).wb = some b)
    (hw : b.own = none ∧ s.ringWrite n 48 (yStatus b.ended b.residue (s.chan n).iter (min (s.chan n).retriesMax 7) b.word b.yres) = none
      ∨ ∃ top, b.own = some top ∧ s.ringWrite n 63 [top] = none) :
    s.wbStep n 0 = s.chanHaltPlain n yBus 3 1 b.word := by
  obtain ⟨hown, hw⟩ | ⟨top, hown, hw⟩ := hw <;> simp [State.wbStep, hb, hown, hw, State.statusFailed]

/-- A write to host memory that meets more errors than RETRY allows halts the channel too. -/
theorem State.wbStep_exhausted {b : WBack} {errs : Nat} (hb : (s.chan n).wb = some b) (hsp : (s.chan n).space = 1 ∨ (s.chan n).space = 2)
    (hlt : (s.chan n).retry < errs) :
    s.wbStep n errs =
      State.chanHaltPlain { s with yrd := { s.yrd with retried := satAdd 32 s.yrd.retried (s.chan n).retry } } n yBus 3 1 b.word := by
  have hhost : (spaceFn (s.chan n).space).isSome = true := by obtain h | h := hsp <;> rw [h] <;> rfl
  have hpos : 0 < errs := Nat.zero_lt_of_lt hlt
  simp only [State.wbStep, hb, hhost, hpos, hlt, decide_true, Bool.and_self, if_true, Nat.min_eq_right hlt.le, State.statusFailed]

end Sys2Proof.Machine
end

/-! ### EN, the doorbell and ABORT of a channel (R275 to R277, R281, R283), and the obligation -/

section
namespace Sys2Proof.Machine

variable {s t : State} {fn : Fn} {n : Nat}

/-- A whole write of CHCTL that reaches it. -/
theorem regRow_chanCtl (hn : n < 128) (h : s.reaches fn (0x700018 + 0x40 * n) = true) (v : Word) :
    regRow (decide (n < 128)) fn (0x700018 + 0x40 * n) .full v s = .next (s.chanCtlWrite n (partMask .full) v.toNat) := by
  have hst := (State.answers_of_reaches h).2.2.2
  have hoff : (0x700018 + 0x40 * n - 0x700000) / 0x40 = n ∧ (0x700018 + 0x40 * n - 0x700000) % 0x40 = 0x18 := by omega
  rw [regRow_of_reaches (decide_eq_true hn) h (by omega) (by omega) (by omega), State.writeReg_yrd hst (by omega) (by omega),
    State.yrdWrite, if_pos (by omega), hoff.1, hoff.2]
  rfl

/-- A channel that is enabled already stays as it is when EN is written 1 again. -/
theorem State.chanEnable_enabled (hst : (s.chan n).st ≠ .disabled) (hen : (s.chan n).en = true) (hwf : Tab.wf ({} : Chan) s.yrd.chans = true) :
    s.chanEnable n = s := by
  rw [chanEnable, if_pos hst]
  have hself : s.updChan n (fun x => { x with en := true }) = s.updChan n fun x => x := State.updChan_congr (by rw [← hen])
  rw [hself]
  exact congrArg (fun c => ({ s with yrd := { s.yrd with chans := c } } : State)) (Tab.upd_self hwf _ rfl)

/-- EN 0 on a channel with no burst and no write-back gives up what it holds and clears its descriptor. -/
theorem State.chan_chanDisable (hst : (s.chan n).st ≠ .disabled) (hb : (s.chan n).burst = none) (hwb : (s.chan n).wb = none)
    (hwf : Tab.wf ({} : Chan) s.yrd.chans = true) :
    (s.chanDisable n).chan n =
      { s.chan n with
        en := false, st := .disabled, w := [], word := 0, iter := 0, passDone := none, abort := false, waitN := none
        waitSat := false, waitRefused := false, retriesMax := 0, burst := none } := by
  have hrel : Tab.wf ({} : Chan) (s.chanRelease n).yrd.chans = true := by
    rw [State.chanRelease_chans]
    exact Tab.wf_upd hwf _ _
  have hchan : (s.chanRelease n).chan n = { s.chan n with burst := none } := by
    rw [State.chan, State.chanRelease_chans, Tab.get_upd hwf, if_pos rfl, State.chan]
  unfold State.chanDisable
  simp only [if_neg hst, hb, hwb]
  refine (State.chan_updChan hrel n _).trans ?_
  rw [hchan, ← hwb]

/-- Settles O38: the rows of a channel by the branch its state selects; the write-back by its two writes; CHCTL by the bits that are
written. -/
theorem channelsRunTheirDescriptors : Obligations.ChannelsRunTheirDescriptors := by
  constructor
  · intro s n hn h w at_
    refine ⟨fun hst hp ht => ?poll, fun resp bs hst hwb hf => ?fetched, fun resp hst hwb hf => ?unread, fun resp bs hsp => State.fetchDesc_device hsp,
      fun hat => ?move, fun hat => ?loop, fun hat => ?wait, fun hst hsat hwb => ?satisfied, fun hat => ?signal, fun errs fin hat => ?ends,
      fun errs hwb => ?next_write, fun b hb => ⟨fun t hown hw => State.wbStep_status hb hown hw, fun t top hown hw hab => ?own,
        fun t top hown hw hab hfin => ?abort, State.wbStep_fails hb, fun errs hsp hlt => State.wbStep_exhausted hb hsp hlt⟩⟩
    case poll =>
      change execYrdPollExpiry n s = _
      exact (if_neg (by omega)).trans (if_pos ⟨hst, hp, ht⟩)
    case fetched =>
      intro ws u
      have hkeeps : s.KeepsYrd u := .descRead s n
      have hrow := exec_fetch (resp := resp) hn hst hwb
      rw [hf, State.descMet_of_fetched hf] at hrow
      refine ⟨fun hown => hrow.trans ((if_pos (by rw [hown]; rfl)).trans ?_), fun hown hgood hwf => hrow.trans ((if_neg (by rw [hown]; decide)).trans
        ((if_neg (by rw [hgood]; decide)).trans (congrArg _ ?_)))⟩
      · rw [← hkeeps.dt]
        rfl
      · have hwf' : Tab.wf ({} : Chan) u.yrd.chans = true := by rw [hkeeps.1]; exact hwf
        refine (State.updChan_updChan hwf' n _ _).trans (State.updChan_congr ?_)
        rw [hkeeps.chan n]
    case unread =>
      rw [exec_fetch hn hst hwb, hf]
      exact congrArg (fun u : State => Host.Outcome.next (u.chanHaltPlain n 8 3 1 0)) rfl
    case move =>
      change execYrdMove n s = _
      exact yRow_of_at hn rfl hat _
    case loop =>
      change execYrdLoop n s = _
      refine (yRow_of_at hn rfl hat _).trans (congrArg _ ?_)
      dsimp only
      split_ifs <;> rfl
    case wait =>
      intro t v
      have hrow := (show execYrdWait n s = yRow n 3 s _ from rfl).trans (yRow_of_at hn rfl hat _)
      exact ⟨fun href => hrow.trans (congrArg _ (if_pos href)),
        fun href hmet => hrow.trans (congrArg _ ((if_neg (ne_true_of_eq_false href)).trans
          ((if_pos hmet).trans (State.updChan_congr rfl)))),
        fun href hmet => hrow.trans (congrArg _ ((if_neg (ne_true_of_eq_false href)).trans (if_neg (ne_true_of_eq_false hmet))))⟩
    case satisfied =>
      change execYrdWaitSatisfied n s = _
      refine (if_neg (by omega)).trans ((if_pos ⟨hst, hsat, hwb⟩).trans (congrArg _ (State.updChan_congr ?_)))
      rfl
    case signal =>
      change execYrdSignal n s = _
      exact yRow_of_at hn rfl hat _
    case ends =>
      intro i
      obtain ⟨rfl, hst, hw, hopc, hpass, hwb⟩ | ⟨rfl, hat⟩ := hat
      · exact yEndRow_of_here hn hwb (here := fun h => h.word < 6 && yOpc (h.wd h.word) == 5)
          ⟨hst, hpass, Bool.and_eq_true_iff.2 ⟨decide_eq_true hw, beq_iff_eq.2 hopc⟩⟩ errs true
      · have hempty (hst : h.st = .run) (hpass : h.passDone = none) (hwb : h.wb = none) (hat : 6 ≤ h.word ∨ yOpc w = 0) :=
          yEndRow_of_here hn hwb (here := fun h => 6 ≤ h.word || yOpc (h.wd h.word) == 0)
            ⟨hst, hpass, Bool.or_eq_true_iff.2 (hat.imp decide_eq_true beq_iff_eq.2)⟩ errs false
        obtain ⟨hst, -, hopc, hpass, hwb⟩ | ⟨hst, hpass, hwb, hw⟩ := hat
        · exact hempty hst hpass hwb (.inr hopc)
        · exact hempty hst hpass hwb (.inl hw)
    case next_write =>
      exact ⟨yEndRow_of_wb (here := fun h => h.word < 6 && yOpc (h.wd h.word) == 5) hn hwb errs _,
        yEndRow_of_wb (here := fun h => 6 ≤ h.word || yOpc (h.wd h.word) == 0) hn hwb errs _⟩
    case own =>
      intro u
      have hab : (s.chan n).abort = false := hab
      have hends (lvl : Nat) (hl : b.level false = lvl) : u.chanEvent b.ended n b.yres b.word h.head lvl = t.wbEnds n b (s.chan n) := by
        rw [State.wbEnds, hab, hl]
      refine ⟨fun hfin => ?_, fun hfin => ?_, fun a hfin => ?_⟩
      · rw [hends 1 (by simp [WBack.level, hfin]), ← State.wbEnds_dt t n b (s.chan n), State.wbStep_own hb hown hw]
        simp [hfin, hab]
      · rw [hends 2 (by simp [WBack.level, hfin]), ← State.wbEnds_dt t n b (s.chan n), State.wbStep_own hb hown hw]
        simp [hfin, hab]
      · rw [hends 3 (by simp [WBack.level, hfin]), State.wbStep_own hb hown hw]
        simp [hfin]
    case abort =>
      intro u
      have hab : (s.chan n).abort = true := hab
      have hends : u.chanEvent b.ended n b.yres b.word h.head 3 = t.wbEnds n b (s.chan n) := by
        rw [State.wbEnds, hab]
        rfl
      rw [hends, State.wbStep_own hb hown hw]
      obtain hfin | hfin := hfin <;> simp [hfin, hab, yAborted]
  · intro s fn n hn hr h
    have hctl := regRow_chanCtl hn hr
    have enable : exec (.yrdEnable fn n) s = .next (s.chanEnable n) := hctl 1
    have disable : exec (.yrdDisable fn n) s = .next (s.chanDisable n) := hctl 0
    refine ⟨fun hst hgood hwf => ?enable, fun hst hbad => ?bad_config, fun hst hb hwb => ⟨_, disable, State.chan_chanDisable hst hb hwb⟩,
      fun hst hen hwf => ?doorbell, fun hst hen hwf => ?abort, fun hst hwb => ?abort_waiting, fun hclr => ?clear⟩
    case enable =>
      refine enable.trans (congrArg _ ?_)
      refine (if_neg (not_not.2 hst)).trans ((if_neg (ne_true_of_eq_false hgood)).trans ((State.updChan_updChan hwf n _ _).trans ?_))
      exact State.updChan_congr rfl
    case bad_config =>
      exact enable.trans (congrArg _ ((if_neg (not_not.2 hst)).trans (if_pos hbad)))
    case doorbell =>
      have hst' : h.st ≠ .disabled := by rcases hst with e | e <;> rw [e] <;> decide
      have hrow : exec (.yrdDoorbell fn n) s = .next ((s.chanEnable n).chanDoorbell n) := hctl 3
      rw [hrow, State.chanEnable_enabled hst' hen hwf]
      exact congrArg _ ((if_pos hst).trans (State.updChan_congr rfl))
    case abort =>
      have hrow : exec (.yrdAbort fn n) s = .next ((s.chanEnable n).chanAbort n) := hctl 5
      rw [hrow, State.chanEnable_enabled hst hen hwf]
    case abort_waiting =>
      have hst : (s.chan n).st = .waiting := hst
      have hwb : (s.chan n).wb = none := hwb
      simp [State.chanAbort, State.abortNow, hst, hwb, yAborted]
    case clear =>
      change regRow true fn 0x704008 .full 1 s = _
      rw [regRow_of_reaches rfl hclr (by decide) (by decide) (by decide),
        State.writeReg_yrd (State.answers_of_reaches hclr).2.2.2 (by decide) (by decide), State.yrdWrite, writes1_full_one]
      rfl

end Sys2Proof.Machine
end

/-! ## O39: bursts are granted, checked, written and retried (R270 to R273, R278, R388, R442) -/

section
namespace Sys2Proof.Machine

variable {s : State} {n : Nat}

/-! ### The arbiter (R273) -/

/-- The largest of a list of numbers is one of them, and none is larger. -/
theorem foldl_max_mem_and_le (l : List Nat) (b : Nat) : (l.foldl max b = b ∨ l.foldl max b ∈ l) ∧ b ≤ l.foldl max b ∧
    ∀ x ∈ l, x ≤ l.foldl max b := by
  induction l generalizing b with
  | nil => exact ⟨.inl rfl, le_rfl, by simp⟩
  | cons a l ih =>
    obtain ⟨hmem, hb, hl⟩ := ih (max b a)
    rw [List.foldl_cons]
    refine ⟨?_, (Nat.le_max_left b a).trans hb, List.forall_mem_cons.2 ⟨(Nat.le_max_right b a).trans hb, hl⟩⟩
    rcases hmem with hmem | hmem
    · rw [hmem, List.mem_cons]
      omega
    · exact .inr (List.mem_cons_of_mem _ hmem)

/-- Round robin over a list whose numbers rise: the first from a place on, else the first of all. -/
theorem roundRobin_eq_some {α : Type} {l : List (Nat × α)} {start : Nat} {p : Nat × α} (hl : l.Pairwise fun p q => p.1 < q.1)
    (h : (l.find? fun p => decide (start ≤ p.1)).or l.head? = some p) :
    p ∈ l ∧ ∀ q ∈ l, (start ≤ p.1 → start ≤ q.1 → p.1 ≤ q.1) ∧ (p.1 < start → q.1 < start ∧ p.1 ≤ q.1) := by
  cases hf : l.find? fun p => decide (start ≤ p.1) with
  | some r =>
    rw [hf] at h
    obtain rfl := Option.some.inj h
    obtain ⟨hr, l₁, l₂, rfl, hno⟩ := List.find?_eq_some_iff_append.1 hf
    refine ⟨by simp, fun q hq => ⟨fun _ hsq => ?_, fun hlt => absurd hlt (by simpa using hr)⟩⟩
    obtain hq | rfl | hq : q ∈ l₁ ∨ q = r ∨ q ∈ l₂ := by simpa using hq
    · exact absurd hsq (by simpa using hno q hq)
    · exact le_rfl
    · exact ((List.pairwise_cons.1 (List.pairwise_append.1 hl).2.1).1 q hq).le
  | none =>
    rw [hf] at h
    have hbelow (q) (hq : q ∈ l) : q.1 < start := by simpa using List.find?_eq_none.1 hf q hq
    cases l with
    | nil => cases h
    | cons a l =>
      obtain rfl := Option.some.inj h
      have ha : a ∈ a :: l := List.mem_cons_self
      refine ⟨ha, fun q hq => ⟨fun hs => absurd hs (Nat.not_le.2 (hbelow a ha)), fun _ => ⟨hbelow q hq, ?_⟩⟩⟩
      rcases List.mem_cons.1 hq with rfl | hq
      · exact le_rfl
      · exact ((List.pairwise_cons.1 hl).1 q hq).le

/-- A channel whose burst waits for a slot of its class. -/
def State.ReadyIn (s : State) (host : Bool) (n : Nat) : Prop :=
  let h := s.chan n
  h.st = .run ∧ h.abort = false ∧ h.wb = none ∧ ∃ b, h.burst = some b ∧ b.isHost = host ∧ b.granted = none
    ∧ (b.bad.isSome = true ∨ b.sspace ≠ 3 ∨ s.chanLc h = true ∨ b.page = none ∨ (s.chanFrame n).isSome = true)

/-- The channels that the arbiter looks at. -/
def State.readyChans (s : State) (host : Bool) : List (Nat × Chan) :=
  s.yrd.chans.filter fun p => s.burstReady p.1 p.2 && (match p.2.burst with
    | some b => b.isHost == host
    | none => false)

/-- A burst is ready for the arbiter where its channel runs with no ABORT, and it waits for no page. -/
theorem State.burstReady_iff {h : Chan} {host : Bool} :
    (s.burstReady n h && (match h.burst with
      | some b => b.isHost == host
      | none => false)) = true ↔
    h.st = .run ∧ h.abort = false ∧ h.wb = none ∧ ∃ b, h.burst = some b ∧ b.isHost = host ∧ b.granted = none
      ∧ (b.bad.isSome = true ∨ b.sspace ≠ 3 ∨ s.chanLc h = true ∨ b.page = none ∨ (s.chanFrame n).isSome = true) := by
  rw [State.burstReady]
  cases hb : h.burst with
  | none => simp
  | some b =>
    simp only [Bool.and_eq_true, Bool.or_eq_true, beq_iff_eq, Bool.not_eq_true', Option.isNone_iff_eq_none, decide_eq_true_iff,
      Option.some.injEq, exists_eq_left']
    tauto

theorem State.mem_readyChans (hwf : Tab.wf ({} : Chan) s.yrd.chans = true) (host : Bool) (n : Nat) (h : Chan) :
    (n, h) ∈ s.readyChans host ↔ h = s.chan n ∧ s.ReadyIn host n := by
  have hmem := (Tab.wf_iff.1 hwf).mem_iff_get n h
  rw [State.readyChans, List.mem_filter, hmem]
  refine ⟨fun ⟨⟨hget, _⟩, hr⟩ => ?_, fun ⟨hget, hr⟩ => ?_⟩
  · subst hget
    exact ⟨rfl, State.burstReady_iff.1 hr⟩
  · subst hget
    refine ⟨⟨rfl, fun hd => ?_⟩, State.burstReady_iff.2 hr⟩
    obtain ⟨hrun, -⟩ := hr
    rw [hd] at hrun
    cases hrun

/-- The ready channels of the highest priority. -/
def State.topChans (s : State) (host : Bool) : List (Nat × Chan) :=
  (s.readyChans host).filter fun p => p.2.prio == ((s.readyChans host).map fun p => p.2.prio).foldl max 0

theorem State.mem_topChans (host : Bool) (p : Nat × Chan) :
    p ∈ s.topChans host ↔ p ∈ s.readyChans host ∧ ∀ q ∈ s.readyChans host, q.2.prio ≤ p.2.prio := by
  obtain ⟨hmem, -, hle⟩ := foldl_max_mem_and_le ((s.readyChans host).map fun p => p.2.prio) 0
  rw [State.topChans, List.mem_filter, beq_iff_eq]
  refine and_congr_right fun hp => ⟨fun htop q hq => htop ▸ hle _ (List.mem_map_of_mem hq), fun hall => ?_⟩
  refine Nat.le_antisymm (hle _ (List.mem_map_of_mem hp)) ?_
  rcases hmem with h0 | hmem
  · exact h0.trans_le (Nat.zero_le _)
  · obtain ⟨q, hq, e⟩ := List.mem_map.1 hmem
    exact e ▸ hall q hq

/-- Some ready channel has the highest priority. -/
theorem State.topChans_ne_nil {host : Bool} {p : Nat × Chan} (h : p ∈ s.readyChans host) : s.topChans host ≠ [] := by
  obtain ⟨hmem, -, hle⟩ := foldl_max_mem_and_le ((s.readyChans host).map fun p => p.2.prio) 0
  have htop (q : Nat × Chan) (hq : q ∈ s.readyChans host)
      (e : q.2.prio = ((s.readyChans host).map fun p => p.2.prio).foldl max 0) : s.topChans host ≠ [] :=
    List.ne_nil_of_mem (List.mem_filter.2 ⟨hq, beq_iff_eq.2 e⟩)
  rcases hmem with h0 | hmem
  · exact htop p h (Nat.le_antisymm (hle _ (List.mem_map_of_mem h)) (h0.trans_le (Nat.zero_le _)))
  · obtain ⟨q, hq, e⟩ := List.mem_map.1 hmem
    exact htop q hq e

/-- The arbiter takes the channels of the highest priority in turn (R273). -/
theorem State.arbiter_eq (host : Bool) :
    s.arbiter host = ((s.topChans host).find? fun p => decide (Tab.get 0 s.yrd.rr
      (bit host * 8 + ((s.readyChans host).map fun p => p.2.prio).foldl max 0) ≤ p.1)).or (s.topChans host).head? := by
  have hpick (o : Option (Nat × Chan)) :
      (match o with
        | some p => some p
        | none => (s.topChans host).head?) = o.or (s.topChans host).head? := by cases o <;> rfl
  exact hpick _

/-- A ready channel makes the arbiter grant one. -/
theorem State.arbiter_isSome {host : Bool} {p : Nat × Chan} (h : p ∈ s.readyChans host) : (s.arbiter host).isSome = true := by
  rw [State.arbiter_eq, Option.isSome_or, Bool.or_eq_true]
  exact .inr (by simpa using State.topChans_ne_nil h)

/-- The channel that is granted is ready, of the highest priority, and the next of its priority in turn. -/
theorem State.arbiter_grants (hwf : Tab.wf ({} : Chan) s.yrd.chans = true) {host : Bool} {h : Chan} (ha : s.arbiter host = some (n, h)) :
    (n, h) ∈ s.topChans host ∧ ∀ q ∈ s.topChans host,
      (Tab.get 0 s.yrd.rr (bit host * 8 + h.prio) ≤ n → Tab.get 0 s.yrd.rr (bit host * 8 + h.prio) ≤ q.1 → n ≤ q.1)
      ∧ (n < Tab.get 0 s.yrd.rr (bit host * 8 + h.prio) → q.1 < Tab.get 0 s.yrd.rr (bit host * 8 + h.prio) ∧ n ≤ q.1) := by
  have hsort : (s.topChans host).Pairwise fun p q => p.1 < q.1 := ((Tab.wf_iff.1 hwf).pairwise_key.filter _).filter _
  rw [State.arbiter_eq] at ha
  obtain ⟨hin, hturn⟩ := roundRobin_eq_some hsort ha
  have hprio : h.prio = ((s.readyChans host).map fun p => p.2.prio).foldl max 0 := beq_iff_eq.1 (List.mem_filter.1 hin).2
  rw [← hprio] at hturn
  exact ⟨hin, hturn⟩

/-! ### The grant (R270, R273, R388) -/

/-- The arbiter's pointer moves past the channel that it takes. -/
def State.granted (s : State) (host : Bool) (n : Nat) (h : Chan) : State :=
  { s with yrd := { s.yrd with rr := Tab.set 0 s.yrd.rr (bit host * 8 + h.prio) (n + 1) } }

/-- YRD_BURST_GRANT where a slot is free and the arbiter takes a channel. -/
theorem exec_burstGrant {host : Bool} {i : Nat} {h : Chan} {b : Burst}
    (hi : ((List.range 16).find? fun i => (Tab.get none s.yrd.slots ((if host then 16 else 0) + i)).isNone) = some i)
    (ha : s.arbiter host = some (n, h)) (hb : h.burst = some b) :
    exec (.yrdBurstGrant host) s =
      let g := s.granted host n h
      match s.burstCheck h b with
      | some (y, a) =>
        let v := match b.page with
          | some pn => if y = yUnpinned then g.countHit pn else g
          | none => g
        .next ((v.checkRecord n y a).chanHalt n y h.left false)
      | none =>
        if !s.burstReach b then .next ((g.checkRecord n yDecode 0).chanHalt n yDecode h.left false)
        else
          let v := if b.sspace = 3 && s.chanLc h then
              (match b.page with
                | some pn => g.touch ⟨0, 0, 0, 0, some n, pn, natBits b.src 13 0, b.len, b.dst, none⟩
                | none => g)
            else g
          let v := match spaceFn b.sspace with
            | some fn => v.sendRead fn b.src b.len
            | none => v
          .next ({ v with yrd := { v.yrd with slots := Tab.set none v.yrd.slots ((if host then 16 else 0) + i) (some n) } }.updChan n
            fun x => { x with burst := some { b with granted := some ((if host then 16 else 0) + i) } }) := by
  change execYrdBurstGrant host s = _
  simp only [execYrdBurstGrant, hi, ha, hb]
  rfl

end Sys2Proof.Machine
end

/-! ### The end of a burst, its length, and the obligation (R271, R272, R278) -/

section
namespace Sys2Proof.Machine

variable {s : State} {n : Nat} {b : Burst}

/-- YRD_BURST_COMPLETE of a granted burst whose hosts can be reached. -/
theorem exec_burstComplete (hn : n < 128) (hb : (s.chan n).burst = some b) (hg : b.granted.isSome = true) (hr : s.burstReach b = true)
    (resp : HostRead) :
    exec (.yrdBurstComplete n resp) s =
      if s.burstCut n b then .next (s.burstRetry n b)
      else match s.burstRecheck (s.chan n) b, b.bad with
        | some (y, a), _ => .next ((s.checkRecord n y a).burstFails n y)
        | none, some _ => .next (s.burstFails n yData)
        | none, none =>
          match resp with
          | .data bs =>
            match s.burstBad n b with
            | some (l, sk, ix) => .next ((s.ueMet 0 (some (s.chan n).dom) sk ix l).burstFails n yData)
            | none =>
              let u := if b.sspace = 3 && b.page.isNone then s.chanRecord n 3 3 (if b.dspace = 0 then b.dst else 0)
                else s.burstSeen n b
              let data := if b.sspace = 1 ∨ b.sspace = 2 then (List.range b.len).map (bs.getD · 0) else s.burstSrc n b
              .next (u.burstWrite n b data)
          | .ur =>
            if b.isHost then .next ((s.checkRecord n yDecode 0).burstFails n yDecode) else .next (s.burstRetry n b)
          | _ => .next (s.burstRetry n b) := by
  change execYrdBurstComplete n resp s = _
  rw [execYrdBurstComplete, if_neg (by omega)]
  simp only [hb, Option.isNone_eq_false_iff.2 hg, hr, Bool.not_true, Bool.false_eq_true, if_false] <;> rfl

/-- Data that reaches its destination is written there and ends the burst. -/
theorem State.burstWrite_host {fn : Fn} (h : spaceFn b.dspace = some fn) (data : List Byte) :
    s.burstWrite n b data = (s.updFn fn fun f => { f with mem := f.mem.write b.dst data }).burstDone n b := by
  simp only [burstWrite, h]
  rfl

theorem State.burstWrite_device (h : b.dspace = 0) {data : List Byte} (hd : (s.devWrite b.dst data).2 = []) :
    s.burstWrite n b data = (s.devWrite b.dst data).1.burstDone n b := by
  simp only [burstWrite, h, spaceFn, if_true, hd]

theorem State.burstWrite_port (h : 3 ≤ b.dspace) (data : List Byte) :
    s.burstWrite n b data = (s.portWrite b.dspace b.dst data).burstDone n b := by
  have hsp : spaceFn b.dspace = none := by
    unfold spaceFn
    split
    · omega
    · omega
    · rfl
  simp only [burstWrite, hsp, if_neg (by omega : b.dspace ≠ 0)]

/-- A run of bytes that ends at or before a boundary stays in its block. -/
theorem div_eq_div_of_le {x l m : Nat} (hl : 0 < l) (h : l ≤ m - x % m) : x / m = (x + l - 1) / m := by
  have hm : 0 < m := by omega
  have hlt := Nat.mod_lt x hm
  have hsplit : x + l - 1 = m * (x / m) + (x % m + l - 1) := by
    have := Nat.div_add_mod x m
    omega
  rw [hsplit, Nat.mul_add_div hm, Nat.div_eq_of_lt (show x % m + l - 1 < m by omega), Nat.add_zero]

theorem burstLen_fits {ss ds src dst left : Nat} (hleft : 0 < left) :
    let l := burstLen ss ds src dst left
    0 < l ∧ l ≤ 4096 ∧ l ≤ left ∧ ((ss = 1 ∨ ss = 2) → l ≤ 4096 - src % 4096) ∧ ((ds = 1 ∨ ds = 2) → l ≤ 4096 - dst % 4096)
    ∧ (ss = 3 → l ≤ 16384 - src % 16384) := by
  simp only [burstLen, Bool.or_eq_true, beq_iff_eq]
  split_ifs <;> omega

/-- Settles O39: the arbiter as round robin over the ready channels of the highest priority; a grant by its check, a completion by what it
meets, and the length of a burst by the three limits of R271. -/
theorem burstsAreGrantedAndWritten : Obligations.BurstsAreGrantedAndWritten := by
  refine ⟨fun s host hwf => ?arbiter, fun s host i n h b => ?grant, fun s n b hn hb hg hr => ?complete,
    fun ss ds src dst left hleft => ?length⟩
  case arbiter =>
    intro ready
    refine ⟨fun ⟨n, hn⟩ => State.arbiter_isSome ((State.mem_readyChans hwf host n _).2 ⟨rfl, hn⟩), fun n h ha => ?_⟩
    intro start
    obtain ⟨htop, hturn⟩ := State.arbiter_grants hwf ha
    obtain ⟨hmem, hmax⟩ := (State.mem_topChans host _).1 htop
    obtain ⟨hchan, hready⟩ := (State.mem_readyChans hwf host n h).1 hmem
    have hof (m : Nat) (hm : ready m) : (m, s.chan m) ∈ s.readyChans host := (State.mem_readyChans hwf host m _).2 ⟨rfl, hm⟩
    refine ⟨hchan, hready, fun m hm => hmax _ (hof m hm), fun m hm hprio => hturn (m, s.chan m) ?_⟩
    exact (State.mem_topChans host _).2 ⟨hof m hm, fun q hq => (hmax q hq).trans hprio.ge⟩
  case grant =>
    intro base g hi ha hb
    have hrow := exec_burstGrant hi ha hb
    refine ⟨fun hc hr => ?_, fun y a hc hy => ?_, fun a pn hc hpn => ?_, fun hc hr => ?_⟩
    all_goals rw [hc] at hrow
    · intro v v'
      rw [hr] at hrow
      simp only [Bool.not_true, Bool.false_eq_true, if_false, Bool.and_eq_true, decide_eq_true_eq] at hrow
      exact hrow
    · refine hrow.trans (congrArg (fun v : State => Host.Outcome.next ((v.checkRecord n y a).chanHalt n y h.left false)) ?_)
      rcases hy with hpn | hy
      · rw [hpn]
        rfl
      · cases b.page with
        | none => rfl
        | some pn => exact if_neg hy
    · rw [hpn] at hrow
      exact hrow
    · rw [hr] at hrow
      exact hrow
  case complete =>
    have hrow := exec_burstComplete hn hb hg hr
    refine ⟨fun e hcut => (hrow e).trans (if_pos hcut), fun e y a hcut hre => ?recheck, fun hcut hre hbad => ?good⟩
    case recheck =>
      have hrow := (hrow e).trans (if_neg (ne_true_of_eq_false hcut))
      rwa [hre] at hrow
    case good =>
      have hrow (e : HostRead) := (hrow e).trans (if_neg (ne_true_of_eq_false hcut))
      simp only [hre, hbad] at hrow
      refine ⟨fun bs l sk ix hub => ?uncorrectable, fun bs hub => ?_, fun e he hhost => ?error⟩
      case uncorrectable =>
        have hrow := hrow (.data bs)
        simp only [hub] at hrow
        exact hrow
      case error =>
        refine (hrow e).trans ?_
        cases e with
        | data bs => exact absurd rfl (he bs)
        | ur => exact if_neg (ne_true_of_eq_false (hhost.resolve_right fun h => h rfl))
        | _ => rfl
      intro u data
      have hrow := hrow (.data bs)
      simp only [hub, Bool.and_eq_true, decide_eq_true_eq, Option.isNone_iff_eq_none] at hrow
      have hdata : exec (.yrdBurstComplete n (.data bs)) s = .next (u.burstWrite n b data) := hrow
      exact ⟨fun fn hfn => hdata.trans (congrArg _ (State.burstWrite_host hfn data)),
        fun hdev hall => hdata.trans (congrArg _ (State.burstWrite_device hdev hall)),
        fun hport => hdata.trans (congrArg _ (State.burstWrite_port hport data))⟩
  case length =>
    intro l
    obtain ⟨hpos, hmax, hle, hsrc, hdst, hpage⟩ := burstLen_fits (ss := ss) (ds := ds) (src := src) (dst := dst) hleft
    exact ⟨hpos, hmax, hle, fun h => div_eq_div_of_le hpos (hsrc h), fun h => div_eq_div_of_le hpos (hdst h),
      fun h => div_eq_div_of_le hpos (hpage h)⟩

end Sys2Proof.Machine
end

/-! ## O40: loop commands and trajectory queues (R35, R300 to R305, R310, R314, R448) -/

section
namespace Sys2Proof.Machine

variable {s : State} {d r op : Nat} {h : HostCmd}

/-! ### Loop commands (R310, R313, R314) -/

/-- The slots that a loop command names. -/
def HostCmd.loops (h : HostCmd) : List Nat := (List.range (h.field 299 288 + 1)).map (h.field 311 300 + ·)

/-- What a loop command ends or starts, by the effect on its slots. -/
def loopEnds (key op : Nat) (slots : List Nat) (p : State × Option Nat) : State :=
  match p.2 with
  | some res => p.1.cmdDone key res
  | none => { p.1.setCmd key (.busy op) with loop := { p.1.loop with cmds := p.1.loop.cmds ++ [⟨key, op, slots⟩] } }

/-- A loop command whose word is right and whose slots all belong to the ring's domain. -/
theorem loopRow_of_accepts (ha : s.accepts d r 4 (some op) h) (hfit : h.field 311 300 + (h.field 299 288 + 1) ≤ 4096)
    (h0 : h.field 287 0 = 0) (hdom : ∀ i ∈ h.loops, (s.loopSlot i).st ≠ .disabled ∧ (s.loopSlot i).dom = d)
    (f : List Nat → State → State × Option Nat) :
    loopRow d r op s f = .next (loopEnds (ringKey d r) op h.loops (f h.loops s)) := by
  have hword : ¬ (natBits h.body 287 0 ≠ 0 || 4096 < natBits h.body 311 300 + (natBits h.body 299 288 + 1)) = true := by
    rw [Bool.or_eq_true, decide_eq_true_iff, decide_eq_true_iff]
    exact not_or.2 ⟨not_not.2 h0, Nat.not_lt.2 hfit⟩
  have hown : ¬ (h.loops.any fun i => (s.loopSlot i).st == .disabled || (s.loopSlot i).dom ≠ d) = true := by
    rw [List.any_eq_true]
    rintro ⟨i, hi, he⟩
    obtain ⟨hst, hd⟩ := hdom i hi
    simp [hst, hd] at he
  rw [loopRow, hostRow_of_accepts ha]
  exact congrArg Host.Outcome.next ((if_neg hword).trans (if_neg hown))

/-- QCLEAR acts on each slot as it finds the engine: with the queue empty, or behind the instants that wait. -/
theorem State.foldl_qclear (l : List Nat) (s t : State) (hf : t.loop.frozen = s.loop.frozen) (ht : t.dt = s.dt) :
    l.foldl (fun u i => u.updLoop i fun x =>
        if s.loop.frozen.isEmpty then x.clearQueue else { x with arrived := x.arrived ++ [(s.dt, none)] }) t
      = l.foldl (fun u i => u.updLoop i fun x =>
        if u.loop.frozen = [] then { x with queue := [], skipCnt := satAdd 16 x.skipCnt x.queue.length }
        else { x with arrived := x.arrived ++ [(u.dt, none)] }) t := by
  induction l generalizing t with
  | nil => rfl
  | cons i l ih =>
    have hstep : (t.updLoop i fun x =>
          if s.loop.frozen.isEmpty then x.clearQueue else { x with arrived := x.arrived ++ [(s.dt, none)] })
        = t.updLoop i fun x =>
          if t.loop.frozen = [] then { x with queue := [], skipCnt := satAdd 16 x.skipCnt x.queue.length }
          else { x with arrived := x.arrived ++ [(t.dt, none)] } := by
      simp only [hf, ht, List.isEmpty_iff]
      rfl
    rw [List.foldl_cons, List.foldl_cons, hstep]
    exact ih _ hf ht

/-! ### Pushes (R301 to R303) -/

theorem joined_eq_false_iff (l : List Traj) :
    joined l = false ↔ ∃ i a b, l[i]? = some a ∧ l[i + 1]? = some b ∧ a.cl ≠ b.op := by
  induction l with
  | nil => simp [joined]
  | cons x l ih =>
    cases l with
    | nil => simp [joined]
    | cons y l =>
      rw [joined, Bool.and_eq_false_iff, ih, beq_eq_false_iff_ne]
      constructor
      · rintro (h | ⟨i, a, b, ha, hb, hne⟩)
        · exact ⟨0, x, y, rfl, rfl, h⟩
        · exact ⟨i + 1, a, b, ha, hb, hne⟩
      · rintro ⟨i, a, b, ha, hb, hne⟩
        cases i with
        | zero =>
          obtain rfl : x = a := by simpa using ha
          obtain rfl : y = b := by simpa using hb
          exact .inl hne
        | succ i => exact .inr ⟨i, a, b, ha, hb, hne⟩

/-- The values of an entry that the law uses. -/
theorem LoopSlot.mem_uses (x : LoopSlot) (e : Traj) (w : Nat) :
    w ∈ x.uses e ↔ x.law < 2 ∧ w ∈ [e.v0, e.v1, e.v2] ∨ 2 ≤ x.law ∧ (w = e.v3 ∨ w ∈ [e.v0, e.v1, e.v2].take x.nx) := by
  rw [LoopSlot.uses]
  split_ifs with hl
  · have : ¬ 2 ≤ x.law := by omega
    simp [hl, this]
  · have : 2 ≤ x.law := by omega
    rw [List.mem_append, List.mem_singleton]
    tauto

/-- What makes a push refused (R302). -/
theorem LoopSlot.pushBad_iff (x : LoopSlot) (v : Nat) (l : List Traj) :
    x.pushBad v l = true ↔ natBits v 6 0 = 0 ∨ 64 < natBits v 6 0 ∨ natBits v 63 7 ≠ 0
      ∨ x.st = .disabled ∨ (∃ e ∈ l, e.cl ≤ e.op) ∨ (∃ i a b, l[i]? = some a ∧ l[i + 1]? = some b ∧ a.cl ≠ b.op)
      ∨ ∃ e ∈ l, ∃ w, natBits w 22 15 = 255 ∧
          (x.law < 2 ∧ w ∈ [e.v0, e.v1, e.v2] ∨ 2 ≤ x.law ∧ (w = e.v3 ∨ w ∈ [e.v0, e.v1, e.v2].take x.nx)) := by
  have hfinite (e : Traj) : (x.uses e).any hfNotFinite = true ↔ ∃ w, natBits w 22 15 = 255 ∧
      (x.law < 2 ∧ w ∈ [e.v0, e.v1, e.v2] ∨ 2 ≤ x.law ∧ (w = e.v3 ∨ w ∈ [e.v0, e.v1, e.v2].take x.nx)) := by
    simp only [List.any_eq_true, x.mem_uses, hfNotFinite, beq_iff_eq, and_comm]
  simp only [LoopSlot.pushBad, Bool.or_eq_true, beq_iff_eq, decide_eq_true_iff, Bool.not_eq_true', joined_eq_false_iff, List.any_eq_true,
    hfinite, or_assoc]
  refine or_congr_right (or_congr_right (or_congr_right ?_))
  rw [← or_assoc, ← or_assoc, or_comm, or_assoc]

/-- The entries that a filter keeps and those that it drops are all of them. -/
theorem length_filter_add_not {α : Type} (l : List α) (p q : α → Bool) (h : ∀ a, q a = !p a) :
    (l.filter q).length = l.length - (l.filter p).length := by
  have hsum := List.length_eq_length_filter_add (l := l) p
  rw [show q = fun a => !p a from funext h]
  omega

/-- An accepted push keeps the entries before its first OPEN and takes its own whose window is not over (R303). -/
theorem LoopSlot.push_cons (x : LoopSlot) (a : Traj) (l : List Traj) (t : Nat) :
    let queue := x.queue.filter (fun e => decide (e.op < a.op)) ++ (a :: l).filter fun e => decide (t < e.cl)
    x.push (a :: l) t = { x with
      queue := queue.take 64
      skipCnt := satAdd 16 x.skipCnt ((x.queue.filter fun e => decide (a.op ≤ e.op)).length + (queue.drop 64).length)
      lateCnt := satAdd 16 x.lateCnt ((a :: l).filter fun e => decide (e.cl ≤ t)).length } := by
  have hkept := length_filter_add_not x.queue (fun e => decide (e.op < a.op)) (fun e => decide (a.op ≤ e.op))
    fun e => by simp [← decide_not]
  have hlate := length_filter_add_not (a :: l) (fun e => decide (t < e.cl)) (fun e => decide (e.cl ≤ t))
    fun e => by simp [← decide_not]
  simp only [LoopSlot.push, hkept, hlate, List.length_drop]

/-! ### What waits behind frozen instants (R293, R316) -/

/-- What a push or a QCLEAR does to a slot leaves what waits alone. -/
theorem LoopSlot.takes_arrived (x : LoopSlot) (p : Nat × Option (List Traj)) (m : List (Nat × Option (List Traj))) :
    ({ x with arrived := m } : LoopSlot).takes p = { x.takes p with arrived := m } := by
  obtain ⟨t, l | l⟩ := p
  · rfl
  · cases l <;> rfl

theorem LoopSlot.foldl_takes_arrived (l : List (Nat × Option (List Traj))) (x : LoopSlot) (m : List (Nat × Option (List Traj))) :
    l.foldl LoopSlot.takes { x with arrived := m } = { l.foldl LoopSlot.takes x with arrived := m } := by
  induction l generalizing x with
  | nil => rfl
  | cons p l ih => rw [List.foldl_cons, List.foldl_cons, takes_arrived, ih]

/-- Without a bound everything that waits takes effect in order. -/
theorem LoopSlot.arrive_none (x : LoopSlot) : x.arrive none = { x.arrived.foldl LoopSlot.takes x with arrived := [] } := by
  simp [LoopSlot.arrive]

theorem LoopSlot.arrive_cons (x : LoopSlot) (p : Nat × Option (List Traj)) (l : List (Nat × Option (List Traj))) (h : x.arrived = p :: l) :
    x.arrive none = LoopSlot.arrive { x.takes p with arrived := l } none := by
  rw [arrive_none, arrive_none, h, List.foldl_cons]
  exact congrArg (fun y : LoopSlot => { y with arrived := [] }) (foldl_takes_arrived l (x.takes p) l).symm

/-! ### consume (R304, R305, R448) -/

/-- The entries that are removed, and those that stay, behind a head that can be read. -/
theorem dropFrom_spec (t : Nat) (a : Traj) (l : List Traj) (ha : a.bad = false) :
    let r := dropFrom t a l
    (∀ b, r.1.head? = some b → t < b.cl ∧ b.bad = false) ∧ (∀ b, r.1[1]? = some b → t < b.op ∧ b.bad = false)
    ∧ r.1.length + r.2 = l.length + 1
    ∧ ((∀ b ∈ l, b.bad = false) → r.1 = (a :: l).drop r.2
      ∧ ∀ i b, i < r.2 → (a :: l)[i]? = some b → b.cl ≤ t ∨ ∃ n, (a :: l)[i + 1]? = some n ∧ n.op ≤ t) := by
  induction l generalizing a with
  | nil =>
    intro r
    by_cases hcl : a.cl ≤ t
    · have hr : r = ([], 1) := if_pos hcl
      rw [hr]
      refine ⟨by simp, by simp, rfl, fun _ => ⟨rfl, fun i b hi hb => .inl ?_⟩⟩
      obtain rfl : i = 0 := by omega
      obtain rfl : a = b := by simpa using hb
      exact hcl
    · have hr : r = ([a], 0) := if_neg hcl
      rw [hr]
      refine ⟨fun b hb => ?_, by simp, rfl, fun _ => ⟨rfl, fun i b hi => absurd hi (Nat.not_lt_zero i)⟩⟩
      obtain rfl : a = b := by simpa using hb
      exact ⟨Nat.not_le.1 hcl, ha⟩
  | cons n l ih =>
    intro r
    by_cases hn : n.bad = true
    · have hr : r = ((dropFrom t a l).1, (dropFrom t a l).2 + 1) := if_pos hn
      obtain ⟨hhead, hnext, hlen, -⟩ := ih a ha
      rw [hr]
      refine ⟨hhead, hnext, ?_, fun hall => ?_⟩
      · rw [List.length_cons]
        dsimp only at hlen ⊢
        omega
      · rw [hall n List.mem_cons_self] at hn
        cases hn
    · by_cases hgo : (decide (a.cl ≤ t) || decide (n.op ≤ t)) = true
      · have hr : r = ((dropFrom t n l).1, (dropFrom t n l).2 + 1) := (if_neg hn).trans (if_pos hgo)
        obtain ⟨hhead, hnext, hlen, hgood⟩ := ih n (Bool.not_eq_true _ ▸ hn)
        rw [hr]
        refine ⟨hhead, hnext, ?_, fun hall => ?_⟩
        · rw [List.length_cons]
          dsimp only at hlen ⊢
          omega
        · obtain ⟨hdrop, hgone⟩ := hgood fun b hb => hall b (List.mem_cons_of_mem _ hb)
          refine ⟨hdrop, fun i b hi hb => ?_⟩
          cases i with
          | zero =>
            obtain rfl : a = b := by simpa using hb
            rw [Bool.or_eq_true, decide_eq_true_iff, decide_eq_true_iff] at hgo
            exact hgo.imp_right fun hop => ⟨n, rfl, hop⟩
          | succ i => exact hgone i b (by dsimp only at hi; omega) hb
      · have hr : r = (a :: n :: l, 0) := (if_neg hn).trans (if_neg hgo)
        rw [Bool.or_eq_true, decide_eq_true_iff, decide_eq_true_iff] at hgo
        rw [hr]
        refine ⟨fun b hb => ?_, fun b hb => ?_, rfl, fun _ => ⟨rfl, fun i b hi => absurd hi (Nat.not_lt_zero i)⟩⟩
        · obtain rfl : a = b := by simpa using hb
          exact ⟨by omega, ha⟩
        · obtain rfl : n = b := by simpa using hb
          exact ⟨by omega, Bool.not_eq_true _ ▸ hn⟩

/-- The same for a whole queue, whose first entries may be in error. -/
theorem dropStale_spec (t : Nat) (l : List Traj) :
    let r := dropStale t l
    (∀ b, r.1.head? = some b → t < b.cl ∧ b.bad = false) ∧ (∀ b, r.1[1]? = some b → t < b.op ∧ b.bad = false)
    ∧ r.1.length + r.2 = l.length
    ∧ ((∀ b ∈ l, b.bad = false) → r.1 = l.drop r.2
      ∧ ∀ i b, i < r.2 → l[i]? = some b → b.cl ≤ t ∨ ∃ n, l[i + 1]? = some n ∧ n.op ≤ t) := by
  induction l with
  | nil => exact ⟨by simp [dropStale], by simp [dropStale], rfl, fun _ => ⟨rfl, by simp⟩⟩
  | cons a l ih =>
    intro r
    by_cases ha : a.bad = true
    · have hr : r = ((dropStale t l).1, (dropStale t l).2 + 1) := if_pos ha
      obtain ⟨hhead, hnext, hlen, -⟩ := ih
      rw [hr]
      refine ⟨hhead, hnext, ?_, fun hall => ?_⟩
      · rw [List.length_cons]
        dsimp only at hlen ⊢
        omega
      · rw [hall a List.mem_cons_self] at ha
        cases ha
    · have hr : r = dropFrom t a l := if_neg ha
      obtain ⟨hhead, hnext, hlen, hgood⟩ := dropFrom_spec t a l (Bool.not_eq_true _ ▸ ha)
      rw [hr]
      exact ⟨hhead, hnext, hlen, fun hall => hgood fun b hb => hall b (List.mem_cons_of_mem _ hb)⟩

/-- An entry whose window has come becomes the current one. -/
theorem LoopSlot.consume_open {x : LoopSlot} {t : Nat} {a : Traj} {l : List Traj} (hr : (dropStale t x.queue).1 = a :: l) (hop : a.op ≤ t) :
    let late := decide (x.ageLim ≠ 0 ∧ x.ageLim ≤ a.p)
    x.consume t = ({ x with
      queue := l, cur := some a, late := late, exh := false, skipCnt := satAdd 16 x.skipCnt (dropStale t x.queue).2 },
      late && !x.late, false) := by
  simp [LoopSlot.consume, hr, hop]

/-- Without one the loop is exhausted: it trips, or holds its last references. -/
theorem LoopSlot.consume_exhausted {x : LoopSlot} {t : Nat} (hr : ∀ a, (dropStale t x.queue).1.head? = some a → t < a.op) :
    let r := dropStale t x.queue
    let skip := satAdd 16 x.skipCnt r.2
    (x.exhTrip = true → x.consume t = ({ x with queue := r.1, skipCnt := skip }, false, true))
    ∧ (x.exhTrip = false → ∀ c, x.cur = some c →
      let ref := fun (i : Nat) => x.rlast.getD i 0
      x.consume t = ({ x with
        queue := r.1, skipCnt := skip, exh := true
        cur := some (if x.law < 2 then { c with v0 := ref 0, v1 := 0 } else { c with v0 := ref 0, v1 := ref 1, v2 := ref 2 }) },
        !x.exh, false)) := by
  cases hq : (dropStale t x.queue).1 with
  | nil => exact ⟨fun he => by simp [LoopSlot.consume, hq, he], fun he c hc => by simp [LoopSlot.consume, hq, he, hc]⟩
  | cons a l =>
    have hop : ¬ a.op ≤ t := Nat.not_le.2 (hr a (by rw [hq]; rfl))
    exact ⟨fun he => by simp [LoopSlot.consume, hq, hop, he], fun he c hc => by simp [LoopSlot.consume, hq, hop, he, hc]⟩

/-! ### The obligation -/

/-- Settles O40: a loop command by its checks and the fold over its slots; a push, the queue and consume by what each keeps and drops. -/
theorem loopCommandsAndTrajectories : Obligations.LoopCommandsAndTrajectories := by
  constructor
  · intro s d r h first n slots key hfit h0 hdom
    have hrow {op : Nat} (ha : s.accepts d r 4 (some op) h) (f : List Nat → State → State × Option Nat) :
        loopRow d r op s f = .next (loopEnds key op slots (f slots s)) := loopRow_of_accepts ha hfit h0 hdom f
    have hany {p : Nat → Bool} (hp : ∀ i ∈ slots, p i = false) : ¬ slots.any p = true := by
      rw [List.any_eq_true]
      rintro ⟨i, hi, he⟩
      rw [hp i hi] at he
      cases he
    refine ⟨fun ha hopen hcfg hocc hpar => ?close, fun ha hopen => ?close_bad_state, fun ha hlive => ?opens, fun ha htrip => ?resume,
      fun ha => ?qclear⟩
    case close =>
      intro t
      change execLoopClose d r s = _
      refine (hrow ha _).trans (congrArg (a₂ := (t, none)) (fun p => Host.Outcome.next (loopEnds key 0x30 slots p)) ?_)
      refine (if_neg (hany ?_)).trans ((if_neg (hany ?_)).trans ((if_neg ?_).trans (if_neg (hany ?_))))
      · exact fun i hi => by simpa using hopen i hi
      · exact fun i hi => by simpa using hcfg i hi
      · rw [List.any_eq_true]
        rintro ⟨k, hk, hlt⟩
        have := hocc k (List.mem_range.1 hk)
        rw [decide_eq_true_iff] at hlt
        exact absurd hlt (Nat.not_lt.2 this)
      · intro i hi
        by_cases hsp : (s.loopSlot i).spsrc = 1
        · obtain hruns | hin := hpar i hi hsp
          · simp [hruns]
          · simp [hin]
        · simp [hsp]
    case close_bad_state =>
      change execLoopClose d r s = _
      refine (hrow ha _).trans (congrArg (a₂ := (s, some 1)) (fun p => Host.Outcome.next (loopEnds key 0x30 slots p)) (if_pos ?_))
      obtain ⟨i, hi, hne⟩ := hopen
      exact List.any_eq_true.2 ⟨i, hi, decide_eq_true hne⟩
    case opens =>
      intro t
      change execLoopOpen d r s = _
      refine (hrow ha _).trans (congrArg (a₂ := (t, none)) (fun p => Host.Outcome.next (loopEnds key 0x31 slots p))
        (if_neg (hany ?_)))
      exact fun i hi => by simpa using hlive i hi
    case resume =>
      change execLoopResume d r s = _
      let t := slots.foldl (fun s i => s.updLoop i fun x => { x with st := .open_, cause := 0 }) s
      refine (hrow ha _).trans (congrArg (a₂ := (t, some 0)) (fun p => Host.Outcome.next (loopEnds key 0x32 slots p))
        (if_neg (hany ?_)))
      exact fun i hi => by simpa using htrip i hi
    case qclear =>
      change execLoopQclear d r s = _
      refine (hrow ha _).trans (congrArg Host.Outcome.next ?_)
      exact congrArg (fun t : State => t.cmdDone key 0) (State.foldl_qclear slots s s rfl rfl)
  · refine ⟨fun s n v => ?push_row, LoopSlot.pushBad_iff, fun w i => rfl, LoopSlot.push_cons, fun x bound => rfl,
      fun x p l hx => ?arrive, fun l t => dropStale_spec t l, fun b l t hb => ⟨if_pos hb, fun a ha => ?bad_behind⟩,
      fun x t => ⟨fun a l hr hop => LoopSlot.consume_open hr hop, LoopSlot.consume_exhausted⟩⟩
    case push_row =>
      intro x l hn hv
      change execTrajectoryPush n v s = _
      refine (if_neg (by omega)).trans ((if_neg (by rw [hv]; decide)).trans (congrArg _ ?_))
      rw [State.pushWord]
      exact if_congr Iff.rfl rfl (if_congr List.isEmpty_iff rfl rfl)
    case arrive =>
      rw [x.arrive_cons p l hx]
      obtain ⟨t, ts | ts⟩ := p <;> rfl
    case bad_behind =>
      have hne := ne_true_of_eq_false ha
      exact (if_neg hne).trans ((if_pos hb).trans (by rw [dropStale, if_neg hne]))

end Sys2Proof.Machine
end

/-! ## O42: receive rules, receive rings and receive fields (R334, R337 to R341) -/

section
namespace Sys2Proof.Machine

variable {s : State}

/-! ### Rules and filters (R334, R337) -/

/-- The lowest of eight places that answers. -/
theorem find_range_eight_map {α : Type} (p : Nat → Bool) (f : Nat → α) :
    (∀ r, r < 8 → p r = true → (∀ i, i < r → ¬ p i = true) → ((List.range 8).find? p).map f = some (f r))
    ∧ ((∀ r, r < 8 → ¬ p r = true) → ((List.range 8).find? p).map f = none) := by
  refine ⟨fun r hr hp hlt => ?_, fun hnone => ?_⟩
  · have hfind : (List.range 8).find? p = some r :=
      List.find?_range_eq_some.2 ⟨hp, List.mem_range.2 hr, fun i hi => by simpa using hlt i hi⟩
    rw [hfind, Option.map_some]
  · have hfind : (List.range 8).find? p = none := List.find?_eq_none.2 fun r hr => hnone r (List.mem_range.1 hr)
    rw [hfind, Option.map_none]

theorem MacSt.rule_first (x : MacSt) (etype : Nat) (vid : Option Nat) :
    let w := fun (r : Nat) => (Tab.get 0 x.rules r).toNat
    let hit := fun (r : Nat) => natBit (w r) 63 = true ∧ (natBit (w r) 62 = true → vid = some (natBits (w r) 61 50))
      ∧ (natBit (w r) 49 = true → etype = natBits (w r) 48 33)
    (∀ r, r < 8 → hit r → (∀ i, i < r → ¬ hit i) → x.rule etype vid = some (natBits (w r) 32 27))
    ∧ ((∀ r, r < 8 → ¬ hit r) → x.rule etype vid = none) := by
  intro w hit
  have hhit (r : Nat) : (natBit (w r) 63 && (!natBit (w r) 62 || vid == some (natBits (w r) 61 50))
      && (!natBit (w r) 49 || etype == natBits (w r) 48 33)) = true ↔ hit r := by
    simp only [hit, Bool.and_eq_true, Bool.or_eq_true, Bool.not_eq_true', beq_iff_eq, and_assoc, ← Bool.not_eq_true, ← imp_iff_not_or]
  simp only [← hhit]
  exact find_range_eight_map _ fun r => natBits (w r) 32 27

/-- Two numbers agree under a mask as their difference has no bit there. -/
theorem and_eq_and_iff_xor (a b m : Nat) : a &&& m = b &&& m ↔ (a ^^^ b) &&& m = 0 := by
  rw [Nat.and_xor_distrib_right, Nat.xor_eq_zero_iff]

theorem CanSt.filter_first (x : CanSt) (ide : Bool) (ident : Nat) :
    let a := fun (r : Nat) => (Tab.get 0 x.fltA r).toNat
    let hit := fun (r : Nat) => natBit (a r) 63 = true ∧ ide = natBit (a r) 62
      ∧ (ident ^^^ natBits (a r) 61 33) &&& natBits (Tab.get 0 x.fltB r).toNat 28 0 = 0
    (∀ r, r < 8 → hit r → (∀ i, i < r → ¬ hit i) → x.filter ide ident = some (natBits (a r) 32 27))
    ∧ ((∀ r, r < 8 → ¬ hit r) → x.filter ide ident = none) := by
  intro a hit
  have hhit (r : Nat) : (natBit (a r) 63 && natBit (a r) 62 == ide
      && (ident &&& natBits (Tab.get 0 x.fltB r).toNat 28 0) == (natBits (a r) 61 33 &&& natBits (Tab.get 0 x.fltB r).toNat 28 0)) = true
      ↔ hit r := by
    simp only [hit, Bool.and_eq_true, beq_iff_eq, and_assoc, and_eq_and_iff_xor, eq_comm (a := ide)]
  simp only [← hhit]
  exact find_range_eight_map _ fun r => natBits (a r) 32 27

/-! ### The order of a ring (R340) -/

theorem RxFrame.before_iff (f g : RxFrame) : f.before g = true ↔ f.tEnd < g.tEnd ∨ (f.tEnd = g.tEnd ∧ f.srcu < g.srcu) := by
  simp [before]

theorem RxFrame.insert_cons (f g : RxFrame) (l : List RxFrame) :
    f.insert (g :: l) = if f.before g = true then f :: g :: l else g :: f.insert l := by
  cases h : f.before g <;> simp [insert, h]

theorem RxFrame.insert_perm (f : RxFrame) (l : List RxFrame) : (f.insert l).Perm (f :: l) := by
  refine List.perm_middle.trans ?_
  rw [List.takeWhile_append_dropWhile]

theorem RxFrame.insert_ne_nil (f : RxFrame) (l : List RxFrame) : f.insert l ≠ [] := by simp [insert]

theorem RxFrame.insert_sorted (f : RxFrame) (l : List RxFrame) (h : l.Pairwise fun a b => b.before a = false) :
    (f.insert l).Pairwise fun a b => b.before a = false := by
  induction l with
  | nil => simp [insert]
  | cons g l ih =>
    obtain ⟨hg, hl⟩ := List.pairwise_cons.1 h
    rw [insert_cons]
    split
    · rename_i hfg
      refine List.pairwise_cons.2 ⟨fun b hb => ?_, h⟩
      have hgb : b.before g = false := by
        rcases List.mem_cons.1 hb with rfl | hb
        · simp [before]
        · exact hg b hb
      rw [before_iff] at hfg
      rw [← Bool.not_eq_true, before_iff] at hgb ⊢
      omega
    · rename_i hfg
      refine List.pairwise_cons.2 ⟨fun b hb => ?_, ih hl⟩
      rcases List.mem_cons.1 ((insert_perm f l).mem_iff.1 hb) with rfl | hb
      · exact Bool.eq_false_of_not_eq_true hfg
      · exact hg b hb

theorem State.rxRing_updRxRing (h : Tab.wf ({} : RxRing) s.pio.rings = true) (n : Nat) (f : RxRing → RxRing) :
    (s.updRxRing n f).rxRing n = f (s.rxRing n) :=
  (Tab.get_upd h n n f).trans (if_pos rfl)

theorem State.updRxRing_updRxRing (h : Tab.wf ({} : RxRing) s.pio.rings = true) (n : Nat) (f g : RxRing → RxRing) :
    (s.updRxRing n f).updRxRing n g = s.updRxRing n fun x => g (f x) :=
  congrArg (fun t => { s with pio := { s.pio with rings := t } }) (Tab.upd_upd h n f g)

/-- Waiting frames that fall into those whose end has passed and the rest, whose first has not. -/
theorem State.ringFlush_splits {n : Nat} {gone keep : List RxFrame} (hl : (s.rxRing n).waiting = gone ++ keep)
    (hne : gone ++ keep ≠ []) (hgone : ∀ g ∈ gone, g.tEnd + s.rxLatMax < s.dt)
    (hkeep : ∀ g, keep.head? = some g → s.dt ≤ g.tEnd + s.rxLatMax) :
    s.ringFlush n = gone.foldl (fun s g => s.ringPut n g) (s.updRxRing n fun x => { x with waiting := keep }) := by
  have hg : ∀ g ∈ gone, decide (g.tEnd + s.rxLatMax < s.dt) = true := fun g h => decide_eq_true (hgone g h)
  have htake : keep.takeWhile (fun g => decide (g.tEnd + s.rxLatMax < s.dt)) = [] := by
    cases keep with
    | nil => rfl
    | cons g keep => simpa [List.takeWhile_cons] using hkeep g rfl
  have hdrop : keep.dropWhile (fun g => decide (g.tEnd + s.rxLatMax < s.dt)) = keep := by
    have := List.takeWhile_append_dropWhile (p := fun g : RxFrame => decide (g.tEnd + s.rxLatMax < s.dt)) (l := keep)
    rwa [htake, List.nil_append] at this
  have hempty : (gone ++ keep).isEmpty = false := by rwa [List.isEmpty_eq_false_iff]
  rw [ringFlush]
  simp only [hl]
  rw [if_neg (ne_true_of_eq_false hempty), List.takeWhile_append_of_pos hg, List.dropWhile_append_of_pos hg, htake, hdrop, List.append_nil]

theorem State.ringFrame_splits {n : Nat} {f : RxFrame} (hwf : Tab.wf ({} : RxRing) s.pio.rings = true) {gone keep : List RxFrame}
    (hon : s.pioOn (uRing n) = true) (hl : f.insert (s.rxRing n).waiting = gone ++ keep) (hgone : ∀ g ∈ gone, g.tEnd + s.rxLatMax < s.dt)
    (hkeep : ∀ g, keep.head? = some g → s.dt ≤ g.tEnd + s.rxLatMax) :
    s.ringFrame n f = gone.foldl (fun s g => s.ringPut n g) (s.updRxRing n fun x => { x with waiting := keep }) := by
  have hw : ((s.updRxRing n fun x => { x with waiting := f.insert x.waiting }).rxRing n).waiting = gone ++ keep := by
    rw [rxRing_updRxRing hwf, hl]
  rw [ringFrame, if_pos hon, ringFlush_splits hw (hl ▸ f.insert_ne_nil _) hgone hkeep, updRxRing_updRxRing hwf]

/-! ### A frame is written (R338, R339) -/

/-- Room in a ring, by the frames written and those its consumer has counted (R340). -/
theorem ring_full_iff (w t slots : Nat) :
    slots ≤ (w % 2 ^ 32 + 2 ^ 32 - t % 2 ^ 32) % 2 ^ 32 ↔ ¬ ((w : Int) - (t : Int)) % 2 ^ 32 < (slots : Int) := by
  omega

theorem State.ringPut_cases (s : State) (n d : Nat) (f : RxFrame) (hdom : s.pioDom (uRing n) = some d) :
    let x := s.rxRing n
    let a := x.a.toNat
    let b := x.b.toNat
    let slots := natBits a 55 48 + 1
    let size := 2 ^ natBits b 26 23
    let slot := natBits a 47 0 + x.frames % slots * size
    let off := 8 * natBits b 22 16
    let len := min f.bytes.length (size - off)
    let rec_ := rxRecord f.tStart f.tEnd x.frames len f.flen f.srcu (decide (len < f.bytes.length)) f.secv
    let free := natBit b 45 = true →
      ((x.frames : Int) - (s.tallyVal (natBits b 44 27) : Int)) % 2 ^ 32 < (slots : Int)
    let inside := yardBase ≤ slot ∧ s.yardRangeOk d (slot - yardBase) 64 = true
      ∧ (0 < len → s.yardRangeOk d (slot - yardBase + off) len = true)
    let w := s.yardWrite (bytesAt (slot - yardBase) rec_ ++ bytesAt (slot - yardBase + off) (f.bytes.take len))
    (natBit a 63 = false → s.ringPut n f = s)
    ∧ (natBit a 63 = true → ¬ free → s.ringPut n f = s.updRxRing n fun x => { x with full := satAdd 16 x.full 1 })
    ∧ (natBit a 63 = true → free → ¬ inside →
      s.ringPut n f = (s.updRxRing n fun x => { x with refused := satAdd 16 x.refused 1 }).pioRecord 3 0 (uRing n) (slot % 2 ^ 48))
    ∧ (natBit a 63 = true → free → inside → w.2 = [] →
      s.ringPut n f = (w.1.updRxRing n fun x => { x with frames := x.frames + 1 }).tallyAdd d (natBits b 63 46) 1) := by
  intro x a b slots size slot off len rec_ free inside w
  have hfull : (natBit b 45 && decide (slots ≤ (x.frames % 2 ^ 32 + 2 ^ 32 - s.tallyVal (natBits b 44 27) % 2 ^ 32) % 2 ^ 32)) = true
      ↔ ¬ free := by
    rw [Bool.and_eq_true, decide_eq_true_iff, ring_full_iff, Classical.not_imp]
  have hout : (!(decide (yardBase ≤ slot) && s.yardRangeOk d (slot - yardBase) 64
      && (len == 0 || s.yardRangeOk d (slot - yardBase + off) len))) = true ↔ ¬ inside := by
    rw [Bool.not_eq_true', ← Bool.not_eq_true, Bool.and_eq_true, Bool.and_eq_true, decide_eq_true_iff, Bool.or_eq_true, beq_iff_eq,
      and_assoc, Classical.or_iff_not_imp_left, ← ne_eq, ← Nat.pos_iff_ne_zero]
  have hput (hen : natBit a 63 = true) : s.ringPut n f =
      if (natBit b 45 && decide (slots ≤ (x.frames % 2 ^ 32 + 2 ^ 32 - s.tallyVal (natBits b 44 27) % 2 ^ 32) % 2 ^ 32)) = true
      then s.updRxRing n fun x => { x with full := satAdd 16 x.full 1 }
      else if (!(decide (yardBase ≤ slot) && s.yardRangeOk d (slot - yardBase) 64
        && (len == 0 || s.yardRangeOk d (slot - yardBase + off) len))) = true
      then (s.updRxRing n fun x => { x with refused := satAdd 16 x.refused 1 }).pioRecord 3 0 (uRing n) (slot % 2 ^ 48)
      else ((w.2.foldl (fun s u => s.ueMet 0 (some d) skSlice (s.slice u) (lineAddr (yardBase + u))) w.1).updRxRing n
        fun x => { x with frames := x.frames + 1 }).pioTally (uRing n) (natBits b 63 46) := by
    simp only [ringPut, hdom]
    exact if_neg (by simp [x, a] at hen ⊢; exact hen)
  refine ⟨fun hen => ?_, fun hen hfr => ?_, fun hen hfr hin => ?_, fun hen hfr hin hw => ?_⟩
  · simp only [ringPut, hdom]
    exact if_pos (by simpa [x, a] using hen)
  · rw [hput hen, if_pos (hfull.2 hfr)]
  · rw [hput hen, if_neg (fun h => hfull.1 h hfr), if_pos (hout.2 hin)]
  · have hd' : (w.1.updRxRing n fun x => { x with frames := x.frames + 1 }).pioDom (uRing n) = some d := hdom
    rw [hput hen, if_neg (fun h => hfull.1 h hfr), if_neg (fun h => hout.1 h hin), hw, List.foldl_nil, pioTally, hd']

/-- The fields of a receive record, its zero bits among them (R339). -/
def rxRecordFields (tStart tEnd w len flen srcu : Nat) (trunc secv : Bool) : List (Nat × Nat) :=
  [(448, tStart % 2 ^ 64), (384, tEnd % 2 ^ 64), (352, w % 2 ^ 32), (338, len % 2 ^ 14), (324, flen % 2 ^ 14), (314, srcu), (313, bit trunc),
    (312, bit secv), (0, 0)]

theorem rxRecordFields_fit {srcu : Nat} (h : srcu < 2 ^ 10) (tStart tEnd w len flen : Nat) (trunc secv : Bool) :
    FieldsFit 512 (rxRecordFields tStart tEnd w len flen srcu trunc secv) := by
  have := bit_lt_two trunc
  have := bit_lt_two secv
  have := Nat.mod_lt tStart (Nat.two_pow_pos 64)
  have := Nat.mod_lt tEnd (Nat.two_pow_pos 64)
  have := Nat.mod_lt w (Nat.two_pow_pos 32)
  have := Nat.mod_lt len (Nat.two_pow_pos 14)
  have := Nat.mod_lt flen (Nat.two_pow_pos 14)
  simp only [FieldsFit, rxRecordFields, Nat.sub_zero, Nat.two_pow_pos, and_true, Nat.reduceLeDiff, true_and, Nat.reduceSub]
  exact ⟨by assumption, by assumption, by assumption, by assumption, by assumption, h, by assumption, by assumption⟩

theorem leNat_rxRecord {srcu : Nat} (h : srcu < 2 ^ 10) (tStart tEnd w len flen : Nat) (trunc secv : Bool) :
    leNat (rxRecord tStart tEnd w len flen srcu trunc secv) = fields (rxRecordFields tStart tEnd w len flen srcu trunc secv) := by
  have hsame : fields [(448, tStart % 2 ^ 64), (384, tEnd % 2 ^ 64), (352, w % 2 ^ 32), (338, len % 2 ^ 14), (324, flen % 2 ^ 14),
      (314, srcu), (313, bit trunc), (312, bit secv)] = fields (rxRecordFields tStart tEnd w len flen srcu trunc secv) := by
    simp only [rxRecordFields, fields_cons, Nat.zero_mul, Nat.zero_add]
  have hpow : (256 : Nat) ^ 64 = 2 ^ 512 := by rw [show 256 = 2 ^ 8 by decide, ← pow_mul]
  rw [rxRecord, hsame, leNat_toLE_of_lt (((rxRecordFields_fit h ..).fields_lt).trans_eq hpow.symm)]

theorem rxRecord_spells (tStart tEnd w len flen srcu : Nat) (trunc secv : Bool) (hlen : len < 2 ^ 14) (hflen : flen < 2 ^ 14)
    (hs : srcu < 2 ^ 10) :
    let l := rxRecord tStart tEnd w len flen srcu trunc secv
    let r := leNat l
    l.length = 64 ∧ natBits r 511 448 = tStart % 2 ^ 64 ∧ natBits r 447 384 = tEnd % 2 ^ 64 ∧ natBits r 383 352 = w % 2 ^ 32
    ∧ natBits r 351 338 = len ∧ natBits r 337 324 = flen ∧ natBits r 323 314 = srcu ∧ natBit r 313 = trunc ∧ natBit r 312 = secv
    ∧ natBits r 311 0 = 0 := by
  intro l r
  have hfit := rxRecordFields_fit hs tStart tEnd w len flen trunc secv
  have hr : r = fields (rxRecordFields tStart tEnd w len flen srcu trunc secv) := leNat_rxRecord hs ..
  rw [hr]
  have hl : natBits (fields (rxRecordFields tStart tEnd w len flen srcu trunc secv)) 351 338 = len % 2 ^ 14 := hfit.natBits 3 rfl rfl
  have hf : natBits (fields (rxRecordFields tStart tEnd w len flen srcu trunc secv)) 337 324 = flen % 2 ^ 14 := hfit.natBits 4 rfl rfl
  exact ⟨length_toLE _ _, hfit.natBits 0 rfl rfl, hfit.natBits 1 rfl rfl, hfit.natBits 2 rfl rfl, hl.trans (Nat.mod_eq_of_lt hlen),
    hf.trans (Nat.mod_eq_of_lt hflen), hfit.natBits 5 rfl rfl, hfit.natBit 6 rfl rfl, hfit.natBit 7 rfl rfl, hfit.natBits 8 rfl rfl⟩

/-- Bytes written to a Yard without units in error stand there, and no other byte changes. -/
theorem State.yardWrite_spec (s : State) (y : Nat) (l : List Byte) (hm : memOk s.yard.mem = true) (hb : s.yard.bad = []) :
    let t := s.yardWrite (bytesAt y l)
    t.2 = [] ∧ t.1.yard.mem.read y l.length = l
    ∧ ∀ i, i < y ∨ y + l.length ≤ i → Tab.get 0 t.1.yard.mem i = Tab.get 0 s.yard.mem i := by
  intro t
  obtain ⟨hw, hend⟩ := writeChecked_of_no_stuck (u := 8) (m := s.yard.mem) (bad := s.yard.bad) (a := y) (l := l) (by simp [hb])
  have hmem : t.1.yard.mem = s.yard.mem.write y l := hw
  rw [hmem]
  refine ⟨hend, Mem.read_write hm y l, fun i hi => ?_⟩
  rw [Mem.get_write hm, if_neg (by omega)]

end Sys2Proof.Machine
end

/-! ## O42: received frames (R320, R332 to R338, R341, R471) -/

section
namespace Sys2Proof.Machine

variable {s : State}

/-! ### Ethernet (R332 to R334, R471) -/

/-- A frame that MACsec or CANsec has opened, with the key that it used (R333). -/
theorem State.openSecured_of_key (s : State) (u sc an pn : Nat) (bs : List Byte) (k : PioKey)
    (hk : (s.sec.keys.find? fun k => k.unit == u && !k.tx && k.sc == sc && k.an == an) = some k) :
    s.openSecured u (some (bs, sc, an, pn)) =
      if k.pn ≤ pn + Config.replayWindow u sc then some (bs, s.setPn k (max k.pn (pn + 1))) else none := by
  simp only [openSecured, hk]

theorem exec_ethernetLinkChange {m : Nat} (hm : m < 4) (hacts : s.var.acts = true) (up : Bool) :
    let t := s.updMac m fun x => { x with link := up }
    exec (.ethernetLinkChange m up) s = .next
      (if t.ptpPort m = true ∧ s.ptpPort m = false then { t with time := { t.time with
        nextSync := Tab.set 0 t.time.nextSync m 0, nextAnn := Tab.set 0 t.time.nextAnn m 0 } } else t) := by
  intro t
  have hact : ¬ (!s.var.acts) = true := by rw [hacts]; decide
  refine ((if_neg (Nat.not_le.2 hm)).trans (if_neg hact)).trans (congrArg Host.Outcome.next ?_)
  exact if_congr (by rw [Bool.and_eq_true, Bool.not_eq_true']) rfl rfl

/-- A frame past MACsec goes to the ring `r` of the first rule that matches; `f` is the state with its fields taken, `lat` the RXLAT. -/
def State.ethRoute (f : State) (m : Nat) (bs : List Byte) (fr : EthFrame) (secv : Bool) (lat : Nat) (r : Option Nat) : State :=
  match r with
  | some r => f.ringFrame r ⟨bs, fr.tStart - lat, fr.tEnd - lat, fr.bytes.length + 4, uMac m, secv⟩
  | none => f.updMac m fun x => { x with noRule := satAdd 16 x.noRule 1 }

/-- A state with the fields of a frame taken, and the rule that the frame meets there. -/
def State.ethRouted (f : State) (m : Nat) (bs : List Byte) (fr : EthFrame) (secv : Bool) (lat : Nat) : State :=
  f.ethRoute m bs fr secv lat ((f.mac m).rule (ethParse bs).1 (ethParse bs).2.1)

theorem State.ethAccept_eq (s : State) (m : Nat) (bs : List Byte) (fr : EthFrame) (secv : Bool) :
    s.ethAccept m bs fr secv
      = (s.feedFields m (ethParse bs).1 (ethParse bs).2.2 (fr.tEnd - s.rxLat m)).ethRouted m bs fr secv (s.rxLat m) := rfl

/-- A MAC that works and whose link is up takes a frame whose end has passed. -/
theorem exec_ethernetFrameReceived {m : Nat} {fr : EthFrame} (hm : m < 4) (hacts : s.var.acts = true) (hon : s.pioOn (uMac m) = true)
    (hlink : (s.mac m).link = true) (hend : fr.tEnd - s.rxLat m ≤ s.dt) :
    let c := (s.mac m).cfg.toNat
    let len := fr.bytes.length + 4
    let good := fr.fcsOk = true ∧ fr.pause = false ∧ 64 ≤ len ∧ len ≤ natBits c 59 46 ∧ len ≤ 9216
    let p := ethParse fr.bytes
    let plain := natBit c 45 = false ∨ p.1 = 0x88F7 ∨ p.1 = 0x888E
    (¬ good → exec (.ethernetFrameReceived m fr) s = .next (s.updMac m fun x => { x with rxErr := satAdd 16 x.rxErr 1 }))
    ∧ (good → plain → exec (.ethernetFrameReceived m fr) s = .next (s.ethAccept m fr.bytes fr false))
    ∧ (good → ¬ plain → exec (.ethernetFrameReceived m fr) s = .next
        (match s.openSecured (uMac m) (Config.macsecOpen (s.rxKeys (uMac m)) fr.bytes) with
          | none => s.updMac m fun x => { x with secDrop := satAdd 16 x.secDrop 1 }
          | some (bs, u) => u.ethAccept m bs fr true)) := by
  intro c len good p plain
  have hoff : ¬ (!s.var.acts || !s.pioOn (uMac m) || !(s.mac m).link || decide (s.dt < fr.tEnd - s.rxLat m)) = true := by
    simp [hacts, hon, hlink, hend]
  have hbad : (!fr.fcsOk || fr.pause || decide (len < 64) || decide (macMaxLen c < len)) = true ↔ ¬ good := by
    simp only [good, macMaxLen, Bool.or_eq_true, Bool.not_eq_true', decide_eq_true_iff, not_and_or, Bool.not_eq_true, Bool.not_eq_false,
      Nat.not_le, min_lt_iff, or_assoc]
  have hsec : (natBit c 45 && !ethPlain p.1) = true ↔ ¬ plain := by
    simp only [plain, ethPlain, Bool.and_eq_true, Bool.not_eq_true', ← Bool.not_eq_true, Bool.or_eq_true, beq_iff_eq, not_or, not_not]
  refine ⟨fun hg => ?_, fun hg hp => ?_, fun hg hp => ?_⟩ <;> refine ((if_neg (Nat.not_le.2 hm)).trans (if_neg hoff)).trans ?_
  · exact if_pos (hbad.2 hg)
  · exact (if_neg fun h => hbad.1 h hg).trans (if_neg fun h => hsec.1 h hp)
  · refine (if_neg fun h => hbad.1 h hg).trans ((if_pos (hsec.2 hp)).trans ?_)
    cases s.openSecured (uMac m) (Config.macsecOpen (s.rxKeys (uMac m)) fr.bytes) <;> rfl

theorem exec_gptpForeignReceived {m : Nat} (hm : m < 4) (kind : Nat) :
    exec (.gptpForeignReceived m kind) s = .next
      (if s.ptpPort m = true ∧ kind ∈ [gSync, gFollowUp, gAnnounce] then
        { s with time := { s.time with foreign := satAdd 16 s.time.foreign 1 } } else s) := by
  refine (if_neg (Nat.not_le.2 hm)).trans ?_
  rw [apply_ite Host.Outcome.next, ← ite_not]
  refine if_congr ?_ rfl rfl
  simp only [Bool.or_eq_true, Bool.not_eq_true', decide_eq_true_iff, ← Bool.not_eq_true, List.mem_cons, List.not_mem_nil, or_false,
    or_assoc]
  rw [not_or, not_not, not_not]

/-! ### CAN (R335 to R338) -/

/-- A CAN frame goes to the ring `r` of the first filter that matches; `f` is the state with its fields taken. -/
def State.canRoute (f : State) (n : Nat) (fr : CanFrame) (secured : Bool) (data : List Byte) (r : Option Nat) : State :=
  match r with
  | some r => f.ringFrame r ⟨canHeader fr secured data.length ++ data, fr.tStart, fr.tEnd, 16 + fr.data.length, uCan n, secured⟩
  | none => f.updCan n fun x => { x with noFlt := satAdd 16 x.noFlt 1 }

/-- What a controller makes of a frame of a format that it receives: CANsec answers or is not in use. -/
def State.canOpened (g : State) (n : Nat) (fr : CanFrame) (secured : Bool) : Option (List Byte × State) :=
  if !secured then some (fr.data, g)
  else if !fr.secured then none
  else g.openSecured (uCan n) (Config.cansecOpen (g.rxKeys (uCan n)) (canHeader fr false fr.data.length) fr.data)

/-- What follows a frame that MACsec or CANsec has opened or not. -/
def openedElse {α : Type} (o : Option (List Byte × State)) (a : α) (f : List Byte → State → α) : α :=
  match o with
  | none => a
  | some (bs, s) => f bs s

theorem openedElse_none {α : Type} (a : α) (f : List Byte → State → α) : openedElse none a f = a := rfl

theorem openedElse_some {α : Type} (bs : List Byte) (u : State) (a : α) (f : List Byte → State → α) :
    openedElse (some (bs, u)) a f = f bs u := rfl

/-- What a controller does with a frame that it has received without error. -/
def State.canAnswer (g : State) (n : Nat) (fr : CanFrame) (secured : Bool) : Out :=
  openedElse (g.canOpened n fr secured) (.next (g.updCan n fun x => { x with secDrop := satAdd 16 x.secDrop 1 })) fun data u =>
    let ident := if fr.fmt = 2 then fr.ident % 2048 else fr.ident
    .next ((u.feedFields (uCan n) ident data fr.tEnd).canRoute n fr secured data
      (((u.feedFields (uCan n) ident data fr.tEnd).can n).filter (fr.ide && fr.fmt != 2) ident))

theorem State.canAnswer_none {n : Nat} {fr : CanFrame} {secured : Bool} (h : s.canOpened n fr secured = none) :
    s.canAnswer n fr secured = .next (s.updCan n fun x => { x with secDrop := satAdd 16 x.secDrop 1 }) := by
  rw [canAnswer, h, openedElse_none]

theorem State.canAnswer_some {n : Nat} {fr : CanFrame} {secured : Bool} {data : List Byte} {u : State} {ident : Nat}
    (h : s.canOpened n fr secured = some (data, u)) (hid : (if fr.fmt = 2 then fr.ident % 2048 else fr.ident) = ident) :
    s.canAnswer n fr secured = .next ((u.feedFields (uCan n) ident data fr.tEnd).canRoute n fr secured data
      (((u.feedFields (uCan n) ident data fr.tEnd).can n).filter (fr.ide && fr.fmt != 2) ident)) := by
  rw [canAnswer, h, openedElse_some, hid]

/-- A controller that is not in bus-off takes a frame of a format that it receives. -/
theorem exec_canFrameReceived {n : Nat} {fr : CanFrame} (hn : n < 8) (hacts : s.var.acts = true) (hon : s.pioOn (uCan n) = true)
    (hst : (s.can n).bstate ≠ 2) (hend : fr.tEnd ≤ s.dt)
    (hfmt : fr.fmt = 0 ∨ (fr.fmt = 1 ∧ natBit (s.can n).cfg.toNat 62 = true) ∨ (fr.fmt = 2 ∧ natBit (s.can n).cfg.toNat 61 = true))
    {secured : Bool} (hsec : (fr.fmt == 2 && natBit (s.can n).cfg.toNat 60) = secured) :
    exec (.canFrameReceived n fr) s = (s.updCan n fun x => x.confine x.tec (recAfterGood x.rec_)).canAnswer n fr secured := by
  have hoff : ¬ (!s.var.acts || !s.pioOn (uCan n) || decide ((s.can n).bstate = 2) || decide (s.dt < fr.tEnd)) = true := by
    simp [hacts, hon, hst, hend]
  have hbad : ¬ (decide (fr.fmt = 1) && !natBit (s.can n).cfg.toNat 62 || decide (fr.fmt = 2) && !natBit (s.can n).cfg.toNat 61
      || decide (2 < fr.fmt)) = true := by
    rcases hfmt with h | ⟨h, hb⟩ | ⟨h, hb⟩
    · simp [h]
    · simp [h, hb]
    · simp [h, hb]
  have hide : (fr.ide && decide (fr.fmt ≠ 2)) = (fr.ide && fr.fmt != 2) := by
    by_cases h : fr.fmt = 2 <;> simp [h]
  refine (((if_neg (Nat.not_le.2 hn)).trans (if_neg hoff)).trans (if_neg hbad)).trans ?_
  rw [hsec, hide]
  generalize (s.updCan n fun x => x.confine x.tec (recAfterGood x.rec_)) = g
  unfold State.canAnswer
  -- what the fields and the filters compute plays no part: the two sides are one function of them
  generalize State.feedFields = feed
  generalize CanSt.filter = filter
  generalize ho : g.canOpened n fr secured = o
  rw [State.canOpened] at ho
  dsimp only
  rw [ho]
  change openedElse o _ _ = _
  rcases o with _ | ⟨data, u⟩
  · rw [openedElse_none, openedElse_none]
  rw [openedElse_some, openedElse_some]
  generalize feed u (uCan n) (if fr.fmt = 2 then fr.ident % 2048 else fr.ident) data fr.tEnd = f
  generalize filter (f.can n) (fr.ide && fr.fmt != 2) (if fr.fmt = 2 then fr.ident % 2048 else fr.ident) = r
  cases r <;> rfl

/-! ### Receive fields (R341) -/

theorem State.feedField_takes {f port key : Nat} {bs : List Byte} {tEnd : Nat} {v : Int}
    (hon : s.pioOn (uRxf f) = true) (hport : natBits (s.rxField f).a.toNat 62 59 = port) (hsize : natBits (s.rxField f).a.toNat 57 56 ≠ 3)
    (hkey : key &&& (if port < 4 then natBits (s.rxField f).b.toNat 15 0 else natBits (s.rxField f).b.toNat 28 0)
      = (if port < 4 then natBits (s.rxField f).b.toNat 47 32 else natBits (s.rxField f).b.toNat 60 32)
        &&& (if port < 4 then natBits (s.rxField f).b.toNat 15 0 else natBits (s.rxField f).b.toNat 28 0))
    (hv : (s.rxField f).take bs = some v) :
    s.feedField f port key bs tEnd = ({ s with loop := { s.loop with frozen := s.loop.frozen.map fun z =>
      if tEnd ≤ z.t then { z with rxf := Tab.upd {} z.rxf f fun x => { x with val := some (v, tEnd) } } else z } } : State).updRxField f
        fun x => { x with val := some (v, tEnd) } := by
  have hmeets : ¬ (!s.pioOn (uRxf f) || decide (natBits (s.rxField f).a.toNat 62 59 ≠ port)
      || decide (natBits (s.rxField f).a.toNat 57 56 = 3)
      || decide (key &&& (if port < 4 then natBits (s.rxField f).b.toNat 15 0 else natBits (s.rxField f).b.toNat 28 0)
        ≠ (if port < 4 then natBits (s.rxField f).b.toNat 47 32 else natBits (s.rxField f).b.toNat 60 32)
          &&& (if port < 4 then natBits (s.rxField f).b.toNat 15 0 else natBits (s.rxField f).b.toNat 28 0))) = true := by
    simp only [hon, hport, hsize, hkey, ne_eq, not_true_eq_false, decide_false, Bool.not_true, Bool.or_false, Bool.false_eq_true,
      not_false_eq_true]
  refine (if_neg hmeets).trans ?_
  rw [hv]

/-! ### Confinement (R336) -/

theorem CanSt.confine_bstate (x : CanSt) (t r : Nat) :
    (x.confine t r).bstate = if 255 < t then 2 else if 127 < t ∨ 127 < r then 1 else 0 :=
  if_congr Iff.rfl rfl (if_congr (by rw [Bool.or_eq_true, decide_eq_true_iff, decide_eq_true_iff]) rfl rfl)

theorem exec_canBusOffRecovered {n : Nat} (hn : n < 8) (hon : s.pioOn (uCan n) = true) (hrec : (s.can n).recovering = true)
    (hst : (s.can n).bstate = 2) :
    exec (.canBusOffRecovered n) s = .next
      ((s.dropBusOff (4 + n)).updCan n fun x => { x with recovering := false, bstate := 0, tec := 0, rec_ := 0 }) :=
  (if_neg (Nat.not_le.2 hn)).trans (if_neg (by simp [hon, hrec, hst]))

theorem exec_canBusError {n : Nat} (hn : n < 8) (hacts : s.var.acts = true) (hon : s.pioOn (uCan n) = true)
    (hst : (s.can n).bstate ≠ 2) (k : Nat) :
    exec (.canBusError n k) s = .next (s.updCan n fun x => x.confine x.tec (x.rec_ + k)) :=
  (if_neg (Nat.not_le.2 hn)).trans (if_neg (by simp [hacts, hon, hst]))

/-- Settles O42: each row by the branches of its function, a ring's frames by their order, a record by its fields. -/
theorem framesAreReceived : Obligations.FramesAreReceived := by
  unfold Obligations.FramesAreReceived
  refine ⟨fun s m fr hm hacts => ⟨exec_ethernetLinkChange hm hacts, exec_ethernetFrameReceived hm hacts, fun bs secv => ?eth,
      exec_gptpForeignReceived hm⟩,
    MacSt.rule_first, CanSt.filter_first, fun s n fr hn hacts hon hst hend => ?can, ?field, State.openSecured_of_key,
    fun f l h => ⟨f.insert_sorted l h, f.insert_perm l⟩, RxFrame.before_iff,
    fun s n f hwf => ⟨fun hoff => if_neg (ne_true_of_eq_false hoff), fun _ _ => State.ringFrame_splits hwf⟩,
    State.ringPut_cases, rxRecord_spells, State.yardWrite_spec, fun _ _ => exec_canBusOffRecovered, CanSt.confine_bstate⟩
  case eth =>
    intro p f
    refine (State.ethAccept_eq s m bs fr secv).trans ?_
    change f.ethRoute m bs fr secv (s.rxLat m) ((f.mac m).rule p.1 p.2.1) = _
    generalize (f.mac m).rule p.1 p.2.1 = r
    cases r <;> rfl
  case can =>
    intro c g opened
    refine ⟨fun hfmt => ?_, fun hf h61 h60 ho => ?_, fun data u hf h61 h60 hs ho => ?_, exec_canBusError hn hacts hon hst⟩
    · have hplain : (fr.fmt == 2 && natBit c 60) = false := by
        rcases hfmt with h | ⟨h, -⟩ | ⟨h, -, h60⟩
        · simp [h]
        · simp [h]
        · simp [h60]
      intro ident f
      refine ((exec_canFrameReceived hn hacts hon hst hend (hfmt.imp_right fun h => h.imp_right fun h => ⟨h.1, h.2.1⟩) hplain).trans
        (State.canAnswer_some (if_pos rfl) rfl)).trans (congrArg Host.Outcome.next ?_)
      change f.canRoute n fr false fr.data ((f.can n).filter (fr.ide && fr.fmt != 2) ident) = _
      generalize (f.can n).filter (fr.ide && fr.fmt != 2) ident = r
      cases r <;> rfl
    · have hsec : (fr.fmt == 2 && natBit c 60) = true := by rw [hf, h60]; rfl
      have hnone : g.canOpened n fr true = none := by
        rcases ho with h | h
        · simp [State.canOpened, h]
        · by_cases hs : fr.secured = true
          · exact (if_neg (by decide)).trans ((if_neg (by simp [hs])).trans h)
          · simp [State.canOpened, hs]
      exact (exec_canFrameReceived hn hacts hon hst hend (.inr (.inr ⟨hf, h61⟩)) hsec).trans (State.canAnswer_none hnone)
    · have hsec : (fr.fmt == 2 && natBit c 60) = true := by rw [hf, h60]; rfl
      have hsome : g.canOpened n fr true = some (data, u) := (if_neg (by decide)).trans ((if_neg (by simp [hs])).trans ho)
      intro f
      refine ((exec_canFrameReceived hn hacts hon hst hend (.inr (.inr ⟨hf, h61⟩)) hsec).trans
        (State.canAnswer_some hsome (if_pos hf))).trans (congrArg Host.Outcome.next ?_)
      have hide : (fr.ide && fr.fmt != 2) = false := by simp [hf]
      rw [hide]
      change f.canRoute n fr true data ((f.can n).filter false (fr.ident % 2048)) = _
      generalize (f.can n).filter false (fr.ident % 2048) = r
      cases r <;> rfl
  case field =>
    intro s f port key bs tEnd z v hf x mask want hon hport hsize hkey hv hz hwf hwz t
    have ht : t = _ := State.feedField_takes hon hport hsize hkey hv
    have hfz : t.loop.frozen = [if tEnd ≤ z.t then { z with rxf := Tab.upd {} z.rxf f fun x => { x with val := some (v, tEnd) } } else z] := by
      rw [ht]
      exact (congrArg _ hz).trans rfl
    refine ⟨?_, fun hle => ?_, fun hlt => ?_⟩
    · rw [ht]
      exact congrArg RxField.val ((Tab.get_upd hwf f f fun x => { x with val := some (v, tEnd) }).trans (if_pos rfl))
    · rw [hfz, if_pos hle, List.map_singleton, Tab.get_upd hwz, if_pos rfl]
    · rw [hfz, if_neg (Nat.not_le.2 hlt)]

end Sys2Proof.Machine
end

/-! ## O43: frames sent (R320, R333, R336, R343 to R346, R494) -/

section
namespace Sys2Proof.Machine

variable {s : State}

/-! ### The frame that is next (R346) -/

theorem leastBy_eq_none {α : Type} {key : α → Nat} {l : List α} : leastBy key l = none ↔ l = [] := by
  cases l with
  | nil => simp [leastBy]
  | cons x l =>
    cases h : leastBy key l with
    | none => simp [leastBy, h]
    | some y => by_cases hxy : key x ≤ key y <;> simp [leastBy, h, hxy]

/-- The least of a list by a key: what stands before it is greater, and nothing behind it is less. -/
theorem leastBy_eq_some {α : Type} {key : α → Nat} {l : List α} {x : α} (h : leastBy key l = some x) :
    ∃ a b, l = a ++ x :: b ∧ (∀ y ∈ a, key x < key y) ∧ ∀ y ∈ b, key x ≤ key y := by
  induction l generalizing x with
  | nil => cases h
  | cons z l ih =>
    rw [leastBy] at h
    cases hl : leastBy key l with
    | none =>
      rw [hl] at h
      obtain rfl : z = x := Option.some.inj h
      exact ⟨[], l, rfl, by simp, by simp [leastBy_eq_none.1 hl]⟩
    | some y =>
      rw [hl] at h
      obtain ⟨a, b, rfl, ha, hb⟩ := ih hl
      dsimp only at h
      split at h
      · rename_i hzy
        obtain rfl : z = x := Option.some.inj h
        refine ⟨[], _, rfl, by simp, fun w hw => ?_⟩
        rcases List.mem_append.1 hw with hw | hw
        · exact hzy.trans (ha w hw).le
        · rcases List.mem_cons.1 hw with rfl | hw
          · exact hzy
          · exact hzy.trans (hb w hw)
      · rename_i hzy
        obtain rfl : y = x := Option.some.inj h
        refine ⟨z :: a, b, rfl, fun w hw => ?_, hb⟩
        rcases List.mem_cons.1 hw with rfl | hw
        · exact Nat.lt_of_not_le hzy
        · exact ha w hw

/-- A map frame that is due on a port and may be sent there. -/
def State.mapReady (s : State) (port m : Nat) (f : TxFrame) : Prop :=
  (s.txMap m).due = some f ∧ (s.txMap m).port = port ∧ s.pioOn (uMap m) = true ∧ s.frameFits port f = true

/-- A queue frame of a port that is past its OPEN and before its CLOSE. -/
def State.queueReady (s : State) (port q : Nat) (f : TxFrame) : Prop :=
  queuePort q = port ∧ (s.pioDom (uQueue q)).isSome = true ∧ f ∈ (s.txQueue q).frames ∧ f.due ≤ s.dt ∧ (f.close = 0 ∨ s.dt < f.close)

theorem State.mem_dueMaps {port : Nat} (h : Tab.wf ({} : TxMap) s.pio.maps = true) {p : Nat × Nat × TxFrame} :
    p ∈ s.dueMaps port ↔ p.1 = p.2.2.due ∧ s.mapReady port p.2.1 p.2.2 := by
  obtain ⟨i, m, f⟩ := p
  rw [dueMaps, List.mem_filterMap]
  constructor
  · rintro ⟨⟨k, x⟩, hk, hp⟩
    cases hd : x.due with
    | none => simp [hd] at hp
    | some g =>
      simp only [hd, Option.ite_none_right_eq_some, Option.some.injEq, Prod.mk.injEq, Bool.and_eq_true, decide_eq_true_iff] at hp
      obtain ⟨⟨⟨hport, hon⟩, hfit⟩, rfl, rfl, rfl⟩ := hp
      have hx : s.txMap k = x := (((Tab.wf_iff.1 h).mem_iff_get k x).1 hk).1
      exact ⟨rfl, by rw [hx]; exact hd, by rw [hx]; exact hport, hon, hfit⟩
  · rintro ⟨hi, hd, hport, hon, hfit⟩
    refine ⟨(m, s.txMap m), ((Tab.wf_iff.1 h).mem_iff_get m _).2 ⟨rfl, fun he => ?_⟩, ?_⟩
    · rw [he] at hd
      cases hd
    · dsimp only at hi hd hport hon hfit ⊢
      rw [hd]
      simp [hport, hon, hfit, hi]

theorem State.dueMaps_sorted {port : Nat} (h : Tab.wf ({} : TxMap) s.pio.maps = true) :
    (s.dueMaps port).Pairwise fun p q => p.2.1 < q.2.1 := by
  refine ((Tab.wf_iff.1 h).pairwise_key).filterMap _ fun a a' hlt b hb b' hb' => ?_
  have hidx {a : Nat × TxMap} {b : Nat × Nat × TxFrame} (hb : (match a.2.due with
      | some f => if a.2.port = port && s.pioOn (uMap a.1) && s.frameFits port f then some (f.due, a.1, f) else none
      | none => none) = some b) : b.2.1 = a.1 := by
    cases hd : a.2.due with
    | none => simp [hd] at hb
    | some f =>
      simp only [hd, Option.ite_none_right_eq_some, Option.some.injEq] at hb
      obtain ⟨-, rfl⟩ := hb
      rfl
  rw [hidx hb, hidx hb']
  exact hlt

theorem mem_take_one_iff {α : Type} (l : List α) (x : α) : x ∈ l.take 1 ↔ l.head? = some x := by
  cases l <;> simp [eq_comm]

theorem State.mem_dueQueues {port : Nat} (h : Tab.wf ({} : TxQueue) s.pio.queues = true) {p : Nat × TxFrame} :
    p ∈ s.dueQueues port ↔ s.queueReady port p.1 p.2 ∧ (port < 4 → (s.txQueue p.1).frames.head? = some p.2) := by
  obtain ⟨q, f⟩ := p
  have hsub (x : TxQueue) : (f ∈ if port < 4 then x.frames.take 1 else x.frames) ↔ f ∈ x.frames ∧ (port < 4 → x.frames.head? = some f) := by
    split
    · rename_i hp
      rw [mem_take_one_iff]
      exact ⟨fun hh => ⟨List.mem_of_head? hh, fun _ => hh⟩, fun hh => hh.2 hp⟩
    · rename_i hp
      exact ⟨fun hh => ⟨hh, fun hp' => absurd hp' hp⟩, And.left⟩
  rw [dueQueues, List.mem_flatMap]
  constructor
  · rintro ⟨⟨k, x⟩, hk, hp⟩
    by_cases hc : (decide (queuePort k = port) && (s.pioDom (uQueue k)).isSome) = true
    · rw [if_pos hc] at hp
      obtain ⟨g, hg, hgp⟩ := List.mem_map.1 hp
      obtain ⟨rfl, rfl⟩ := Prod.mk.inj hgp
      rw [List.mem_filter, hsub, Bool.and_eq_true, Bool.or_eq_true, decide_eq_true_iff, decide_eq_true_iff, decide_eq_true_iff] at hg
      rw [Bool.and_eq_true, decide_eq_true_iff] at hc
      have hx : s.txQueue k = x := (((Tab.wf_iff.1 h).mem_iff_get k x).1 hk).1
      obtain ⟨⟨hmem, hhead⟩, hopen, hclose⟩ := hg
      exact ⟨⟨hc.1, hc.2, by rw [hx]; exact hmem, hopen, hclose⟩, by rw [hx]; exact hhead⟩
    · rw [if_neg hc] at hp
      cases hp
  · rintro ⟨⟨hport, hdom, hmem, hopen, hclose⟩, hhead⟩
    refine ⟨(q, s.txQueue q), ((Tab.wf_iff.1 h).mem_iff_get q _).2 ⟨rfl, fun he => ?_⟩, ?_⟩
    · dsimp only at hmem
      rw [he] at hmem
      cases hmem
    · rw [if_pos (by simp [hport, hdom])]
      refine List.mem_map.2 ⟨f, List.mem_filter.2 ⟨(hsub _).2 ⟨hmem, hhead⟩, ?_⟩, rfl⟩
      rw [Bool.and_eq_true, Bool.or_eq_true, decide_eq_true_iff, decide_eq_true_iff, decide_eq_true_iff]
      exact ⟨hopen, hclose⟩

theorem State.dueQueues_sorted {port : Nat} (h : Tab.wf ({} : TxQueue) s.pio.queues = true) :
    (s.dueQueues port).Pairwise fun p q => p.1 ≤ q.1 := by
  have hidx {a : Nat × TxQueue} {p : Nat × TxFrame}
      (hp : p ∈ if queuePort a.1 = port && (s.pioDom (uQueue a.1)).isSome then
        ((if port < 4 then a.2.frames.take 1 else a.2.frames).filter fun f => f.due ≤ s.dt && (f.close = 0 || s.dt < f.close)).map (a.1, ·)
      else []) : p.1 = a.1 := by
    split at hp
    · obtain ⟨f, -, rfl⟩ := List.mem_map.1 hp
      rfl
    · cases hp
  refine List.pairwise_flatMap.2 ⟨fun a _ => ?_, ((Tab.wf_iff.1 h).pairwise_key).imp fun {a b} hlt x hx y hy => ?_⟩
  · exact List.pairwise_of_forall_mem_list fun x hx y hy => (hidx hx).trans (hidx hy).symm |>.le
  · rw [hidx hx, hidx hy]
    exact hlt.le

/-- What stands at a place of a sorted list, and how it lies to the others. -/
theorem mem_split_of_sorted {α : Type} {l a b : List α} {x y : α} {r : α → α → Prop} (hl : l.Pairwise r) (he : l = a ++ x :: b)
    (hy : y ∈ l) : y ∈ a ∨ y = x ∨ (y ∈ b ∧ r x y) := by
  subst he
  rcases List.mem_append.1 hy with hy | hy
  · exact .inl hy
  · rcases List.mem_cons.1 hy with rfl | hy
    · exact .inr (.inl rfl)
    · exact .inr (.inr ⟨hy, (List.pairwise_cons.1 (List.pairwise_append.1 hl).2.1).1 y hy⟩)

/-- On Ethernet the map frame due first goes first, else the head of the lowest queue. -/
theorem State.nextFrame_eth {port : Nat} (hport : port < 4) (hm : Tab.wf ({} : TxMap) s.pio.maps = true)
    (hq : Tab.wf ({} : TxQueue) s.pio.queues = true) :
    let head := fun (q : Nat) (f : TxFrame) => s.queueReady port q f ∧ (s.txQueue q).frames.head? = some f
    ((∃ m f, s.mapReady port m f) → ∃ m f, s.nextFrame port = some f ∧ s.mapReady port m f
      ∧ ∀ n g, s.mapReady port n g → f.due < g.due ∨ (f.due = g.due ∧ m ≤ n))
    ∧ ((∀ m f, ¬ s.mapReady port m f) → (∃ q f, head q f) → ∃ q f, s.nextFrame port = some f ∧ head q f ∧ ∀ r g, head r g → q ≤ r)
    ∧ ((∀ m f, ¬ s.mapReady port m f) → (∀ q f, ¬ head q f) → s.nextFrame port = none) := by
  intro head
  have hmem {m : Nat} {f : TxFrame} (h : s.mapReady port m f) : (f.due, m, f) ∈ s.dueMaps port := (mem_dueMaps hm).2 ⟨rfl, h⟩
  have hqmem {q : Nat} {f : TxFrame} : (q, f) ∈ s.dueQueues port ↔ head q f :=
    (mem_dueQueues hq).trans ⟨fun h => ⟨h.1, h.2 hport⟩, fun h => ⟨h.1, fun _ => h.2⟩⟩
  have hnone (h : ∀ m f, ¬ s.mapReady port m f) : s.nextFrame port = (s.dueQueues port).head?.map (·.2) := by
    have hl : s.dueMaps port = [] := List.eq_nil_iff_forall_not_mem.2 fun p hp => h _ _ ((mem_dueMaps hm).1 hp).2
    rw [nextFrame, if_pos hport, hl]
    rfl
  refine ⟨fun ⟨m, f, hf⟩ => ?_, fun hno ⟨q, f, hf⟩ => ?_, fun hno hnoq => ?_⟩
  · cases hl : leastBy (fun p : Nat × Nat × TxFrame => p.1) (s.dueMaps port) with
    | none => exact absurd (hmem hf) (by rw [leastBy_eq_none.1 hl]; exact List.not_mem_nil)
    | some p =>
      obtain ⟨a, b, he, ha, hb⟩ := leastBy_eq_some hl
      obtain ⟨hpd, hp⟩ := (mem_dueMaps hm (p := p)).1 (by rw [he]; simp)
      refine ⟨p.2.1, p.2.2, ?_, hp, fun n g hg => ?_⟩
      · rw [nextFrame, if_pos hport, hl]
      · rcases mem_split_of_sorted (s.dueMaps_sorted hm) he (hmem hg) with h | h | ⟨h, hlt⟩
        · exact .inl (hpd ▸ ha _ h)
        · rw [← h]
          exact .inr ⟨rfl, le_rfl⟩
        · have := hb _ h
          dsimp only at this hlt
          omega
  · cases hl : (s.dueQueues port).head? with
    | none => exact absurd (hqmem.2 hf) (by rw [List.head?_eq_none_iff.1 hl]; exact List.not_mem_nil)
    | some p =>
      refine ⟨p.1, p.2, by rw [hnone hno, hl, Option.map_some], hqmem.1 (List.mem_of_head? hl), fun r g hg => ?_⟩
      obtain ⟨l, he⟩ := List.head?_eq_some_iff.1 hl
      rcases mem_split_of_sorted (a := []) (s.dueQueues_sorted hq) he (hqmem.2 hg) with h | h | ⟨-, hle⟩
      · cases h
      · rw [← h]
      · exact hle
  · have hl : s.dueQueues port = [] := List.eq_nil_iff_forall_not_mem.2 fun p hp => hnoq _ _ (hqmem.1 hp)
    rw [hnone hno, hl]
    rfl

/-- On CAN the due frame that wins arbitration goes first, of equal ones the one of a map, then of the lowest queue. -/
theorem State.nextFrame_can {port : Nat} (hport : 4 ≤ port) (hm : Tab.wf ({} : TxMap) s.pio.maps = true)
    (hq : Tab.wf ({} : TxQueue) s.pio.queues = true) :
    ((∃ m f, s.mapReady port m f) ∨ (∃ q f, s.queueReady port q f) → ∃ f, s.nextFrame port = some f
      ∧ (∀ m g, s.mapReady port m g → f.arb ≤ g.arb) ∧ (∀ q g, s.queueReady port q g → f.arb ≤ g.arb)
      ∧ ((∃ m, s.mapReady port m f) ∨ ∃ q, s.queueReady port q f ∧ (∀ m g, s.mapReady port m g → f.arb < g.arb)
        ∧ ∀ r g, s.queueReady port r g → r < q → f.arb < g.arb))
    ∧ ((∀ m f, ¬ s.mapReady port m f) → (∀ q f, ¬ s.queueReady port q f) → s.nextFrame port = none) := by
  have hnext : s.nextFrame port = leastBy TxFrame.arb ((s.dueMaps port).map (·.2.2) ++ (s.dueQueues port).map (·.2)) :=
    if_neg (Nat.not_lt.2 hport)
  have hmem {f : TxFrame} : f ∈ (s.dueMaps port).map (·.2.2) ↔ ∃ m, s.mapReady port m f := by
    rw [List.mem_map]
    exact ⟨fun ⟨p, hp, he⟩ => ⟨p.2.1, he ▸ ((mem_dueMaps hm).1 hp).2⟩, fun ⟨m, h⟩ => ⟨(f.due, m, f), (mem_dueMaps hm).2 ⟨rfl, h⟩, rfl⟩⟩
  have hqmem {q : Nat} {f : TxFrame} : (q, f) ∈ s.dueQueues port ↔ s.queueReady port q f :=
    (mem_dueQueues hq).trans ⟨fun h => h.1, fun h => ⟨h, fun h4 => absurd h4 (Nat.not_lt.2 hport)⟩⟩
  refine ⟨fun hex => ?_, fun hno hnoq => ?_⟩
  · cases hl : s.nextFrame port with
    | none =>
      obtain ⟨hmn, hqn⟩ := List.append_eq_nil_iff.1 (leastBy_eq_none.1 (hnext.symm.trans hl))
      rcases hex with ⟨m, f, hf⟩ | ⟨q, f, hf⟩
      · exact absurd (hmem.2 ⟨m, hf⟩) (by rw [hmn]; exact List.not_mem_nil)
      · exact absurd (List.mem_map.2 ⟨_, hqmem.2 hf, rfl⟩) (by rw [hqn]; exact List.not_mem_nil)
    | some f =>
      obtain ⟨a, b, he, ha, hb⟩ := leastBy_eq_some (hnext.symm.trans hl)
      have hle {g : TxFrame} (hg : g ∈ (s.dueMaps port).map (·.2.2) ++ (s.dueQueues port).map (·.2)) : f.arb ≤ g.arb := by
        rw [he] at hg
        rcases List.mem_append.1 hg with hg | hg
        · exact (ha g hg).le
        · rcases List.mem_cons.1 hg with rfl | hg
          · exact le_rfl
          · exact hb g hg
      refine ⟨f, rfl, fun m g hg => hle (List.mem_append_left _ (hmem.2 ⟨m, hg⟩)),
        fun q g hg => hle (List.mem_append_right _ (List.mem_map.2 ⟨_, hqmem.2 hg, rfl⟩)), ?_⟩
      rcases List.append_eq_append_iff.1 he with ⟨c, hc, hqs⟩ | ⟨c, hms, hc⟩
      · -- the frame is of a queue: the frames of maps and of lower queues all stand before it
        obtain ⟨l₁, l₂, hq', rfl, hq2⟩ := List.map_eq_append_iff.1 hqs
        obtain ⟨p, l₃, rfl, rfl, rfl⟩ := List.map_eq_cons_iff.1 hq2
        refine .inr ⟨p.1, hqmem.1 (by rw [hq']; simp), fun m g hg => ha g ?_, fun r g hg hr => ha g ?_⟩
        · rw [hc]
          exact List.mem_append_left _ (hmem.2 ⟨m, hg⟩)
        · rcases mem_split_of_sorted (s.dueQueues_sorted hq) hq' (hqmem.2 hg) with h | h | ⟨-, h⟩
          · rw [hc]
            exact List.mem_append_right _ (List.mem_map.2 ⟨_, h, rfl⟩)
          · rw [← h] at hr
            exact absurd hr (Nat.lt_irrefl _)
          · exact absurd hr (Nat.not_lt.2 h)
      · cases c with
        | nil =>
          -- the maps' frames all stand before it, and it is the first of the queues'
          rw [List.append_nil] at hms
          obtain ⟨p, l₃, hq', rfl, -⟩ := List.map_eq_cons_iff.1 (show (s.dueQueues port).map (·.2) = f :: b from hc.symm)
          refine .inr ⟨p.1, hqmem.1 (by rw [hq']; simp), fun m g hg => ha g (hms ▸ hmem.2 ⟨m, hg⟩), fun r g hg hr => ?_⟩
          rcases mem_split_of_sorted (a := []) (s.dueQueues_sorted hq) hq' (hqmem.2 hg) with h | h | ⟨-, h⟩
          · cases h
          · rw [← h] at hr
            exact absurd hr (Nat.lt_irrefl _)
          · exact absurd hr (Nat.not_lt.2 h)
        | cons g c =>
          obtain ⟨rfl, -⟩ := List.cons.inj hc
          exact .inl (hmem.1 (by rw [hms]; simp))
  · have hml : s.dueMaps port = [] := List.eq_nil_iff_forall_not_mem.2 fun p hp => hno _ _ ((mem_dueMaps hm).1 hp).2
    have hql : s.dueQueues port = [] := List.eq_nil_iff_forall_not_mem.2 fun p hp => hnoq _ _ (hqmem.1 hp)
    rw [hnext, hml, hql]
    rfl

/-! ### Arbitration (R346) -/

theorem natBits_lt (x hi lo : Nat) : natBits x hi lo < 2 ^ (hi + 1 - lo) := by
  rw [natBits_eq_div_mod]
  exact Nat.mod_lt _ (Nat.two_pow_pos _)

/-- The base identifier of a frame: the upper bits of an extended one. -/
def TxFrame.baseId (f : TxFrame) : Nat := if f.h 365 365 = 1 then f.h 364 354 else f.h 346 336

theorem TxFrame.arb_ext {f : TxFrame} (h : f.h 365 365 = 1) :
    f.arb = ((f.baseId * 2 + 1) * 2 ^ 18 + f.h 353 336) * 4 + f.h 369 368 ∧ f.h 353 336 < 2 ^ 18 ∧ f.h 369 368 < 4 := by
  refine ⟨?_, natBits_lt _ _ _, natBits_lt _ _ _⟩
  have hhi : f.h 364 336 / 2 ^ 18 % 2048 = f.h 364 354 := by
    simp only [TxFrame.h, natBits_eq_div_mod]
    omega
  have hlo : f.h 364 336 % 2 ^ 18 = f.h 353 336 := by
    simp only [TxFrame.h, natBits_eq_div_mod]
    omega
  rw [arb, baseId, if_pos h, if_pos h, hhi, hlo]

theorem TxFrame.arb_base {f : TxFrame} (h : ¬ f.h 365 365 = 1) :
    f.arb = (f.baseId * 2) * 2 ^ 20 + f.h 369 368 ∧ f.h 369 368 < 4 := by
  refine ⟨?_, natBits_lt _ _ _⟩
  have hlo : f.h 364 336 % 2048 = f.h 346 336 := by
    simp only [TxFrame.h, natBits_eq_div_mod]
    omega
  rw [arb, baseId, if_neg h, if_neg h, hlo]

theorem TxFrame.arb_order (f g : TxFrame) :
    (f.baseId < g.baseId → f.arb < g.arb)
    ∧ (f.baseId = g.baseId → ¬ f.h 365 365 = 1 → g.h 365 365 = 1 → f.arb < g.arb)
    ∧ (f.baseId = g.baseId → f.h 365 365 = 1 → g.h 365 365 = 1 → f.h 353 336 < g.h 353 336 → f.arb < g.arb) := by
  refine ⟨fun hlt => ?_, fun he hf hg => ?_, fun he hf hg hlt => ?_⟩
  · by_cases hf : f.h 365 365 = 1 <;> by_cases hg : g.h 365 365 = 1
    · obtain ⟨hf, hf1, hf2⟩ := arb_ext hf
      obtain ⟨hg, hg1, hg2⟩ := arb_ext hg
      omega
    · obtain ⟨hf, hf1, hf2⟩ := arb_ext hf
      obtain ⟨hg, hg2⟩ := arb_base hg
      omega
    · obtain ⟨hf, hf2⟩ := arb_base hf
      obtain ⟨hg, hg1, hg2⟩ := arb_ext hg
      omega
    · obtain ⟨hf, hf2⟩ := arb_base hf
      obtain ⟨hg, hg2⟩ := arb_base hg
      omega
  · obtain ⟨hf, hf2⟩ := arb_base hf
    obtain ⟨hg, hg1, hg2⟩ := arb_ext hg
    omega
  · obtain ⟨hf, hf1, hf2⟩ := arb_ext hf
    obtain ⟨hg, hg1, hg2⟩ := arb_ext hg
    omega

end Sys2Proof.Machine
end

/-! ## O43, the rest: the ends of transmissions, and a controller in bus-off (R333, R336, R345, R346) -/

section
namespace Sys2Proof.Machine

variable {s : State}

/-! ### SEND and late frames (R345, R346) -/

theorem State.updTxQueue_ite (p : Prop) [Decidable p] (q : Nat) (f g : TxQueue → TxQueue) :
    (if p then s.updTxQueue q f else s.updTxQueue q g) = s.updTxQueue q fun x => if p then f x else g x := by
  split <;> rfl

theorem State.updTxMap_ite (p : Prop) [Decidable p] (m : Nat) (f g : TxMap → TxMap) :
    (if p then s.updTxMap m f else s.updTxMap m g) = s.updTxMap m fun x => if p then f x else g x := by
  split <;> rfl

theorem exec_send {q : Nat} {w : Word} (hq : q < 32) (hacts : s.var.acts = true) (hdom : (s.pioDom (uQueue q)).isSome = true) :
    exec (.send q w) s = .next (s.updTxQueue q fun y =>
      if w = 1 ∧ s.frameFits (queuePort q) ((s.txQueue q).staging.txFrame false q) = true ∧ (s.txQueue q).frames.length < 16
      then { y with frames := y.frames ++ [(s.txQueue q).staging.txFrame false q] }
      else { y with refused := satAdd 32 y.refused 1 }) := by
  refine ((if_neg (Nat.not_le.2 hq)).trans (if_neg (by rw [hacts]; decide))).trans (congrArg Host.Outcome.next ?_)
  refine (if_neg (by rw [Option.isNone_eq_false_iff.2 hdom]; decide)).trans ?_
  rw [← State.updTxQueue_ite]
  refine if_congr ?_ rfl rfl
  have hw : w.toNat = 1 ↔ w = 1 := ⟨fun h => BitVec.eq_of_toNat_eq h, fun h => by rw [h]; rfl⟩
  rw [Bool.and_eq_true, Bool.and_eq_true, decide_eq_true_iff, decide_eq_true_iff, and_assoc, hw]

theorem exec_queueFrameLate {q : Nat} (hq : q < 32) (hdom : (s.pioDom (uQueue q)).isSome = true) :
    exec (.queueFrameLate q) s = .next (s.updTxQueue q fun y =>
      { y with
        frames := y.frames.filter fun f => decide (f.close = 0 ∨ s.dt + 1 < f.close)
        late := satAdd 32 y.late (y.frames.filter fun f => decide (f.close ≠ 0 ∧ f.close ≤ s.dt + 1)).length }) := by
  refine ((if_neg (Nat.not_le.2 hq)).trans (if_neg (by rw [Option.isNone_eq_false_iff.2 hdom]; decide))).trans ?_
  have hlate (f : TxFrame) : (decide (f.close ≠ 0) && decide (f.close ≤ s.dt + 1)) = decide (f.close ≠ 0 ∧ f.close ≤ s.dt + 1) :=
    (Bool.decide_and _ _).symm
  have hkept (f : TxFrame) : (!decide (f.close ≠ 0 ∧ f.close ≤ s.dt + 1)) = decide (f.close = 0 ∨ s.dt + 1 < f.close) := by
    rw [← decide_not, decide_eq_decide]
    omega
  simp only [hlate, hkept]

/-! ### The start of a transmission (R333, R346) -/

/-- Taking a frame out of its map or queue changes nothing else. -/
theorem State.takeTx_map {f : TxFrame} (h : f.isMap = true) :
    s.takeTx f = { s with pio := { s.pio with maps := Tab.upd {} s.pio.maps f.idx fun x => { x with due := none } } } := if_pos h

theorem State.takeTx_queue {f : TxFrame} (h : f.isMap = false) :
    s.takeTx f = { s with pio := { s.pio with queues := Tab.upd {} s.pio.queues f.idx fun x => { x with frames := x.frames.erase f } } } :=
  if_neg (by rw [h]; decide)

theorem State.takeTx_macs_sec (s : State) (f : TxFrame) : (s.takeTx f).pio.macs = s.pio.macs ∧ (s.takeTx f).sec = s.sec := by
  cases h : f.isMap with
  | true => rw [takeTx_map h]; exact ⟨rfl, rfl⟩
  | false => rw [takeTx_queue h]; exact ⟨rfl, rfl⟩

/-- A protected frame counts its key's number on, and changes nothing else. -/
theorem State.countTx_eq (s : State) (port : Nat) (f : TxFrame) : ∃ ks, s.countTx port f = { s with sec := { s.sec with keys := ks } } := by
  rw [countTx]
  split
  · exact ⟨s.sec.keys, rfl⟩
  · split
    · exact ⟨s.sec.keys, rfl⟩
    · exact ⟨_, rfl⟩

theorem State.setPn_sec_congr {t : State} (h : t.sec = s.sec) (k : PioKey) (pn : Nat) : (t.setPn k pn).sec = (s.setPn k pn).sec := by
  simp only [setPn, h]

/-- Which key counts depends on the MACs and the keys alone. -/
theorem State.countTx_sec_congr {t : State} (hmacs : t.pio.macs = s.pio.macs) (hsec : t.sec = s.sec) (port : Nat) (f : TxFrame) :
    (t.countTx port f).sec = (s.countTx port f).sec := by
  have hmac : t.mac port = s.mac port := congrArg (fun l => Tab.get ({} : MacSt) l port) hmacs
  have hchan : t.txChannel port f = s.txChannel port f := by rw [txChannel, txChannel, hmac]
  have hkey (u sc : Nat) : t.txKey u sc = s.txKey u sc := by
    simp only [txKey, hsec]
  rw [countTx, countTx, hchan]
  cases s.txChannel port f with
  | none => exact hsec
  | some p =>
    dsimp only
    rw [hkey]
    cases s.txKey p.1 p.2 with
    | none => exact hsec
    | some k => exact setPn_sec_congr hsec k _

theorem State.portFree_sensed {port : Nat} (h : s.portFree port = true) : s.sec.sensed.done = true := by
  simp only [portFree, driversOff, Bool.and_eq_true, Bool.not_eq_true', Bool.or_eq_false_iff, Bool.not_eq_false'] at h
  exact h.1.1.1.2

theorem exec_portTransmitStart {port : Nat} {f : TxFrame} {bs : List Byte} (hport : port < 12) (hfree : s.portFree port = true)
    (hoff : s.busOff port = false) (hnext : s.nextFrame port = some f) (hwire : s.wire port f = some bs) {t : State}
    (ht : t = (s.takeTx f).countTx port f) :
    exec (.portTransmitStart port) s = .next { t with pio := { t.pio with
      txing := Tab.set none t.pio.txing port (some f), lastSent := Tab.set [] t.pio.lastSent port bs } } := by
  subst ht
  change execPortTransmitStart port s = _
  rw [execPortTransmitStart, if_neg (Nat.not_le.2 hport), if_neg (by rw [hfree]; decide), if_neg (ne_true_of_eq_false hoff)]
  simp only [hnext, hwire]

/-! ### Bus-off (R336) -/

/-- A due frame of a map, discarded. -/
def TxMap.discarded (x : TxMap) : TxMap := { x with due := none, ovr := satAdd 16 x.ovr 1 }

/-- The maps that a controller in bus-off discards a frame of. -/
def State.busOffMaps (s : State) (port : Nat) : List Nat :=
  (s.pio.maps.filter fun p => s.pioOn (uMap p.1) && p.2.port == port && p.2.due.isSome).map (·.1)

/-- What a controller in bus-off leaves of a queue. -/
def State.busOffQueue (s : State) (port q : Nat) (x : TxQueue) : TxQueue :=
  if queuePort q = port && (s.pioDom (uQueue q)).isSome then
    { x with frames := x.frames.filter fun f => decide (s.dt < f.due)
             late := satAdd 32 x.late (x.frames.length - (x.frames.filter fun f => decide (s.dt < f.due)).length) }
  else x

theorem State.foldl_discard (l : List Nat) (h : Tab.wf ({} : TxMap) s.pio.maps = true) :
    l.foldl (fun s m => (s.updTxMap m fun x => { x with due := none }).mapLost m) s
      = { s with pio := { s.pio with maps := l.foldl (fun t m => Tab.upd {} t m TxMap.discarded) s.pio.maps } } := by
  induction l generalizing s with
  | nil => rfl
  | cons m l ih =>
    have hone : (s.updTxMap m fun x => { x with due := none }).mapLost m
        = { s with pio := { s.pio with maps := Tab.upd {} s.pio.maps m TxMap.discarded } } :=
      congrArg (fun t => { s with pio := { s.pio with maps := t } }) 
        (Tab.upd_upd h m (fun x => { x with due := none }) fun x => { x with ovr := satAdd 16 x.ovr 1 })
    rw [List.foldl_cons, hone, ih (Tab.wf_upd h m _)]
    rfl

theorem Tab.get_foldl_upd {α : Type} [DecidableEq α] {d : α} {t : Tab α} (h : Tab.wf d t = true) {l : List Nat} (hl : l.Nodup) (f : α → α)
    (j : Nat) : Tab.get d (l.foldl (fun t i => Tab.upd d t i f) t) j = if j ∈ l then f (Tab.get d t j) else Tab.get d t j := by
  induction l generalizing t with
  | nil => rfl
  | cons i l ih =>
    obtain ⟨hi, hl⟩ := List.nodup_cons.1 hl
    rw [List.foldl_cons, ih (Tab.wf_upd h i f) hl, Tab.get_upd h]
    by_cases hj : j = i
    · subst hj
      simp [hi]
    · simp [hj]

theorem State.mem_busOffMaps {port m : Nat} (h : Tab.wf ({} : TxMap) s.pio.maps = true) :
    m ∈ s.busOffMaps port ↔ s.pioOn (uMap m) = true ∧ (s.txMap m).port = port ∧ (s.txMap m).due.isSome = true := by
  simp only [busOffMaps, List.mem_map, List.mem_filter, Bool.and_eq_true, beq_iff_eq, and_assoc]
  constructor
  · rintro ⟨⟨k, x⟩, hk, hon, hport, hdue, rfl⟩
    have hx : s.txMap k = x := (((Tab.wf_iff.1 h).mem_iff_get k x).1 hk).1
    exact ⟨hon, by rw [hx]; exact hport, by rw [hx]; exact hdue⟩
  · rintro ⟨hon, hport, hdue⟩
    refine ⟨(m, s.txMap m), ((Tab.wf_iff.1 h).mem_iff_get m _).2 ⟨rfl, fun he => ?_⟩, hon, hport, hdue, rfl⟩
    rw [he] at hdue
    cases hdue

theorem State.nodup_busOffMaps {port : Nat} (h : Tab.wf ({} : TxMap) s.pio.maps = true) : (s.busOffMaps port).Nodup :=
  List.pairwise_map.2 (((Tab.wf_iff.1 h).pairwise_key).filter _ |>.imp fun h => h.ne)

/-- Units other than maps do not depend on what the maps hold. -/
theorem State.dropBusOff_eq (h : Tab.wf ({} : TxMap) s.pio.maps = true) (port : Nat) :
    s.dropBusOff port = { s with pio := { s.pio with
      maps := (s.busOffMaps port).foldl (fun t m => Tab.upd {} t m TxMap.discarded) s.pio.maps
      queues := Tab.mapAll {} s.pio.queues (s.busOffQueue port) } } := by
  rw [dropBusOff]
  dsimp only
  rw [foldl_discard _ h]
  rfl

theorem State.txMap_dropBusOff (h : Tab.wf ({} : TxMap) s.pio.maps = true) (port m : Nat) :
    (s.dropBusOff port).txMap m = if m ∈ s.busOffMaps port then (s.txMap m).discarded else s.txMap m := by
  rw [dropBusOff_eq h]
  exact Tab.get_foldl_upd h (nodup_busOffMaps h) _ m

theorem State.txQueue_dropBusOff (h : Tab.wf ({} : TxMap) s.pio.maps = true) (hq : Tab.wf ({} : TxQueue) s.pio.queues = true)
    (port q : Nat) : (s.dropBusOff port).txQueue q = s.busOffQueue port q (s.txQueue q) := by
  rw [dropBusOff_eq h]
  refine Tab.get_mapAll _ (fun i => ?_) hq q
  rw [busOffQueue]
  split <;> rfl

/-- The frames that stay and those that go are all. -/
theorem length_sub_filter {α : Type} (l : List α) (p : α → Bool) : l.length - (l.filter p).length = (l.filter (!p ·)).length := by
  rw [List.length_eq_length_filter_add p, Nat.add_sub_cancel_left]

theorem State.dropBusOff_spec (s : State) (port q m : Nat) (hq : Tab.wf ({} : TxQueue) s.pio.queues = true)
    (hm : Tab.wf ({} : TxMap) s.pio.maps = true) :
    let t := s.dropBusOff port
    (queuePort q = port → (s.pioDom (uQueue q)).isSome = true →
      (t.txQueue q).frames = (s.txQueue q).frames.filter (fun f => decide (s.dt < f.due))
      ∧ (t.txQueue q).late = satAdd 32 (s.txQueue q).late ((s.txQueue q).frames.filter fun f => decide (f.due ≤ s.dt)).length)
    ∧ (queuePort q ≠ port ∨ s.pioDom (uQueue q) = none → t.txQueue q = s.txQueue q)
    ∧ (s.pioOn (uMap m) = true → (s.txMap m).port = port → (s.txMap m).due.isSome = true →
      t.txMap m = { s.txMap m with due := none, ovr := satAdd 16 (s.txMap m).ovr 1 })
    ∧ (s.pioOn (uMap m) = false ∨ (s.txMap m).port ≠ port ∨ (s.txMap m).due = none → t.txMap m = s.txMap m) := by
  intro t
  rw [State.txQueue_dropBusOff hm hq, State.txMap_dropBusOff hm]
  refine ⟨fun hport hdom => ?_, fun hno => if_neg ?_, fun hon hport hdue => if_pos ((mem_busOffMaps hm).2 ⟨hon, hport, hdue⟩),
    fun hno => if_neg fun hin => ?_⟩
  · rw [busOffQueue, if_pos (by simp [hport, hdom]), length_sub_filter]
    simp only [← decide_not, Nat.not_lt, and_self]
  · rcases hno with h | h <;> simp [h]
  · obtain ⟨hon, hport, hdue⟩ := (mem_busOffMaps hm).1 hin
    rcases hno with h | h | h
    · simp [h] at hon
    · exact h hport
    · simp [h] at hdue

/-! ### The end of a transmission (R336, R346) -/

theorem State.retryTx_map {f : TxFrame} (hmap : f.isMap = true) :
    s.retryTx f = if s.pioDom (uMap f.idx) = none then s
      else s.updTxMap f.idx fun x =>
        if (s.txMap f.idx).due.isSome = true ∨ s.busOff (s.txMap f.idx).port = true
          ∨ (natBit (s.txMap f.idx).cfg.toNat 62 = true ∧ s.loop.auth = false)
        then { x with ovr := satAdd 16 x.ovr 1 } else { x with due := some f } := by
  rw [retryTx, hmap, if_pos rfl, if_pos rfl, ← updTxMap_ite]
  refine if_congr Option.isNone_iff_eq_none rfl (if_congr ?_ rfl rfl)
  rw [Bool.or_eq_true, Bool.or_eq_true, Bool.and_eq_true, Bool.not_eq_true', or_assoc]

theorem State.retryTx_queue {f : TxFrame} (hmap : f.isMap = false) :
    s.retryTx f = if s.pioDom (uQueue f.idx) = none then s
      else s.updTxQueue f.idx fun x => if (f.close ≠ 0 ∧ f.close ≤ s.dt) ∨ s.busOff (queuePort f.idx) = true
        then { x with late := satAdd 32 x.late 1 } else { x with frames := f :: x.frames } := by
  rw [retryTx, hmap, if_neg Bool.false_ne_true, if_neg Bool.false_ne_true, ← updTxQueue_ite]
  refine if_congr Option.isNone_iff_eq_none rfl (if_congr ?_ rfl rfl)
  rw [Bool.or_eq_true, Bool.and_eq_true, decide_eq_true_iff, decide_eq_true_iff]

theorem exec_portTransmitEnd {port : Nat} {f : TxFrame} (e : TxEnd) (hport : port < 12)
    (hf : Tab.get none s.pio.txing port = some f) :
    let g : State := { s with pio := { s.pio with txing := Tab.set none s.pio.txing port none } }
    let done := fun (s : State) => ({ s with pio := { s.pio with sentFrames := Tab.upd 0 s.pio.sentFrames port (· + 1) } } : State)
    let bad := g.updCan (port - 4) fun x => x.confine (x.tec + 8) x.rec_
    exec (.portTransmitEnd port e) s = .next
      (if port < 4 then done g
      else if s.pioDom (uCan (port - 4)) = none then (if e = .sent then done g else g)
      else match e with
        | .sent => done (g.updCan (port - 4) fun x => x.confine (x.tec - 1) x.rec_)
        | .arbLost => g.retryTx f
        | .error => (if bad.busOff port then bad.dropBusOff port else bad).retryTx f) := by
  intro g done bad
  have hdom : (g.pioDom (uCan (port - 4))).isNone = true ↔ s.pioDom (uCan (port - 4)) = none := Option.isNone_iff_eq_none
  change execPortTransmitEnd port e s = _
  rw [execPortTransmitEnd, if_neg (Nat.not_le.2 hport)]
  simp only [hf]
  refine Eq.trans ?_ (apply_ite Host.Outcome.next _ _ _).symm
  refine if_congr Iff.rfl rfl (Eq.trans ?_ (apply_ite Host.Outcome.next _ _ _).symm)
  refine if_congr hdom rfl ?_
  cases e <;> rfl

/-- Settles O43: which frame is next by the order of the lists it stands in, the rest by the branches of each row. -/
theorem framesAreSent : Obligations.FramesAreSent := by
  unfold Obligations.FramesAreSent
  refine ⟨fun s q w hq => ⟨exec_send hq, exec_queueFrameLate hq⟩, ?start,
    fun s port hm hq => ⟨fun hport => State.nextFrame_eth hport hm hq, fun hport => State.nextFrame_can hport hm hq⟩,
    TxFrame.arb_order, fun s port hport hfree hoff => ?off, State.dropBusOff_spec, fun s port f e hport hf => exec_portTransmitEnd e hport hf,
    fun s f => ⟨State.retryTx_map, State.retryTx_queue⟩⟩
  case start =>
    intro s port f bs hport hfree hoff hnext hwire htx hlast
    obtain ⟨ks, hks⟩ := (s.takeTx f).countTx_eq port f
    have hrow := exec_portTransmitStart hport hfree hoff hnext hwire hks.symm
    obtain ⟨hmacs, hsec⟩ := s.takeTx_macs_sec f
    have hcount := State.countTx_sec_congr hmacs hsec port f
    rw [hks] at hcount
    cases hmap : f.isMap with
    | true =>
      rw [State.takeTx_map hmap] at hcount hrow
      exact ⟨_, hrow, State.portFree_sensed hfree, Tab.get_set_self htx _ _, Tab.get_set_self hlast _ _, rfl, hcount,
        fun _ => ⟨rfl, rfl⟩, nofun⟩
    | false =>
      rw [State.takeTx_queue hmap] at hcount hrow
      exact ⟨_, hrow, State.portFree_sensed hfree, Tab.get_set_self htx _ _, Tab.get_set_self hlast _ _, rfl, hcount,
        nofun, fun _ => ⟨rfl, rfl⟩⟩
  case off =>
    exact (if_neg (Nat.not_le.2 hport)).trans ((if_neg (by rw [hfree]; decide)).trans (if_pos hoff))

end Sys2Proof.Machine
end

/-! ## O44: capture inputs, digital inputs and PWM outputs (R347, R348, R350 to R352) -/

section
namespace Sys2Proof.Machine

variable {s : State} {n : Nat}

/-! ### Encoders (R347) -/

/-- What an edge makes of COUNT, of the levels and of OVERSPEED. -/
theorem CapSt.edge_eq (x : CapSt) (a b : Bool) (t : Nat) :
    let both := (a != x.pinA.level) && (b != x.pinB.level)
    let fast := both || x.lastEdge.any fun l => decide (t < l + 10)
    let forward := if a != x.pinA.level then a != x.pinB.level else b == x.pinA.level
    (x.edge a b t).2 = fast ∧ (x.edge a b t).1.ovs = (fast || x.ovs) ∧ (x.edge a b t).1.cfg = x.cfg
    ∧ (x.edge a b t).1.count = (if both then x.count else wrapN 32 ((x.count : Int) + if forward then 1 else -1))
    ∧ (x.edge a b t).1.pinA.level = a ∧ (x.edge a b t).1.pinB.level = b ∧ (x.edge a b t).1.lastEdge = some t := by
  intro both fast forward
  simp only [edge]
  cases hb : (a != x.pinA.level && b != x.pinB.level) <;> cases hf : fast <;>
    simp only [fast, both, hb, Bool.true_or, Bool.false_or, reduceCtorEq] at hf <;>
    simp [both, hb, hf, forward, setCount]

theorem CapSt.edge_spec (x : CapSt) (a b : Bool) (t : Nat) :
    let y := (x.edge a b t).1
    let fast := (a ≠ x.pinA.level ∧ b ≠ x.pinB.level) ∨ ∃ l, x.lastEdge = some l ∧ t < l + 10
    (a ≠ x.pinA.level → b = x.pinB.level → y.count = wrapN 32 ((x.count : Int) + if a = b then -1 else 1))
    ∧ (a = x.pinA.level → b ≠ x.pinB.level → y.count = wrapN 32 ((x.count : Int) + if a = b then 1 else -1))
    ∧ (a ≠ x.pinA.level → b ≠ x.pinB.level → y.count = x.count)
    ∧ y.pinA.level = a ∧ y.pinB.level = b ∧ y.lastEdge = some t
    ∧ (fast → (x.edge a b t).2 = true ∧ y.ovs = true) ∧ (¬ fast → (x.edge a b t).2 = false ∧ y.ovs = x.ovs) := by
  intro y fast
  obtain ⟨h2, hovs, -, hcount, hA, hB, hlast⟩ := x.edge_eq a b t
  have hfast : ((a != x.pinA.level && b != x.pinB.level) || x.lastEdge.any fun l => decide (t < l + 10)) = true ↔ fast := by
    rw [Bool.or_eq_true, Bool.and_eq_true, bne_iff_ne, bne_iff_ne, Option.any_eq_true]
    simp only [fast, decide_eq_true_iff]
  refine ⟨fun ha hb => hcount.trans ?_, fun ha hb => hcount.trans ?_, fun ha hb => hcount.trans ?_, hA, hB, hlast, fun hf => ?_, fun hf => ?_⟩
  · have hboth : ¬ (a != x.pinA.level && b != x.pinB.level) = true := by simp [hb]
    rw [if_neg hboth, if_pos (bne_iff_ne.2 ha), ← hb]
    simp only [bne_iff_ne, ne_eq, ite_not]
  · have hboth : ¬ (a != x.pinA.level && b != x.pinB.level) = true := by simp [ha]
    have hlevel : ¬ (a != x.pinA.level) = true := by simp [ha]
    rw [if_neg hboth, if_neg hlevel, ← ha]
    simp only [beq_iff_eq, eq_comm (a := b)]
  · exact if_pos (by rw [Bool.and_eq_true, bne_iff_ne, bne_iff_ne]; exact ⟨ha, hb⟩)
  · rw [hfast.2 hf] at h2 hovs
    exact ⟨h2, hovs⟩
  · rw [Bool.eq_false_of_not_eq_true fun h => hf (hfast.1 h)] at h2 hovs
    exact ⟨h2, hovs⟩

theorem EncPin.due_none {p : EncPin} {f t : Nat} (h : p.raw = p.level ∨ t < p.since + f) : p.due f t = none :=
  if_neg fun ⟨hne, hle⟩ => h.elim hne fun hlt => Nat.not_le.2 hlt hle

theorem CapSt.settle_spec (x : CapSt) (t : Nat) (hB : x.pinB.raw = x.pinB.level) :
    (x.pinA.raw ≠ x.pinA.level → x.pinA.since + x.filterNs ≤ t →
      (x.settle t).1 = (x.edge x.pinA.raw x.pinB.level (x.pinA.since + x.filterNs)).1)
    ∧ (x.pinA.raw = x.pinA.level ∨ t < x.pinA.since + x.filterNs → x.settle t = (x, 0)) := by
  refine ⟨fun hne hle => ?_, fun hno => ?_⟩
  · have hA : x.pinA.due x.filterNs t = some (x.pinA.since + x.filterNs) := if_pos ⟨hne, hle⟩
    simp only [settle, hA, EncPin.due_none (.inl hB)]
  · simp only [settle, EncPin.due_none hno, EncPin.due_none (.inl hB)]

theorem CapSt.settle_cfg (x : CapSt) (t : Nat) : (x.settle t).1.cfg = x.cfg := by
  have hedge (y : CapSt) (a b : Bool) (u : Nat) : (y.edge a b u).1.cfg = y.cfg := (y.edge_eq a b u).2.2.1
  simp only [settle]
  split
  · rfl
  · exact hedge ..
  · exact hedge ..
  · split
    · exact hedge ..
    · split
      · exact (hedge ..).trans (hedge ..)
      · exact (hedge ..).trans (hedge ..)

/-- Settling an encoder's pins changes no input's configuration, and nothing that says which units work. -/
theorem State.cap_encSettle_cfg (h : Tab.wf ({} : CapSt) s.pio.caps = true) (n t m : Nat) :
    ((s.encSettle n t).cap m).cfg = (s.cap m).cfg ∧ Tab.wf ({} : CapSt) (s.encSettle n t).pio.caps = true := by
  rw [encSettle]
  split
  · have hpio : (((List.range ((s.cap n).settle t).2).foldl (fun s _ => s.pioRecord 5 0 (uCap n) 0)
        (s.updCap n fun _ => ((s.cap n).settle t).1))).pio = (s.updCap n fun _ => ((s.cap n).settle t).1).pio := by
      refine foldl_keeps (P := fun u : State => u.pio = (s.updCap n fun _ => ((s.cap n).settle t).1).pio) (fun u _ hu => ?_) _ rfl
      obtain ⟨r, hr⟩ := u.record_eq 5 0 (u.pioDom (uCap n)) skPio (uCap n) 0 0
      rw [pioRecord, hr]
      exact hu
    dsimp only
    rw [cap, hpio]
    refine ⟨?_, Tab.wf_upd h n fun _ => ((s.cap n).settle t).1⟩
    change ((s.updCap n fun _ => ((s.cap n).settle t).1).cap m).cfg = _
    rw [cap_updCap h]
    split
    · rename_i hm
      rw [hm]
      exact CapSt.settle_cfg ..
    · rfl
  · exact ⟨rfl, h⟩

/-- Whether an input works depends on its configuration and its owner. -/
theorem State.pioOn_cap_congr {t : State} (hn : n < 16) (hcfg : (t.cap n).cfg = (s.cap n).cfg) (hown : t.pio.own = s.pio.own) :
    t.pioOn (uCap n) = s.pioOn (uCap n) := by
  have hreg (u : State) : u.pioCfg (uCap n) = (u.cap n).cfg.toNat := by
    rw [pioCfg, uCap, if_neg (by omega), if_neg (by omega), if_pos (by omega), Nat.add_sub_cancel_left]
  have hdom : t.pioDom (uCap n) = s.pioDom (uCap n) := by simp only [pioDom, hown]
  rw [pioOn, pioOn, hreg, hreg, hcfg, hdom]

theorem State.encoderOn_of (hacts : s.var.acts = true) (hon : s.pioOn (uCap n) = true) (hmode : natBits (s.cap n).cfg.toNat 62 61 = 0) :
    s.encoderOn n = true := by
  rw [encoderOn, hacts, hon, hmode]
  rfl

theorem exec_encoderTransition (hn : n < 16) (hacts : s.var.acts = true) (hon : s.pioOn (uCap n) = true) {a b : Bool} {t : Nat}
    (hmode : natBits (s.cap n).cfg.toNat 62 61 = 0) (ht : t ≤ s.dt) (hwf : Tab.wf ({} : CapSt) s.pio.caps = true) :
    exec (.encoderTransition n a b t) s = .next
      (((s.encSettle n t).updCap n fun y => { y with pinA := y.pinA.set a t, pinB := y.pinB.set b t }).encSettle n t) := by
  obtain ⟨hcfg, hwf'⟩ := State.cap_encSettle_cfg hwf n t n
  obtain ⟨caps, ras, he⟩ := s.sameButCaps_encSettle n t
  have hoff : ¬ (!s.var.acts || decide (s.dt < t)) = true := by simp [hacts, ht]
  refine (if_neg (Nat.not_le.2 hn)).trans ((if_neg hoff).trans (if_pos ?_))
  have hcap : (((s.encSettle n t).updCap n fun y => { y with pinA := y.pinA.set a t, pinB := y.pinB.set b t }).cap n).cfg
      = (s.cap n).cfg := by
    rw [State.cap_updCap hwf', if_pos rfl]
    exact hcfg
  refine State.encoderOn_of ?_ ((State.pioOn_cap_congr hn hcap (by rw [he]; rfl)).trans hon) (hcap ▸ hmode)
  rw [he]
  exact hacts

theorem exec_encoderIndexEdge (hn : n < 16) (hacts : s.var.acts = true) (hon : s.pioOn (uCap n) = true) {t : Nat}
    (hmode : natBits (s.cap n).cfg.toNat 62 61 = 0) (hz : natBit (s.cap n).cfg.toNat 58 = true) (ht : t ≤ s.dt) :
    exec (.encoderIndexEdge n t) s = .next ((s.encSettle n t).updCap n fun y => y.setCount 0 t) := by
  have hoff : ¬ (!s.encoderOn n || !natBit (s.cap n).cfg.toNat 58 || decide (s.dt < t)) = true := by
    simp [State.encoderOn_of hacts hon hmode, hz, ht]
  exact (if_neg (Nat.not_le.2 hn)).trans (if_neg hoff)

/-! ### SENT (R348) -/

theorem exec_sentMessageEnd (hn : n < 16) (hacts : s.var.acts = true) (hon : s.pioOn (uCap n) = true) (msg : SentMsg)
    (hmode : natBits (s.cap n).cfg.toNat 62 61 = 1) (ht : msg.tEnd ≤ s.dt) :
    let r := Config.freeValue s.freeCtr
    let u := ({ s with freeCtr := s.freeCtr + 1 } : State).updCap n fun y => { y with prevCal := some msg.cal }
    let st := (sentNibble msg.cal (msg.nibbles.headD 0) (natBit r 0)).getD 0
    exec (.sentMessageEnd n msg) s = .next (match (s.cap n).sentDecode msg r with
      | some (a, b) => u.updCap n fun y =>
          { y with
            good := some (a, b, msg.tEnd), errRun := 0, status := (st :: y.status).take 18
            slow := (Config.sentSlow ((st :: y.status).take 18)).orElse fun _ => y.slow }
      | none => u.updCap n fun y => { y with serr := satAdd 16 y.serr 1, errRun := y.errRun + 1, status := [] }) := by
  intro r u st
  have hoff : ¬ (!s.var.acts || !s.pioOn (uCap n) || decide (natBits (s.cap n).cfg.toNat 62 61 ≠ 1) || decide (s.dt < msg.tEnd)) = true := by
    simp [hacts, hon, hmode, ht]
  refine (if_neg (Nat.not_le.2 hn)).trans ((if_neg hoff).trans ?_)
  simp only [State.draw]
  change (match (s.cap n).sentDecode msg r with
    | some (a, b) => _
    | none => _) = _
  cases (s.cap n).sentDecode msg r <;> rfl

/-! ### Digital inputs (R350, R351) -/

theorem DinSt.runDone_iff (x : DinSt) (t : Nat) : x.runDone t = true ↔
    (x.raw != natBit x.cfg.toNat 62) ≠ x.filt ∧ x.rawAt + natBits x.cfg.toNat 61 42 ≤ t := by
  rw [runDone, Bool.and_eq_true, bne_iff_ne, decide_eq_true_iff]

theorem exec_dinRawEdge {i : Nat} (hi : i < 32) (hacts : s.var.acts = true) (hon : s.pioOn (uDin i) = true) {lvl : Bool} {t : Nat}
    (hraw : (s.din i).raw ≠ lvl) (ht : t ≤ s.dt) :
    let x := s.din i
    let act := x.raw != natBit x.cfg.toNat 62
    exec (.dinRawEdge i lvl t) s = .next
      ((if act = x.filt then s
        else if x.rawAt + natBits x.cfg.toNat 61 42 ≤ t then s.dinFilter i act x.rawAt
        else s.updDin i fun y => { y with glitch := satAdd 32 y.glitch 1 }).updDin i fun y => { y with raw := lvl, rawAt := t }) := by
  intro x act
  have hoff : ¬ (!s.var.acts || decide ((s.din i).raw = lvl) || decide (s.dt < t)) = true := by simp [hacts, hraw, ht]
  refine (if_neg (Nat.not_le.2 hi)).trans ((if_neg hoff).trans ((if_neg (by rw [hon]; decide)).trans ?_))
  refine congrArg (fun u : State => Host.Outcome.next (u.updDin i fun y => { y with raw := lvl, rawAt := t })) ?_
  by_cases hact : act = x.filt
  · rw [if_pos hact]
    exact (if_neg fun h => ((x.runDone_iff t).1 h).1 hact).trans (if_neg fun h => bne_iff_ne.1 h hact)
  · rw [if_neg hact]
    by_cases hrun : x.rawAt + natBits x.cfg.toNat 61 42 ≤ t
    · rw [if_pos hrun]
      exact if_pos ((x.runDone_iff t).2 ⟨hact, hrun⟩)
    · rw [if_neg hrun]
      exact (if_neg fun h => hrun ((x.runDone_iff t).1 h).2).trans (if_pos (bne_iff_ne.2 hact))

theorem exec_dinFilterExpiry {i : Nat} (hi : i < 32) (hacts : s.var.acts = true) (hon : s.pioOn (uDin i) = true)
    (hact : ((s.din i).raw != natBit (s.din i).cfg.toNat 62) ≠ (s.din i).filt)
    (hrun : (s.din i).rawAt + natBits (s.din i).cfg.toNat 61 42 ≤ s.dt) :
    exec (.dinFilterExpiry i) s = .next (s.dinFilter i ((s.din i).raw != natBit (s.din i).cfg.toNat 62) (s.din i).rawAt) := by
  have hoff : ¬ (!s.var.acts || !s.pioOn (uDin i) || !(s.din i).runDone s.dt) = true := by
    simp [hacts, hon, ((s.din i).runDone_iff s.dt).2 ⟨hact, hrun⟩]
  exact (if_neg (Nat.not_le.2 hi)).trans (if_neg hoff)

theorem exec_dinStuckExpiry {i : Nat} (hi : i < 32) (hacts : s.var.acts = true) (hstuck : s.stuckAt i s.dt = true)
    (hnot : (s.din i).stuck = false) :
    let u := (s.updDin i fun y => { y with stuck := true }).pioRecord 5 1 (uDin i) 0
    exec (.dinStuckExpiry i) s = .next
      (if natBit (s.din i).cfg.toNat 24 then u.pioTally (uDin i) (natBits (s.din i).cfg.toNat 23 6) else u) :=
  (if_neg (Nat.not_le.2 hi)).trans (if_neg (by simp [hacts, hstuck, hnot]))

/-! ### PWM outputs (R352) -/

theorem exec_pwmOnTimeEnd {o : Nat} (ho : o < 16) (hlive : s.pwmLive o = true) :
    exec (.pwmOnTimeEnd o) s = .next (s.updPwm o fun x =>
      let up := if x.rise.any (· ≤ s.dt) then true else x.active
      { x with
        rise := x.rise.filter (s.dt < ·), fall := x.fall.filter (s.dt < ·)
        active := if x.fall.any (· ≤ s.dt) then false else up }) :=
  (if_neg (Nat.not_le.2 ho)).trans (if_neg (by rw [hlive]; decide))

theorem pwmLead_off {c : Nat} (h : natBit c 62 = false) (on r : Nat) : pwmLead c on r = 0 := if_neg (ne_true_of_eq_false h)

/-- A centred on-time: where the rest of the period is odd, either half may be the longer. -/
theorem pwmLead_centred {c : Nat} (h : natBit c 62 = true) (on r : Nat) :
    pwmLead c on r = (natBits c 59 32 - on) / 2 ∨ pwmLead c on r = (natBits c 59 32 - on + 1) / 2 := by
  rw [pwmLead, if_pos h]
  split <;> omega

/-- A period of a PWM output as it starts. -/
def PwmSt.period (x : PwmSt) (start lead : Nat) : PwmSt :=
  let c := x.pend.getD x.c
  let per := natBits x.cfg.toNat 59 32
  let on := per * c / 65536
  { x with
    c := c, pend := none, start := some start, active := decide (0 < on ∧ lead = 0)
    rise := if 0 < on ∧ 0 < lead then some (start + lead) else none
    fall := if 0 < on ∧ lead + on < per then some (start + lead + on) else none }

theorem State.pwm_updPwm (h : Tab.wf ({} : PwmSt) s.pio.pwms = true) (o p : Nat) (f : PwmSt → PwmSt) :
    (s.updPwm o f).pwm p = if p = o then f (s.pwm o) else s.pwm p := Tab.get_upd h o p f

theorem State.updPwm_congr {o : Nat} {f g : PwmSt → PwmSt} (h : f (s.pwm o) = g (s.pwm o)) : s.updPwm o f = s.updPwm o g :=
  congrArg (fun l => { s with pio := { s.pio with pwms := l } }) (Tab.upd_congr h)

theorem exec_pwmPeriodStart {o : Nat} (ho : o < 16) (hlive : s.pwmLive o = true) (hstart : (s.pwm o).start ≠ some (s.pwmStart o))
    (hwf : Tab.wf ({} : PwmSt) s.pio.pwms = true) :
    let x := s.pwm o
    let c := x.pend.getD x.c
    let per := natBits x.cfg.toNat 59 32
    let on := per * c / 65536
    ∃ (t : State) (lead : Nat), exec (.pwmPeriodStart o) s = .next t
      ∧ (natBit x.cfg.toNat 62 = false → lead = 0)
      ∧ (natBit x.cfg.toNat 62 = true → lead = (per - on) / 2 ∨ lead = (per - on + 1) / 2)
      ∧ { t with pio := { t.pio with pwms := s.pio.pwms }, freeCtr := s.freeCtr } = s
      ∧ (∀ p, p ≠ o → t.pwm p = s.pwm p)
      ∧ t.pwm o = x.period (s.pwmStart o) lead := by
  intro x c per on
  obtain ⟨lead, hlead⟩ : ∃ lead, lead = pwmLead x.cfg.toNat on (Config.freeValue s.freeCtr) := ⟨_, rfl⟩
  have hrow : exec (.pwmPeriodStart o) s
      = .next (({ s with freeCtr := s.freeCtr + 1 } : State).updPwm o fun _ => x.period (s.pwmStart o) lead) := by
    refine ((if_neg (Nat.not_le.2 ho)).trans (if_neg (by simp [hlive, hstart]))).trans (congrArg Host.Outcome.next ?_)
    refine State.updPwm_congr ?_
    rw [hlead, PwmSt.period, Bool.decide_and]
    rfl
  refine ⟨_, lead, hrow, fun h => hlead.trans (pwmLead_off h _ _), fun h => hlead ▸ pwmLead_centred h _ _, rfl,
    fun p hp => ?_, ?_⟩
  · rw [State.pwm_updPwm (s := { s with freeCtr := s.freeCtr + 1 }) hwf, if_neg hp]
    rfl
  · rw [State.pwm_updPwm (s := { s with freeCtr := s.freeCtr + 1 }) hwf, if_pos rfl]

/-- Settles O44: each row by the branches of its function; an encoder's configuration outlives its edges. -/
theorem inputsAreCapturedAndFiltered : Obligations.InputsAreCapturedAndFiltered := by
  unfold Obligations.InputsAreCapturedAndFiltered
  exact ⟨fun s n hn hacts hon => ⟨fun a b t => exec_encoderTransition hn hacts hon, fun t => exec_encoderIndexEdge hn hacts hon,
      fun msg => exec_sentMessageEnd hn hacts hon msg⟩, CapSt.edge_spec, CapSt.settle_spec,
    fun s i hi hacts hon => ⟨fun lvl t => exec_dinRawEdge hi hacts hon, exec_dinFilterExpiry hi hacts hon, exec_dinStuckExpiry hi hacts⟩,
    fun s o ho hlive => ⟨exec_pwmOnTimeEnd ho hlive, exec_pwmPeriodStart ho hlive⟩⟩

end Sys2Proof.Machine
end

/-! ## O45: device time, its discipline, and gPTP (R321 to R323, R325 to R327, R329, R331) -/

section
namespace Sys2Proof.Machine

variable {s : State}

/-! ### The timebase (R321) -/

/-- One cycle moves DT and its fraction together by a nanosecond and RATE. -/
theorem Time.tick_spec (x : Time) (hfrac : x.frac < 2 ^ 40) (hdt : x.dt + 2 < 2 ^ 64) (hlo : -109951162 ≤ x.rate) (hhi : x.rate ≤ 109951162) :
    let y := x.tick
    y.frac < 2 ^ 40 ∧ ((y.dt : Int) * 2 ^ 40 + y.frac = (x.dt : Int) * 2 ^ 40 + x.frac + 2 ^ 40 + x.rate)
    ∧ { y with dt := x.dt, frac := x.frac } = x := by
  have hd : x.tick.dt = ((x.dt : Int) + 1 + ((x.frac : Int) + x.rate) / ((2 ^ 40 : Nat) : Int)).toNat % 2 ^ 64 := rfl
  have hf : x.tick.frac = (((x.frac : Int) + x.rate) % ((2 ^ 40 : Nat) : Int)).toNat := rfl
  refine ⟨?_, ?_, rfl⟩
  · rw [hf]
    omega
  · rw [hd, hf]
    omega

/-! ### The discipline (R325 to R327) -/

/-- The phase of an edge stamped `t` (R326). -/
def Time.phase (x : Time) (t : Nat) : Int :=
  let p : Int := ((t : Int) - x.dly + x.epoch.toInt) % 1000000000
  if p < 500000000 then p else p - 1000000000

theorem Time.servo_acquire {x : Time} (h : x.disc = .acquire) (t : Nat) : x.servo t =
    { x with
      phi := x.phase t, epoch := BitVec.ofInt 64 (x.epoch.toInt - x.phase t), lastStep := -x.phase t, tbi := (x.tbi + 1) % 65536
      nok := 0, disc := .track } :=
  if_pos h

theorem Time.servo_tracks {x : Time} (h : x.disc = .track ∨ x.disc = .locked ∨ x.disc = .holdover) (t : Nat) :
    let phi := x.phase t
    let f := rateClamp (x.freq - roundDiv (phi * 2 ^ 40) 16000000000)
    let k := if phi.natAbs ≤ 100 then x.nok + 1 else 0
    x.servo t =
      { x with
        phi := phi, freq := f, rate := rateClamp (f - roundDiv (phi * 2 ^ 40) 2000000000)
        disc := if x.disc = .track then (if 16 ≤ k then Disc.locked else .track)
          else if x.disc = .locked then (if 1000 < phi.natAbs then .track else .locked) else .track
        nok := if x.disc = .locked ∧ 1000 < phi.natAbs then 0 else k } := by
  intro phi f k
  have hne : ¬ x.disc = .acquire := by rcases h with h | h | h <;> rw [h] <;> decide
  refine (if_neg hne).trans ?_
  rcases h with h | h | h <;> simp only [h, reduceCtorEq, if_true, if_false, true_and, false_and]
  · by_cases hk : 16 ≤ k
    · rw [if_pos hk]
      exact (if_pos hk).trans rfl
    · rw [if_neg hk]
      exact (if_neg hk).trans (by rw [← h] <;> rfl)
  · by_cases hp : 1000 < phi.natAbs
    · rw [if_pos hp, if_pos hp]
      exact if_pos hp
    · rw [if_neg hp, if_neg hp]
      exact (if_neg hp).trans (by rw [← h] <;> rfl)
  · rfl

theorem Time.settle_of_edge {x : Time} {t : Nat} (h : x.edge = some t) :
    x.settle = if t < x.dt then ({ x with edge := none } : Time).servo t else x := by
  simp only [settle, h]

/-- An active edge far enough from the one before is accepted. -/
theorem exec_ppsInEdge_accepted {t : Nat} (hacts : s.var.acts = true) (hen : s.time.en = true) (ht : t ≤ s.dt)
    (hfar : ∀ l, s.time.lastEdge = some l → l + 900000000 ≤ t) :
    exec (.ppsInEdge (t, !s.time.pol)) s = .next { s with time :=
      { s.time with acc := satAdd 32 s.time.acc 1, lastEdge := some t, edge := some t }.settle } := by
  have hoff : ¬ (!s.var.acts || !s.time.en || decide (s.dt < t) || decide ((!s.time.pol) = s.time.pol)) = true := by
    simp [hacts, hen, ht]
  refine (if_neg hoff).trans (if_pos ?_)
  rw [Option.all_eq_true]
  exact fun l hl => decide_eq_true (hfar l hl)

theorem exec_ppsInEdge_rejected {t : Nat} (hacts : s.var.acts = true) (hen : s.time.en = true) (ht : t ≤ s.dt)
    (hnear : ¬ ∀ l, s.time.lastEdge = some l → l + 900000000 ≤ t) :
    exec (.ppsInEdge (t, !s.time.pol)) s = .next { s with time := { s.time with rej := satAdd 16 s.time.rej 1 } } := by
  have hoff : ¬ (!s.var.acts || !s.time.en || decide (s.dt < t) || decide ((!s.time.pol) = s.time.pol)) = true := by
    simp [hacts, hen, ht]
  refine (if_neg hoff).trans (if_neg fun h => hnear fun l hl => ?_)
  rw [Option.all_eq_true] at h
  exact of_decide_eq_true (h l hl)

theorem exec_holdoverTimeout (hst : s.time.disc = .track ∨ s.time.disc = .locked)
    (hlate : ∀ l, s.time.lastEdge = some l → l + 1500000000 < s.dt) :
    exec .holdoverTimeout s = .next { s with time :=
      { s.time with disc := .holdover, rate := max (-109951162) (min 109951162 s.time.freq), hold := satAdd 16 s.time.hold 1 } } := by
  refine if_pos ⟨hst, ?_⟩
  rw [Option.all_eq_true]
  exact fun l hl => decide_eq_true (hlate l hl)

/-! ### Timing outputs (R329) -/

theorem exec_ppsOutEdge_rise (hacts : s.var.acts = true) (hp : s.time.ppsHigh = false) (hc : s.time.clkHigh = false)
    (hpen : s.time.pen = true) (hten : s.time.ten = true) (hz : s.time.ptp % 1000000000 = 0) :
    exec .ppsOutEdge s = .next { s with time :=
      { s.time with ppsHigh := true, ppsFall := s.dt + s.time.pw, clkHigh := true, clkFall := s.dt + 50 } } := by
  have hz' : s.time.ptp % 100 = 0 := by omega
  refine (if_neg (by rw [hacts]; decide)).trans ?_
  simp only [hp, hc, hpen, hten, hz, hz', Bool.false_eq_true, if_false, Int.toNat_zero, Nat.zero_le, decide_true, Bool.and_self, if_true,
    Nat.sub_zero]
  rfl

theorem exec_ppsOutEdge_fall (hacts : s.var.acts = true) (hp : s.time.ppsHigh = true) (hpf : s.time.ppsFall ≤ s.dt)
    (hc : s.time.clkHigh = true) (hcf : s.time.clkFall ≤ s.dt) :
    exec .ppsOutEdge s = .next { s with time := { s.time with ppsHigh := false, clkHigh := false } } := by
  have hpf' : s.time.ppsFall ≤ s.time.dt := hpf
  have hcf' : s.time.clkFall ≤ s.time.dt := hcf
  refine (if_neg (by rw [hacts]; decide)).trans ?_
  simp only [hp, hc, hpf', hcf', if_true]

/-! ### gPTP (R323, R331) -/

theorem Disc.clock_eq (d : Disc) :
    d.clock = (if d = .locked then 6 else if d = .holdover then 7 else 248, if d = .locked ∨ d = .holdover then 0x20 else 0xA0) := by
  cases d <;> rfl

theorem exec_gptpAnnounceTimer {m : Nat} (hm : m < 4) (hport : s.ptpPort m = true) (hdue : Tab.get 0 s.time.nextAnn m ≤ s.dt) :
    let x := s.time
    let vals := [x.prio1, x.prio2, if x.disc = .locked then 6 else if x.disc = .holdover then 7 else 248,
      if x.disc = .locked ∨ x.disc = .holdover then 0x20 else 0xA0, s.clockIdentity]
    exec (.gptpAnnounceTimer m) s = .next { s with time := { x with
      sent := x.sent ++ [⟨m, 11, vals, s.gFrame m 11 vals⟩]
      nextAnn := Tab.set 0 x.nextAnn m (s.dt + logInterval x.lann) } } := by
  intro x vals
  have hoff : ¬ (!s.ptpPort m || decide (s.dt < Tab.get 0 s.time.nextAnn m)) = true := by simp [hport, hdue]
  refine ((if_neg (Nat.not_le.2 hm)).trans (if_neg hoff)).trans ?_
  rw [Disc.clock_eq]
  rfl

theorem length_gHeader (a : Nat) : ((toLE 6 0x0180C200000E).reverse ++ (toLE 6 a).reverse).length = 12 := by
  rw [List.length_append, List.length_reverse, List.length_reverse, length_toLE, length_toLE]

theorem State.gFrame_spec (s : State) (m k : Nat) (v : List Nat) :
    (s.gFrame m k v).take 6 = [0x01, 0x80, 0xC2, 0x00, 0x00, 0x0E]
    ∧ (∀ i, i < 6 → (s.gFrame m k v).getD (6 + i) 0 = BitVec.ofNat 8 ((s.mac m).addr.toNat / 256 ^ (5 - i)))
    ∧ ((s.gFrame m k v).drop 12).take 2 = [0x88, 0xF7] ∧ (s.gFrame m k v).drop 14 = Config.gptpBody k m s.clockIdentity v := by
  have hdst : (toLE 6 0x0180C200000E).reverse = ([0x01, 0x80, 0xC2, 0x00, 0x00, 0x0E] : List Byte) := by decide
  have hlen := length_toLE 6 (s.mac m).addr.toNat
  have hgd (i : Nat) (hi : i < 6) : ((toLE 6 (s.mac m).addr.toNat).reverse).getD i 0 = (toLE 6 (s.mac m).addr.toNat).getD (5 - i) 0 := by
    rw [List.getD_eq_getElem _ _ (by rw [List.length_reverse, hlen]; exact hi), List.getElem_reverse,
      List.getD_eq_getElem _ _ (by rw [hlen]; omega)]
    simp only [hlen, Nat.add_one_sub_one]
  rw [gFrame, hdst]
  refine ⟨rfl, fun i hi => ?_, ?_, ?_⟩
  · rw [List.append_assoc, List.append_assoc, List.getD_append_right _ _ _ _ (by simp), List.getD_append _ _ _ _ (by simp [hlen]; omega)]
    rw [show 6 + i - ([0x01, 0x80, 0xC2, 0x00, 0x00, 0x0E] : List Byte).length = i by simp, hgd i hi, getD_toLE _ (by omega)]
  · rw [← hdst, List.append_assoc, List.drop_left' (length_gHeader _)]
    rfl
  · rw [← hdst, List.append_assoc, ← List.drop_drop (i := 2) (j := 12), List.drop_left' (length_gHeader _)]
    rfl

/-- Settles O45: the timebase by its sum, an edge by the servo of its state, a message by its frame. -/
theorem timeIsKeptAndSent : Obligations.TimeIsKeptAndSent := by
  unfold Obligations.TimeIsKeptAndSent
  refine ⟨⟨Time.tick_spec, fun s t hacts hen => ?edge, fun s => exec_holdoverTimeout, fun s => exec_ppsOutEdge_rise,
    fun s => exec_ppsOutEdge_fall⟩, fun s m hm hport => ?gptp⟩
  case edge =>
    intro x p phi far
    refine ⟨fun hfar hlt hd => ?_, fun hfar hlt hd => ?_, fun hfar he => ?_, fun he => Time.settle_of_edge he,
      fun hnear ht => exec_ppsInEdge_rejected hacts hen ht hnear, ?_⟩
    · refine (exec_ppsInEdge_accepted hacts hen hlt.le hfar).trans (congrArg (fun z => Host.Outcome.next { s with time := z }) ?_)
      exact (Time.settle_of_edge rfl).trans ((if_pos hlt).trans (Time.servo_acquire (x := { x with acc := satAdd 32 x.acc 1, lastEdge := some t, edge := none }) hd t))
    · intro f k d
      refine (exec_ppsInEdge_accepted hacts hen hlt.le hfar).trans (congrArg (fun z => Host.Outcome.next { s with time := z }) ?_)
      exact (Time.settle_of_edge rfl).trans ((if_pos hlt).trans (Time.servo_tracks (x := { x with acc := satAdd 32 x.acc 1, lastEdge := some t, edge := none }) hd t))
    · refine (exec_ppsInEdge_accepted hacts hen he.le hfar).trans (congrArg (fun z => Host.Outcome.next { s with time := z }) ?_)
      exact (Time.settle_of_edge rfl).trans (if_neg (Nat.not_lt.2 he.ge))
    · exact if_pos (by simp [x])
  case gptp =>
    intro x msg send out
    have hrow {α : Sort _} (due : Nat) (hdue : due ≤ s.dt) (a b : α) :
        (if (!s.ptpPort m || decide (s.dt < due)) = true then a else b) = b := if_neg (by simp [hport, hdue])
    refine ⟨fun hdue => (if_neg (Nat.not_le.2 hm)).trans (hrow _ hdue _ _), exec_gptpAnnounceTimer hm hport,
      fun hdue => (if_neg (Nat.not_le.2 hm)).trans (hrow _ hdue _ _), fun q t ht => ?_, s.gFrame_spec m, fun k hk => ?_⟩
    · exact ⟨(if_neg (Nat.not_le.2 hm)).trans (hrow _ ht _ _), (if_neg (Nat.not_le.2 hm)).trans (hrow _ ht _ _)⟩
    · rw [exec_gptpForeignReceived hm, if_pos ⟨hport, by rcases hk with rfl | rfl | rfl <;> decide⟩]

end Sys2Proof.Machine
end

/-! ## O46: functions that come and go (R356, R377, R387 to R389, R411, R469) -/

section
namespace Sys2Proof.Machine

variable {s : State} {fn : Fn}

/-! ### Settings of a function -/

/-- One association of each stream: in a list of the last ones written no stream stands twice. -/
theorem CfgSpace.oneEach_spec (cfg : CfgSpace) :
    cfg.oneEach.assoc.length ≤ 2 ∧ cfg.oneEach.assoc.Pairwise (fun x y => x.stream ≠ y.stream)
    ∧ (∀ x ∈ cfg.oneEach.assoc, x ∈ cfg.assoc) ∧ { cfg.oneEach with assoc := cfg.assoc } = cfg := by
  have hlast {i : Nat} {b : IdeAssoc} (hb : (match cfg.assoc[i]? with
      | some r => if (cfg.assoc.drop (i + 1)).any (·.stream == r.stream) then none else some r
      | none => none) = some b) :
      cfg.assoc[i]? = some b ∧ ∀ r ∈ cfg.assoc.drop (i + 1), r.stream ≠ b.stream := by
    cases hi : cfg.assoc[i]? with
    | none => simp [hi] at hb
    | some r =>
      simp only [hi, Option.ite_none_left_eq_some, Option.some.injEq, List.any_eq_true, beq_iff_eq, not_exists, not_and] at hb
      obtain ⟨hno, rfl⟩ := hb
      exact ⟨rfl, hno⟩
  refine ⟨by simp only [CfgSpace.oneEach, List.length_take]; exact Nat.min_le_left _ _, ?_, fun x hx => ?_, rfl⟩
  · refine List.Pairwise.sublist (List.take_sublist _ _) (List.pairwise_lt_range.filterMap _ fun i j hij b hb c hc => ?_)
    obtain ⟨-, hno⟩ := hlast hb
    obtain ⟨hj, -⟩ := hlast hc
    refine (hno c (List.mem_iff_getElem?.2 ⟨j - (i + 1), ?_⟩)).symm
    rw [List.getElem?_drop, Nat.add_sub_cancel' hij, hj]
  · obtain ⟨i, -, hi⟩ := List.mem_filterMap.1 (List.mem_of_mem_take hx)
    exact List.mem_of_getElem? (hlast hi).1

/-! ### Tunnels, resets and power states (R387, R388) -/

theorem exec_tunnelUp {gen : Nat} {bme : Bool} {cfg : CfgSpace} (hls : (s.fnSt fn).ls ≠ 2) (hrst : s.boot.inReset = false)
    (hstep : 4 ≤ s.boot.step) :
    exec (.tunnelUp fn gen bme cfg) s = .next (((s.updFn fn fun x =>
        { x with bme := bme && x.ready, cfg := if x.ready then cfg.oneEach else x.cfg }).updFn fn fun x =>
      { x with ls := 2, gen := min (max gen 1) 3, bmeNext := bme, cfgNext := cfg.oneEach }).postDevice 8 2 0 (fnNum fn)) := by
  rw [State.updFn_updFn]
  exact if_neg (by simp [hls, hrst, Nat.not_lt.2 hstep])

/-- Where every vector that is not masked owes no message, flushing sends none. -/
theorem State.msixFlush_of_no_pend (h : (s.fnSt fn).msixPend = 0) : s.msixFlush fn = s := by
  have hone {n : Nat} (hn : natBit (s.fnSt fn).msixMask n = false) : s.msixUnmask fn n = s := by
    have hset : (s.updFn fn fun f => { f with msixMask := if natBit f.msixMask n then f.msixMask - 2 ^ n else f.msixMask }) = s := by
      refine (updFn_congr (g := fun f => f) ?_).trans (by cases fn <;> rfl)
      rw [if_neg (ne_true_of_eq_false hn)]
    rw [msixUnmask, hset, h]
    exact if_neg (by simp [natBit])
  have hall (l : List Nat) (hl : ∀ n ∈ l, natBit (s.fnSt fn).msixMask n = false) : l.foldl (fun s n => s.msixUnmask fn n) s = s := by
    induction l with
    | nil => rfl
    | cons n l ih =>
      rw [List.foldl_cons, hone (hl n List.mem_cons_self)]
      exact ih fun m hm => hl m (List.mem_cons_of_mem _ hm)
  exact hall _ fun n hn => by simpa using (List.mem_filter.1 hn).2

/-- Bits that a 1 clears. -/
theorem natBit_and_clear {a v i : Nat} (hv : v < 2 ^ 32) (hi : i < 32) :
    natBit (a &&& (2 ^ 32 - 1 - v)) i = (natBit a i && !natBit v i) := by
  rw [natBit, natBit, natBit, Nat.testBit_and, Nat.sub_sub, Nat.add_comm 1 v, Nat.testBit_two_pow_sub_succ hv, decide_eq_true hi, Bool.true_and]

theorem natBit_mod {v i n : Nat} (hi : i < n) : natBit (v % 2 ^ n) i = natBit v i := by
  rw [natBit, natBit, Nat.testBit_mod_two_pow, decide_eq_true hi, Bool.true_and]

theorem State.cfgWrite_of_silent (h : (s.fnSt fn).ready = false ∨ (s.fnSt fn).ls ≠ 2) (r : CfgReg) (v : Nat) : s.cfgWrite fn r v = s :=
  if_pos (by rcases h with h | h <;> simp [h])

/-- A register of configuration space that only holds a setting. -/
theorem State.cfgWrite_set {r : CfgReg} (hready : (s.fnSt fn).ready = true) (hls : (s.fnSt fn).ls = 2) (hpend : (s.fnSt fn).msixPend = 0)
    (h : r ≠ .header 4 ∧ r ≠ .pm 4 ∧ r ≠ .aer 4 ∧ r ≠ .aer 0x10) (v : Nat) :
    s.cfgWrite fn r v = s.updFn fn fun x => { x with cfg := cfgSet x.cfg v r } := by
  obtain ⟨h1, h2, h3, h4⟩ := h
  refine (if_neg (by simp [hready, hls])).trans ?_
  split
  · exact absurd rfl h1
  · exact absurd rfl h2
  · exact absurd rfl h3
  · exact absurd rfl h4
  exact msixFlush_of_no_pend (by rw [fnSt_updFn]; exact hpend)

/-- The error statuses that a write of 1 clears. -/
theorem State.cfgWrite_aerUnc (hready : (s.fnSt fn).ready = true) (hls : (s.fnSt fn).ls = 2) (v : Nat) :
    ∃ u, s.cfgWrite fn (.aer 4) (v % 2 ^ 32) = s.updFn fn (fun x => { x with aerUnc := u })
      ∧ ∀ i, i < 32 → natBit u i = (natBit (s.fnSt fn).aerUnc i && !natBit v i) := by
  refine ⟨(s.fnSt fn).aerUnc &&& (2 ^ 32 - 1 - v % 2 ^ 32), (if_neg (by simp [hready, hls])).trans (updFn_congr rfl), fun i hi => ?_⟩
  rw [natBit_and_clear (Nat.mod_lt _ (by decide)) hi, natBit_mod hi]

theorem natBits_one_zero (w : Nat) : natBits w 1 0 = w % 4 := by simp [natBits_eq_div_mod]

/-- Settles O46: each row by the branches of its function, a register of configuration space by what it sets. -/
theorem functionsComeAndGo : Obligations.FunctionsComeAndGo := by
  intro s fn f gone put
  refine ⟨fun gen bme cfg => exec_tunnelUp, fun hls => ⟨Config.freeValue s.freeCtr % 2, by omega, ?loss⟩,
    fun bme cfg hls => if_neg (not_not.2 hls), fun hls hd hr => ?d3, fun hr => ?notReady, CfgSpace.oneEach_spec,
    fun bme cfg hd => if_neg (by simpa [f] using hd), fun hb => ?master, fun p v ide => ?cfg, ?reset, ?other⟩
  case loss => exact if_neg (not_not.2 hls)
  case d3 => exact congrArg Host.Outcome.next (if_neg (by simp [f] at hls hd hr; simp [hls, hd, hr]))
  case notReady => exact congrArg Host.Outcome.next (if_pos (by simp [f] at hr; simp [hr]))
  case master => exact congrArg Host.Outcome.next (if_neg (by simp [f] at hb; simp [hb]))
  case cfg =>
    intro put w set
    refine ⟨fun h r => congrArg Host.Outcome.next (State.cfgWrite_of_silent h r _), fun hready hls => ?_⟩
    have hon : ¬ (!(s.fnSt fn).ready || decide ((s.fnSt fn).ls ≠ 2)) = true := by
      simp [f] at hready hls
      simp [hready, hls]
    have hset (hp : f.msixPend = 0) {r : CfgReg} (h : r ≠ .header 4 ∧ r ≠ .pm 4 ∧ r ≠ .aer 4 ∧ r ≠ .aer 0x10) :
        put r = .next (s.updFn fn fun x => { x with cfg := cfgSet x.cfg w r }) :=
      congrArg Host.Outcome.next (State.cfgWrite_set hready hls hp h w)
    refine ⟨?_, fun hw => ?_, fun hw => ?_, ?_, fun hp => ⟨hset hp ?_, hset hp ?_, hset hp ?_, hset hp ?_, hset hp ?_, hset hp ?_⟩⟩
    · refine (congrArg Host.Outcome.next (if_neg hon)).trans ((apply_ite Host.Outcome.next _ _ _).trans ?_)
      rw [natBit_mod (by decide)]
      rfl
    · rw [natBits_one_zero] at hw
      exact congrArg Host.Outcome.next ((if_neg hon).trans (if_pos hw))
    · rw [natBits_one_zero] at hw
      refine (congrArg Host.Outcome.next ((if_neg hon).trans (if_neg (by omega)))).trans ?_
      rw [apply_ite Host.Outcome.next]
      exact if_congr ⟨And.right, fun h => ⟨hw, h⟩⟩ rfl rfl
    · obtain ⟨u, hu, hbits⟩ := State.cfgWrite_aerUnc hready hls v.toNat
      exact ⟨u, congrArg Host.Outcome.next hu, hbits⟩
    all_goals decide
  case reset => cases fn <;> exact ⟨rfl, rfl, rfl, rfl, rfl, rfl, rfl, rfl, rfl⟩
  case other => cases fn <;> rfl

end Sys2Proof.Machine
end

/-! ## O47: the nonce, tokens and FUSE_SAFE (R360, R416 to R420) -/

section
namespace Sys2Proof.Machine

variable {s : State} {d r : Nat} {h : HostCmd}

/-! ### Security commands (R416, R419) -/

/-- A security command that is next in turn is carried out. -/
theorem secRow_of_accepts {op : Nat} (ha : s.accepts d r 5 (some op) h) (hjob : s.sec.fuseJob = none) (hturn : s.secTurn h = true)
    (f : HostCmd → State → State) : secRow d r op s f = .next (f h s) := by
  rw [secRow, hostRow_of_accepts ha, if_neg (by simp [hjob, hturn])]

/-- The state that a token leaves which fails a check: it has been read, and its nonce is spent. -/
def State.tokenSpent (s : State) (d r : Nat) (h : HostCmd) : State :=
  let sent := s.sendRead (s.ring d r).fn (h.field 63 0) (h.field 287 272)
  { sent with sec := { sent.sec with nonce := none } }

theorem State.tokenSpent_fuses (s : State) (d r : Nat) (h : HostCmd) : (s.tokenSpent d r h).fuses = s.fuses := by
  have hsent : (s.sendRead (s.ring d r).fn (h.field 63 0) (h.field 287 272)).fuses = s.fuses := by
    rw [sendRead]
    split
    · cases (s.ring d r).fn <;> rfl
    · rfl
  exact hsent

/-- A token whose word is right, of a function that holds set-up control. -/
theorem tokenRow_of_accepts (x : TokenRule) (tok : HostRead) (ha : s.accepts d r 5 (some 2) h) (hjob : s.sec.fuseJob = none)
    (hturn : s.secTurn h = true) (h311 : h.field 311 288 = 0) (h271 : h.field 271 64 = 0) (hctl : h.ctl = true)
    (apply : List Byte → State → State) :
    tokenRow x d r tok s apply = .next (match s.answered (s.ring d r).fn (h.field 63 0) (h.field 287 272) tok with
      | .data bs =>
        if tkKind (cut bs 0 (h.field 287 272)) ≠ x.kind ∧ 1 ≤ tkKind (cut bs 0 (h.field 287 272)) ∧ tkKind (cut bs 0 (h.field 287 272)) ≤ 7
        then s
        else if x.check s s.sec.nonce (cut bs 0 (h.field 287 272)) (h.field 287 272) = 0 then
          apply (cut bs 0 (h.field 287 272)) (s.tokenSpent d r h)
        else (s.tokenSpent d r h).cmdDone (ringKey d r) (x.check s s.sec.nonce (cut bs 0 (h.field 287 272)) (h.field 287 272))
      | _ => (s.tokenSpent d r h).cmdDone (ringKey d r) 9) := by
  have hword : ¬ (decide (natBits h.body 311 288 ≠ 0) || decide (natBits h.body 271 64 ≠ 0)) = true := by
    simp only [HostCmd.field] at h311 h271
    simp [h311, h271]
  rw [tokenRow, secRow_of_accepts ha hjob hturn]
  refine congrArg Host.Outcome.next ((if_neg hword).trans ((if_neg (by rw [hctl]; decide)).trans ?_))
  change (match s.answered (s.ring d r).fn (h.field 63 0) (h.field 287 272) tok with
    | .data bs => _
    | _ => _) = _
  cases s.answered (s.ring d r).fn (h.field 63 0) (h.field 287 272) tok <;> rfl

section
variable (ha : s.accepts d r 5 (some 2) h) (hjob : s.sec.fuseJob = none) (hturn : s.secTurn h = true) (h311 : h.field 311 288 = 0)
  (h271 : h.field 271 64 = 0) (hctl : h.ctl = true)
include ha hjob hturn h311 h271 hctl

/-- A token that is read and passes the checks of its KIND is applied. -/
theorem tokenRow_passes {x : TokenRule} {bs : List Byte} (hreach : s.fnReachAt (s.ring d r).fn (h.field 63 0) (h.field 287 272) = true)
    (hkind : tkKind (cut bs 0 (h.field 287 272)) = x.kind)
    (hcheck : x.check s s.sec.nonce (cut bs 0 (h.field 287 272)) (h.field 287 272) = 0) (apply : List Byte → State → State) :
    tokenRow x d r (.data bs) s apply = .next (apply (cut bs 0 (h.field 287 272)) (s.tokenSpent d r h)) := by
  rw [tokenRow_of_accepts x (.data bs) ha hjob hturn h311 h271 hctl apply, State.answered, if_pos hreach]
  exact congrArg Host.Outcome.next ((if_neg fun hk => hk.1 hkind).trans (if_pos hcheck))

theorem tokenRow_fails {x : TokenRule} {bs : List Byte} {e : Nat}
    (hreach : s.fnReachAt (s.ring d r).fn (h.field 63 0) (h.field 287 272) = true)
    (hkind : tkKind (cut bs 0 (h.field 287 272)) = x.kind)
    (hcheck : x.check s s.sec.nonce (cut bs 0 (h.field 287 272)) (h.field 287 272) = e) (he : e ≠ 0) (apply : List Byte → State → State) :
    tokenRow x d r (.data bs) s apply = .next ((s.tokenSpent d r h).cmdDone (ringKey d r) e) := by
  subst hcheck
  rw [tokenRow_of_accepts x (.data bs) ha hjob hturn h311 h271 hctl apply, State.answered, if_pos hreach]
  exact congrArg Host.Outcome.next ((if_neg fun hk => hk.1 hkind).trans (if_neg he))

/-- A token that cannot be read. -/
theorem tokenRow_unread {x : TokenRule} {e : HostRead}
    (he : (∀ bs, e ≠ .data bs) ∨ s.fnReachAt (s.ring d r).fn (h.field 63 0) (h.field 287 272) = false)
    (apply : List Byte → State → State) :
    tokenRow x d r e s apply = .next ((s.tokenSpent d r h).cmdDone (ringKey d r) 9) := by
  rw [tokenRow_of_accepts x e ha hjob hturn h311 h271 hctl apply, State.answered]
  refine congrArg Host.Outcome.next ?_
  by_cases hr : s.fnReachAt (s.ring d r).fn (h.field 63 0) (h.field 287 272) = true
  · rw [if_pos hr]
    cases e with
    | data bs => exact absurd rfl (he.resolve_right (by simp [hr]) bs)
    | ca => rfl
    | ep => rfl
    | ur => rfl
    | cto => rfl
  · rw [if_neg hr]

end

theorem tokenRow_notControl {x : TokenRule} (ha : s.accepts d r 5 (some 2) h) (hjob : s.sec.fuseJob = none) (hturn : s.secTurn h = true)
    (h311 : h.field 311 288 = 0) (h271 : h.field 271 64 = 0) (hctl : h.ctl = false) (e : HostRead) (apply : List Byte → State → State) :
    tokenRow x d r e s apply = .next (s.cmdDone (ringKey d r) 1) := by
  have hword : ¬ (decide (natBits h.body 311 288 ≠ 0) || decide (natBits h.body 271 64 ≠ 0)) = true := by
    simp only [HostCmd.field] at h311 h271
    simp [h311, h271]
  rw [tokenRow, secRow_of_accepts ha hjob hturn]
  exact congrArg Host.Outcome.next ((if_neg hword).trans (if_pos (by rw [hctl]; rfl)))

/-! ### The digests that an OWN token programs (R419) -/

/-- Slots written one after the other, each once. -/
theorem get_foldl_okey {p : List Byte} {l : List Nat} (hl : l.Nodup) (n : Nat) {m : Tab (List Byte)} (hm : Tab.wf [] m = true) :
    let t := (l.zipIdx n).foldl
      (fun (m : Tab (List Byte)) (x : Nat × Nat) => Tab.set [] m x.1 (orBytes (Tab.get [] m x.1) (cut p (32 + 32 * x.2) 32))) m
    (∀ i k, l[i]? = some k → Tab.get [] t k = orBytes (Tab.get [] m k) (cut p (32 + 32 * (n + i)) 32))
    ∧ ∀ k, k ∉ l → Tab.get [] t k = Tab.get [] m k := by
  induction l generalizing n m with
  | nil => exact ⟨fun i k hk => by simp at hk, fun k _ => rfl⟩
  | cons a l ih =>
    obtain ⟨ha, hl⟩ := List.nodup_cons.1 hl
    intro t
    obtain ⟨hin, hout⟩ := ih hl (n + 1) (m := Tab.set [] m a (orBytes (Tab.get [] m a) (cut p (32 + 32 * n) 32))) (Tab.wf_set hm _ _)
    refine ⟨fun i k hk => ?_, fun k hk => ?_⟩
    · cases i with
      | zero =>
        obtain rfl : a = k := by simpa using hk
        exact (hout a ha).trans (Tab.get_set_self hm _ _)
      | succ i =>
        have hk' : l[i]? = some k := by simpa using hk
        have hne : k ≠ a := fun e => ha (e ▸ List.mem_of_getElem? hk')
        have := hin i k hk'
        rw [Tab.get_set_ne hm hne, show n + 1 + i = n + (i + 1) by omega] at this
        exact this
    · obtain ⟨hka, hkl⟩ := not_or.1 (mt List.mem_cons.2 hk)
      exact (hout k hkl).trans (Tab.get_set_ne hm hka _)

theorem nodup_ownSlots (p : List Byte) : (ownSlots p).Nodup := List.nodup_range.filter _

/-- The fuses with the digests of an OWN token. -/
def Fuses.own (f : Fuses) (p : List Byte) : Fuses :=
  { f with
    okey := (ownSlots p).zipIdx.foldl
      (fun (m : Tab (List Byte)) (x : Nat × Nat) => Tab.set [] m x.1 (orBytes (Tab.get [] m x.1) (cut p (32 + 32 * x.2) 32))) f.okey
    oset := f.oset ||| ownMask p }

/-! ### The order of acceptance (R416) -/

theorem State.secTurn_iff : s.secTurn h = true ↔
    ∀ p ∈ s.hif.rings, ∀ g, p.2.cur = some g → g.cls = 5 → g.st = .fresh → h.seq ≤ g.seq := by
  rw [secTurn, List.all_eq_true]
  refine forall₂_congr fun p _ => ?_
  rw [Option.all_eq_true]
  refine forall₂_congr fun g _ => ?_
  rw [Bool.or_eq_true, Bool.or_eq_true, decide_eq_true_iff, decide_eq_true_iff, decide_eq_true_iff, or_assoc]
  simp only [ne_eq, ← imp_iff_not_or]

/-! ### The nonce and FUSE_SAFE (R416, R425) -/

section
variable (ha : s.accepts d r 5 (some 1) h) (hjob : s.sec.fuseJob = none) (hturn : s.secTurn h = true) (h311 : h.field 311 288 = 0)
  (h271 : h.field 271 64 = 0) (hlen : h.field 287 272 = 32)
include ha hjob hturn h311 h271 hlen

theorem exec_nonce (rnd : List Byte) (ok : Bool) :
    exec (.nonce d r rnd ok) s =
      let t : State := { s with sec := { s.sec with nonce := some (cut rnd 0 32) } }
      .next (if (!ok || !t.fnReachAt (s.ring d r).fn (h.field 63 0) 32) = true then
          ({ t with freeCtr := t.freeCtr + 1 } : State).cmdDone (ringKey d r) (Config.freeValue t.freeCtr % 10)
        else (t.updFn (s.ring d r).fn fun f => { f with mem := f.mem.write (h.field 63 0) (cut rnd 0 32) }).cmdDone (ringKey d r) 0) := by
  have hword : ¬ (decide (natBits h.body 311 288 ≠ 0) || decide (natBits h.body 271 64 ≠ 0) || decide (secLen h.body ≠ 32)) = true := by
    simp only [HostCmd.field] at h311 h271 hlen
    simp [h311, h271, hlen, secLen]
  change execNonce d r rnd ok s = _
  rw [execNonce, secRow_of_accepts ha hjob hturn]
  exact congrArg Host.Outcome.next (if_neg hword)

theorem exec_nonce_written {rnd : List Byte} (hreach : s.fnReachAt (s.ring d r).fn (h.field 63 0) 32 = true) :
    exec (.nonce d r rnd true) s = .next ((({ s with sec := { s.sec with nonce := some (cut rnd 0 32) } } : State).updFn (s.ring d r).fn fun f =>
      { f with mem := f.mem.write (h.field 63 0) (cut rnd 0 32) }).cmdDone (ringKey d r) 0) := by
  rw [exec_nonce ha hjob hturn h311 h271 hlen]
  have hreach' : ({ s with sec := { s.sec with nonce := some (cut rnd 0 32) } } : State).fnReachAt (s.ring d r).fn (h.field 63 0) 32 = true :=
    hreach
  exact congrArg Host.Outcome.next (if_neg (by rw [hreach']; decide))

theorem exec_nonce_unwritten (rnd : List Byte) :
    ∃ v, v < 10 ∧ exec (.nonce d r rnd false) s = .next
      (({ s with freeCtr := s.freeCtr + 1, sec := { s.sec with nonce := some (cut rnd 0 32) } } : State).cmdDone (ringKey d r) v) :=
  ⟨Config.freeValue s.freeCtr % 10, Nat.mod_lt _ (by decide),
    (exec_nonce ha hjob hturn h311 h271 hlen rnd false).trans (congrArg Host.Outcome.next (if_pos rfl))⟩

end

theorem exec_fuseSafe (ha : s.accepts d r 5 (some 3) h) (hjob : s.sec.fuseJob = none) (hturn : s.secTurn h = true)
    (h311 : h.field 311 128 = 0) (h63 : h.field 63 0 = 0) (hctl : h.ctl = true) (hlc : s.lc = 1 ∨ s.lc = 2) (hlocked : h.locked = false) :
    exec (.fuseSafe d r) s = .next
      (s.program (ringKey d r) { s.fuses with safe := s.fuses.safe ||| h.field 127 64 }) := by
  have hword : ¬ (decide (natBits h.body 311 128 ≠ 0) || decide (natBits h.body 63 0 ≠ 0)) = true := by
    simp only [HostCmd.field] at h311 h63
    simp [h311, h63]
  have hstate : ¬ (!(s.lc == 1 || s.lc == 2) || h.locked) = true := by
    rcases hlc with h | h <;> simp [h, hlocked]
  change execFuseSafe d r s = _
  rw [execFuseSafe, secRow_of_accepts ha hjob hturn]
  exact congrArg Host.Outcome.next ((if_neg hword).trans ((if_neg (by rw [hctl]; decide)).trans (if_neg hstate)))

/-! Each token row is the row of its KIND's rule. -/

theorem exec_tokenProvision (e : HostRead) (uds : List Byte) :
    exec (.tokenProvision d r e uds) s = tokenRow ruleProvision d r e s fun t s => s.program (ringKey d r)
      ({ s.fuses with uds := orBytes s.fuses.uds (cut uds 0 32), dsn := s.fuses.dsn ||| tkDsn t }.lcTo 1) := rfl
theorem exec_tokenOwn (e : HostRead) :
    exec (.tokenOwn d r e) s = tokenRow ruleOwn d r e s fun t s => s.program (ringKey d r) ((s.fuses.own (tkPayload t)).lcTo 2) := rfl
theorem exec_tokenSeal (e : HostRead) :
    exec (.tokenSeal d r e) s = tokenRow ruleSeal d r e s fun _ s => s.program (ringKey d r) (s.fuses.lcTo 3) := rfl
theorem exec_tokenReturn (e : HostRead) :
    exec (.tokenReturn d r e) s = tokenRow ruleReturn d r e s fun _ s => s.program (ringKey d r) ({ s.fuses with orev := 255 }.lcTo 4) := rfl
theorem exec_tokenScrap (e : HostRead) :
    exec (.tokenScrap d r e) s = tokenRow ruleScrap d r e s fun _ s => s.program (ringKey d r)
      ({ s.fuses with uds := List.replicate 32 0xFF }.lcTo 5) := rfl
theorem exec_tokenDebug (e : HostRead) :
    exec (.tokenDebug d r e) s = tokenRow ruleDebug d r e s fun t s =>
      ({ s with sec := { s.sec with dbgp := dbgLevel (tkPayload t) } } : State).cmdDone (ringKey d r) 0 := rfl
theorem exec_tokenRevoke (e : HostRead) :
    exec (.tokenRevoke d r e) s = tokenRow ruleRevoke d r e s fun t s => s.program (ringKey d r)
      { s.fuses with orev := s.fuses.orev ||| revOwner (tkPayload t), mrev := s.fuses.mrev ||| revMaker (tkPayload t) } := rfl

/-- Settles O47: every token goes through the one row of its KIND's rule. -/
theorem tokensAreAccepted : Obligations.TokensAreAccepted := by
  intro s d r h hjob key
  refine ⟨fun rnd ok ha hturn h311 h271 hlen hok hreach => ?nonce, fun ha hturn h311 h271 hctl => ?token,
    fun ha hturn h311 h271 hctl e => (exec_tokenSeal e).trans (tokenRow_notControl ha hjob hturn h311 h271 hctl e _),
    fun rnd ha hturn h311 h271 hlen => exec_nonce_unwritten ha hjob hturn h311 h271 hlen rnd,
    fun ha hturn h311 h63 hctl hlc hlocked => exec_fuseSafe ha hjob hturn h311 h63 hctl hlc hlocked, State.secTurn_iff⟩
  case nonce =>
    subst hok
    exact exec_nonce_written ha hjob hturn h311 h271 hlen hreach
  case token =>
    intro sent spent f prog len
    have hf : spent.fuses = s.fuses := s.tokenSpent_fuses d r h
    have hprog (g : Fuses → Fuses) : spent.program key (g spent.fuses) = prog (g f) := by rw [hf]; rfl
    refine ⟨fun bs uds hreach => ?_, fun e he => (exec_tokenSeal e).trans (tokenRow_unread ha hjob hturn h311 h271 hctl he _)⟩
    intro t ok p
    have hrow {i : Instr} {x : TokenRule} {apply : List Byte → State → State} (hi : exec i s = tokenRow x d r (.data bs) s apply)
        (hok : ok x) : exec i s = .next (apply t spent) :=
      hi.trans (tokenRow_passes ha hjob hturn h311 h271 hctl hreach hok.1 hok.2 apply)
    refine ⟨fun hok => (hrow (exec_tokenProvision _ uds) hok).trans (congrArg Host.Outcome.next
        (hprog fun f => { f with uds := orBytes f.uds (cut uds 0 32), dsn := f.dsn ||| tkDsn t }.lcTo 1)),
      fun hok => ⟨f.own p, (hrow (exec_tokenOwn _) hok).trans (congrArg Host.Outcome.next (hprog fun f => (f.own p).lcTo 2)), rfl, rfl, fun hwf => ?_⟩,
      fun hok => (hrow (exec_tokenSeal _) hok).trans (congrArg Host.Outcome.next (hprog fun f => f.lcTo 3)),
      fun hok => (hrow (exec_tokenReturn _) hok).trans (congrArg Host.Outcome.next (hprog fun f => { f with orev := 255 }.lcTo 4)),
      fun hok => (hrow (exec_tokenScrap _) hok).trans (congrArg Host.Outcome.next (hprog fun f => { f with uds := List.replicate 32 0xFF }.lcTo 5)),
      fun hok => hrow (exec_tokenDebug _) hok,
      fun hok => (hrow (exec_tokenRevoke _) hok).trans (congrArg Host.Outcome.next
        (hprog fun f => { f with orev := f.orev ||| revOwner p, mrev := f.mrev ||| revMaker p })),
      fun e hkind hcheck he => (exec_tokenSeal _).trans (tokenRow_fails ha hjob hturn h311 h271 hctl hreach hkind hcheck he _)⟩
    obtain ⟨hin, hout⟩ := get_foldl_okey (p := p) (nodup_ownSlots p) 0 hwf
    simp only [Nat.zero_add] at hin
    exact ⟨hin, hout⟩

end Sys2Proof.Machine
end

/-! ## O48: fuse programming and keys of plant I/O units (R360, R413, R414, R417, R420) -/

section
namespace Sys2Proof.Machine

variable {s : State} {d r : Nat} {h : HostCmd}

/-! ### Fuses that did not verify (R420, log entry 131) -/

theorem or_and_self (a b v : Nat) : a &&& (a ||| (b &&& v)) = a ∧ (a ||| (b &&& v)) ||| (a ||| b) = a ||| b := by
  constructor <;> refine Nat.eq_of_testBit_eq fun i => ?_ <;> simp only [Nat.testBit_and, Nat.testBit_or]
  · cases a.testBit i <;> simp
  · cases a.testBit i <;> cases b.testBit i <;> simp

theorem byte_or_and_self (a b v : Byte) : a &&& (a ||| (b &&& v)) = a ∧ (a ||| (b &&& v)) ||| (a ||| b) = a ||| b := by
  constructor <;> ext i hi <;> simp only [BitVec.getElem_and, BitVec.getElem_or]
  · cases a[i] <;> simp
  · cases a[i] <;> cases b[i] <;> simp

/-- The bytes of fuses, each bit that was to rise has risen or not. -/
def partlyBytes (a b : List Byte) (v : Nat) : List Byte := orBytes a (b.zipIdx.map fun x => x.1 &&& BitVec.ofNat 8 (v / 256 ^ x.2))

theorem getD_orBytes (a b : List Byte) (i : Nat) : (orBytes a b).getD i 0 = a.getD i 0 ||| b.getD i 0 := by
  by_cases hi : i < max a.length b.length
  · rw [orBytes, getD_map_range _ _ _ _ hi]
  · have ha : a.getD i 0 = 0 := List.getD_eq_default _ _ (by omega)
    have hb : b.getD i 0 = 0 := List.getD_eq_default _ _ (by omega)
    rw [ha, hb, List.getD_eq_default _ _ (by simp [orBytes]; omega)]
    rfl

theorem getD_partlyBytes (a b : List Byte) (v i : Nat) :
    ∃ w : Byte, (partlyBytes a b v).getD i 0 = a.getD i 0 ||| (b.getD i 0 &&& w) := by
  refine ⟨BitVec.ofNat 8 (v / 256 ^ i), ?_⟩
  rw [partlyBytes, getD_orBytes]
  congr 1
  by_cases hi : i < b.length
  · rw [List.getD_eq_getElem _ _ (by simpa using hi), List.getD_eq_getElem _ _ hi]
    simp
  · rw [List.getD_eq_default _ _ (by simpa using hi), List.getD_eq_default _ _ (by simpa using hi)]
    simp

theorem partlyBytes_spec (a b : List Byte) (v i : Nat) :
    a.getD i 0 &&& (partlyBytes a b v).getD i 0 = a.getD i 0
    ∧ (partlyBytes a b v).getD i 0 ||| (a.getD i 0 ||| b.getD i 0) = a.getD i 0 ||| b.getD i 0 := by
  obtain ⟨w, hw⟩ := getD_partlyBytes a b v i
  rw [hw]
  exact byte_or_and_self _ _ w

/-- A table written at the first `n` keys. -/
theorem Tab.get_foldl_set {α : Type} [DecidableEq α] {d : α} {t : Tab α} (ht : Tab.wf d t = true) (f : Nat → α) {n i : Nat} (hi : i < n) :
    Tab.get d ((List.range n).foldl (fun t i => Tab.set d t i (f i)) t) i = f i := by
  have hwf (m : Nat) : Tab.wf d ((List.range m).foldl (fun t i => Tab.set d t i (f i)) t) = true :=
    foldl_keeps (P := fun t => Tab.wf d t = true) (fun t j h => Tab.wf_set h j (f j)) _ ht
  induction n with
  | zero => omega
  | succ n ih =>
    rw [List.range_succ, List.foldl_append, List.foldl_cons, List.foldl_nil, Tab.get_set (hwf n)]
    split
    · rename_i he
      rw [he]
    · exact ih (by omega)

theorem Fuses.partly_spec (o f : Fuses) (v : Nat → Nat) :
    let g := o.partly f v
    let mid := fun (a b c : Nat) => a &&& c = a ∧ c ||| (a ||| b) = a ||| b
    let mids := fun (a b c : List Byte) => ∀ i, a.getD i 0 &&& c.getD i 0 = a.getD i 0
      ∧ c.getD i 0 ||| (a.getD i 0 ||| b.getD i 0) = a.getD i 0 ||| b.getD i 0
    mids o.uds f.uds g.uds ∧ mid o.dsn f.dsn g.dsn ∧ mid o.lc0 f.lc0 g.lc0 ∧ mid o.lc1 f.lc1 g.lc1 ∧ mid o.lc2 f.lc2 g.lc2
    ∧ mid o.mrev f.mrev g.mrev ∧ mid o.oset f.oset g.oset ∧ mid o.orev f.orev g.orev ∧ mid o.safe f.safe g.safe
    ∧ g.svn = o.svn ∧ g.pfix = o.pfix
    ∧ (Tab.wf [] o.okey = true → ∀ i < 8, mids (Tab.get [] o.okey i) (Tab.get [] f.okey i) (Tab.get [] g.okey i)) := by
  intro g mid mids
  refine ⟨partlyBytes_spec _ _ _, or_and_self _ _ _, or_and_self _ _ _, or_and_self _ _ _, or_and_self _ _ _, or_and_self _ _ _,
    or_and_self _ _ _, or_and_self _ _ _, or_and_self _ _ _, rfl, rfl, fun hwf i hi => ?_⟩
  have hg : Tab.get [] g.okey i = partlyBytes (Tab.get [] o.okey i) (Tab.get [] f.okey i) (v (9 + i)) :=
    Tab.get_foldl_set hwf (fun i => partlyBytes (Tab.get [] o.okey i) (Tab.get [] f.okey i) (v (9 + i))) hi
  rw [hg]
  exact partlyBytes_spec _ _ _

/-! ### The life-cycle state (R420) -/

/-- The last element of a list that a test accepts. -/
theorem foldl_filter_last (p : Nat → Bool) (n i : Nat) (hi : i < n) (hp : p i = true) (hlast : ∀ j, i < j → j < n → p j = false) (a : Nat) :
    ((List.range n).filter p).foldl (fun _ i => i + 1) a = i + 1 := by
  induction n with
  | zero => omega
  | succ n ih =>
    rw [List.range_succ, List.filter_append, List.foldl_append]
    by_cases he : i = n
    · subst he
      simp [hp]
    · have hn : p n = false := hlast n (by omega) (by omega)
      rw [ih (by omega) fun j hj hjn => hlast j hj (by omega)]
      simp [hn]

theorem lcStateOf_highest (a b c i : Nat) (hi : i < 5) (hbit : natBit (a &&& b ||| a &&& c ||| b &&& c) i = true)
    (hlast : ∀ j, i < j → j < 5 → natBit (a &&& b ||| a &&& c ||| b &&& c) j = false) : lcStateOf a b c = i + 1 :=
  foldl_filter_last _ 5 i hi hbit hlast 0

/-! ### KEY_INSTALL (R413, R414) -/

/-- A read that is sent leaves all but the function that reads as it stands, and its host as reachable as before. -/
theorem State.sendRead_sec (s : State) (fn : Fn) (a n : Nat) : (s.sendRead fn a n).sec = s.sec := by
  rw [sendRead]
  split
  · cases fn <;> rfl
  · rfl

theorem State.fnReachAt_sendRead (s : State) (fn : Fn) (a n b m : Nat) : (s.sendRead fn a n).fnReachAt fn b m = s.fnReachAt fn b m := by
  rw [sendRead]
  split
  · exact fnReachAt_updFn (s := s) (fn := fn) (f := fun f => { f with readSent := some (a, n, f.readMax) }) rfl rfl rfl rfl b m
  · rfl

theorem State.sendRead_unreached {fn : Fn} {a n : Nat} (h : s.fnReachAt fn a n = false) : s.sendRead fn a n = s :=
  if_neg (ne_true_of_eq_false h)

/-- What a key object does, once it is read. -/
def State.keyObject (s : State) (key u sc an : Nat) (tx : Bool) (o : Option (List Byte)) : State :=
  let bad := ({ s with sec := { s.sec with unwrapf := satAdd 16 s.sec.unwrapf 1 } } : State).cmdDone key 5
  match o with
  | none => bad
  | some o => if keyObjOk u sc tx o then (s.keyInstall u sc an tx o).cmdDone key 0 else bad

/-- A KEY_INSTALL of a unit of the ring's domain within a session. -/
theorem exec_keyInstall {x : Spdm} {bs : List Byte} (hjob : s.sec.fuseJob = none) (ha : s.accepts d r 5 (some 4) h)
    (hturn : s.secTurn h = true) (h293 : h.field 293 288 = 0) (h271 : h.field 271 128 = 0) (h127 : h.field 127 96 = 0)
    (hlen : h.field 287 272 = 88 ∨ h.field 287 272 = 0) (hacts : s.var.acts = true)
    (hx : s.sec.sessions.find? (fun x => x.fn == (s.ring d r).fn && x.sid == h.field 95 64) = some x) (hu : h.field 311 300 < 12)
    (hdom : s.pioDom (h.field 311 300) = some d) :
    let sent := s.sendRead (s.ring d r).fn (h.field 63 0) 88
    exec (.keyInstall d r (.data bs)) s = .next
      (if h.field 287 272 = 0 then
        (s.keyDelete (h.field 311 300) (h.field 299 297) (h.field 296 295) (natBit h.body 294)).cmdDone (ringKey d r) 0
      else match sent.answered (s.ring d r).fn (h.field 63 0) 88 (.data bs) with
        | .data bs => sent.keyObject (ringKey d r) (h.field 311 300) (h.field 299 297) (h.field 296 295) (natBit h.body 294)
            (Config.aesUnwrap (Config.kdf x.secret (ascii "KT") 32) (cut bs 0 88))
        | _ => sent.cmdDone (ringKey d r) 9) := by
  intro sent
  have hword : ¬ (decide (natBits h.body 293 288 ≠ 0) || decide (natBits h.body 271 128 ≠ 0) || decide (natBits h.body 127 96 ≠ 0)
      || !(secLen h.body == 88 || secLen h.body == 0)) = true := by
    simp only [HostCmd.field] at h293 h271 h127 hlen
    rcases hlen with hlen | hlen <;> simp [h293, h271, h127, secLen, hlen]
  have hunit : ¬ (decide (11 < h.field 311 300) || !s.var.acts || decide (s.pioDom (h.field 311 300) ≠ some d)) = true := by
    simp [hacts, hdom]
    omega
  change execKeyInstall d r (.data bs) s = _
  rw [execKeyInstall, secRow_of_accepts ha hjob hturn]
  refine congrArg Host.Outcome.next ((if_neg hword).trans ((if_neg hunit).trans ?_))
  change (match s.sec.sessions.find? (fun x => x.fn == (s.ring d r).fn && x.sid == h.field 95 64) with
    | none => _
    | some ses => _) = _
  rw [hx]
  refine if_congr Iff.rfl rfl ?_
  change (match sent.answered (s.ring d r).fn (h.field 63 0) 88 (.data bs) with
    | .data bs => _
    | _ => _) = _
  cases sent.answered (s.ring d r).fn (h.field 63 0) 88 (.data bs) with
  | data bs =>
    change (match Config.aesUnwrap (Config.kdf x.secret (ascii "KT") 32) (cut bs 0 88) with
      | none => _
      | some o => _)
      = sent.keyObject _ _ _ _ _ (Config.aesUnwrap (Config.kdf x.secret (ascii "KT") 32) (cut bs 0 88))
    cases Config.aesUnwrap (Config.kdf x.secret (ascii "KT") 32) (cut bs 0 88) <;> rfl
  | ca => rfl
  | ep => rfl
  | ur => rfl
  | cto => rfl

theorem keyObjOk_spec (u sc : Nat) (tx : Bool) (o : List Byte) (h : keyObjOk u sc tx o = true) :
    let c := fieldAt o 32 1
    c ≤ 5 ∧ (c ≠ 1 → c ≠ 3 → fieldAt o 16 16 = 0) ∧ (u < 4 ↔ c ≤ 3) := by
  intro c
  simp only [keyObjOk, Bool.and_eq_true, Bool.or_eq_true, beq_iff_eq, decide_eq_true_iff] at h
  obtain ⟨⟨⟨⟨⟨-, hc⟩, -⟩, -⟩, hsalt⟩, hunit⟩ := h
  refine ⟨hc, fun h1 h3 => (hsalt.resolve_left fun h => h.elim h1 h3), ?_⟩
  split at hunit
  · rename_i hu
    simp only [Bool.and_eq_true, decide_eq_true_iff] at hunit
    exact ⟨fun _ => hunit.1, fun _ => hu⟩
  · rename_i hu
    have := of_decide_eq_true hunit
    exact ⟨fun h => absurd h hu, fun h => absurd h (by omega)⟩

/-- A unit's keys without the one at a place, and with the one that takes it. -/
theorem State.keyInstall_eq (t : State) (u sc an : Nat) (tx : Bool) (o : List Byte) :
    let keys := t.sec.keys.filter fun k => !(k.unit == u && k.sc == sc && k.an == an && k.tx == tx)
    let put : State := { t with sec := { t.sec with keys := keys ++ [⟨u, sc, an, tx, o, fieldAt o 52 8⟩] } }
    t.keyInstall u sc an tx o = if tx = true ∧ u < 4 then put.updMac u fun y => { y with txBlocked := false } else put :=
  if_congr (by rw [Bool.and_eq_true, decide_eq_true_iff]) rfl rfl

/-- Settles O48: fuses that did not verify bit by bit, a key object by what the read of it returns. -/
theorem fusesAndKeysAreWritten : Obligations.FusesAndKeysAreWritten := by
  refine ⟨fun s key f hjob => ⟨?done, s.fuses.partly f fun k => Config.freeValue (s.freeCtr + k), s.freeCtr + 17, ?failed,
      Fuses.partly_spec _ _ _⟩, lcStateOf_highest, fun s d r h x bs o hjob ha hturn h293 h271 h127 hacts hx => ?key, keyObjOk_spec⟩
  case done =>
    change execFuseProgrammingComplete true s = _
    simp only [execFuseProgrammingComplete, hjob] <;> rfl
  case failed =>
    change execFuseProgrammingComplete false s = _
    simp only [execFuseProgrammingComplete, hjob] <;> rfl
  case key =>
    intro u sc an tx hu hdom del read sent del'
    have hrow (hlen : h.field 287 272 = 88 ∨ h.field 287 272 = 0) :=
      exec_keyInstall (bs := bs) hjob ha hturn h293 h271 h127 hlen hacts hx hu hdom
    have hreach : sent.fnReachAt (s.ring d r).fn (h.field 63 0) 88 = read := State.fnReachAt_sendRead ..
    have hsec : sent.sec = s.sec := State.sendRead_sec ..
    have hread {e : Option (List Byte)} (hlen : h.field 287 272 = 88) (hr : read = true)
        (he : Config.aesUnwrap (Config.kdf x.secret (ascii "KT") 32) (cut bs 0 88) = e) :
        exec (.keyInstall d r (.data bs)) s = .next (sent.keyObject (ringKey d r) u sc an tx e) := by
      refine (hrow (.inl hlen)).trans (congrArg Host.Outcome.next ?_)
      rw [if_neg (by omega), State.answered, if_pos (hreach.trans hr)]
      dsimp only
      rw [he]
    refine ⟨fun hlen => ?_, fun hlen hr => ?_, fun hlen hr ho hok => ?_, fun hlen hr ho => ?_⟩
    · exact (hrow (.inr hlen)).trans (congrArg Host.Outcome.next (if_pos hlen))
    · refine (hrow (.inl hlen)).trans (congrArg Host.Outcome.next ?_)
      have hno : ¬ sent.fnReachAt (s.ring d r).fn (h.field 63 0) 88 = true := by rw [hreach, hr]; decide
      rw [if_neg (by omega), State.answered, if_neg hno]
      exact congrArg (fun t : State => t.cmdDone (ringKey d r) 9) (State.sendRead_unreached hr)
    · intro put
      refine (hread hlen hr ho).trans (congrArg Host.Outcome.next ((if_pos hok).trans ?_))
      rw [State.keyInstall_eq, hsec]
    · rw [hread hlen hr ho, State.keyObject, hsec]

end Sys2Proof.Machine
end

/-! ## O49: attestation, IDE keys and debug access (R406 to R408, R411, R412, R421) -/

section
namespace Sys2Proof.Machine

variable {s : State} {fn : Fn}

/-! ### Requests and sessions (R406 to R408) -/

theorem spdmRow_of_up (hup : s.spdmUp fn = true) (f : State → State) : spdmRow fn s f = .next (f s) := if_pos hup

theorem sessionRow_of_session {n : Nat} (hup : s.spdmUp fn = true) (hn : (s.session fn n).isSome = true) (f : State → State) :
    sessionRow fn n s f = .next (f s) :=
  (spdmRow_of_up hup _).trans (congrArg Host.Outcome.next (if_neg (by rw [Option.isNone_eq_false_iff.2 hn]; decide)))

theorem exec_spdmRequestRefused : exec (.spdmRequestRefused fn) s = spdmRow fn s fun s => s.spdmRefuse fn := rfl

theorem exec_spdmEndSession (n : Nat) :
    exec (.spdmEndSession fn n) s = sessionRow fn n s fun s => (s.sessionEnd fn n).answer fn 0x6C [] := rfl

theorem exec_spdmHeartbeat (n : Nat) : exec (.spdmHeartbeat fn n) s
    = sessionRow fn n s fun s => (s.updSession fn n fun x => { x with beat := s.dt }).answer fn 0x68 [] := rfl

theorem exec_spdmKeyUpdate (n : Nat) : exec (.spdmKeyUpdate fn n) s
    = sessionRow fn n s fun s => (s.updSession fn n fun x => { x with updates := x.updates + 1 }).answer fn 0x69 [] := rfl

theorem exec_ideKmQuery (n : Nat) : exec (.ideKmQuery fn n) s = sessionRow fn n s fun s =>
    s.answer fn 0x7E (0 :: (s.sec.streams.filter fun x => x.fn == fn).map fun x => BitVec.ofNat 8 x.stream) := rfl

section
variable {c : List Byte} (hup : s.spdmUp fn = true) (hc : s.chain = some c)
include hup hc

theorem exec_spdmGetDigests (q : List SpdmSetup) :
    exec (.spdmGetDigests fn q) s = .next ((q.foldl (fun x r => x.spdmSetup fn r) s).answer fn 1 (Config.sha3_384 c)) := by
  change execSpdmGetDigests fn q s = _
  rw [execSpdmGetDigests, spdmRow_of_up hup, hc] <;> rfl

theorem exec_spdmGetCertificate : exec (.spdmGetCertificate fn 0) s = .next (s.answer fn 2 c) := by
  change execSpdmGetCertificate fn 0 s = _
  rw [execSpdmGetCertificate, spdmRow_of_up hup, hc] <;> rfl

theorem exec_spdmChallenge (ch : List Byte) :
    exec (.spdmChallenge fn 0 ch) s = .next (s.answerSigned fn 3 ch (Config.sha3_384 c)) := by
  change execSpdmChallenge fn 0 ch s = _
  rw [execSpdmChallenge, spdmRow_of_up hup, hc] <;> rfl

theorem exec_spdmGetMeasurements {i : Nat} {b : List Byte} (hb : s.blocks i = some b) (ch : List Byte) :
    exec (.spdmGetMeasurements fn i ch) s = .next (s.answerSigned fn 0x60 ch b) := by
  change execSpdmGetMeasurements fn i ch s = _
  rw [execSpdmGetMeasurements, spdmRow_of_up hup, hc, hb] <;> rfl

end

/-- Of five numbers in a row, fewer than five sessions leave one. -/
theorem exists_unused (l : List Spdm) (hl : l.length < 5) (v : Nat) :
    ∃ k, (List.range 5).find? (fun k => !l.any fun x => x.sid == (v + k) % 2 ^ 32) = some k := by
  by_contra hno
  have hnone : (List.range 5).find? (fun k => !l.any fun x => x.sid == (v + k) % 2 ^ 32) = none := by
    rw [← Option.not_isSome_iff_eq_none, Option.isSome_iff_exists]
    exact hno
  have hsub : (List.range 5).map (fun k => (v + k) % 2 ^ 32) ⊆ l.map (·.sid) := by
    intro m hm
    obtain ⟨k, hk, rfl⟩ := List.mem_map.1 hm
    have := List.find?_eq_none.1 hnone k hk
    rw [Bool.not_eq_true', Bool.not_eq_false, List.any_eq_true] at this
    obtain ⟨x, hx, he⟩ := this
    exact List.mem_map.2 ⟨x, hx, beq_iff_eq.1 he⟩
  have hnodup : ((List.range 5).map fun k => (v + k) % 2 ^ 32).Nodup := by
    refine List.Nodup.map_on (fun a ha b hb he => ?_) List.nodup_range
    have ha := List.mem_range.1 ha
    have hb := List.mem_range.1 hb
    omega
  have := (hnodup.subperm hsub).length_le
  simp at this
  omega

theorem exec_spdmKeyExchange {c : List Byte} (hup : s.spdmUp fn = true) (hc : s.chain = some c) (hroom : (s.sessions fn).length < 2)
    (ch : List Byte) : ∃ x : Spdm, x.fn = fn ∧ x.beat = s.dt
      ∧ exec (.spdmKeyExchange fn 0 ch) s = .next (State.answerSigned
        { s with freeCtr := s.freeCtr + 1, sec := { s.sec with sessions := s.sec.sessions ++ [x] } } fn 0x64 ch (toLE 4 x.sid))
      ∧ (s.sec.sessions.length < 5 → (∀ y ∈ s.sec.sessions, y.sid < 2 ^ 32) → ∀ y ∈ s.sec.sessions, y.sid ≠ x.sid) := by
  obtain ⟨v, hv⟩ : ∃ v, v = Config.freeValue s.freeCtr := ⟨_, rfl⟩
  obtain ⟨sid, hsid⟩ : ∃ sid, sid = (v + ((List.range 5).find? fun k => !s.sec.sessions.any fun x => x.sid == (v + k) % 2 ^ 32).getD 0)
    % 2 ^ 32 := ⟨_, rfl⟩
  refine ⟨⟨fn, sid, Config.spdmSecret (fnNum fn) sid s.freeCtr ch, 0, s.dt⟩, rfl, rfl, ?_, fun hl _ y hy he => ?_⟩
  · change execSpdmKeyExchange fn 0 ch s = _
    rw [execSpdmKeyExchange, spdmRow_of_up hup, hc]
    refine congrArg Host.Outcome.next ((if_neg (Nat.not_le.2 hroom)).trans ?_)
    subst hsid hv
    rfl
  · obtain ⟨k, hk⟩ := exists_unused s.sec.sessions hl v
    rw [hk, Option.getD_some] at hsid
    have := List.find?_some hk
    rw [Bool.not_eq_true', ← Bool.not_eq_true, List.any_eq_true] at this
    exact this ⟨y, hy, beq_iff_eq.2 (he.trans hsid)⟩

theorem State.spdmSetup_version (s : State) (fn : Fn) :
    s.spdmSetup fn .version = (s.updFn fn fun x => { x with spdmVer := none, spdmAlg := false }).answer fn 4 [0x12, 0x13] := rfl

theorem State.spdmSetup_capabilities {v : Nat} (hv : v = 0x12 ∨ v = 0x13) :
    s.spdmSetup fn (.capabilities v) = (s.updFn fn fun x => { x with spdmVer := some v }).answer fn 0x61 (toLE 4 spdmCaps) := by
  refine if_pos ?_
  rcases hv with rfl | rfl <;> decide

theorem State.spdmSetup_refused {v : Nat} (hv : ¬ (v = 0x12 ∨ v = 0x13)) : s.spdmSetup fn (.capabilities v) = s.spdmRefuse fn :=
  if_neg (by simpa [spdmVersions] using hv)

/-! ### IDE streams (R411, R412) -/

section
variable {n st ks sub : Nat} (hup : s.spdmUp fn = true) (hn : (s.session fn n).isSome = true) (hst : st < 256) (hks : ks < 2) (hsub : sub < 6)
include hup hn hst hks hsub

theorem exec_ideKmKeyProg {key : List Byte} (hkey : key.length = 32)
    (hroom : (s.ideStream fn st).isSome = true ∨ (s.sec.streams.filter fun x => x.fn == fn).length < 2) :
    let x := (s.ideStream fn st).getD ⟨fn, st, [], []⟩
    exec (.ideKmKeyProg fn n st ks sub key) s = .next ((s.putStream
      { x with keys := (x.keys.filter fun k => !(k.1 == ks && k.2.1 == sub)) ++ [(ks, sub, key)] }).answer fn 0x7E [2]) := by
  intro x
  change execIdeKmKeyProg fn n st ks sub key s = _
  rw [execIdeKmKeyProg, sessionRow_of_session hup hn]
  refine congrArg Host.Outcome.next (if_neg ?_)
  rcases hroom with h | h
  · simp [ideOptions, hst, hks, hsub, hkey, Option.isNone_eq_false_iff.2 h]
  · simp [ideOptions, hst, hks, hsub, hkey, Nat.not_le.2 h]

theorem exec_ideKmKSetGo {x : IdeStream} (hx : s.ideStream fn st = some x)
    (hkey : x.keys.any (fun k => k.1 == ks && k.2.1 == sub) = true) :
    exec (.ideKmKSetGo fn n st ks sub) s = .next ((s.putStream
      { x with going := (x.going.filter fun p => p.2 ≠ sub) ++ [(ks, sub)] }).answer fn 0x7E [5]) := by
  change execIdeKmKSetGo fn n st ks sub s = _
  rw [execIdeKmKSetGo, sessionRow_of_session hup hn, hx]
  exact congrArg Host.Outcome.next (if_neg (by simp only [ideOptions, hst, hks, hsub, hkey]; decide))

theorem exec_ideKmKSetStop {x : IdeStream} (hx : s.ideStream fn st = some x) :
    let t := s.putStream { x with
      going := x.going.filter fun p => p ≠ (ks, sub), keys := x.keys.filter fun k => !(k.1 == ks && k.2.1 == sub) }
    exec (.ideKmKSetStop fn n st ks sub) s = .next
      ((if s.ideBlocks fn = false ∧ t.ideBlocks fn = true then t.haltFn fn 65535 3 else t).answer fn 0x7E [5]) := by
  intro t
  change execIdeKmKSetStop fn n st ks sub s = _
  rw [execIdeKmKSetStop, sessionRow_of_session hup hn, hx]
  refine congrArg Host.Outcome.next ((if_neg (by simp only [ideOptions, hst, hks, hsub]; decide)).trans ?_)
  exact congrArg (fun u : State => u.answer fn 0x7E [5]) (if_congr (by rw [Bool.and_eq_true, Bool.not_eq_true']) rfl rfl)

end

/-! ### Debug access (R421) -/

theorem execDebugAccess_of_up (hstep : 4 ≤ s.boot.step) (hrst : s.boot.inReset = false) {α : Sort _} (a b : α) :
    (if (decide (s.boot.step < 4) || s.boot.inReset) = true then a else b) = b :=
  if_neg (by simp [Nat.not_lt.2 hstep, hrst])

theorem exec_debugReadMem {a o : Nat} (hstep : 4 ≤ s.boot.step) (hrst : s.boot.inReset = false) (hdbg : 1 ≤ s.sec.dbg) (ha : a % 8 = 0)
    (hp : s.place a = .yard o) (hbad : s.yardBadIn o (o + 8) = []) :
    exec (.debugAccess (.readMem a)) s = .next (s.debugGives (leNat (s.rdBytes a 8))) := by
  have hlvl : ¬ (decide (s.sec.dbg = 0) || decide (a % 8 ≠ 0)) = true := by simp [ha]; omega
  refine (execDebugAccess_of_up hstep hrst _ _).trans ((if_neg hlvl).trans ?_)
  simp only [hp, hbad, List.isEmpty_nil, Bool.not_true]

/-- Settles O49: each request by its row, once the function is up and its session stands. -/
theorem attestationAndDebug : Obligations.AttestationAndDebug := by
  refine ⟨fun s fn hup => ?spdm, fun s fn n st ks sub hup hn => ⟨(exec_ideKmQuery n).trans (sessionRow_of_session hup hn _), fun hst hks hsub =>
      ⟨fun key hkey hroom => exec_ideKmKeyProg hup hn hst hks hsub hkey hroom,
        fun x hx => ⟨exec_ideKmKSetGo hup hn hst hks hsub hx, exec_ideKmKSetStop hup hn hst hks hsub hx⟩⟩⟩, fun s hstep hrst => ?debug⟩
  case spdm =>
    intro say signed
    refine ⟨exec_spdmRequestRefused.trans (spdmRow_of_up hup _), fun c hc => ⟨fun t q ht htc => ?_, exec_spdmGetCertificate hup hc, exec_spdmChallenge hup hc,
        fun i b ch hb => exec_spdmGetMeasurements hup hc hb ch, fun ch hroom => exec_spdmKeyExchange hup hc hroom ch⟩,
      s.spdmSetup_version fn, fun v => ⟨State.spdmSetup_capabilities, State.spdmSetup_refused⟩, fun n hn => ?_⟩
    · subst ht
      exact exec_spdmGetDigests hup hc q
    · exact ⟨(exec_spdmEndSession n).trans (sessionRow_of_session hup hn _), rfl,
        (exec_spdmHeartbeat n).trans (sessionRow_of_session hup hn _), (exec_spdmKeyUpdate n).trans (sessionRow_of_session hup hn _)⟩
  case debug =>
    have hrow {α : Sort _} (a b : α) : (if (decide (s.boot.step < 4) || s.boot.inReset) = true then a else b) = b :=
      execDebugAccess_of_up hstep hrst a b
    refine ⟨fun c hdbg hc hf => ⟨?_, ?_, fun hh => ?_⟩, fun a o => exec_debugReadMem hstep hrst, fun a ha hlt hneed => ?_,
      fun x => hrow _ _, rfl, fun hlc => if_pos hlc, fun hdbg c a => ⟨?_, ?_, ?_⟩⟩
    · exact (hrow _ _).trans (congrArg Host.Outcome.next (if_pos (by dsimp only; rw [hf]; simp [hdbg, hc])))
    · exact (hrow _ _).trans (congrArg Host.Outcome.next (if_pos (by dsimp only; rw [hf]; simp [hdbg, hc])))
    · exact (hrow _ _).trans (congrArg Host.Outcome.next (if_pos (by dsimp only; rw [hf]; simp [hdbg, hc, hh])))
    · exact (hrow _ _).trans (congrArg Host.Outcome.next (if_pos (by simp [ha, hlt, hneed])))
    · exact (hrow _ _).trans (congrArg Host.Outcome.next (if_neg (by simp [hdbg])))
    · exact (hrow _ _).trans (if_pos (by simp [hdbg]))
    · exact (hrow _ _).trans (congrArg Host.Outcome.next (if_neg (by rw [hdbg]; decide)))

end Sys2Proof.Machine
end

/-! ## O50: Leash, cooling and temperature (R428 to R434, R436 to R438) -/

section
namespace Sys2Proof.Machine

/-! ### What Leash keeps of the power block -/

/-- A power block that differs from another in the moves of ΣG and the steps down alone. -/
def Pwr.SameButMoves (p q : Pwr) : Prop := { q with moves := p.moves, stepdn := p.stepdn } = p

/-- What moving grants and steps changes: Leash's fields of the cores, and of the power block the moves and the steps down. -/
structure State.LeashKeeps (s t : State) : Prop where
  moves : s.LeashMoves t
  pwr : s.pwr.SameButMoves t.pwr

variable {s t u : State}

namespace State.LeashKeeps

theorem refl (s : State) : s.LeashKeeps s := ⟨.refl s, rfl⟩

theorem trans (h : s.LeashKeeps t) (h' : t.LeashKeeps u) : s.LeashKeeps u := by
  refine ⟨h.moves.trans h'.moves, ?_⟩
  have h1 := h.pwr
  rw [Pwr.SameButMoves, ← h'.pwr] at h1
  exact h1

theorem foldl {β : Type} {f : State → β → State} (hf : ∀ (s : State) b, s.LeashKeeps (f s b)) (l : List β) (s : State) :
    s.LeashKeeps (l.foldl f s) :=
  foldl_keeps (P := fun t => s.LeashKeeps t) (fun a b h => h.trans (hf a b)) l (.refl s)

theorem setGrant (s : State) (c g : Nat) : s.LeashKeeps (s.setGrant c g) := by
  refine ⟨.setGrant s c g, ?_⟩
  rw [State.setGrant]
  dsimp only
  split_ifs <;> rfl

theorem setStep (s : State) (c step : Nat) : s.LeashKeeps (s.setStep c step) := by
  refine ⟨.setStep s c step, ?_⟩
  rw [State.setStep]
  dsimp only
  split_ifs <;> rfl

theorem noteFall (s : State) (c : Nat) : s.LeashKeeps (s.noteFall c) := by
  refine ⟨.noteFall s c, ?_⟩
  rw [State.noteFall]
  split_ifs <;> rfl

theorem raiseGrant (s : State) (c g lim : Nat) : s.LeashKeeps (s.raiseGrant c g lim) := setGrant ..

theorem floorsUp (s : State) : s.LeashKeeps s.floorsUp := by
  refine foldl (fun s c => ?_) _ s
  dsimp only
  split_ifs
  · exact (raiseGrant s c _ _).trans (setStep ..)
  · exact raiseGrant s c _ _

theorem othersUp (s : State) : s.LeashKeeps s.othersUp := foldl (fun s c => raiseGrant s c _ _) _ s

theorem reclaimOne (s : State) (c low : Nat) : s.LeashKeeps (s.reclaimOne c low) := (setStep s c _).trans (setGrant ..)

theorem reclaim (s : State) : s.LeashKeeps s.reclaim :=
  (foldl (fun s c => reclaimOne s c 0) _ s).trans (foldl (fun s c => reclaimOne s c floorStep) _ _)

theorem reclaimed (s : State) : s.LeashKeeps (if s.pwr.ctot < s.gsum then s.reclaim else s) := by
  split_ifs
  · exact reclaim s
  · exact refl s

theorem noteFalls (s : State) : s.LeashKeeps s.noteFalls := foldl noteFall _ s

theorem capSteps (s : State) : s.LeashKeeps s.capSteps := by
  refine foldl (fun s c => ?_) _ s
  split_ifs
  · exact (setStep s c _).trans (noteFall ..)
  · exact refl s

section
variable (h : s.LeashKeeps t)
include h

theorem lowv : t.pwr.lowv = s.pwr.lowv := by rw [← h.pwr]
theorem ctot : t.pwr.ctot = s.pwr.ctot := by rw [← h.pwr]

theorem mv : t.mv = s.mv := by
  rw [State.mv, State.mv, State.railNow, State.railNow, ← h.pwr]

theorem ctotAt (m : Nat) : t.ctotAt m = s.ctotAt m := by
  have hsec : t.sec = s.sec := by rw [← h.moves.rest]
  rw [State.ctotAt, State.ctotAt, hsec, ← h.pwr]

end

end State.LeashKeeps

/-- The rail's move is all that `startRail` does beside raising grants. -/
theorem State.startRail_eq (s : State) :
    ∃ v r, s.LeashKeeps v ∧ s.startRail = { v with pwr := { v.pwr with railNext := r } } := by
  rw [State.startRail]
  dsimp only
  have hup : s.LeashKeeps (s.liveCores.foldl
      (fun t c => t.raiseGrant c (t.needAt (railMv s.railTarget) c none (t.core c).stepDecided) (t.room true)) s) :=
    .foldl (fun t c => .raiseGrant t c _ _) _ s
  split_ifs
  · exact ⟨s, _, .refl s, rfl⟩
  · exact ⟨_, _, hup, rfl⟩
  · exact ⟨_, _, hup, rfl⟩
  · exact ⟨s, _, .refl s, rfl⟩
  · exact ⟨s, _, .refl s, rfl⟩

/-! ### The settled state (R429, R433) -/

/-- The state with C_tot as it stands at the rail in use. -/
def State.retotal (s : State) : State := { s with pwr := { s.pwr with ctot := s.ctotAt s.mv } }

/-- The state in which `settle` notes the falls of demand: floors, rail, C_tot and grants brought up, then what is too much reclaimed. -/
def State.settled (s : State) : State :=
  let v := s.floorsUp.startRail.retotal.othersUp
  if v.pwr.ctot < v.gsum then v.reclaim else v

theorem State.settle_eq (s : State) : s.settle = s.settled.noteFalls := rfl

theorem State.keeps_settled (s : State) : s.floorsUp.startRail.retotal.LeashKeeps s.settled :=
  (State.LeashKeeps.othersUp _).trans (.reclaimed _)

theorem State.moves_settled (s : State) : s.LeashMoves s.settled ∧ s.settled.pwr.lowv = s.pwr.lowv := by
  have hfl := State.LeashKeeps.floorsUp s
  have hto := s.keeps_settled
  obtain ⟨v, r, hv, hr⟩ := s.floorsUp.startRail_eq
  rw [hr] at hto
  refine ⟨((hfl.moves.trans hv.moves).trans (.pwr v _)).trans ((State.LeashMoves.pwr _ _).trans hto.moves), ?_⟩
  exact hto.lowv.trans (hv.lowv.trans hfl.lowv)

theorem State.settle_ctot (s : State) : s.settle.pwr.ctot = s.settle.ctotAt s.settle.mv := by
  have h := s.keeps_settled.trans (.noteFalls _)
  rw [settle_eq, h.ctot, h.ctotAt, h.mv]
  rfl

/-- Whether a core's demand lies below its grant (R433). -/
def State.falls (s : State) (c : Nat) : Prop := s.need c none (s.core c).stepDecided < (s.core c).grant

section
variable (h : Tab.wf ({} : Core) s.cores = true)
include h

/-- The note of a fall changes no demand and no grant. -/
theorem State.falls_updFallAt (c d : Nat) (g : Core → Option Nat) : (s.updCore c fun k => { k with fallAt := g k }).falls d ↔ s.falls d := by
  simp only [State.falls, State.need, State.needAt, State.floorAt, State.core_updCore h]
  by_cases hd : d = c
  · simp only [hd, if_true]
    exact Iff.rfl
  · simp only [if_neg hd]
    exact Iff.rfl

theorem State.falls_noteFall (c d : Nat) : (s.noteFall c).falls d ↔ s.falls d := by
  rw [State.noteFall]
  split_ifs
  · exact falls_updFallAt h c d _
  · exact falls_updFallAt h c d fun _ => none

theorem State.fallAt_noteFall (c d : Nat) :
    ((s.noteFall c).core d).fallAt.isSome = true ↔ if d = c then s.falls c else (s.core d).fallAt.isSome = true := by
  by_cases hd : d = c
  · subst hd
    rw [if_pos rfl, State.falls, State.noteFall]
    split_ifs with hf
    · rw [core_updCore_self h]
      by_cases hs : (s.core d).fallAt.isSome = true <;> simp [hs, hf]
    · rw [core_updCore_self h]
      simp [hf]
  · rw [if_neg hd, State.noteFall]
    split_ifs <;> rw [core_updCore h, if_neg hd]

theorem State.fallAt_noteFalls (l : List Nat) (d : Nat) :
    (((l.foldl State.noteFall s).core d).fallAt.isSome = true ↔ if d ∈ l then s.falls d else (s.core d).fallAt.isSome = true)
    ∧ ((l.foldl State.noteFall s).falls d ↔ s.falls d) := by
  induction l generalizing s with
  | nil => simp
  | cons c l ih =>
    obtain ⟨h1, h2⟩ := ih ((State.LeashMoves.noteFall s c).wf h)
    rw [List.foldl_cons, h1, h2, falls_noteFall h, fallAt_noteFall h]
    refine ⟨?_, Iff.rfl⟩
    by_cases hc : d = c
    · subst hc
      simp
    · simp [hc]

theorem State.settle_fallAt {c : Nat} (hc : c ∈ s.liveCores) : (s.settle.core c).fallAt.isSome = true ↔ s.settle.falls c := by
  obtain ⟨hmv, _⟩ := s.moves_settled
  have hc' : c ∈ s.settled.liveCores := by
    rw [liveCores, ← hmv.rest] at hc
    exact hc
  obtain ⟨h1, h2⟩ := State.fallAt_noteFalls (hmv.wf h) s.settled.liveCores c
  rw [if_pos hc'] at h1
  exact h1.trans h2.symm

end

/-! ### The recomputation (R429, R434) -/

/-- Every rail whose step is lower is no higher. -/
theorem railOf_mono {a b : Nat} (h : a ≤ b) : railOf a ≤ railOf b := Nat.sub_le_sub_right h 2

theorem State.record_if (p : Prop) [Decidable p] (s : State) (cls code : Nat) (dom : Option Nat) (skind sidx addr detail : Nat) :
    ∃ r, (if p then s.record cls code dom skind sidx addr detail else s) = { s with ras := r } := by
  split_ifs
  · exact s.record_eq ..
  · exact ⟨s.ras, rfl⟩

/-- The entry into LOWV where the floors do not fit at `vf` mV (R434). -/
def State.lowvEntered (s : State) (vf : Nat) : State :=
  if !s.pwr.lowv && decide (s.ctotAt vf < s.fsumAt vf) then
    ({ s with pwr := { s.pwr with lowv := true, fitSince := none } } : State).record 7 1 none skLeash 0 0 0
  else s

/-- FLOORDEF, and since when the floors have fitted at `vf` mV (R434). -/
def State.fitNoted (s : State) (vf : Nat) : State :=
  let def_ := s.pwr.lowv && decide (s.ctotAt 650 < s.fsumAt 650)
  let s := if def_ && !s.pwr.floordef then s.record 7 2 none skLeash 0 0 0 else s
  let fits := s.pwr.lowv && decide (s.fsumAt vf + 16 ≤ s.ctotAt vf)
  { s with pwr := { s.pwr with floordef := def_, fitSince := if fits then some (s.pwr.fitSince.getD s.dt) else none } }

theorem State.leashRecompute_eq (s : State) :
    let vf := railMv (railOf s.fmaxEff)
    s.leashRecompute = ((s.lowvEntered vf).fitNoted vf).capSteps.settle := rfl

theorem State.lowvEntered_eq (s : State) (vf : Nat) : ∃ r p, s.lowvEntered vf = { s with ras := r, pwr := p }
    ∧ (p.lowv = true ↔ s.pwr.lowv = true ∨ s.ctotAt vf < s.fsumAt vf) := by
  rw [State.lowvEntered]
  split_ifs with h
  · obtain ⟨r, hr⟩ := ({ s with pwr := { s.pwr with lowv := true, fitSince := none } } : State).record_eq 7 1 none skLeash 0 0 0
    rw [Bool.and_eq_true, decide_eq_true_eq] at h
    exact ⟨r, _, hr, by simp [h.2]⟩
  · rw [Bool.and_eq_true, Bool.not_eq_true', decide_eq_true_eq, not_and] at h
    exact ⟨s.ras, s.pwr, rfl, .inl, fun h' => h'.elim (fun hl => hl) fun hlt => by_contra fun hl => h (by simpa using hl) hlt⟩

theorem State.fitNoted_eq (s : State) (vf : Nat) :
    ∃ r p, s.fitNoted vf = { s with ras := r, pwr := p } ∧ p.lowv = s.pwr.lowv := by
  rw [State.fitNoted]
  dsimp only
  obtain ⟨r, hr⟩ := State.record_if ((s.pwr.lowv && decide (s.ctotAt 650 < s.fsumAt 650) && !s.pwr.floordef) = true) s 7 2 none skLeash 0 0 0
  rw [hr]
  exact ⟨r, _, rfl, rfl⟩

theorem State.capSettle_spec (x : State) : x.capSteps.settle.pwr.lowv = x.pwr.lowv
    ∧ { x.capSteps.settle with cores := x.cores, pwr := x.pwr } = x := by
  have hcap := State.LeashKeeps.capSteps x
  obtain ⟨hmv, hlowv⟩ := x.capSteps.moves_settled
  have hfall := State.LeashKeeps.noteFalls x.capSteps.settled
  rw [settle_eq, hfall.lowv, hlowv, hcap.lowv]
  exact ⟨rfl, ((hcap.moves.trans hmv).trans hfall.moves).rest⟩

theorem State.leashRecompute_spec (s : State) :
    (s.leashRecompute.pwr.lowv = true ↔ s.pwr.lowv = true ∨ s.ctotAt (railMv (railOf s.fmaxEff)) < s.fsumAt (railMv (railOf s.fmaxEff)))
    ∧ { s.leashRecompute with cores := s.cores, pwr := s.pwr, ras := s.ras } = s := by
  obtain ⟨r, p, he, hp⟩ := s.lowvEntered_eq (railMv (railOf s.fmaxEff))
  obtain ⟨r', p', hf, hp'⟩ := (s.lowvEntered (railMv (railOf s.fmaxEff))).fitNoted_eq (railMv (railOf s.fmaxEff))
  rw [he] at hf hp'
  rw [leashRecompute_eq, he, hf]
  obtain ⟨hlow, hrest⟩ := State.capSettle_spec { s with ras := r', pwr := p' }
  generalize State.settle _ = z at hlow hrest ⊢
  refine ⟨?_, congrArg (fun u : State => { u with pwr := s.pwr, ras := s.ras }) hrest⟩
  rw [hlow, ← hp, ← hp']

/-! ### Grants and steps -/

theorem credits_spec (ma step mv : Nat) : ma * stepTenths step * mv ≤ credits ma step mv * 3900000
    ∧ credits ma step mv * 3900000 < ma * stepTenths step * mv + 3900000 := by
  rw [credits]
  omega

theorem State.railTarget_spec (s : State) (hlive : s.liveCores ≠ []) : (∀ c ∈ s.liveCores, railOf (s.capStep c) ≤ s.railTarget)
    ∧ ∃ c ∈ s.liveCores, s.railTarget = railOf (s.capStep c) := by
  obtain ⟨c0, hc0⟩ := List.exists_mem_of_ne_nil _ hlive
  by_cases hlow : (s.pwr.floordef || s.pwr.hot) = true
  · by_cases hany : s.liveCores.any (fun c => (s.core c).isFloor) = true
    · obtain ⟨c1, hc1, hf1⟩ := List.any_eq_true.1 hany
      have ht : s.railTarget = railOf (if (s.pwr.lowv || s.pwr.hot) = true then min s.fmaxEff floorStep else s.fmaxEff) := by
        rw [State.railTarget, hany, hlow] <;> rfl
      rw [ht]
      refine ⟨fun c _ => railOf_mono ?_, c1, hc1, ?_⟩
      · rw [State.capStep]
        split_ifs <;> omega
      · rw [State.capStep, hf1, hlow] <;> rfl
    · have ht : s.railTarget = railOf 0 := by
        rw [State.railTarget, Bool.eq_false_of_not_eq_true hany, hlow] <;> rfl
      have hcap (c : Nat) (hc : c ∈ s.liveCores) : s.capStep c = 0 := by
        have hf : (s.core c).isFloor = false := Bool.eq_false_of_not_eq_true fun hf => hany (List.any_eq_true.2 ⟨c, hc, hf⟩)
        rw [State.capStep, hf, hlow] <;> rfl
      exact ⟨fun c hc => by rw [ht, hcap c hc], c0, hc0, by rw [ht, hcap c0 hc0]⟩
  · have heq (c : Nat) : s.railTarget = railOf (s.capStep c) := by
      rw [State.railTarget, State.capStep, Bool.eq_false_of_not_eq_true hlow] <;> rfl
    exact ⟨fun c _ => (heq c).ge, c0, hc0, heq c0⟩

theorem State.capStep_of_hot {c : Nat} (hhot : s.pwr.hot = true) (hf : (s.core c).isFloor = false) : s.capStep c = 0 := by
  rw [State.capStep, hhot, hf, Bool.or_true] <;> rfl

/-- What is put at a key and is not the default is there, in whatever order the table lists its keys. -/
theorem Tab.get_set_self_of_ne {α : Type} [DecidableEq α] {d x : α} (hx : x ≠ d) (t : Tab α) (i : Nat) :
    Tab.get d (Tab.set d t i x) i = x := by
  induction t with
  | nil => simp [Tab.set, Tab.get, hx]
  | cons p t ih =>
    obtain ⟨k, v⟩ := p
    rw [Tab.set]
    by_cases h1 : i < k
    · rw [if_pos h1, if_neg hx, Tab.get, if_pos rfl]
    · by_cases h2 : i = k
      · rw [if_neg h1, if_pos h2, if_neg hx, Tab.get, if_pos rfl]
      · rw [if_neg h1, if_neg h2, Tab.get, if_neg h2, ih]

theorem State.grant_setGrant {c g : Nat} (h : (s.core c).grant ≤ g) : ((s.setGrant c g).core c).grant = g := by
  rw [State.setGrant]
  dsimp only
  split_ifs with hg
  · exact hg.symm
  · have hne : ({ s.core c with grant := g } : Core) ≠ {} := fun he => by
      have : g = 0 := congrArg Core.grant he
      omega
    exact congrArg Core.grant (Tab.get_set_self_of_ne hne s.cores c)

theorem State.grant_raiseGrant (s : State) (c g lim : Nat) : (s.core c).grant ≤ ((s.raiseGrant c g lim).core c).grant
    ∧ ((s.raiseGrant c g lim).core c).grant ≤ (s.core c).grant + lim := by
  rw [State.raiseGrant, grant_setGrant (Nat.le_max_left _ _)]
  omega

theorem State.canRaise_iff {c : Nat} : s.canRaise c = true ↔ (s.core c).stepNext = none ∧ (s.core c).stepDecided + 1 ≤ s.capStep c
    ∧ railOf ((s.core c).stepDecided + 1) ≤ s.pwr.rail ∧ s.pwr.railNext = none ∧ s.gsum < s.pwr.ctot
    ∧ s.need c none ((s.core c).stepDecided + 1) ≤ (s.core c).grant + min (s.pwr.ctot - s.gsum) (s.room true) := by
  simp only [State.canRaise, Bool.and_eq_true, decide_eq_true_eq, Option.isNone_iff_eq_none, and_assoc]
  rw [State.freeCredits, Nat.sub_pos_iff_lt]

theorem exec_leashRaise (s : State) :
    let u := s.settle
    (u.credWaits ≠ [] → exec .leashRaise s = .next u)
    ∧ (∀ c, u.credWaits = [] →
      ((u.liveCores.filter fun c => (u.core c).isFloor) ++ u.liveCores.filter fun c => !(u.core c).isFloor).find? u.canRaise = some c →
      let st := (u.core c).stepDecided + 1
      exec .leashRaise s = .next ((u.setGrant c (max (u.core c).grant (u.need c none st))).setStep c st)
      ∧ st ≤ u.capStep c ∧ railOf st ≤ u.pwr.rail ∧ u.gsum < u.pwr.ctot
      ∧ u.need c none st ≤ (u.core c).grant + min (u.pwr.ctot - u.gsum) (u.room true)) := by
  intro u
  refine ⟨fun hw => if_pos (by simp [show s.settle.credWaits ≠ [] from hw]), fun c hw hc => ?_⟩
  intro st
  obtain ⟨_, hcap, hrail, _, hfree, hneed⟩ := State.canRaise_iff.1 (List.find?_some hc)
  refine ⟨?_, hcap, hrail, hfree, hneed⟩
  refine (if_neg (by simp [show s.settle.credWaits = [] from hw])).trans ?_
  dsimp only
  rw [hc]

theorem exec_islandStepChange {c st : Nat} (hc : c < s.var.cores) (hst : (s.core c).stepNext = some st) :
    let sure := railOf st ≤ s.pwr.rail ∧ ∀ r, s.pwr.railNext = some r → railOf st ≤ r
    (sure → exec (.islandStepChange c) s = .next (s.updCore c fun k => { k with step := st, stepNext := none }).settle)
    ∧ (¬ sure → exec (.islandStepChange c) s = .next s) := by
  intro sure
  have hsure : sure ↔ ¬ s.railSure < railOf st := by
    rw [State.railSure, not_lt, le_min_iff]
    cases hr : s.pwr.railNext <;> simp [sure, hr]
  change (_ → execIslandStepChange c s = _) ∧ (_ → execIslandStepChange c s = _)
  rw [execIslandStepChange, hst, hsure]
  dsimp only
  exact ⟨fun h => (if_neg (by simp [hc])).trans (if_neg h), fun h => (if_neg (by simp [hc])).trans (if_pos (not_not.1 h))⟩

theorem exec_grantHysteresisExpiry {c t : Nat} (hc : c < s.var.cores) (ht : (s.core c).fallAt = some t) (hdt : t + 1000 ≤ s.dt) :
    let k := s.core c
    exec (.grantHysteresisExpiry c) s = .next
      ((s.setGrant c (min k.grant (max (s.need c none k.stepDecided) (k.grant - s.room false)))).noteFall c) := by
  intro k
  change execGrantHysteresisExpiry c s = _
  rw [execGrantHysteresisExpiry, ht]
  refine (if_neg (by simp [hc])).trans ((if_neg (Nat.not_lt.2 hdt)).trans ?_)
  rw [min_comm]

/-! ### Cooling and temperature (R436 to R438) -/

theorem highest_cons (a : Int) (l : List Int) : highest (a :: l) = some (l.foldl max a) := by
  induction l generalizing a with
  | nil => rfl
  | cons b l ih => exact (congrArg (fun m => highest (m :: l)) (max_comm b a)).trans (ih (max a b))

theorem highest_eq_some {l : List Int} {tj : Int} : highest l = some tj ↔ tj ∈ l ∧ ∀ x ∈ l, x ≤ tj := by
  have hmax : highest l = l.max? := by
    cases l with
    | nil => rfl
    | cons a l => rw [highest_cons, List.max?_cons']
  rw [hmax, List.max?_eq_some_iff]

theorem wrapN_eight (x : Int) : wrapN 8 x = (BitVec.ofInt 8 x).toNat := by
  rw [wrapN, BitVec.toNat_ofInt]

theorem exec_tmcReport {tin tout : Int} {flow pto : Nat} (hrst : s.boot.inReset = false) (hstep : 4 ≤ s.boot.step)
    (hflow : flow < 256) (hpto : pto < 256) :
    let low := 65 < tin ∨ flow < 25
    let u := if low ∧ s.pwr.derLow = false then s.record 7 0 none 12 0 0 0 else s
    exec (.tmcReport tin tout flow pto) s = .next ({ u with pwr := { u.pwr with
      tin := (BitVec.ofInt 8 tin).toNat, tout := (BitVec.ofInt 8 tout).toNat, flow := flow, pto := pto
      derLow := decide low, lastReport := s.dt
      der := if low then 60 else if tin ≤ 60 then 100 else 100 - 4 * (tin - 60).toNat } } : State).leashRecompute := by
  intro low u
  have hlow : coolLow tin flow = decide low := (Bool.decide_or _ _).symm
  have hu : (if (coolLow tin flow && !s.pwr.derLow) = true then s.record 7 0 none skLeash 0 0 0 else s) = u :=
    if_congr (by rw [hlow]; simp) rfl rfl
  have hdt : u.dt = s.dt := by
    change (if low ∧ s.pwr.derLow = false then s.record 7 0 none 12 0 0 0 else s).dt = s.dt
    obtain ⟨r, hr⟩ := State.record_if (low ∧ s.pwr.derLow = false) s 7 0 none 12 0 0 0
    rw [hr]
    rfl
  refine (if_neg (by simp [hrst, Nat.not_lt.2 hstep])).trans ?_
  dsimp only
  rw [hu, hdt, wrapN_eight, wrapN_eight, Nat.mod_eq_of_lt hflow, Nat.mod_eq_of_lt hpto, derOf, hlow]
  simp only [decide_eq_true_eq]

theorem exec_junctionSensorRead {l : List Int} {tj : Int} (hl : highest l = some tj) :
    (s.boot.inReset = false →
      let u := { s with pwr := { s.pwr with tj := tj, coolSince := if tj ≤ 100 then some (s.pwr.coolSince.getD s.dt) else none } }
      exec (.junctionSensorRead l) s = .next
        (if 105 ≤ tj ∧ s.pwr.hot = false then
          (({ u with pwr := { u.pwr with hot := true } } : State).record 8 0 none 12 0 0 0).leashRecompute
         else u))
    ∧ (s.boot.inReset = true → tj ≤ 95 →
      exec (.junctionSensorRead l) s = .next { s with boot := { s.boot with holds := s.boot.holds.filter (· ≠ 1) } }) := by
  change (_ → execJunctionSensorRead l s = _) ∧ (_ → _ → execJunctionSensorRead l s = _)
  rw [execJunctionSensorRead, hl]
  refine ⟨fun hrst => (if_neg (by rw [hrst]; decide)).trans ?_, fun hrst htj => (if_pos hrst).trans (congrArg Host.Outcome.next (if_pos htj))⟩
  refine Eq.trans ?_ (apply_ite _ _ _ _).symm
  exact if_congr (by simp) rfl rfl

theorem exec_hotClear {t : Nat} (hhot : s.pwr.hot = true) (hc : s.pwr.coolSince = some t) (ht : t + 10000000 ≤ s.dt) :
    exec .hotClear s = .next ({ s with pwr := { s.pwr with hot := false } } : State).leashRecompute := by
  change execHotClear s = _
  rw [execHotClear, hc]
  exact if_neg (by simp [hhot, Nat.not_lt.2 ht])

theorem exec_lowvExit {t : Nat} (hlow : s.pwr.lowv = true) (hf : s.pwr.fitSince = some t) (ht : t + 100000000 ≤ s.dt) :
    exec .lowvExit s = .next
      ({ s with pwr := { s.pwr with lowv := false, floordef := false, fitSince := none } } : State).leashRecompute := by
  change execLowvExit s = _
  rw [execLowvExit, hf]
  exact if_pos (by simp [hlow, ht])

theorem exec_coreRailMoveComplete {r : Nat} (hr : s.pwr.railNext = some r) :
    exec .coreRailMoveComplete s = .next ({ s with pwr := { s.pwr with rail := r, railNext := none } } : State).leashRecompute := by
  change execCoreRailMoveComplete s = _
  rw [execCoreRailMoveComplete, hr]

/-- Settles O50: Leash settles to its invariants, and each row of cooling and temperature is the recomputation after its change. -/
theorem powerAndTemperature : Obligations.PowerAndTemperature := by
  refine ⟨⟨credits_spec, fun s mv => Nat.min_le_left _ _, fun s => ⟨rfl, s.leashRecompute_spec⟩, fun s t => exec_lowvExit,
      exec_leashRaise, State.railTarget_spec, fun s c => State.capStep_of_hot, State.grant_raiseGrant,
      fun s c t => exec_grantHysteresisExpiry, fun s c st => exec_islandStepChange, State.settle_ctot,
      fun s c h hc => State.settle_fallAt h hc, fun s r => exec_coreRailMoveComplete⟩,
    fun s tin tout flow pto hrst hstep _ _ _ _ hflow hpto => exec_tmcReport hrst hstep hflow hpto,
    fun s ht => if_neg (Nat.not_lt.2 ht), fun s w h1 h2 hrst hstep => if_neg (by simp [hrst, Nat.not_lt.2, h1, h2, hstep]),
    fun s l tj => exec_junctionSensorRead, fun s t => exec_hotClear,
    fun s ht hrst hstep => if_neg (by simp [ht, hrst, Nat.not_lt.2 hstep]), fun l tj => highest_eq_some⟩

end Sys2Proof.Machine
end

/-! ## O51: the error log, the patrol, corrections, mesh links and failed units (R439 to R443, R446 to R450) -/

section
namespace Sys2Proof.Machine

variable {s : State}

/-! ### The error log (R446) -/

theorem ErrRec.joins_iff {n r : ErrRec} : n.joins r = true ↔
    n.cls = r.cls ∧ n.code = r.code ∧ n.skind = r.skind ∧ n.sidx = r.sidx ∧ n.addr = r.addr ∧ r.t < n.t + 1000000 := by
  simp [joins, and_assoc]

section
variable {r : ErrRec} {rest : List ErrRec} (hq : s.ras.queue = r :: rest)
include hq

theorem exec_rasRecordLog_joins {n : ErrRec} (hn : s.ras.newest = some n) (hj : n.joins r = true) :
    let x := { s.ras with queue := rest }
    exec .rasRecordLog s = .next { s with ras :=
      { x with log := Tab.set none x.log (n.seq % 1024) (some { n with count := min (n.count + 1) 65535 }) } } := by
  intro x
  have hn' : x.newest = some n := hn
  change execRasRecordLog s = _
  rw [execRasRecordLog, hq]
  dsimp only
  rw [hn']
  exact if_pos hj

theorem exec_rasRecordLog_new (hn : ∀ n, s.ras.newest = some n → n.joins r = false) :
    let x := { s.ras with queue := rest }
    exec .rasRecordLog s = .next (({ s with ras :=
        { x with
          log := Tab.set none x.log (s.ras.next % 1024) (some { r with seq := s.ras.next })
          next := (s.ras.next + 1) % 2 ^ 32 } } : State).postDevice 6 r.cls 0 s.ras.next) := by
  intro x
  change execRasRecordLog s = _
  rw [execRasRecordLog, hq]
  dsimp only
  cases hx : x.newest with
  | none => rfl
  | some n => exact if_neg (ne_true_of_eq_false (hn n hx))

end

/-! ### How a patrol read ends (R439, R440) -/

/-- The state that a patrol read leaves, by how it ends. -/
def State.patrolEnds (s : State) (t : PatrolTarget) (sk ix a det : Nat) (dom : Option Nat) : PatrolEnd → State
  | .clean => s
  | .corrected raced => s.patrolCorrected t raced sk ix a det dom
  | .uncorrectable none => s.patrolUncorrectable t sk ix a det dom
  | .uncorrectable (some forge) => (s.lineNotGood forge).patrolUncorrectable t sk ix a det dom

theorem PatrolFind.clean_worst (r : PatrolFind) : PatrolFind.clean.worst r = r := by cases r <;> rfl

theorem PatrolFind.worst_uncorrectable {f r : PatrolFind} (h : r = .uncorrectable ∨ f = .uncorrectable) : f.worst r = .uncorrectable := by
  rcases h with rfl | rfl
  · cases f <;> rfl
  · rfl

theorem patrolShows_of_not_store {t : PatrolTarget} (ht : ∀ ch j, t ≠ .storeLine ch j) (fault : Option Bool) :
    patrolShows t .clean fault = .clean ∧ (∀ raced, patrolShows t (.corrected raced) fault = .corrected raced)
    ∧ patrolShows t .uncorrectable fault = .uncorrectable none := by
  cases t with
  | storeLine ch j => exact absurd rfl (ht ch j)
  | _ => exact ⟨rfl, fun _ => rfl, rfl⟩

/-- Where a unit is neither a line nor of the store, it stands clean or uncorrectable. -/
theorem State.patrolStands_clean {t : PatrolTarget} (hc : ∀ c l, t ≠ .coreLine c l) (hy : ∀ i l, t ≠ .yardLine i l)
    (hu : s.patrolStands t ≠ .uncorrectable) : s.patrolStands t = .clean := by
  have hfound (b : Bool) (h : (if b then PatrolFind.uncorrectable else if false then .corrected false else .clean) ≠ .uncorrectable) :
      (if b then PatrolFind.uncorrectable else if false then .corrected false else .clean) = .clean := by
    cases b
    · rfl
    · exact absurd rfl h
  cases t with
  | coreLine c l => exact absurd rfl (hc c l)
  | yardLine i l => exact absurd rfl (hy i l)
  | storeLine ch j => rfl
  | tableWord sk w => rfl
  | tallyWord k => exact hfound _ hu
  | loopWord n w => exact hfound _ hu
  | trajEntry n i w => exact hfound _ hu

/-! ### Lines with correctable errors (R440, R441) -/

section
variable {stand : List Nat} (h : stand ≠ [])
include h

theorem State.patrolUnits_of_ne_nil (lo u : Nat) : s.patrolUnits stand lo u = (stand, s) := if_neg (by simp [h])

theorem State.patrolLeft_of_ne_nil (units : List Nat) (raced : Bool) :
    s.patrolLeft stand units raced = (if raced then stand else [], s) := by
  cases raced
  · rfl
  · exact (if_neg (by decide)).trans (if_neg (by simp [h]))

end

theorem State.patrolUnits_nil (lo u : Nat) :
    s.patrolUnits [] lo u = ([lo + u * (s.draw.1 % (64 / u))], { s with freeCtr := s.freeCtr + 1 }) := rfl

theorem State.patrolLeft_nil (units : List Nat) :
    s.patrolLeft [] units true = (if s.draw.1 % 2 = 1 then units else [], { s with freeCtr := s.freeCtr + 1 }) := rfl

theorem State.patrolLeft_unraced (stand units : List Nat) : s.patrolLeft stand units false = ([], s) := rfl

theorem State.patrolCorrected_coreLine {c l : Nat} (h : (s.core c).weakIn (64 * l) (64 * l + 64) ≠ []) (raced : Bool) (sk ix a det : Nat)
    (dom : Option Nat) :
    let stand := (s.core c).weakIn (64 * l) (64 * l + 64)
    s.patrolCorrected (.coreLine c l) raced sk ix a det dom = (stand.foldl (fun s b => s.coreFix c b dom) s).updCore c
      fun k => { k with weak := (k.weak.filter fun b => !stand.contains b) ++ if raced then stand else [] } := by
  intro stand
  rw [State.patrolCorrected, patrolUnits_of_ne_nil h, patrolLeft_of_ne_nil h]

theorem State.patrolCorrected_coreLine_nil {c l : Nat} (h : (s.core c).weakIn (64 * l) (64 * l + 64) = []) (sk ix a det : Nat)
    (dom : Option Nat) : ∃ b, 64 * l ≤ b ∧ b < 64 * l + 64 ∧
      let v := State.coreFix { s with freeCtr := s.freeCtr + 1 } c b dom
      s.patrolCorrected (.coreLine c l) false sk ix a det dom = v.updCore c (fun k => k)
      ∧ ∃ left, (left = [] ∨ left = [b]) ∧ s.patrolCorrected (.coreLine c l) true sk ix a det dom =
        State.updCore { v with freeCtr := v.freeCtr + 1 } c fun k => { k with weak := k.weak ++ left } := by
  have hall (m : List Nat) : m.filter (fun b => !([] : List Nat).contains b) = m := List.filter_eq_self.2 fun _ _ => rfl
  refine ⟨64 * l + 4 * (s.draw.1 % 16), by omega, by omega, ?_, ?_⟩
  · rw [State.patrolCorrected, h, patrolUnits_nil, patrolLeft_unraced]
    simp only [hall, List.append_nil]
    rfl
  · rw [State.patrolCorrected, h, patrolUnits_nil, patrolLeft_nil]
    simp only [hall]
    refine ⟨_, ?_, rfl⟩
    split_ifs
    · exact .inr rfl
    · exact .inl rfl

theorem State.patrolCorrected_yardLine {i l sk ix a det : Nat} {dom : Option Nat} (h : s.yardWeakIn (a - yardBase) (a - yardBase + 64) ≠ [])
    (raced : Bool) :
    let stand := s.yardWeakIn (a - yardBase) (a - yardBase + 64)
    let u := stand.foldl (fun s b => s.yardFix b dom) s
    s.patrolCorrected (.yardLine i l) raced sk ix a det dom = { u with yard :=
      { u.yard with weak := (u.yard.weak.filter fun b => !stand.contains b) ++ if raced then stand else [] } } := by
  intro stand u
  rw [State.patrolCorrected, patrolUnits_of_ne_nil h, patrolLeft_of_ne_nil h]

/-- Changing one entry of a list by its place is `modify`. -/
theorem map_zipIdx_ite {α : Type} (f : α → α) (l : List α) (i : Nat) :
    (l.zipIdx.map fun p => if p.2 = i then f p.1 else p.1) = l.modify i f := by
  refine List.ext_getElem? fun m => ?_
  rw [List.getElem?_map, List.getElem?_zipIdx, List.getElem?_modify]
  cases l[m]? <;> simp [eq_comm]

/-! ### Patrol reads -/

section
variable {t : PatrolTarget} {sk ix a det : Nat} {dom : Option Nat} (hat : s.patrolAt t = some (sk, ix, a, det, dom))
  (hskip : s.patrolSkips t = false)
include hat hskip

theorem exec_patrolStep (r : PatrolFind) : exec (.patrolStep t r) s
    = .next (s.patrolEnds t sk ix a det dom (patrolShows t ((s.patrolStands t).worst r) (s.patrolFault t))) := by
  change execPatrolStep t r s = _
  rw [execPatrolStep, hat]
  refine (if_neg (ne_true_of_eq_false hskip)).trans ?_
  rcases patrolShows t ((s.patrolStands t).worst r) (s.patrolFault t) with _ | _ | _ | _ <;> rfl

theorem exec_patrolStep_clean (ht : ∀ ch j, t ≠ .storeLine ch j) {r : PatrolFind} (hr : (s.patrolStands t).worst r = .clean) :
    exec (.patrolStep t r) s = .next s := by
  rw [exec_patrolStep hat hskip, hr, (patrolShows_of_not_store ht _).1] <;> rfl

theorem exec_patrolStep_corrected (ht : ∀ ch j, t ≠ .storeLine ch j) {r : PatrolFind} {raced : Bool}
    (hr : (s.patrolStands t).worst r = .corrected raced) :
    exec (.patrolStep t r) s = .next (s.patrolCorrected t raced sk ix a det dom) := by
  rw [exec_patrolStep hat hskip, hr, (patrolShows_of_not_store ht _).2.1] <;> rfl

theorem exec_patrolStep_uncorrectable (ht : ∀ ch j, t ≠ .storeLine ch j) {r : PatrolFind}
    (hr : r = .uncorrectable ∨ s.patrolStands t = .uncorrectable) :
    exec (.patrolStep t r) s = .next (s.patrolUncorrectable t sk ix a det dom) := by
  rw [exec_patrolStep hat hskip, PatrolFind.worst_uncorrectable hr, (patrolShows_of_not_store ht _).2.2] <;> rfl

theorem exec_patrolStep_storeLine {ch j : Nat} (ht : t = .storeLine ch j) (r : PatrolFind) :
    exec (.patrolStep t r) s = .next (match lineEnd (s.patrolFault t) r.storeErrs 0 with
      | .good => s
      | .fixed => s.corrected none sk ix a det dom
      | .bad f => (s.lineNotGood f).patrolUncorrectable t sk ix a det dom) := by
  have hstands : s.patrolStands t = .clean := by rw [ht] <;> rfl
  have hshows (f : Option Bool) : patrolShows t r f = match lineEnd f r.storeErrs 0 with
      | .good => .clean
      | .fixed => .corrected false
      | .bad forge => .uncorrectable (some forge) := by rw [ht] <;> rfl
  rw [exec_patrolStep hat hskip, hstands, PatrolFind.clean_worst, hshows]
  cases lineEnd (s.patrolFault t) r.storeErrs 0 with
  | fixed => rw [ht] <;> rfl
  | _ => rfl

/-- A line of core memory: what stands weak is corrected, or one unit by a free value. -/
theorem exec_patrolStep_coreLine {c l : Nat} (ht : t = .coreLine c l) (hbad : (s.core c).badIn (64 * l) (64 * l + 64) = []) :
    let stand := (s.core c).weakIn (64 * l) (64 * l + 64)
    let u := stand.foldl (fun s b => s.coreFix c b dom) s
    let other := fun (k : Core) => k.weak.filter fun b => !stand.contains b
    (stand ≠ [] → (∀ r, r = .clean ∨ r = .corrected false →
        exec (.patrolStep t r) s = .next (u.updCore c fun k => { k with weak := other k }))
      ∧ exec (.patrolStep t (.corrected true)) s = .next (u.updCore c fun k => { k with weak := other k ++ stand }))
    ∧ (stand = [] → ∃ b, 64 * l ≤ b ∧ b < 64 * l + 64 ∧
      let v := State.coreFix { s with freeCtr := s.freeCtr + 1 } c b dom
      exec (.patrolStep t (.corrected false)) s = .next (v.updCore c fun k => k)
      ∧ ∃ left, (left = [] ∨ left = [b]) ∧ exec (.patrolStep t (.corrected true)) s =
        .next (State.updCore { v with freeCtr := v.freeCtr + 1 } c fun k => { k with weak := k.weak ++ left })) := by
  intro stand u other
  have hns (ch j : Nat) : t ≠ .storeLine ch j := by rw [ht]; exact PatrolTarget.noConfusion
  have hstands : s.patrolStands t = if stand.isEmpty then .clean else .corrected false := by
    rw [ht, State.patrolStands]
    dsimp only
    rw [hbad]
    change (if (!stand.isEmpty) = true then PatrolFind.corrected false else .clean) = _
    cases stand <;> rfl
  refine ⟨fun hst => ?_, fun hst => ?_⟩
  · have hs : s.patrolStands t = .corrected false := hstands.trans (if_neg (by simp [hst]))
    have hfix (raced : Bool) := State.patrolCorrected_coreLine (s := s) hst raced sk ix a det dom
    refine ⟨fun r hr => ?_, ?_⟩
    · have hw : (s.patrolStands t).worst r = .corrected false := by
        rw [hs]
        rcases hr with rfl | rfl <;> rfl
      rw [exec_patrolStep_corrected hat hskip hns hw, ht, hfix false]
      simp only [Bool.false_eq_true, if_false, List.append_nil]
      rfl
    · have hw : (s.patrolStands t).worst (.corrected true) = .corrected true := by rw [hs] <;> rfl
      rw [exec_patrolStep_corrected hat hskip hns hw, ht, hfix true] <;> rfl
  · have hs : s.patrolStands t = .clean := hstands.trans (if_pos (by simp [hst]))
    obtain ⟨b, hlo, hhi, hf, left, hleft, htr⟩ := State.patrolCorrected_coreLine_nil (s := s) hst sk ix a det dom
    have hw (raced : Bool) : (s.patrolStands t).worst (.corrected raced) = .corrected raced := by rw [hs] <;> rfl
    refine ⟨b, hlo, hhi, ?_, left, hleft, ?_⟩
    · rw [exec_patrolStep_corrected hat hskip hns (hw false), ht, hf]
    · rw [exec_patrolStep_corrected hat hskip hns (hw true), ht, htr]

theorem exec_patrolStep_yardLine {i l : Nat} (ht : t = .yardLine i l) :
    let lo := 64 * (l * s.var.slices + i)
    let stand := s.yardWeakIn lo (lo + 64)
    let u := stand.foldl (fun s b => s.yardFix b dom) s
    let other := u.yard.weak.filter fun b => !stand.contains b
    s.yardBadIn lo (lo + 64) = [] → stand ≠ [] →
    exec (.patrolStep t (.corrected false)) s = .next { u with yard := { u.yard with weak := other } }
    ∧ exec (.patrolStep t (.corrected true)) s = .next { u with yard := { u.yard with weak := other ++ stand } } := by
  intro lo stand u other hbad hst
  have hns (ch j : Nat) : t ≠ .storeLine ch j := by rw [ht]; exact PatrolTarget.noConfusion
  have ha : a - yardBase = lo := by
    rw [ht] at hat
    obtain ⟨_, he⟩ := Option.ite_none_right_eq_some.1 hat
    have := congrArg (fun p : Nat × Nat × Nat × Nat × Option Nat => p.2.2.1) (Option.some.inj he)
    dsimp only at this
    omega
  have hs : s.patrolStands t = .corrected false := by
    rw [ht, State.patrolStands]
    dsimp only
    rw [hbad]
    exact (if_neg (by decide)).trans (if_pos (by rw [Bool.not_eq_true', List.isEmpty_eq_false_iff]; exact hst))
  have hw (raced : Bool) : (s.patrolStands t).worst (.corrected raced) = .corrected raced := by rw [hs] <;> rfl
  have hfix (raced : Bool) := State.patrolCorrected_yardLine (s := s) (i := i) (l := l) (sk := sk) (ix := ix) (det := det) (dom := dom)
    (ha ▸ hst : s.yardWeakIn (a - yardBase) (a - yardBase + 64) ≠ []) raced
  refine ⟨?_, ?_⟩
  · rw [exec_patrolStep_corrected hat hskip hns (hw false), ht, hfix false, ha]
    simp only [Bool.false_eq_true, if_false, List.append_nil]
    rfl
  · rw [exec_patrolStep_corrected hat hskip hns (hw true), ht, hfix true, ha] <;> rfl

theorem exec_patrolStep_trajEntry {n i w : Nat} (ht : t = .trajEntry n i w) : exec (.patrolStep t .uncorrectable) s = .next
    ((({ s with ras := { s.ras with ue := satAdd 32 s.ras.ue 1 } } : State).record 2 1 dom sk ix a det).updLoop n fun x =>
      { x with queue := x.queue.modify i fun e => { e with bad := true } }) := by
  have hns (ch j : Nat) : t ≠ .storeLine ch j := by rw [ht]; exact PatrolTarget.noConfusion
  rw [exec_patrolStep_uncorrectable hat hskip hns (.inl rfl), ht]
  exact congrArg Host.Outcome.next (congrArg (State.updLoop _ n) (funext fun x =>
    congrArg (fun q => { x with queue := q }) (map_zipIdx_ite (fun e : Traj => { e with bad := true }) x.queue i)))

theorem exec_patrolStep_word (hc : ∀ c l, t ≠ .coreLine c l) (hy : ∀ i l, t ≠ .yardLine i l) (hns : ∀ ch j, t ≠ .storeLine ch j)
    (hu : s.patrolStands t ≠ .uncorrectable) (raced : Bool) :
    exec (.patrolStep t (.corrected raced)) s = .next (s.correctedIn sk (patrolWord t a) none sk ix a det dom) := by
  have hw : (s.patrolStands t).worst (.corrected raced) = .corrected raced := by
    rw [State.patrolStands_clean hc hy hu] <;> rfl
  rw [exec_patrolStep_corrected hat hskip hns hw]
  cases t with
  | coreLine c l => exact absurd rfl (hc c l)
  | yardLine i l => exact absurd rfl (hy i l)
  | _ => rfl

end

/-! ### Corrections and the fence (R441, R449, R450) -/

theorem State.correctedIn_eq (kind word : Nat) (core : Option Nat) (sk ix a det : Nat) (dom : Option Nat) :
    let l := s.ras.corrected.filter fun p => decide (s.dt < p.2.2 + 1000000000)
    let key := word * 2 ^ 20 + ix
    let u := ({ s with ras := { s.ras with ce := satAdd 32 s.ras.ce 1, corrected := l ++ [(kind, key, s.dt)] } } : State).record
      1 0 dom sk ix a det
    s.correctedIn kind word core sk ix a det dom =
      (if (l.filter fun p => p.1 = kind && p.2.1 = key).length < 7 then u
       else match core with
         | some c => (u.record 1 1 dom sk ix a det).fenceStart c 0
         | none => u.record 1 1 dom sk ix a det) := by
  intro l key u
  exact if_congr Nat.succ_lt_succ_iff rfl (by cases core <;> rfl)

theorem State.record_fence (s : State) (cls code : Nat) (dom : Option Nat) (skind sidx addr detail : Nat) :
    (s.record cls code dom skind sidx addr detail).ras.fence = s.ras.fence := by
  rw [State.record, State.recordN]
  split_ifs <;> rfl

theorem State.setGrant_ras (s : State) (c g : Nat) : (s.setGrant c g).ras = s.ras := by
  rw [State.setGrant]
  dsimp only
  split_ifs <;> rfl

theorem State.unitDone_ras (s : State) (gran : Bool) (u : Nat) (failed : Bool) : (s.unitDone gran u failed).ras = s.ras := by
  rw [State.unitDone]
  refine foldl_keeps (P := fun t : State => t.ras = s.ras) (fun t a h => ?_) _ rfl
  exact h

theorem State.fenceDone_fence {c : Nat} (code : Nat) (hc : c ∉ s.ras.fence) : (s.fenceDone c code).ras.fence = s.ras.fence ++ [c] := by
  rw [State.fenceDone, if_neg (by simpa using hc)]
  have hg := s.setGrant_ras c ((s.core c).grant - s.room false)
  generalize s.setGrant c ((s.core c).grant - s.room false) = g at hg
  dsimp only
  rw [unitDone_ras, record_fence]
  generalize hx : State.scrubNext _ = x
  obtain ⟨y, hy⟩ := State.scrubNext_eq _
  rw [← hx, hy]
  exact congrArg (· ++ [c]) (congrArg Ras.fence hg)

theorem State.fenceDone_spec (c code : Nat) (hn : s.ras.fence.Nodup) :
    (s.fenceDone c code).ras.fence.Nodup ∧ c ∈ (s.fenceDone c code).ras.fence ∧ (c ∈ s.ras.fence → s.fenceDone c code = s) := by
  by_cases hc : c ∈ s.ras.fence
  · have he : s.fenceDone c code = s := if_pos (by simpa using hc)
    rw [he]
    exact ⟨hn, hc, fun _ => rfl⟩
  · rw [fenceDone_fence code hc]
    exact ⟨List.concat_eq_append ▸ hn.concat hc, by simp, fun h => absurd h hc⟩

/-! ### Mesh links, islands, slices and channels (R442, R443) -/

theorem exec_meshFlitCrcFail {f : FlitFail} (hf : f.link < 4 * s.var.cores) (hdown : s.ras.linkDown.contains f.link = false) :
    exec (.meshFlitCrcFail f) s = .next { s with ras := { s.ras with linkFails := Tab.upd 0 s.ras.linkFails f.link fun n =>
      if 8 ≤ n then n else if f.again then n + 1 else 1 } } :=
  (if_neg (by simp [hf])).trans (if_neg (ne_true_of_eq_false hdown))

section
variable {link : Nat} (hl : link < 4 * s.var.cores)
include hl

theorem exec_meshLinkRetrainDone_idle (h : Tab.get 0 s.ras.linkFails link < 8) (ok : Bool) : exec (.meshLinkRetrainDone link ok) s = .next s :=
  (if_neg (by simp [hl])).trans (if_pos (by simp [h]))

variable (hdown : s.ras.linkDown.contains link = false)
include hdown

theorem exec_meshLinkRetrainDone_ok (h : 8 ≤ Tab.get 0 s.ras.linkFails link) :
    exec (.meshLinkRetrainDone link true) s = .next (({ s with ras :=
      { s.ras with linkFails := Tab.set 0 s.ras.linkFails link 0, linkRetrains := Tab.set 0 s.ras.linkRetrains link 0 } } : State).record
        6 0 none 6 link 0 0) :=
  (if_neg (by simp [hl])).trans ((if_neg (by rw [hdown]; simp [Nat.not_lt.2 h])).trans (if_pos rfl))

theorem exec_meshLinkRetrainDone_failed (h : 8 ≤ Tab.get 0 s.ras.linkFails link) :
    let n := Tab.get 0 s.ras.linkRetrains link + 1
    let u := ({ s with ras := { s.ras with linkRetrains := Tab.set 0 s.ras.linkRetrains link n } } : State).record 6 0 none 6 link 0 0
    exec (.meshLinkRetrainDone link false) s = .next
      (if n < 3 then u else ({ u with ras := { u.ras with linkDown := link :: u.ras.linkDown } } : State).fatal 0 6 link 0) := by
  intro n u
  refine (if_neg (by simp [hl])).trans ((if_neg (by rw [hdown]; simp [Nat.not_lt.2 h])).trans ((if_neg (by decide)).trans ?_))
  exact (apply_ite Host.Outcome.next _ _ _).symm

end

theorem exec_coreHandshakeFault {c : Nat} (hc : c < s.var.cores) (hf : s.ras.fence.contains c = false) :
    exec (.islandHandshakeFault (.core c)) s = .next (s.coreFault c) :=
  (if_neg (by simp [hc])).trans (if_neg (ne_true_of_eq_false hf))

/-- Settles O51: the log's record, each kind of patrolled unit, and each failed part by its row. -/
theorem errorsAreMetAndRecorded : Obligations.ErrorsAreMetAndRecorded := by
  refine ⟨fun s r rest hq => ⟨fun n hn hj => exec_rasRecordLog_joins hq hn (ErrRec.joins_iff.2 hj), exec_rasRecordLog_new hq⟩,
    fun s t sk ix a det dom hat hskip => ⟨fun ch j => exec_patrolStep_storeLine hat hskip, fun hns => ⟨fun hst => ?_,
        fun r => exec_patrolStep_uncorrectable hat hskip hns⟩, fun c l => exec_patrolStep_coreLine hat hskip,
      fun i l => exec_patrolStep_yardLine hat hskip, fun n i w => exec_patrolStep_trajEntry hat hskip,
      fun hc hy hns hu => exec_patrolStep_word hat hskip hc hy hns hu⟩,
    fun s => State.correctedIn_eq, fun s => State.fenceDone_spec, fun s f => exec_meshFlitCrcFail,
    fun s link hl hdown => ⟨fun h => ⟨exec_meshLinkRetrainDone_ok hl hdown h, exec_meshLinkRetrainDone_failed hl hdown h⟩,
      exec_meshLinkRetrainDone_idle hl⟩,
    fun s => ⟨rfl, fun c => exec_coreHandshakeFault, fun i hi => if_pos hi, fun i hi => if_pos hi⟩⟩
  exact exec_patrolStep_clean hat hskip hns (by rw [hst] <;> rfl)

end Sys2Proof.Machine
end

/-! ## O52: a snapshot of the partner's trajectory point where the own loop follows none (R454) -/

section
namespace Sys2Proof.Machine

/-- A standby tray of a pair whose closed loop 0 has no trajectory entry in use. -/
def trayFollowingNoEntry : State :=
  { Tests.Slice0.twinTray 2 false fun x => { x with link := .paired, ast := .standby } with loop := { slots := [(0, { st := .closed })] } }

/-- A snapshot of loop 0 that has moved along a trajectory entry. -/
def snapAlongEntry : Snap := ⟨0, 4, 0, 0, 0, 0, 0, 0, 1⟩

/-- Whether loop 0 has a trajectory entry in use, after an outcome. -/
def Out.followsEntry : Out → Option Bool
  | .next s => some (s.loopSlot 0).cur.isSome
  | _ => none

theorem snapshot_brings_entry : Out.followsEntry (exec (.snapshotReceived snapAlongEntry) trayFollowingNoEntry) = some true
    ∧ trayFollowingNoEntry.twin.link = .paired ∧ trayFollowingNoEntry.twin.ast = .standby
    ∧ (trayFollowingNoEntry.loopSlot 0).runs = true ∧ (trayFollowingNoEntry.loopSlot 0).cur.isSome = false := by
  decide +kernel

/-- Refutes O52: where the snapshot holds a place along an entry and the own loop has none in use, the loop takes an entry with that place;
the statement has it go on without one. -/
theorem not_theKnagoLinkPairs : ¬ Obligations.TheKnagoLinkPairs := by
  intro h
  obtain ⟨hcur, hlink, hast, hruns, hnone⟩ := snapshot_brings_entry
  obtain ⟨-, hpaired, -, -⟩ := h trayFollowingNoEntry
  obtain ⟨-, -, -, -, -, -, hsnap⟩ := hpaired hlink
  have hnext := hsnap snapAlongEntry hast hruns (by decide)
  rw [hnext] at hcur
  exact absurd hcur (by decide +kernel)

end Sys2Proof.Machine
end

/-! ## O53: claims, grants, hand-overs and the takeover; TWIN_CFG and TWIN_CTL (R295, R457 to R459, R461) -/

section
namespace Sys2Proof.Machine

variable {s : State} {fn : Fn}

/-- A row that tests the opposite of what its statement tests. -/
theorem next_ite_swap {p q : Prop} [Decidable p] [Decidable q] (h : p ↔ ¬ q) (a b : State) :
    (if p then Host.Outcome.next a else .next b : Out) = .next (if q then b else a) := by
  by_cases hq : q
  · rw [if_pos hq, if_neg (fun hp => h.1 hp hq)]
  · rw [if_neg hq, if_pos (h.2 hq)]

/-- A row that tests what its statement tests. -/
theorem next_ite {p q : Prop} [Decidable p] [Decidable q] (h : p ↔ q) (a b : State) :
    (if p then Host.Outcome.next a else .next b : Out) = .next (if q then a else b) := by
  rw [apply_ite Host.Outcome.next]
  exact if_congr h rfl rfl

/-! ### The partner's messages (R457) -/

theorem exec_claimMessageReceived (s : State) (side : Bool) :
    let x := s.twin
    let seen : State := { s with twin := { x with lastFrame := s.dt } }
    exec (.claimMessageReceived side) s = .next
      (if x.link ≠ .paired then s
       else if (x.ast = .off ∨ x.ast = .standby) ∧ (x.claimAt = none ∨ (x.side = true ∧ side = false)) then seen.kmsg 5 [] else seen) := by
  intro x seen
  rw [apply_ite Host.Outcome.next, apply_ite Host.Outcome.next]
  exact if_congr Iff.rfl rfl (if_congr (by simp [x]) rfl rfl)

theorem exec_grantReceived (hlink : s.twin.link = .paired) :
    let x := s.twin
    exec .grantReceived s = .next
      (if (∃ t, x.claimAt = some t ∧ s.dt < t + 100000) ∧ x.ast = .off ∧ x.mode = 2 ∧ x.pin = false then
        { s with twin := { x with ast := .active, authNext := some true, claimAt := none, lastFrame := s.dt } }
       else { s with twin := { x with lastFrame := s.dt } }) := by
  intro x
  refine (if_neg (not_not.2 hlink)).trans ?_
  rcases Option.eq_none_or_eq_some s.twin.claimAt with hc | ⟨t, hc⟩
  · have hno : ¬ ((∃ t, x.claimAt = some t ∧ s.dt < t + 100000) ∧ x.ast = .off ∧ x.mode = 2 ∧ x.pin = false) := by
      rintro ⟨⟨t, ht, _⟩, _⟩
      exact absurd (hc.symm.trans ht) (by simp)
    rw [show s.frameSeen.twin.claimAt = none from hc]
    exact (congrArg Host.Outcome.next (if_neg hno)).symm
  · rw [show s.frameSeen.twin.claimAt = some t from hc]
    refine next_ite ?_ _ _
    change x.ast = .off ∧ x.mode = 2 ∧ (!x.pin) = true ∧ s.dt < t + 100000 ↔ _
    rw [show x.claimAt = some t from hc]
    simp only [Option.some.injEq, exists_eq_left', Bool.not_eq_true']
    tauto

theorem exec_claimTimeout {t : Nat} (ht : s.twin.claimAt = some t) : exec .claimTimeout s = .next
    (if t + 100000 ≤ s.dt then ({ s with twin := { s.twin with claimAt := none } } : State).record 9 1 none 13 0 0 0 else s) := by
  change execClaimTimeout s = _
  rw [execClaimTimeout, ht]
  exact next_ite_swap Nat.not_le.symm _ _

theorem exec_handoverReceived (hlink : s.twin.link = .paired) :
    let x := s.twin
    exec .handoverReceived s = .next
      (if x.ast = .standby then
        (({ s with twin := { x with lastFrame := s.dt, handoverAt := some s.dt } } : State).kmsg 7 []).tryTakeover
       else { s with twin := { x with lastFrame := s.dt } }) := by
  intro x
  exact (if_neg (not_not.2 hlink)).trans (next_ite_swap Iff.rfl _ _)

theorem exec_handoverAckReceived (hlink : s.twin.link = .paired) :
    let x := s.twin
    exec .handoverAckReceived s = .next
      (if x.handing = true ∧ x.ast = .active then
        { s with twin := { x with handing := false, ast := .standby, authNext := some false, lastFrame := s.dt } }
       else { s with twin := { x with lastFrame := s.dt } }) := by
  intro x
  refine (if_neg (not_not.2 hlink)).trans (next_ite_swap ?_ _ _)
  change (!x.handing || decide (x.ast ≠ .active)) = true ↔ _
  rw [Bool.or_eq_true, Bool.not_eq_true', decide_eq_true_eq, not_and_or, Bool.not_eq_true]

/-! ### TWIN_AUTH_IN and the takeover (R457, R458) -/

theorem exec_twinAuthInFall (s : State) :
    let x := s.twin
    exec .twinAuthInFall s = .next
      (if s.var.acts = false then s
       else if x.ast = .standby then ({ s with twin := { x with pin := false, fallAt := some s.dt } } : State).tryTakeover
       else { s with twin := { x with pin := false } }) := by
  intro x
  rw [apply_ite Host.Outcome.next]
  exact if_congr (by rw [Bool.not_eq_true']) rfl (next_ite_swap Iff.rfl _ _)

theorem exec_takeoverWindowEnd {t : Nat} (ht : s.twin.fallAt = some t) (hast : s.twin.ast = .standby) : exec .takeoverWindowEnd s = .next
    (if t + 20000 ≤ s.dt then ({ s with twin := { s.twin with fallAt := none } } : State).record 9 2 none 13 0 0 0 else s) := by
  change execTakeoverWindowEnd s = _
  rw [execTakeoverWindowEnd, ht]
  exact next_ite_swap (by simp [hast]) _ _

theorem exec_twinAuthInContention (s : State) :
    let x := s.twin
    exec .twinAuthInContention s = .next
      (if s.var.acts = false then s
       else if x.pin = false then { s with twin := { x with pin := true, pinAt := s.dt } }
       else if s.dt < x.pinAt + 800 then s
       else if x.ast = .active ∧ x.side = true then s.authOff.record 9 3 none 13 0 0 0
       else s) := by
  intro x
  simp only [apply_ite Host.Outcome.next]
  exact if_congr (by rw [Bool.not_eq_true']) rfl (if_congr (by rw [Bool.not_eq_true']) rfl rfl)

theorem Twin.windowMet_iff {x : Twin} {t : Nat} :
    x.windowMet t = true ↔ ∃ h, (x.handoverAt = some h ∨ x.lostAt = some h) ∧ t ≤ h + 100000 ∧ h < t + 20000 := by
  rw [windowMet, Bool.or_eq_true, Option.any_eq_true, Option.any_eq_true]
  simp only [Bool.and_eq_true, decide_eq_true_eq, or_and_right, exists_or]

theorem State.authTake_true_auth (s : State) : (s.authTake true).loop.auth = true := by
  rw [State.authTake]
  split_ifs with h
  · exact h
  · obtain ⟨x, hx⟩ := (s.setAuth true).postDevice_eq 7 (bit true) 0 0
    rw [hx]
    rfl

section
variable {t : Nat} (ht : s.twin.fallAt = some t)
include ht

theorem State.tryTakeover_unmet (hmet : ¬ s.twin.windowMet t = true) : s.tryTakeover = s := by
  rw [State.tryTakeover, ht]
  exact if_pos (by simp [hmet])

variable (hast : s.twin.ast = .standby) (hmet : s.twin.windowMet t = true)
include hast hmet

theorem State.tryTakeover_met : s.tryTakeover = if s.twin.takeover = true then s.takeAuthority
    else { s with twin := { s.twin with fallAt := none } } := by
  rw [State.tryTakeover, ht]
  exact if_neg (by simp [hast, hmet])

end

/-! ### TWIN_CFG and TWIN_CTL (R457, R459) -/

theorem State.writeReg_twin (hs : s.sec.statusMode = false) (hv : s.var.acts = true) {a : Nat} (h : 0xF20000 ≤ a) (k v : Nat) :
    s.writeReg fn a k v = (if a - 0xF20000 = 0 then s.twinCfgWrite k v
      else if a - 0xF20000 = 8 then s.twinCtlWrite k v
      else if 0x1000 ≤ a - 0xF20000 ∧ a - 0xF20000 < 0x1800 then s.cmpWrite ((a - 0xF20000 - 0x1000) / 32) ((a - 0xF20000) % 32 / 8) k v
      else s) := by
  unfold writeReg
  rw [hs, Bool.false_and, if_neg (by decide)]
  repeat rw [if_neg (by omega : ¬ a < _)]
  rw [twinWrite, hv]
  exact if_neg (by decide)

/-- Only the write of the lower half leaves MODE alone. -/
theorem partMask_mode (p : Part) : partMask p &&& maskBits 63 62 = 0 ↔ p = .lo := by
  cases p <;> decide

section
variable (hv : s.var.acts = true)
include hv

theorem regRow_twinCfg (h : s.reaches fn 0xF20000 = true) (p : Part) (v : Word) :
    exec (.twinCfgWrite fn p v) s = .next (s.twinCfgWrite (partMask p) v.toNat) := by
  change regRow true fn 0xF20000 p v s = _
  rw [regRow_of_reaches rfl h (by decide) (by decide) (.inr (by decide)),
    State.writeReg_twin (State.answers_of_reaches h).2.2.2 hv (by decide), if_pos (by decide)]

theorem regRow_twinCtl (h : s.reaches fn 0xF20008 = true) (v : Word) :
    regRow true fn 0xF20008 .full v s = .next (s.twinCtlWrite (partMask .full) v.toNat) := by
  rw [regRow_of_reaches rfl h (by decide) (by decide) (.inr (by decide)),
    State.writeReg_twin (State.answers_of_reaches h).2.2.2 hv (by decide), if_neg (by decide), if_pos (by decide)]

theorem exec_twinCfgWrite (h : s.reaches fn 0xF20000 = true) (hlock : s.sec.lock = false) (hast : s.twin.ast = .off) (part : Part) (v : Word) :
    let x := s.twin
    let w := regMerge x.cfg (partMask part) rwTwinCfg v.toNat
    natBits w.toNat 63 62 ≠ 3 →
    let u : State := { s with twin := { x with cfg := w } }
    let t := if part = .lo then u else u.linkTo .down
    exec (.twinCfgWrite fn part v) s = .next (if natBits w.toNat 63 62 = 2 ∧ s.boot.ptp = true then t.search else t) := by
  intro x w hw u t
  have ht : (if partMask part &&& maskBits 63 62 ≠ 0 then u.linkTo .down else u) = t := by
    rw [ite_not]
    exact if_congr (partMask_mode part) rfl rfl
  have hmode : t.twin.mode = natBits w.toNat 63 62 := by
    by_cases hp : part = .lo
    · rw [show t = u from if_pos hp] <;> rfl
    · rw [show t = u.linkTo .down from if_neg hp] <;> rfl
  have hptp : t.boot.ptp = s.boot.ptp := by
    by_cases hp : part = .lo
    · rw [show t = u from if_pos hp]
    · rw [show t = u.linkTo .down from if_neg hp] <;> rfl
  rw [regRow_twinCfg hv h, State.twinCfgWrite]
  refine congrArg Host.Outcome.next ((if_neg ?_).trans ?_)
  · simp only [hlock, hast, Bool.false_or, Bool.or_eq_true, decide_eq_true_eq, ne_eq, not_true, false_or]
    exact hw
  · dsimp only
    rw [ht, hmode, hptp]
    rfl

theorem exec_twinCfgWrite_held (h : s.reaches fn 0xF20000 = true) (hno : s.sec.lock = true ∨ s.twin.ast ≠ .off) (v : Word) :
    exec (.twinCfgWrite fn .full v) s = .next s := by
  rw [regRow_twinCfg hv h, State.twinCfgWrite]
  exact congrArg Host.Outcome.next (if_pos (by rcases hno with h | h <;> simp [h]))

variable (h : s.reaches fn 0xF20008 = true)
include h

theorem exec_twinClaim : exec (.twinClaim fn) s = .next s.twinClaim := regRow_twinCtl hv h 1
theorem exec_twinRelease : exec (.twinRelease fn) s = .next s.twinRelease := regRow_twinCtl hv h 2
theorem exec_twinStandby : exec (.twinStandby fn) s = .next s.twinStandby := regRow_twinCtl hv h 4
theorem exec_twinHandover : exec (.twinHandover fn) s = .next s.twinHandover := regRow_twinCtl hv h 8

end

section
variable (hast : s.twin.ast = .off) (htrip : s.pwr.tripped = false)
include hast htrip

theorem State.twinClaim_solo (hmode : s.twin.mode = 1) (hpin : s.twin.pin = false) :
    s.twinClaim = { s with twin := { s.twin with ast := .active, authNext := some true, claimAt := none } } := by
  rw [State.twinClaim]
  exact (if_neg (by simp [hast, htrip])).trans (if_pos ⟨hmode, by rw [hpin]; rfl⟩)

theorem State.twinClaim_pair (hmode : s.twin.mode = 2) (hlink : s.twin.link = .paired) (hpin : s.twin.pin = false) :
    s.twinClaim = ({ s with twin := { s.twin with claimAt := some s.dt } } : State).kmsg 4 [bit s.twin.side] := by
  rw [State.twinClaim]
  exact (if_neg (by simp [hast, htrip])).trans ((if_neg (by simp [hmode, modeSolo])).trans (if_pos ⟨hmode, hlink, by rw [hpin]; rfl⟩))

theorem State.twinClaim_waits (hno : s.twin.pin = true ∨ (s.twin.mode ≠ 1 ∧ (s.twin.mode ≠ 2 ∨ s.twin.link ≠ .paired))) :
    s.twinClaim = { s with twin := { s.twin with claimAt := some s.dt } } := by
  rw [State.twinClaim]
  refine (if_neg (by simp [hast, htrip])).trans ((if_neg ?_).trans (if_neg ?_))
  · rintro ⟨h1, h2⟩
    rcases hno with h | ⟨h, _⟩
    · rw [h] at h2
      exact absurd h2 (by decide)
    · exact h h1
  · rintro ⟨h1, h2, h3⟩
    rcases hno with h | ⟨_, h | h⟩
    · rw [h] at h3
      exact absurd h3 (by decide)
    · exact h h1
    · exact h h2

end

theorem State.twinClaim_not_off (hast : s.twin.ast ≠ .off) : s.twinClaim = s := by
  rw [State.twinClaim]
  exact if_pos (by simp [hast])

theorem State.twinRelease_eq (s : State) : s.twinRelease = if s.twin.ast = .off then s else { s with twin := { s.twin with
    ast := .off, authNext := if s.loop.auth = true ∨ s.twin.authNext = some true then some false else none
    handing := false, fallAt := none } } := by
  rw [State.twinRelease]
  refine if_congr Iff.rfl rfl ?_
  simp only [Bool.or_eq_true, decide_eq_true_eq]

/-- Settles O53: each message, edge and command by its row. -/
theorem authorityPasses : Obligations.AuthorityPasses := by
  refine ⟨fun s => ?_, fun s fn v hv => ⟨fun h hlock hast part => exec_twinCfgWrite hv h hlock hast part v,
    fun h hno => exec_twinCfgWrite_held hv h hno v, fun h => ?_⟩⟩
  · refine ⟨exec_claimMessageReceived s, exec_grantReceived, fun t => exec_claimTimeout, exec_handoverReceived, exec_handoverAckReceived,
      fun hlink => ⟨if_pos hlink, if_pos hlink, if_pos hlink⟩, exec_twinAuthInFall s, fun t => exec_takeoverWindowEnd,
      exec_twinAuthInContention s, fun t ht hast => ⟨fun hmet htake => ?_, fun hmet htake => ?_, fun hmet => ?_⟩⟩
    · rw [State.tryTakeover_met ht hast (Twin.windowMet_iff.2 hmet), if_pos htake]
      exact ⟨rfl, s.authTake_true_auth⟩
    · rw [State.tryTakeover_met ht hast (Twin.windowMet_iff.2 hmet), if_neg (ne_true_of_eq_false htake)]
    · exact State.tryTakeover_unmet ht fun hw => hmet (Twin.windowMet_iff.1 hw)
  · have hclaim := exec_twinClaim hv h
    refine ⟨fun hast htrip => ⟨fun hmode hpin => ?_, fun hmode hlink hpin => ?_, fun hno => ?_⟩, fun hast => ?_, ?_, ?_, ?_⟩
    · rw [hclaim, State.twinClaim_solo hast htrip hmode hpin]
    · rw [hclaim, State.twinClaim_pair hast htrip hmode hlink hpin]
    · rw [hclaim, State.twinClaim_waits hast htrip hno]
    · rw [hclaim, State.twinClaim_not_off hast]
    · rw [exec_twinRelease hv h, State.twinRelease_eq]
    · rw [exec_twinStandby hv h] <;> rfl
    · rw [exec_twinHandover hv h] <;> rfl

end Sys2Proof.Machine
end

/-! ## O54: digest comparison (R455, R456) -/

section
namespace Sys2Proof.Machine

variable {s : State} {n : Nat}

theorem State.SameButLog.yardRead (s : State) (lo hi : Nat) (dom : Option Nat) : s.SameButLog (s.yardRead lo hi dom) :=
  foldl_keeps (P := fun t => s.SameButLog t) (fun t _ h => h.trans (.correctedIn_none t ..)) _ ⟨s.ras, s.sec, rfl⟩

section
variable (hn : n < 64)
include hn

theorem exec_compareTrigger (ha : s.var.acts = true) (hd : (s.cmp n).dvalid = true) (hr : (s.cmp n).refused = false)
    (hw : s.waitMet (s.cmp n).trig ((s.cmp n).exp + 1) = true) (he : (s.cmp n).exp + 1 < 2 ^ 32) :
    let x := s.cmp n
    let u := (s.updCmp n fun y => { y with exp := x.exp + 1 }).cmpArm n
    exec (.compareTrigger n) s = .next
      (if x.stage = 0 then u.cmpStart n [x.exp + 1]
       else if 4 ≤ x.pend.length then u.cmpResult n (x.exp + 1) 5 [] []
       else u.updCmp n fun y => { y with pend := y.pend ++ [x.exp + 1] }) := by
  intro x u
  rw [apply_ite Host.Outcome.next, apply_ite Host.Outcome.next]
  refine (if_neg (by simp [hn])).trans (if_neg ?_)
  rw [ha, hd, hr, hw]
  simp only [Bool.not_true, Bool.false_or, decide_eq_true_eq]
  exact Nat.not_le.2 he

section
variable (hst : (s.cmp n).stage = 1)
include hst

theorem exec_compareDigestFormed_unread {t : State} (h : s.cmpRead (s.cmp n) = (none, t)) :
    exec (.compareDigestFormed n) s = .next (t.cmpEnd n 4 []) := by
  refine (if_neg (by simp [hn])).trans ((if_neg (not_not.2 hst)).trans ?_)
  rw [h] <;> rfl

theorem exec_compareDigestFormed_read {t : State} {r : List Byte} (h : s.cmpRead (s.cmp n) = (some r, t)) :
    let u := t.updCmp n fun y => { y with own := Config.shake256 32 (toLE 1 n ++ toLE 4 (s.cmp n).seq ++ r), stage := 2, at_ := t.dt }
    exec (.compareDigestFormed n) s = .next (if t.twin.link = .paired
      then (u.kmsg 3 ([n, (s.cmp n).seq] ++ (Config.shake256 32 (toLE 1 n ++ toLE 4 (s.cmp n).seq ++ r)).map (·.toNat))).cmpMeet n
      else u.cmpEnd n 3 []) := by
  intro u
  refine (if_neg (by simp [hn])).trans ((if_neg (not_not.2 hst)).trans ?_)
  rw [h]
  exact next_ite_swap Iff.rfl _ _

theorem exec_compareDigestFormed :
    let x := s.cmp n
    let o := x.addr - yardBase
    let d := Config.shake256 32 (toLE 1 n ++ toLE 4 x.seq ++ s.yard.mem.read o (64 * x.len))
    (s.cmpRegionOk x = true → s.yardBadIn o (o + 64 * x.len) = [] →
      let u := (s.yardRead o (o + 64 * x.len) (some x.dom)).updCmp n fun y => { y with own := d, stage := 2, at_ := s.dt }
      exec (.compareDigestFormed n) s = .next
        (if s.twin.link = .paired then (u.kmsg 3 ([n, x.seq] ++ d.map (·.toNat))).cmpMeet n else u.cmpEnd n 3 []))
    ∧ (s.cmpRegionOk x = false → exec (.compareDigestFormed n) s = .next (s.cmpEnd n 4 []))
    ∧ (∀ b l, s.cmpRegionOk x = true → s.yardBadIn o (o + 64 * x.len) = b :: l → exec (.compareDigestFormed n) s = .next
        ((s.ueMet 0 (some x.dom) 1 (s.slice b) (lineAddr (yardBase + b))).cmpEnd n 4 [])) := by
  intro x o d
  refine ⟨fun hok hbad => ?_, fun hno => ?_, fun b l hok hbad => ?_⟩
  · have hlog := State.SameButLog.yardRead s o (o + 64 * x.len) (some x.dom)
    have hread : s.cmpRead x = (some (s.yard.mem.read o (64 * x.len)), s.yardRead o (o + 64 * x.len) (some x.dom)) := by
      rw [State.cmpRead, hok, show s.yardBadIn (x.addr - yardBase) (x.addr - yardBase + 64 * x.len) = [] from hbad]
      rfl
    refine (exec_compareDigestFormed_read hn hst hread).trans ?_
    obtain ⟨r, y, ht⟩ := hlog
    generalize s.yardRead o (o + 64 * x.len) (some x.dom) = t at ht ⊢
    subst ht
    rfl
  · exact exec_compareDigestFormed_unread hn hst (if_pos (by rw [hno]; rfl))
  · refine exec_compareDigestFormed_unread hn hst ?_
    rw [State.cmpRead, hok, show s.yardBadIn (x.addr - yardBase) (x.addr - yardBase + 64 * x.len) = b :: l from hbad]
    rfl

end

theorem exec_partnerDigestReceived {q : BitVec 32} {dig : List Byte} (hlink : s.twin.link = .paired) (hd : (s.cmp n).dvalid = true)
    (hseq : (s.cmp n).seq ≤ q.toNat) (hp : ∀ p, (s.cmp n).partner = some p → p.1 ≤ q.toNat) :
    exec (.partnerDigestReceived n q dig) s = .next
      ((({ s with twin := { s.twin with lastFrame := s.dt } } : State).updCmp n fun y =>
        { y with partner := some (q.toNat, cut dig 0 32) }).cmpMeet n) := by
  refine (if_neg (by simp [hn])).trans ((if_neg (not_not.2 hlink)).trans (if_neg ?_))
  have hold : ((s.cmp n).partner.any fun p => decide (q.toNat < p.1)) = false := by
    cases h : (s.cmp n).partner with
    | none => rfl
    | some p => exact decide_eq_false (Nat.not_lt.2 (hp p h))
  change ¬ (!(s.cmp n).dvalid || (decide (q.toNat < (s.cmp n).seq) || (s.cmp n).partner.any fun p => decide (q.toNat < p.1))) = true
  rw [hd, hold, decide_eq_false (Nat.not_lt.2 hseq)]
  decide

theorem exec_compareTimeout (hst : (s.cmp n).stage = 2) (ht : (s.cmp n).at_ + 1000 * (s.cmp n).timeout ≤ s.dt) :
    exec (.compareTimeout n) s = .next (s.cmpEnd n 2 []) :=
  (if_neg (by simp [hn])).trans (if_neg (by simp [hst, Nat.not_lt.2 ht]))

end

theorem State.cmpWrite_seq (hd : (s.cmp n).dvalid = false) (v : Word) : s.cmpWrite n 3 (partMask .full) v.toNat =
    s.updCmp n fun y => { y with exp := natBits v.toNat 63 32, seq := natBits v.toNat 63 32 } := by
  change (if (s.cmp n).dvalid = true then s else _) = _
  refine (if_neg (ne_true_of_eq_false hd)).trans ?_
  rw [natBits_regMerge (by decide) (by decide)]

theorem State.cmpMeet_of_partner {q : Nat} {d : List Byte} (hp : (s.cmp n).partner = some (q, d)) (hst : (s.cmp n).stage = 2)
    (hq : q = (s.cmp n).seq) :
    let x := s.cmp n
    s.cmpMeet n = if s.dt < x.at_ + 1000 * x.timeout then
      (s.updCmp n fun y => { y with partner := none }).cmpEnd n (if d = x.own then 0 else 1) d else s := by
  intro x
  rw [State.cmpMeet, hp]
  exact if_congr (by simp [hst, hq, x]) rfl rfl

theorem State.cmpResult_of_room {seq res : Nat} {own other : List Byte} (hb : yardBase ≤ (s.cmp n).res) (hm : (s.cmp n).res % 32 = 0)
    (hok : s.yardRangeOk (s.cmp n).dom ((s.cmp n).res - yardBase) 96 = true) :
    let x := s.cmp n
    let r := cut own 0 32 ++ cut other 0 32 ++ toLE 4 seq ++ toLE 4 res ++ toLE 8 s.dt ++ List.replicate 16 0
    let u := (s.yardWrite (bytesAt (x.res - yardBase) r)).1.updCmp n fun y => { y with lastres := res }
    s.cmpResult n seq res own other =
      (if res = 0 then u.tallyAdd x.dom x.okt 1
       else ({ u with twin := { u.twin with miss := satAdd 16 u.twin.miss 1 } } : State).tallyAdd x.dom x.misst 1) := by
  intro x r u
  rw [State.cmpResult]
  dsimp only
  rw [if_pos (c := (decide (yardBase ≤ (s.cmp n).res) && (s.cmp n).res % 32 == 0
    && s.yardRangeOk (s.cmp n).dom ((s.cmp n).res - yardBase) 96) = true) (by simp [hb, hm, hok])]
  rfl

/-- Settles O54: a trigger, its digest, the partner's, the verdict and the timeout, each by its row. -/
theorem digestsAreCompared : Obligations.DigestsAreCompared := by
  intro s n hn x
  exact ⟨exec_compareTrigger hn, rfl, exec_compareDigestFormed hn, fun v hd => State.cmpWrite_seq hd v,
    fun q dig => exec_partnerDigestReceived hn, exec_compareTimeout hn, fun q d => State.cmpMeet_of_partner,
    fun seq res own other => State.cmpResult_of_room⟩

end Sys2Proof.Machine
end

/-! ## O55: the steps of bring-up (R204, R451, R462 to R471) -/

section
namespace Sys2Proof.Machine

variable {s : State}

/-! ### A power-on resets the whole tray (R463, R464) -/

/-- What a reset may do to fuses that are being programmed: it draws, and they hold the old values or the new. -/
theorem State.fusesAtReset_eq (s : State) :
    ∃ n f, s.fusesAtReset = { s with freeCtr := n, fuses := f } ∧ (s.sec.fuseJob = none → f = s.fuses) := by
  rw [State.fusesAtReset]
  cases h : s.sec.fuseJob with
  | none => exact ⟨s.freeCtr, s.fuses, rfl, fun _ => rfl⟩
  | some j =>
    refine ⟨s.freeCtr + 1, if s.draw.1 % 2 = 1 then j.f else s.fuses, ?_, fun h => by cases h⟩
    dsimp only
    split_ifs <;> rfl

theorem State.railsOff_spec (s : State) :
    let t := s.railsOff
    t.pio = {} ∧ t.twin = {} ∧ t.knl = {} ∧ t.sec = { dbgp := s.sec.dbgp } ∧ t.cores = [] ∧ t.time = {} ∧ t.ras = {} ∧ t.hif.holder = none
      ∧ t.boot.rails = 0 ∧ t.boot.step = 0 ∧ t.boot.inReset = false ∧ t.boot.holds = [] ∧ t.boot.tcrBytes = s.boot.tcrBytes
      ∧ t.boot.tmcFences = s.boot.tmcFences ∧ t.hif.a.mem = s.hif.a.mem ∧ t.hif.b.mem = s.hif.b.mem ∧ t.pending = s.pending
      ∧ (s.sec.fuseJob = none → t.fuses = s.fuses) := by
  obtain ⟨n, f, he, hf⟩ := s.fusesAtReset_eq
  rw [State.railsOff, he]
  exact ⟨rfl, rfl, rfl, rfl, rfl, rfl, rfl, rfl, rfl, rfl, rfl, rfl, rfl, rfl, rfl, rfl, rfl, hf⟩

/-- What the rails' loss leaves of the boot's own state. -/
theorem State.railsOff_boot (s : State) : s.railsOff.boot = { s.boot with
    rails := 0, step := 0, stands := 0, store := false, ptp := false, twinres := 0, tStore := 0, inReset := false, justReset := false
    holds := [], coolOk := false, wdDue := false, wdNow := 0, wdRestart := 0, wdFails := 0, wdFailsK := 0, wdFailsL := 0, debugOut := [] } := by
  obtain ⟨n, f, he, hf⟩ := s.fusesAtReset_eq
  rw [State.railsOff, he]

theorem exec_powerGood (s : State) : exec .powerGood s = .next (let t := s.railsOff
    { t with boot := { t.boot with
      tcr := t.boot.tcrBytes, pg := true, railFaults := 0, railWait := false, step := 1, fatalRuns := 0
      cause := if s.boot.pg = true then 0 else s.boot.cause, tmcrsn := if s.boot.pg = true then 0 else s.boot.tmcrsn } }) := by
  have hb := s.railsOff_boot
  change execPowerGood s = _
  rw [execPowerGood]
  dsimp only
  rw [hb]
  cases s.boot.pg <;> rfl

/-! ### Rails, coolant and the TCR (R464 to R466) -/

theorem exec_railInRange (hpg : s.boot.pg = true) (hstep : s.boot.step = 1) (hr : s.boot.rails < 4) :
    exec .railInRange s = .next { s with boot := { s.boot with rails := s.boot.rails + 1, step := if s.boot.rails = 3 then 2 else 1 } } := by
  refine (if_neg (by simp [hpg, hstep, Nat.not_le.2 hr])).trans ?_
  rw [if_congr (show s.boot.rails + 1 = 4 ↔ s.boot.rails = 3 by omega) rfl rfl]

theorem exec_railRetry (h : s.boot.railWait = true) :
    exec .railRetry s = .next { s with boot := { s.boot with railWait := false, step := 1, tcr := s.boot.tcrBytes } } :=
  if_neg (by rw [h]; decide)

theorem coolCheck_eq {tin : Int} {flow der : Nat}
    (h : (tin ≤ 65 ∧ 25 ≤ flow ∧ der = 100) ∨ (¬ (tin ≤ 65 ∧ 25 ≤ flow) ∧ tin ≤ 75 ∧ 10 ≤ flow ∧ der = 60)) :
    coolCheck tin flow = some der := by
  rcases h with ⟨h1, h2, rfl⟩ | ⟨h, h1, h2, rfl⟩
  · exact if_pos ⟨h1, h2⟩
  · exact (if_neg h).trans (if_pos ⟨h1, h2⟩)

section
variable {tin : Int} {flow der : Nat} (h : coolCheck tin flow = some der)
include h

theorem exec_coolantCheck_release (hrst : s.boot.inReset = false) (hstep : s.boot.step = 2) (hpg : s.boot.pg = true) :
    exec (.coolantCheck tin flow) s = .next
      { s with boot := { s.boot with step := 3, coolOk := true }, pwr := { s.pwr with der := der } } := by
  change execCoolantCheck tin flow s = _
  rw [execCoolantCheck, h]
  exact (if_neg (ne_true_of_eq_false hrst)).trans (if_pos (by simp [hstep, hpg]))

theorem exec_coolantCheck_hold (hrst : s.boot.inReset = true) :
    exec (.coolantCheck tin flow) s = .next { s with boot := { s.boot with coolOk := true } } := by
  change execCoolantCheck tin flow s = _
  rw [execCoolantCheck, h]
  exact if_pos hrst

end

/-- The sum of the powers of two below `n` whose exponents satisfy `p` has exactly their bits. -/
theorem testBit_sum_two_pow (p : Nat → Bool) (n j : Nat) :
    (((List.range n).filter p).map (2 ^ ·)).sum.testBit j = (decide (j < n) && p j) := by
  have hs : ((List.range n).filter p).SortedLT := (List.pairwise_lt_range.filter p).sortedLT
  rw [Bool.eq_iff_iff, ← Nat.mem_bitIndices, Nat.bitIndices_sum_map_two_pow hs]
  simp

theorem length_tcrFenced (bs : List Byte) (l : List Nat) : (tcrFenced bs l).length = bs.length := by
  rw [tcrFenced, List.length_map, List.length_zipIdx]

theorem getD_tcrFenced {bs : List Byte} (l : List Nat) {i : Nat} (hi : i < bs.length) : (tcrFenced bs l).getD i 0 = bs.getD i 0
    ||| BitVec.ofNat 8 (((List.range 8).filter fun j => decide (i < 32) && l.contains (8 * i + j)).map (2 ^ ·)).sum := by
  rw [List.getD_eq_getElem?_getD, tcrFenced, List.getElem?_map, List.getElem?_zipIdx, List.getElem?_eq_getElem hi,
    List.getD_eq_getElem _ _ hi, Option.map_some, Option.map_some, Nat.zero_add] <;> rfl

theorem getLsbD_tcrFenced {bs : List Byte} (hl : bs.length = 48) (l : List Nat) {i j : Nat} (hi : i < 32) (hj : j < 8) :
    ((tcrFenced bs l).getD i 0).getLsbD j = ((bs.getD i 0).getLsbD j || l.contains (8 * i + j)) := by
  rw [getD_tcrFenced l (by omega), BitVec.getLsbD_or, BitVec.getLsbD_ofNat, testBit_sum_two_pow, decide_eq_true hj, decide_eq_true hi]
  rfl

theorem getD_tcrFenced_above {bs : List Byte} (l : List Nat) {i : Nat} (hi : 32 ≤ i) : (tcrFenced bs l).getD i 0 = bs.getD i 0 := by
  by_cases h : i < bs.length
  · rw [getD_tcrFenced l h, decide_eq_false (Nat.not_lt.2 hi)]
    simp
  · rw [List.getD_eq_default _ _ (by rw [length_tcrFenced]; omega), List.getD_eq_default _ _ (by omega)]

theorem exec_tcrWrite {bs : List Byte} (hl : bs.length = 48) :
    exec (.tcrWrite bs) s = .next { s with boot := { s.boot with tcrBytes := tcrFenced bs s.boot.tmcFences } } := if_neg (not_not.2 hl)

/-! ### The boot ROM (R391 to R396) -/

section
variable (c0 c1 : FlashCopy) (rnd : List Byte) (hstep : s.boot.step = 3) (hrst : s.boot.inReset = false) (hpg : s.boot.pg = true)
include hstep hrst hpg

theorem exec_bootRomRun_scrapped (hlc : s.senseFuses.lc = 5) (ok : Bool) :
    let q := s.senseFuses
    exec (.bootRomRun c0 c1 rnd ok) s = .next ({ q with sec := { q.sec with result := 2, statusMode := true } } : State).step4 :=
  (if_neg (by simp [hstep, hrst, hpg])).trans (if_pos hlc)

theorem exec_bootRomRun (hlc : s.senseFuses.lc ≠ 5) :
    let q := s.senseFuses
    let ks := if q.lc = 0 then cut rnd 0 32 else Config.kdf s.fuses.uds (ascii "SES" ++ cut rnd 0 32) 32
    let p : State := { q with sec := { q.sec with
      nboot := cut rnd 0 32, kses := ks, kxts := Config.kdf ks (ascii "XTS") 64, ktag := Config.kdf ks (ascii "TAG") 32 } }
    exec (.bootRomRun c0 c1 rnd true) s = .next
      (if p.fwOk c0 = true then (p.startFirmware 0 c0).step4 else if p.fwOk c1 = true then (p.startFirmware 1 c1).step4
        else ({ p with sec := { p.sec with result := 2, statusMode := true } } : State).step4) := by
  intro q ks p
  rw [apply_ite Host.Outcome.next, apply_ite Host.Outcome.next]
  exact (if_neg (by simp [hstep, hrst, hpg])).trans ((if_neg hlc).trans (if_neg (by decide)))

end

/-! ### Steps 5 to 10 (R467 to R471) -/

theorem exec_standStart (failed : List Nat) (hstep : s.boot.step = 4) (hrst : s.boot.inReset = false) :
    let cs := ((List.range 16).map (16 * s.boot.stands + ·)).filter fun c => failed.contains c || s.boot.tcrFence c
    let t := cs.foldl State.fenceAtBoot s
    exec (.standStart failed) s = .next { t with boot :=
      { t.boot with stands := t.boot.stands + 1, step := if t.boot.stands + 1 = t.var.stands then 5 else 4 } } :=
  if_neg (by simp [hstep, hrst])

theorem exec_functionConfigReady {fn : Fn} (hstep : 6 ≤ s.boot.step) (hrst : s.boot.inReset = false) (hls : (s.fnSt fn).ls = 2)
    (hrd : (s.fnSt fn).ready = false) :
    let t := s.updFn fn fun f => { f with ready := true, bme := f.bmeNext, cfg := f.cfgNext }
    exec (.functionConfigReady fn) s = .next { t with boot :=
      { s.boot with step := if (s.fnSt (fnOther fn)).ready = true then max 7 s.boot.step else s.boot.step } } := by
  intro t
  refine (if_neg (by simp [hrst, hls, hrd, Nat.not_lt.2 hstep])).trans ?_
  have hboth : (t.hif.a.ready && t.hif.b.ready) = (s.fnSt (fnOther fn)).ready := by
    cases fn
    · exact Bool.true_and _
    · exact Bool.and_true _
  change Host.Outcome.next { t with boot := { t.boot with step := if (t.hif.a.ready && t.hif.b.ready) = true then _ else _ } } = _
  rw [hboth]
  cases fn <;> rfl

theorem exec_storeReady (hstep : 6 ≤ s.boot.step) (hrst : s.boot.inReset = false) (hst : s.boot.store = false) :
    exec .storeReady s = .next ({ s with boot :=
      { s.boot with store := true, tStore := s.dt / 1000 % 2 ^ 32, step := max 8 s.boot.step } } : State).beginAgain :=
  if_neg (by simp [hrst, hst, Nat.not_lt.2 hstep])

theorem exec_ptpInstanceStart (hst : s.boot.store = true) (hptp : s.boot.ptp = false) (hrst : s.boot.inReset = false) :
    let t : State := { s with boot := { s.boot with ptp := true, step := max 9 s.boot.step } }
    exec .ptpInstanceStart s = .next (if s.var.acts = true ∧ s.twin.mode = 2 ∧ s.twin.link = .down then t.search else t) := by
  intro t
  refine (if_neg (by simp [hst, hptp, hrst])).trans (next_ite ?_ _ _)
  change (s.var.acts && decide (s.twin.mode = 2) && decide (s.twin.link = .down)) = true ↔ _
  rw [Bool.and_eq_true, Bool.and_eq_true, decide_eq_true_eq, decide_eq_true_eq, and_assoc]

/-! ### The timebase (R321, R466, R467) -/

/-- What Leash's recomputation leaves alone. -/
theorem State.leashRecompute_keeps (s : State) :
    s.leashRecompute.time = s.time ∧ s.leashRecompute.twin = s.twin ∧ s.leashRecompute.boot = s.boot := by
  obtain ⟨_, hrest⟩ := s.leashRecompute_spec
  generalize s.leashRecompute = t at hrest ⊢
  rw [← hrest]
  exact ⟨rfl, rfl, rfl⟩

theorem State.LeashKeeps.tmccap {t : State} (h : s.LeashKeeps t) : t.pwr.tmccap = s.pwr.tmccap := by rw [← h.pwr]

theorem State.settle_tmccap (s : State) : s.settle.pwr.tmccap = s.pwr.tmccap := by
  obtain ⟨v, r, hv, hr⟩ := s.floorsUp.startRail_eq
  have hto := s.keeps_settled
  rw [hr] at hto
  rw [settle_eq, (State.LeashKeeps.noteFalls _).tmccap, hto.tmccap]
  exact hv.tmccap.trans (State.LeashKeeps.floorsUp s).tmccap

theorem State.lowvEntered_tmccap (s : State) (vf : Nat) : (s.lowvEntered vf).pwr.tmccap = s.pwr.tmccap := by
  rw [State.lowvEntered]
  split_ifs
  · obtain ⟨r, hr⟩ := ({ s with pwr := { s.pwr with lowv := true, fitSince := none } } : State).record_eq 7 1 none skLeash 0 0 0
    rw [hr]
  · rfl

theorem State.fitNoted_tmccap (s : State) (vf : Nat) : (s.fitNoted vf).pwr.tmccap = s.pwr.tmccap := by
  rw [State.fitNoted]
  dsimp only
  obtain ⟨r, hr⟩ := State.record_if ((s.pwr.lowv && decide (s.ctotAt 650 < s.fsumAt 650) && !s.pwr.floordef) = true) s 7 2 none skLeash 0 0 0
  rw [hr]

theorem State.leashRecompute_tmccap (s : State) : s.leashRecompute.pwr.tmccap = s.pwr.tmccap := by
  rw [leashRecompute_eq, settle_tmccap, (State.LeashKeeps.capSteps _).tmccap, fitNoted_tmccap, lowvEntered_tmccap]

theorem exec_timebaseStart (hstep : s.boot.step = 5) (hrst : s.boot.inReset = false) (hok : s.boot.tcrOk = true) :
    ∃ t : State, exec .timebaseStart s = .next t ∧ t.time = { s.time with running := true, dt := 0, frac := 0 }
      ∧ t.pwr.tmccap = s.boot.tcrCap ∧ t.twin.cfg = regMerge 0 (maskBits 63 0) rwTwinCfg s.boot.tcrTwin
      ∧ t.boot = { s.boot with step := 6 } := by
  obtain ⟨u, hu⟩ : ∃ u : State, u = { s with
      time := { s.time with running := true, dt := 0, frac := 0 }
      pwr := { s.pwr with tmccap := s.boot.tcrCap, lastReport := 0 }
      twin := { s.twin with cfg := regMerge 0 (maskBits 63 0) rwTwinCfg s.boot.tcrTwin }
      boot := { s.boot with step := 6 } } := ⟨_, rfl⟩
  obtain ⟨htime, htwin, hboot⟩ := u.leashRecompute_keeps
  refine ⟨u.leashRecompute, (if_neg (by simp [hstep, hrst])).trans ?_, ?_, ?_, ?_, ?_⟩
  · dsimp only
    rw [hok]
    exact congrArg (fun x : State => Host.Outcome.next x.leashRecompute) hu.symm
  · rw [htime, hu]
  · rw [u.leashRecompute_tmccap, hu]
  · rw [htwin, hu]
  · rw [hboot, hu]

/-- Settles O55: the power-on, then each step's row. -/
theorem bringUpRunsInSteps : Obligations.BringUpRunsInSteps := by
  intro s b
  exact ⟨exec_powerGood s, s.railsOff_spec, exec_railInRange, exec_railRetry,
    fun tin flow der h => ⟨exec_coolantCheck_release (coolCheck_eq h), exec_coolantCheck_hold (coolCheck_eq h)⟩,
    fun bs hl => ⟨exec_tcrWrite hl, (length_tcrFenced bs _).trans hl, fun i j => getLsbD_tcrFenced hl _, fun i => getD_tcrFenced_above _⟩,
    fun c0 c1 rnd hstep hrst hpg => ⟨exec_bootRomRun_scrapped c0 c1 rnd hstep hrst hpg, exec_bootRomRun c0 c1 rnd hstep hrst hpg⟩,
    fun failed => exec_standStart failed, exec_timebaseStart, fun fn => exec_functionConfigReady, exec_storeReady, exec_ptpInstanceStart⟩

end Sys2Proof.Machine
end

/-! ## O56: full resets, power faults and the watchdog (R438, R463, R464, R470, R473, R474, R477, R480) -/

section
namespace Sys2Proof.Machine

variable {s : State}

/-! ### What starts a reset (R473, R480) -/

theorem exec_resetNPulse {n : Nat} {g : Bool} (h : 1000 ≤ n ∨ (900 ≤ n ∧ g = true)) :
    exec (.resetNPulse n g) s = .next (s.fullReset 1 0) := if_pos (by simpa using h)

theorem exec_resetNPulse_short {n : Nat} (g : Bool) (h : n < 900) : exec (.resetNPulse n g) s = .next s :=
  if_neg (by simp; omega)

theorem exec_tmcFullReset {n : Nat} (hn : n ≤ 6) (h1 : n ≠ 1) (hstep : 3 ≤ s.boot.step) :
    exec (.tmcFullReset n) s = .next (s.fullReset 4 n) :=
  (if_neg (by simp [Nat.not_lt.2 hn, Nat.not_lt.2 hstep])).trans (if_neg h1)

/-- After a thermal trip the TMC holds the reset. -/
theorem exec_tmcFullReset_trip (hstep : 3 ≤ s.boot.step) :
    exec (.tmcFullReset 1) s = .next { s.fullReset 4 1 with boot := (s.fullReset 4 1).boot.hold 1 } :=
  (if_neg (by simp [Nat.not_lt.2 hstep])).trans (if_pos rfl)

theorem State.fullReset_inReset (h : s.boot.inReset = true) (cause n : Nat) : s.fullReset cause n =
    (if s.boot.justReset = true ∧ causeRank cause < causeRank s.boot.cause then
      { s with boot := { s.boot with cause := cause, tmcrsn := if cause = 4 then n else 0 } }
     else s) := by
  rw [State.fullReset, if_pos h, Boot.sameCycle, apply_ite (fun b : Boot => ({ s with boot := b } : State))]
  exact if_congr (by rw [Bool.and_eq_true, decide_eq_true_eq]) rfl rfl

theorem State.watchdogDue_iff (s : State) : s.watchdogDue = true ↔
    4 ≤ s.boot.step ∧ (s.boot.wdRestart + 250000000 ≤ s.boot.wdNow ∨ 3 ≤ s.boot.wdFails ∨ 3 ≤ s.boot.wdFailsK ∨ 3 ≤ s.boot.wdFailsL
        ∨ (s.ras.asks ≠ [] ∧ s.ras.askAt + 50000000 ≤ s.boot.wdNow)) := by
  simp [State.watchdogDue, or_assoc]

theorem exec_watchdogExpiry (hrst : s.boot.inReset = false) (h : s.watchdogDue = true) :
    exec .watchdogExpiry s = .next (s.fullReset 5 0) :=
  (if_neg (ne_true_of_eq_false hrst)).trans (if_neg (by rw [h]; decide))

theorem exec_inputUndervoltage (h : s.boot.pg = true) : exec .inputUndervoltage s = .next
    { s.fullReset 4 4 with boot := { (s.fullReset 4 4).boot.hold 2 with pg := false } } := if_neg (by rw [h]; decide)

theorem exec_inputBrownout (h : s.boot.pg = true ∨ s.boot.rails ≠ 0) : exec .inputBrownout s = .next
    (let t := s.railsOff;
     { t with boot := { t.boot with pg := false, railWait := false, cause := 4, tmcrsn := 4 } }) :=
  if_neg (by rcases h with h | h <;> simp [h])

theorem exec_inputBrownout_off (hpg : s.boot.pg = false) (hr : s.boot.rails = 0) :
    exec .inputBrownout s = .next { s with boot := { s.boot with cause := 0, tmcrsn := 0 } } := if_pos (by simp [hpg, hr])

theorem exec_railFault (h : s.boot.rails ≠ 0 ∨ (s.boot.pg = true ∧ s.boot.step ≠ 0)) : exec .railFault s = .next
    (let t := s.railsOff;
     { t with boot :=
      { t.boot with
        railFaults := s.boot.railFaults + 1, railWait := s.boot.railFaults == 0 && s.boot.pg, cause := 4, tmcrsn := 5
        tmcEvents := s.boot.tmcEvents ++ [5] } }) := by
  refine (if_neg (by rcases h with h | ⟨h, h'⟩ <;> simp_all)).trans ?_
  dsimp only
  rw [s.railsOff_boot] <;> rfl

/-! ### Release and watchdog (R466, R473, R477) -/

theorem exec_fullResetRelease (hrst : s.boot.inReset = true) (hh : s.boot.holds = []) (hc : s.boot.coolOk = true) :
    exec .fullResetRelease s = .next { s with
      boot := { s.boot with inReset := false, tcr := s.boot.tcrBytes }, pio := { s.pio with txOff := false }
      twin := { s.twin with silent := false } } := if_neg (by simp [hrst, hh, hc])

theorem exec_fullResetRelease_held (h : s.boot.holds ≠ [] ∨ s.boot.coolOk = false) : exec .fullResetRelease s = .next s :=
  if_pos (by rcases h with h | h <;> simp [h])

theorem exec_watchdogRestart (hstep : 4 ≤ s.boot.step) (hrst : s.boot.inReset = false) :
    exec .watchdogRestart s = .next { s with boot := { s.boot with wdRestart := s.boot.wdNow } } :=
  if_neg (by simp [hrst, Nat.not_lt.2 hstep])

theorem exec_watchdogProbe (x y z : Bool) (hstep : 4 ≤ s.boot.step) (hrst : s.boot.inReset = false) :
    exec (.watchdogProbe x y z) s = .next { s with boot := { s.boot with
      wdFails := if x then 0 else s.boot.wdFails + 1, wdFailsK := if y then 0 else s.boot.wdFailsK + 1
      wdFailsL := if z then 0 else s.boot.wdFailsL + 1 } } :=
  if_neg (by simp [hrst, Nat.not_lt.2 hstep])

/-! ### What a reset leaves (R470, R474) -/

/-- The boot's own state as a reset begins, apart from what the TMC receives of the log. -/
def State.bootAtReset (s : State) (cause n : Nat) : Boot :=
  let runs := s.fatalRunsAt cause n
  { s.boot with
    step := 3, stands := 0, cause := cause, tmcrsn := rsnOf cause n
    store := false, ptp := false, twinres := 0, tStore := 0, inReset := true, justReset := true, wdDue := s.watchdogDue, coolOk := false
    holds := if 3 ≤ runs then [3] else [], tmcEvents := if 3 ≤ runs then s.boot.tmcEvents ++ [2] else s.boot.tmcEvents
    fatalRuns := runs, wdNow := 0, wdRestart := 0, wdFails := 0, wdFailsK := 0, wdFailsL := 0, debugOut := [] }

theorem State.fullReset_eq (hrst : s.boot.inReset = false) (hstep : 3 ≤ s.boot.step) (cause n : Nat) :
    ∃ c f log stats, (s.sec.fuseJob = none → f = s.fuses) ∧ s.fullReset cause n =
      { ({ s with freeCtr := c, fuses := f } : State).dieReset with
        boot := { s.bootAtReset cause n with tmcLog := log, tmcStats := stats }
        pio := { ({} : Pio) with txOff := true }, twin := { ({} : Twin) with silent := true }, pwr := { ({} : Pwr) with der := 60 } } := by
  obtain ⟨c, f, he, hf⟩ := s.fusesAtReset_eq
  rw [State.fullReset, if_neg (ne_true_of_eq_false hrst), if_neg (Nat.not_lt.2 hstep)]
  dsimp only
  rw [he]
  cases s.meshAlive
  · exact ⟨c, f, s.boot.tmcLog, s.boot.tmcStats, hf, rfl⟩
  · exact ⟨c, f, _, _, hf, rfl⟩

/-- The bring-ups that count as ended FATAL (R470, R477). -/
theorem State.fatalRunsAt_spec (s : State) (cause n : Nat) :
    let fatal := (cause = 4 ∧ n = 2) ∨ (cause = 5 ∧ ∃ x, (0x0B, x) ∈ s.ras.asks)
    let up := s.boot.step = 10 ∨ (s.boot.step = 9 ∧ s.twin.link ≠ .search)
    (fatal → ¬ up → s.fatalRunsAt cause n = s.boot.fatalRuns + 1) ∧ (¬ fatal ∨ up → s.fatalRunsAt cause n = 0) := by
  intro fatal up
  have hfatal : ((cause == causeTmc && n == 2) || (cause == causeWatchdog && s.ras.asks.any (·.1 == 0x0B))) = true ↔ fatal := by
    simp [fatal, causeTmc, causeWatchdog]
  have hup : s.broughtUp = true ↔ up := by simp [State.broughtUp, up]
  rw [State.fatalRunsAt]
  refine ⟨fun hf hu => if_pos ?_, fun h => if_neg ?_⟩
  · rw [hfatal.2 hf, Bool.eq_false_of_not_eq_true (mt hup.1 hu)]
    rfl
  · rw [Bool.and_eq_true, Bool.not_eq_true', hfatal]
    rintro ⟨hf, hu⟩
    exact h.elim (fun hn => hn hf) fun hu' => absurd (hup.2 hu') (ne_true_of_eq_false hu)

theorem State.fullReset_spec (hrst : s.boot.inReset = false) (hstep : 3 ≤ s.boot.step) (cause n : Nat) :
    let t := s.fullReset cause n
    t.cores = [] ∧ t.knl = { store := s.knl.store } ∧ t.boot.wdDue = s.watchdogDue ∧ t.loop = {} ∧ t.sched = {} ∧ t.tly = {} ∧ t.ras = {} ∧ t.time = {} ∧ t.yrd = {}
      ∧ t.hif.holder = none ∧ t.hif.rings = [] ∧ t.hif.eqs = [] ∧ t.boot.inReset = true ∧ t.boot.step = 3 ∧ t.boot.cause = cause
      ∧ t.boot.tmcrsn = (if cause = 4 then n else 0)
      ∧ (let fatal := (cause = 4 ∧ n = 2) ∨ (cause = 5 ∧ ∃ x, (0x0B, x) ∈ s.ras.asks)
        let up := s.boot.step = 10 ∨ (s.boot.step = 9 ∧ s.twin.link ≠ .search)
        (fatal → ¬ up → t.boot.fatalRuns = s.boot.fatalRuns + 1) ∧ (¬ fatal ∨ up → t.boot.fatalRuns = 0)
        ∧ t.boot.holds = if 3 ≤ t.boot.fatalRuns then [3] else [])
      ∧ t.pio.txOff = true ∧ t.twin.silent = true ∧ t.hif.a.mem = s.hif.a.mem ∧ t.hif.b.mem = s.hif.b.mem
      ∧ (s.sec.fuseJob = none → t.fuses = s.fuses) ∧ t.sec.sensed = s.sec.sensed ∧ t.pending = s.pending := by
  obtain ⟨c, f, log, stats, hf, he⟩ := State.fullReset_eq hrst hstep cause n
  obtain ⟨hruns, hnone⟩ := s.fatalRunsAt_spec cause n
  rw [he]
  exact ⟨rfl, rfl, rfl, rfl, rfl, rfl, rfl, rfl, rfl, rfl, rfl, rfl, rfl, rfl, rfl, rfl, ⟨hruns, hnone, rfl⟩, rfl, rfl, rfl, rfl, hf, rfl, rfl⟩

/-- Settles O56: each source by its row, and what the reset that it starts leaves. -/
theorem fullResetsBeginAndEnd : Obligations.FullResetsBeginAndEnd := by
  intro s b held
  exact ⟨fun n g => exec_resetNPulse, fun n g h => exec_resetNPulse_short g h, fun n => exec_tmcFullReset,
    exec_tmcFullReset_trip, State.fullReset_inReset, by decide,
    exec_watchdogExpiry, fun hrst => if_pos hrst, s.watchdogDue_iff, exec_inputUndervoltage, exec_inputBrownout, exec_inputBrownout_off,
    exec_railFault, exec_fullResetRelease, fun _ => exec_fullResetRelease_held,
    fun hstep hrst => ⟨exec_watchdogRestart hstep hrst, fun x y z => exec_watchdogProbe x y z hstep hrst⟩, rfl,
    State.fullReset_spec⟩

end Sys2Proof.Machine
end

/-! ## O10: XMOVE, remote words and beats, KGET and the end of its read (R161 to R168, R195 to R198) -/

section
namespace Sys2Proof.Machine

variable {s : State} {c k : Nat} {f : SFields}

/-! ### XMOVE and KGET as they issue -/

/-- The state with one more range of a core's scoreboard. -/
def State.addSb (s : State) (c : Nat) (r : SbRange) : State := s.updCore c fun q => { q with sb := q.sb ++ [r] }

theorem State.rd_addSb (h : Tab.wf ({} : Core) s.cores = true) (c : Nat) (r : SbRange) (a : Nat) : (s.addSb c r).rd a = s.rd a := by
  refine rd_congr (s := s) (t := s.addSb c r) rfl rfl (fun c' => ?_) a
  rw [addSb, core_updCore h]
  split_ifs with e
  · rw [e]
  · rfl

/-- An instruction that enters the scoreboard and leaves the rest of its effect to the mesh or the Kennel. -/
theorem issueShort_addSb {opc : Nat} {o : Out} {eff : State → Option Eff} {r : SbRange} {u : State}
    (ho : o = issueShort c k opc f false (srcRegs f) [] eff s) (h : s.issues c k opc f (srcRegs f) [] = true)
    (he : eff s = some { s := u, complete := false }) (hu : u.cores = (s.addSb c r).cores) (hid : u.id = s.id) (hy : u.yard = s.yard) :
    ∃ t, o = .next t ∧ { t with cores := u.cores } = u ∧ (t.core c).sb = (s.core c).sb ++ [r]
      ∧ SlotIssued (s.slot c k) (t.slot c k) (fun n => ⟨n, opc, 0, false, 1, [], none, .none⟩) ((s.slot c k).pc + 8) (s.slot c k).cy []
      ∧ ∀ a, t.rd a = s.rd a := by
  have htabs := State.tabs_of_issues h
  obtain ⟨h1, -⟩ := State.slotTabs_iff.1 htabs
  have hkeep (q : Core) : ({ q with sb := q.sb ++ [r] } : Core).slots = q.slots := rfl
  have hslot : u.slot c k = s.slot c k := (State.slot_congr (s := s.addSb c r) hu c k).trans (State.slot_updCore h1 hkeep c c k)
  have hutabs : u.slotTabs c k = true := (State.slotTabs_congr (s := s.addSb c r) hu).trans (State.slotTabs_updCore h1 hkeep htabs)
  obtain ⟨t, ht, hiss⟩ := issueShort_effect ho h rfl he hutabs hslot
  have hnow := hiss.now
  rw [hslot] at hnow
  refine ⟨t, ht, hiss.only.rest, ?_, hnow, fun a => ?_⟩
  · have hsb := congrArg (fun q : Core => q.sb) (hiss.only.core c)
    refine hsb.trans ?_
    dsimp only
    rw [State.core_congr (s := s.addSb c r) hu, State.addSb, State.core_updCore_self h1]
  · rw [hiss.only.mem]
    refine (State.rd_congr (s := s.addSb c r) hid (congrArg Yard.mem hy) (fun c' => ?_) a).trans (State.rd_addSb h1 c r a)
    rw [State.core_congr (s := s.addSb c r) hu]

section
variable (h : s.issues c k 0x24 f (srcRegs f) [] = true)
  (hlo : coreBase c ≤ (srcA (s.slot c k) f).toNat / 8 * 8)
  (hhi : (srcA (s.slot c k) f).toNat / 8 * 8 + 8 * (f.imm.toNat % 512 + 1) ≤ coreBase c + coreBytes)
  (hheld : (s.core c).lsHeld ((srcA (s.slot c k) f).toNat / 8 * 8) (8 * (f.imm.toNat % 512 + 1)) (natBit f.imm.toNat 9) = false)
include h hlo hhi hheld

theorem exec_xmove {t : Nat} (ht : s.beatCore c ((srcB (s.slot c k) f).toNat / 8 * 8) (f.imm.toNat % 512 + 1) = some t)
    (hroom : (s.core c).sb.length < 256) :
    let x := s.slot c k
    let n := f.imm.toNat % 512 + 1
    let inward := natBit f.imm.toNat 9
    let la := (srcA x f).toNat / 8 * 8
    let ra := (srcB x f).toNat / 8 * 8
    ∃ u, exec (.xmove c k f) s = .next u
        ∧ u.mesh = s.mesh ++ [{ src := c, slot := k, uid := x.uid.getD 0, cseq := x.cseq, tgt := t, addr := ra, write := !inward
                                width := 8, val := 0, reg := 0, left := n, laddr := la }]
        ∧ (u.core c).sb = (s.core c).sb ++ [⟨x.uid.getD 0, x.cseq, la / 64, (la + 8 * n + 63) / 64, inward⟩]
        ∧ SlotIssued x (u.slot c k) (fun q => ⟨q, 0x24, 0, false, 1, [], none, .none⟩) (x.pc + 8) x.cy []
        ∧ (∀ a, u.rd a = s.rd a) := by
  intro x n inward la ra
  obtain ⟨v, hv⟩ : ∃ v : State, v = { s.addSb c ⟨x.uid.getD 0, x.cseq, la / 64, (la + 8 * n + 63) / 64, inward⟩ with
    mesh := s.mesh ++ [{ src := c, slot := k, uid := x.uid.getD 0, cseq := x.cseq, tgt := t, addr := ra, write := !inward
                         width := 8, val := 0, reg := 0, left := n, laddr := la }] } := ⟨_, rfl⟩
  have he : xmoveEff c k f s = some { s := v, complete := false } := by
    rw [xmoveEff]
    refine (if_neg (by simp [hlo, hhi])).trans ((if_neg (ne_true_of_eq_false hheld)).trans ?_)
    rw [ht, hv]
    exact if_neg (Nat.not_le.2 hroom)
  obtain ⟨u, hu, hrest, hsb, hnow, hrd⟩ := issueShort_addSb (o := exec (.xmove c k f) s) rfl h he (by rw [hv]) (by rw [hv]; rfl) (by rw [hv]; rfl)
  have hmesh := congrArg State.mesh hrest
  rw [hv] at hmesh
  exact ⟨u, hu, hmesh, hsb, hnow, hrd⟩

theorem exec_xmove_nowhere (hno : s.beatCore c ((srcB (s.slot c k) f).toNat / 8 * 8) (f.imm.toNat % 512 + 1) = none)
    (hout : natBit f.imm.toNat 9 = false) :
    ∃ u, exec (.xmove c k f) s = .next u
      ∧ SlotIssued (s.slot c k) (u.slot c k) (plainEntry 0x24 1 [] .none) ((s.slot c k).pc + 8) (s.slot c k).cy []
      ∧ u.mesh = s.mesh ∧ (∀ a, u.rd a = s.rd a) := by
  obtain ⟨r, hr⟩ := s.recordN_eq (f.imm.toNat % 512 + 1) 3 1 (some (s.slotDom c k)) skCore c ((srcB (s.slot c k) f).toNat / 8 * 8 % 2 ^ 48) 0
  have he : xmoveEff c k f s = some { s := { s with ras := r } } := by
    rw [xmoveEff]
    refine (if_neg (by simp [hlo, hhi])).trans ((if_neg (ne_true_of_eq_false hheld)).trans ?_)
    rw [hno]
    refine (congrArg (fun u : State => some ({ s := u.accessNowhere c k _ _ } : Eff)) (if_neg (ne_true_of_eq_false hout))).trans ?_
    exact congrArg (fun u : State => some ({ s := u } : Eff)) hr
  obtain ⟨u, hu, hiss⟩ := issueShort_cores (o := exec (.xmove c k f) s) rfl h rfl he rfl
  have hmesh := congrArg State.mesh hiss.only.rest
  refine ⟨u, hu, hiss.now, hmesh, fun a => (hiss.only.mem a).trans ?_⟩
  exact State.rd_congr (s := s) (t := { s with ras := r }) rfl rfl (fun _ => rfl) a

end

/-- A touch of a page that a frame holds reads it. -/
theorem State.touch_held {t : Touch} {j : Nat} {fr : Frame} (hf : s.frameOf t.pn = some (j, fr)) (hst : fr.st ≠ .filling) :
    s.touch t = { s with knl := { s.knl with
      touches := s.knl.touches ++ [{ t with frame := some j }], hits := satAdd 32 s.knl.hits 1
      frames := Tab.upd {} s.knl.frames j fun y => { y with ref := true, reads := y.reads + 1 } } } := by
  rw [State.touch, hf]
  exact if_neg hst

/-- A touch of a page that no frame holds asks for a fill. -/
theorem State.touch_absent {t : Touch} (hf : s.frameOf t.pn = none) (hw : s.knl.waiting.contains (.page t.pn) = false) :
    s.touch t = { s with knl := { s.knl with
      touches := s.knl.touches ++ [{ t with frame := none }], waiting := s.knl.waiting ++ [.page t.pn]
      misses := satAdd 32 s.knl.misses 1 } } := by
  rw [State.touch, hf]
  exact if_neg (ne_true_of_eq_false hw)

section
variable {pn : Nat} (h : s.issues c k 0x25 f (srcRegs f) [] = true)
  (hfit : (srcA (s.slot c k) f).toNat + min (natBits f.imm.toNat 19 12 * 64 + 64) (16384 - natBits f.imm.toNat 27 20 * 64) ≤ coreBytes)
  (hheld : (s.core c).lsHeld (coreBase c + (srcA (s.slot c k) f).toNat)
    (min (natBits f.imm.toNat 19 12 * 64 + 64) (16384 - natBits f.imm.toNat 27 20 * 64)) true = false)
  (hpage : s.touchPage (s.slotJob c k) (natBits f.imm.toNat 31 28) (srcB (s.slot c k) f).toNat = some pn)
  (hroom : (s.core c).sb.length < 256)
include h hfit hheld hpage hroom

/-- A KGET that may touch its page issues, and the touch is the Kennel's. -/
theorem exec_kget {kn : Knl}
    (hok : (s.slotJob c k).be = true ∨ ∃ j fr, s.frameOf pn = some (j, fr) ∧ fr.st.isPinned = true) :
    let x := s.slot c k
    let im := f.imm.toNat
    let off := natBits im 27 20 * 64
    let len := min (natBits im 19 12 * 64 + 64) (16384 - off)
    let dst := (srcA x f).toNat
    (∀ u : State, u.knl = s.knl → u.touch ⟨c, k, x.uid.getD 0, x.cseq, none, pn, off, len, dst, none⟩ = { u with knl := kn }) →
    ∃ u, exec (.kget c k f) s = .next u ∧ u.knl = kn
      ∧ SlotIssued x (u.slot c k) (fun q => ⟨q, 0x25, 0, false, 1, [], none, .none⟩) (x.pc + 8) x.cy [] ∧ ∀ a, u.rd a = s.rd a := by
  intro x im off len dst htouch
  obtain ⟨r, hr⟩ : ∃ r : SbRange, r = ⟨x.uid.getD 0, x.cseq, (coreBase c + dst) / 64, (coreBase c + dst + len + 63) / 64, true⟩ := ⟨_, rfl⟩
  have hpin : (!(s.slotJob c k).be && !(match s.frameOf pn with
      | some (_, fr) => fr.st.isPinned
      | none => false)) = false := by
    rcases hok with hbe | ⟨j, fr, hf, hp⟩
    · rw [hbe] <;> rfl
    · rw [hf]
      dsimp only
      rw [hp, Bool.not_true, Bool.and_false]
  have he : kgetEff c k f s = some { s := { s.addSb c r with knl := kn }, complete := false } := by
    rw [kgetEff]
    refine (if_neg (Nat.not_lt.2 hfit)).trans ((if_neg (ne_true_of_eq_false hheld)).trans ?_)
    rw [hpage]
    refine (if_neg ?_).trans ((if_neg (Nat.not_le.2 hroom)).trans ?_)
    · exact ne_true_of_eq_false hpin
    · rw [← htouch (s.addSb c r) rfl, hr]
      rfl
  obtain ⟨u, hu, hrest, -, hnow, hrd⟩ := issueShort_addSb (o := exec (.kget c k f) s) rfl h he rfl rfl rfl
  have hknl := congrArg State.knl hrest
  exact ⟨u, hu, hknl, hnow, hrd⟩

theorem exec_kget_held {j : Nat} {fr : Frame} (hf : s.frameOf pn = some (j, fr))
    (hst : fr.st = .pinned ∨ (fr.st = .resident ∧ (s.slotJob c k).be = true)) :
    let x := s.slot c k
    let im := f.imm.toNat
    let off := natBits im 27 20 * 64
    let len := min (natBits im 19 12 * 64 + 64) (16384 - off)
    let dst := (srcA x f).toNat
    ∃ u, exec (.kget c k f) s = .next u
      ∧ u.knl = { s.knl with
          touches := s.knl.touches ++ [⟨c, k, x.uid.getD 0, x.cseq, none, pn, off, len, dst, some j⟩], hits := satAdd 32 s.knl.hits 1
          frames := Tab.upd {} s.knl.frames j fun y => { y with ref := true, reads := y.reads + 1 } }
      ∧ SlotIssued x (u.slot c k) (fun q => ⟨q, 0x25, 0, false, 1, [], none, .none⟩) (x.pc + 8) x.cy [] ∧ ∀ a, u.rd a = s.rd a := by
  have hok : (s.slotJob c k).be = true ∨ ∃ j fr, s.frameOf pn = some (j, fr) ∧ fr.st.isPinned = true := by
    rcases hst with hp | ⟨_, hbe⟩
    · exact .inr ⟨j, fr, hf, by rw [hp] <;> rfl⟩
    · exact .inl hbe
  have hfill : fr.st ≠ .filling := by
    rcases hst with hp | ⟨hp, _⟩ <;> rw [hp] <;> decide
  refine exec_kget h hfit hheld hpage hroom hok fun u hu => ?_
  rw [State.touch_held (s := u) (j := j) (fr := fr) (by rw [State.frameOf, hu]; exact hf) hfill, hu]

theorem exec_kget_absent (hf : s.frameOf pn = none) (hbe : (s.slotJob c k).be = true) (hw : s.knl.waiting.contains (.page pn) = false) :
    let x := s.slot c k
    let im := f.imm.toNat
    let off := natBits im 27 20 * 64
    let len := min (natBits im 19 12 * 64 + 64) (16384 - off)
    let dst := (srcA x f).toNat
    ∃ u, exec (.kget c k f) s = .next u
      ∧ u.knl = { s.knl with
          touches := s.knl.touches ++ [⟨c, k, x.uid.getD 0, x.cseq, none, pn, off, len, dst, none⟩]
          waiting := s.knl.waiting ++ [.page pn], misses := satAdd 32 s.knl.misses 1 }
      ∧ SlotIssued x (u.slot c k) (fun q => ⟨q, 0x25, 0, false, 1, [], none, .none⟩) (x.pc + 8) x.cy [] ∧ ∀ a, u.rd a = s.rd a := by
  refine exec_kget h hfit hheld hpage hroom (.inl hbe) fun u hu => ?_
  rw [State.touch_absent (s := u) (by rw [State.frameOf, hu]; exact hf) (by rw [hu]; exact hw), hu]

end

/-! ### The end of a KGET's read (R195, R198) -/

section
variable {u : Touch} (hr : (Tab.get {} s.knl.frames k).reads ≠ 0) (hfill : (Tab.get {} s.knl.frames k).st ≠ .filling)
  (hfree : (Tab.get {} s.knl.frames k).st ≠ .free)
  (hu : s.knl.touches.find? (fun t => t.frame == some k && t.chan.isNone) = some u)
include hr hfill hfree hu

/-- The state in which the touch has left the Kennel and the scoreboard. -/
def State.touchEnded (s : State) (u : Touch) : State :=
  State.updCore { s with knl := { s.knl with touches := s.knl.touches.erase u } } u.core fun q =>
    { q with sb := q.sb.filter fun r => !(r.uid == u.uid && r.cseq == u.cseq) }

theorem exec_kennelReadDone (hcut : ((lineAddrs (16384 * k + u.off) (16384 * k + u.off + u.len)).find? fun o => s.yardCut u.core o) = none)
    (hbad : s.yardBadIn (16384 * k + u.off) (16384 * k + u.off + u.len) = [])
    (hweak : s.yardWeakIn (16384 * k + u.off) (16384 * k + u.off + u.len) = []) :
    exec (.kennelReadDone k) s = .next ((((s.touchEnded u).readEnds k).coreWriteUe u.core
      (bytesAt u.dst (s.yard.mem.read (16384 * k + u.off) u.len)) (some (s.owner u.core).dom)).complete u.core u.slot u.uid u.cseq none) := by
  change execKennelReadDone k s = _
  rw [execKennelReadDone]
  refine (if_neg (by simp [hr, hfill, hfree])).trans ?_
  rw [hu]
  dsimp only
  rw [hcut, hbad]
  have hread := State.yardRead_of_weakIn_nil (s := s.touchEnded u) hweak (some (s.owner u.core).dom)
  exact congrArg (fun v : State => Host.Outcome.next (((v.readEnds k).coreWriteUe u.core
    (bytesAt u.dst (s.yard.mem.read (16384 * k + u.off) u.len)) (some (s.owner u.core).dom)).complete u.core u.slot u.uid u.cseq none)) hread

theorem exec_kennelReadDone_cut {o : Nat}
    (hcut : ((lineAddrs (16384 * k + u.off) (16384 * k + u.off + u.len)).find? fun o => s.yardCut u.core o) = some o) :
    exec (.kennelReadDone k) s = .next
      (((s.touchEnded u).readEnds k).complete u.core u.slot u.uid u.cseq (some (.dataError (yardBase + o)))) := by
  change execKennelReadDone k s = _
  rw [execKennelReadDone]
  refine (if_neg (by simp [hr, hfill, hfree])).trans ?_
  rw [hu]
  dsimp only
  rw [hcut] <;> rfl

end

/-! ### Remote words (R162, R164, R165) -/

section
variable {w : RWord} (hfind : s.mesh.find? (fun v => v.src == w.src && v.tgt == w.tgt) = some w) (hsrc : w.src < s.var.cores)
  (htgt : w.tgt < s.var.cores) (hpath : s.undeliverable w.src w.tgt = false)

section
include hfind hsrc htgt hpath

theorem exec_remoteWordArrival : exec (.remoteWordArrival w.tgt w.src) s = .next (remoteArrive w (s.mesh.erase w) s) := by
  change execRemoteWordArrival w.tgt w.src s = _
  rw [execRemoteWordArrival]
  refine (if_neg (by simp [hsrc, htgt])).trans ?_
  rw [hfind]
  exact if_neg (ne_true_of_eq_false hpath)

theorem exec_remoteWord (hl : w.left = 0) :
    exec (.remoteWordArrival w.tgt w.src) s = .next (remoteWord w { s with mesh := s.mesh.erase w }) := by
  rw [exec_remoteWordArrival hfind hsrc htgt hpath, remoteArrive, if_pos hl]

end

/-- A store has nothing to bring back. -/
theorem remoteDone_store (hw : w.write = true) (v : Option Nat) (fault : Option RFault) (s : State) :
    remoteDone w v fault s = s.complete w.src w.slot w.uid w.cseq fault := by
  unfold remoteDone
  rw [hw]
  cases v <;> simp

theorem remoteWord_store (hw : w.write = true) (hok : s.remoteOk w.src w.tgt (w.addr - coreBase w.tgt) w.width true = true) :
    remoteWord w s = (s.coreWrite w.tgt (bytesAt (w.addr - coreBase w.tgt) (toLE w.width w.val))).1.complete w.src w.slot w.uid w.cseq none := by
  rw [remoteWord, hw]
  refine (if_neg (by rw [hok]; decide)).trans ((if_pos rfl).trans ?_)
  exact remoteDone_store hw none none _

theorem remoteWord_refused (hw : w.write = true) (hok : s.remoteOk w.src w.tgt (w.addr - coreBase w.tgt) w.width true = false) :
    remoteWord w s = ((s.winRefused w.tgt).recordN 1 3 0 (some (s.owner w.src).dom) 0 w.src (w.addr % 2 ^ 48) 0).complete
      w.src w.slot w.uid w.cseq none := by
  rw [remoteWord, hw]
  refine (if_pos (by rw [hok]; decide)).trans ?_
  exact remoteDone_store hw (some 0) none _

/-- A slot to which a remote word has brought the value `v`. -/
def RWord.broughtTo (w : RWord) (v : Nat) (x : Slot) : Slot :=
  { x.setReg w.reg (BitVec.ofNat 64 v) with
    remote := none
    ret := x.ret.map fun e => if e.cseq = w.cseq then { e with complete := true, fault := none.orElse fun _ => e.fault } else e }

/-- A remote load that is accepted brings its word back to the slot that waits for it. -/
theorem remoteWord_load (hw : w.write = false) (hok : s.remoteOk w.src w.tgt (w.addr - coreBase w.tgt) w.width false = true)
    (hbad : (s.core w.tgt).badIn (w.addr - coreBase w.tgt) (w.addr - coreBase w.tgt + w.width) = [])
    (hweak : (s.core w.tgt).weakIn (w.addr - coreBase w.tgt) (w.addr - coreBase w.tgt + w.width) = [])
    (huid : (s.slot w.src w.slot).uid = some w.uid) (htabs : s.slotTabs w.src w.slot = true) :
    remoteWord w s = s.updSlot w.src w.slot fun x => if x.uid = some w.uid then w.broughtTo (s.word w.addr w.width) x
      else { x.setReg w.reg (BitVec.ofNat 64 (s.word w.addr w.width)) with remote := none } := by
  obtain ⟨h1, h2, -⟩ := State.slotTabs_iff.1 htabs
  have huid' : ((s.setReg w.src w.slot w.reg (BitVec.ofNat 64 (s.word w.addr w.width))).slot w.src w.slot).uid = some w.uid := by
    rw [State.setReg, State.slot_updSlot h1 _ _ _ _ _ h2, if_pos ⟨rfl, rfl⟩]
    exact huid
  have hdone : remoteDone w (some (s.word w.addr w.width)) none s = (((s.setReg w.src w.slot w.reg (BitVec.ofNat 64 (s.word w.addr w.width))).updSlot
      w.src w.slot fun x => { x with remote := none }).complete w.src w.slot w.uid w.cseq none) := by
    unfold remoteDone
    dsimp only
    rw [hw, huid]
    simp
  rw [remoteWord, hw]
  refine (if_neg (by rw [hok]; decide)).trans ((if_neg (by decide)).trans ((if_pos (by rw [hbad]; rfl)).trans ?_))
  rw [State.coreRead_of_weakIn_nil hweak]
  refine hdone.trans ?_
  rw [State.complete, State.setReg, State.updSlot_updSlot htabs, State.updSlot_updSlot htabs] <;> rfl

/-! ### Beats of an XMOVE (R161, R165) -/

/-- What a beat that is accepted leaves of the two memories. -/
def State.beatMoved (s : State) (w : RWord) (t o : Nat) : State :=
  if w.write = true then (s.coreWrite t (bytesAt o (toLE 8 (s.word w.laddr 8)))).1
  else (s.coreWrite w.src (bytesAt (w.laddr - coreBase w.src) (toLE 8 (s.word w.addr 8)))).1

section
variable {t o : Nat} (hplace : s.place w.addr = .core t o) (hne : t ≠ w.src)
include hplace hne

theorem xmoveBeat_moved (hok : s.remoteOk w.src t o 8 w.write = true)
    (hsound : if w.write = true then (s.core w.src).badIn (w.laddr - coreBase w.src) (w.laddr - coreBase w.src + 8) = []
        ∧ (s.core w.src).weakIn (w.laddr - coreBase w.src) (w.laddr - coreBase w.src + 8) = []
      else (s.core t).badIn o (o + 8) = [] ∧ (s.core t).weakIn o (o + 8) = []) :
    xmoveBeat w s = (s.beatMoved w t o, .moved) := by
  rw [xmoveBeat, hplace, State.beatMoved]
  by_cases hw : w.write = true
  · rw [if_pos hw] at hsound
    obtain ⟨hbad, hweak⟩ := hsound
    rw [hw] at hok
    simp only [hw, hne, hok, hbad, State.coreRead_of_weakIn_nil hweak, Bool.not_true, Bool.false_eq_true, if_false, if_true,
      List.isEmpty_nil]
    rfl
  · rw [if_neg hw] at hsound
    obtain ⟨hbad, hweak⟩ := hsound
    rw [Bool.eq_false_of_not_eq_true hw] at hok ⊢
    simp only [hne, hok, hbad, State.coreRead_of_weakIn_nil hweak, Bool.not_true, Bool.false_eq_true, if_false, if_true,
      List.isEmpty_nil]
    rfl

theorem xmoveBeat_refused (hok : s.remoteOk w.src t o 8 w.write = false) (hw : w.write = true) : xmoveBeat w s = (s, .refused t) := by
  rw [xmoveBeat, hplace]
  refine (if_neg hne).trans ((if_pos (by rw [hok]; decide)).trans ?_)
  rw [xmoveZero, if_pos hw]

end

section
variable {u : State} {rest : List RWord}

theorem remoteArrive_moved (h : xmoveBeat w s = (u, .moved)) (hl : 1 < w.left) :
    remoteArrive w rest s = { u with mesh := u.mesh.map fun v => if v = w then w.after u .moved else v } := by
  rw [remoteArrive, if_neg (by omega), h]
  exact if_neg (by change ¬ w.left - 1 = 0; omega)

theorem remoteArrive_last (h : xmoveBeat w s = (u, .moved)) (hl : w.left = 1) :
    remoteArrive w rest s = xmoveDone (w.after u .moved) none { u with mesh := rest } := by
  rw [remoteArrive, if_neg (by omega), h]
  exact if_pos (by change w.left - 1 = 0; omega)

theorem remoteArrive_refused {t : Nat} (h : xmoveBeat w s = (u, .refused t)) (hl : 1 < w.left) :
    remoteArrive w rest s = { u.winRefused t with mesh := u.mesh.map fun v => if v = w then w.after (u.winRefused t) (.refused t) else v } := by
  rw [remoteArrive, if_neg (by omega), h]
  exact if_neg (by change ¬ w.left - 1 = 0; omega)

end

theorem State.beatMoved_mesh (s : State) (w : RWord) (t o : Nat) : (s.beatMoved w t o).mesh = s.mesh := by
  rw [State.beatMoved]
  split_ifs <;> rfl

theorem xmoveDone_clean (hr : w.refused = 0) (hn : w.nowhere = 0) (fault : Option RFault) (s : State) :
    xmoveDone w fault s = (s.updCore w.src fun q =>
      { q with sb := q.sb.filter fun r => !(r.uid == w.uid && r.cseq == w.cseq) }).complete w.src w.slot w.uid w.cseq fault := by
  rw [xmoveDone, if_pos hr, if_pos hn]

section
include hfind hsrc htgt hpath

theorem exec_remoteLoad (hl : w.left = 0) (hw : w.write = false)
    (hok : s.remoteOk w.src w.tgt (w.addr - coreBase w.tgt) w.width false = true)
    (hbad : (s.core w.tgt).badIn (w.addr - coreBase w.tgt) (w.addr - coreBase w.tgt + w.width) = [])
    (hweak : (s.core w.tgt).weakIn (w.addr - coreBase w.tgt) (w.addr - coreBase w.tgt + w.width) = [])
    (huid : (s.slot w.src w.slot).uid = some w.uid) (htabs : s.slotTabs w.src w.slot = true) :
    ∃ t, exec (.remoteWordArrival w.tgt w.src) s = .next t ∧ t.mesh = s.mesh.erase w
        ∧ (t.slot w.src w.slot).reg w.reg = BitVec.ofNat 64 (s.word w.addr w.width) ∧ (t.slot w.src w.slot).remote = none
        ∧ (∀ e ∈ (t.slot w.src w.slot).ret, e.cseq = w.cseq → e.complete = true) ∧ (∀ a, t.rd a = s.rd a) := by
  obtain ⟨h1, h2, h3⟩ := State.slotTabs_iff.1 htabs
  have hgone := remoteWord_load (s := { s with mesh := s.mesh.erase w }) hw hok hbad hweak huid htabs
  refine ⟨_, (exec_remoteWord hfind hsrc htgt hpath hl).trans (congrArg Host.Outcome.next hgone), rfl, ?_⟩
  have hslot := State.slot_updSlot (s := { s with mesh := s.mesh.erase w }) h1 w.src w.slot w.src w.slot
    (fun x => if x.uid = some w.uid then w.broughtTo (s.word w.addr w.width) x
      else { x.setReg w.reg (BitVec.ofNat 64 (s.word w.addr w.width)) with remote := none }) h2
  rw [if_pos ⟨rfl, rfl⟩] at hslot
  replace hslot := hslot.trans (if_pos huid)
  refine ⟨(congrArg (Slot.reg · w.reg) hslot).trans ((Slot.reg_setReg h3 w.reg w.reg _).trans (if_pos rfl)), congrArg Slot.remote hslot,
    fun e he hc => ?_, fun a => State.rd_congr (s := s)
      (t := State.updSlot { s with mesh := s.mesh.erase w } w.src w.slot _) rfl rfl
      (fun c' => State.mem_updSlot (s := { s with mesh := s.mesh.erase w }) h1 w.src w.slot c' _) a⟩
  have he' := congrArg Slot.ret hslot ▸ he
  obtain ⟨e', _, rfl⟩ := List.mem_map.1 he'
  by_cases h' : e'.cseq = w.cseq
  · rw [if_pos h']
  · rw [if_neg h'] at hc
    exact absurd hc h'

/-- A beat's row, by how the beat ends. -/
theorem exec_xmoveBeats {t o : Nat} (hplace : s.place w.addr = .core t o) (hne : t ≠ w.src) :
      let lo := w.laddr - coreBase w.src
      let next := fun (u : State) => { w with
        addr := w.addr + 8, laddr := w.laddr + 8, left := w.left - 1
        tgt := (u.beatCore w.src (w.addr + 8) (w.left - 1)).getD w.tgt }
      let soundAt := fun (c a : Nat) => (s.core c).badIn a (a + 8) = [] ∧ (s.core c).weakIn a (a + 8) = []
      (s.remoteOk w.src t o 8 w.write = true → (if w.write = true then soundAt w.src lo else soundAt t o) →
        let u := if w.write = true then (s.coreWrite t (bytesAt o (toLE 8 (s.word w.laddr 8)))).1
          else (s.coreWrite w.src (bytesAt lo (toLE 8 (s.word w.addr 8)))).1
        (1 < w.left → exec (.remoteWordArrival w.tgt w.src) s = .next { u with mesh := s.mesh.map fun y => if y = w then next u else y })
        ∧ (w.left = 1 → w.refused = 0 → w.nowhere = 0 → exec (.remoteWordArrival w.tgt w.src) s = .next
            ((({ u with mesh := s.mesh.erase w } : State).updCore w.src fun q =>
              { q with sb := q.sb.filter fun r => !(r.uid == w.uid && r.cseq == w.cseq) }).complete w.src w.slot w.uid w.cseq none)))
      ∧ (s.remoteOk w.src t o 8 w.write = false → w.write = true → 1 < w.left →
        let u := s.updCore t fun q => { q with winRefused := satAdd 32 q.winRefused 1 }
        exec (.remoteWordArrival w.tgt w.src) s = .next { u with mesh := s.mesh.map fun y => if y = w then
          { next u with refused := w.refused + 1, firstBad := if w.refused = 0 then w.addr else w.firstBad } else y }) := by
  intro lo next soundAt
  have hexec := exec_remoteWordArrival hfind hsrc htgt hpath
  refine ⟨fun hok hsound => ?_, fun hok hw hl => ?_⟩
  · intro u
    have hbeat : xmoveBeat w s = (u, .moved) := xmoveBeat_moved hplace hne hok hsound
    have hmesh : u.mesh = s.mesh := s.beatMoved_mesh w t o
    refine ⟨fun hl => ?_, fun hl hr hn => ?_⟩
    · rw [hexec, remoteArrive_moved hbeat hl, hmesh]
      rfl
    · rw [hexec, remoteArrive_last hbeat hl]
      exact congrArg Host.Outcome.next (xmoveDone_clean (w := w.after u .moved) hr hn none _)
  · rw [hexec, remoteArrive_refused (xmoveBeat_refused hplace hne hok hw) hl]
    rfl

end

end

/-- Settles O10: XMOVE and KGET as they issue, each word and beat as it arrives, and the end of a read. -/
theorem remoteWordsAndPageTouches : Obligations.RemoteWordsAndPageTouches := by
  refine ⟨⟨?xmove, fun s w => ?word⟩, fun s c k pn f => ?kget, fun s k u => ?read⟩
  case xmove =>
    intro s c k f x n inward la ra h hlo hhi hheld
    exact ⟨fun t => exec_xmove h hlo hhi hheld, exec_xmove_nowhere h hlo hhi hheld⟩
  case word =>
    intro off gone hfind hsrc htgt hpath
    have hword (hl : w.left = 0) := exec_remoteWord hfind hsrc htgt hpath hl
    exact ⟨fun hl hw hok => ⟨_, (hword hl).trans (congrArg Host.Outcome.next (remoteWord_store hw hok)), rfl⟩,
      exec_remoteLoad hfind hsrc htgt hpath,
      fun hl hw hok => ⟨_, (hword hl).trans (congrArg Host.Outcome.next (remoteWord_refused hw hok)), rfl⟩,
      fun t o => exec_xmoveBeats hfind hsrc htgt hpath⟩
  case kget =>
    intro x im off len dst t issued h hfit hheld hpage hroom
    exact ⟨fun j fr => exec_kget_held h hfit hheld hpage hroom, exec_kget_absent h hfit hheld hpage hroom⟩
  case read =>
    intro fr lo hr hfill hfree hu ended cut
    exact ⟨exec_kennelReadDone hr hfill hfree hu, fun o => exec_kennelReadDone_cut hr hfill hfree hu⟩

end Sys2Proof.Machine
end

/-!
## O17: retirement, COMMIT and its copy (R63, R81, R84, R118, R119, R124 to R128)

An instruction that retires leaves the list, enters its flags and its entry in the exception record, and then has the effect that its fault
or its action names.
-/

section
namespace Sys2Proof.Machine

variable {s : State} {c k : Nat} {e : RetEntry}

/-! ### A change of one slot -/

theorem State.updSlot_congr {f g : Slot → Slot} (h : f (s.slot c k) = g (s.slot c k)) : s.updSlot c k f = s.updSlot c k g := by
  rw [updSlot, updSlot, updCore, updCore]
  exact congrArg (fun t => ({ s with cores := t } : State)) (Tab.upd_congr
    (congrArg (fun t => ({ s.core c with slots := t } : Core)) (Tab.upd_congr h)))

theorem State.slot_updSlot_self (h : s.slotTabs c k = true) (f : Slot → Slot) : (s.updSlot c k f).slot c k = f (s.slot c k) := by
  obtain ⟨h1, h2, -⟩ := slotTabs_iff.1 h
  rw [slot_updSlot h1 c k c k f h2, if_pos ⟨rfl, rfl⟩]

theorem State.onlySlot_updSlot (h : s.slotTabs c k = true) (f : Slot → Slot) : OnlySlot s (s.updSlot c k f) c k := by
  obtain ⟨h1, h2, -⟩ := slotTabs_iff.1 h
  refine ⟨rfl, fun c' => ?_, fun c' k' hk => ?_, rd_congr (t := s.updSlot c k f) rfl rfl fun c' => ?_⟩
  · rw [core_updSlot h1]
    split_ifs with hc
    · rw [hc]; rfl
    · rfl
  · rw [slot_updSlot h1 c k c' k' f h2, if_neg (by tauto)]
  · rw [core_updSlot h1]
    split_ifs with hc
    · rw [hc]; rfl
    · rfl

/-! ### What every instruction enters as it retires (R63, R81, R84) -/

/-- A slot whose oldest instruction has left the list. -/
def Slot.retired (x : Slot) (e : RetEntry) : Slot :=
  { x with ret := x.ret.tail, lastRet := x.lastRet + 1, flags := enterFlags x.flags e.evs, exc := x.exc.enter e }

theorem exec_retire_eq (h : s.retires c k e) :
    exec (.retire c k) s = .next ((s.updSlot c k fun x => x.retired e).retireEvents c k e) := by
  rw [exec_retire h]
  exact congrArg (fun u : State => Host.Outcome.next (u.retireEvents c k e)) (State.updSlot_congr rfl)

/-- Nothing retires at or after the deadline (R20). -/
theorem exec_retire_of_late {uid d : Nat} {t : Task} (hs : s.hasSlot c k = true) (hu : (s.slot c k).uid = some uid)
    (ht : s.task uid = some t) (hd : t.deadline = some d) (hlate : d ≤ s.dt) : exec (.retire c k) s = .next s := by
  change execRetire c k s = _
  rw [execRetire, hs, State.not_canRetire_of_late hu ht hd hlate]
  rfl

/-! ### What an instruction does as it retires, by its fault and its action (R118, R119) -/

section
variable (s : State) (c k : Nat)

theorem State.retireEvents_dataError {l : Nat} (h : e.fault = some (.dataError l)) :
    s.retireEvents c k e = s.terminate c k 7 5 e.cseq (some l) := by
  rw [retireEvents, h]; rfl

theorem State.retireEvents_malformed (h : e.fault = some .malformed) : s.retireEvents c k e = s.terminate c k 9 4 e.cseq none := by
  rw [retireEvents, h]; rfl

theorem State.retireEvents_aborted (h : e.fault = some .aborted) : s.retireEvents c k e = s.terminate c k 9 7 e.cseq none := by
  rw [retireEvents, h]; rfl

theorem State.retireEvents_range (h : e.fault = none) (ha : e.act = .none) (hr : raises fRange e.evs = true) :
    s.retireEvents c k e = s.terminate c k 5 4 e.cseq none := by
  rw [retireEvents, h, ha]
  exact if_pos hr

/-- The effect of an instruction without a fault that raises no RANGE. -/
def State.acts (s : State) (c k cseq : Nat) : RetAct → State
  | .none => s
  | .pivots l => s.updSc c k fun sc => sc.countPivots cseq l
  | .outer => s.updSc c k fun sc => { sc with outDone := sc.outDone + 1 }
  | .inner => s.updSc c k fun sc => { sc with innerDone := (sc.innerDone + 1) % 2 ^ 32 }
  | .finish op => s.retireFinish c k op cseq
  | .cap => s.terminate c k 1 1 cseq none
  | .solve => s.updSc c k fun sc => { sc with retired := true }
  | .commit j => s.retireCommit c k cseq j
  | .wopen n w => s.wopen c k n w
  | .wclose n => s.wclose c n

theorem State.retireEvents_acts (h : e.fault = none) (hr : raises fRange e.evs = false) :
    s.retireEvents c k e = s.acts c k e.cseq e.act := by
  rw [retireEvents, h]
  dsimp only
  rw [hr]
  cases e.act <;> rfl

end

theorem exec_retire_acts (h : s.retires c k e) (hf : e.fault = none) (hr : raises fRange e.evs = false) {a : RetAct} (ha : e.act = a) :
    exec (.retire c k) s = .next ((s.updSlot c k fun x => x.retired e).acts c k e.cseq a) := by
  rw [exec_retire_eq h, State.retireEvents_acts _ c k hf hr, ha]

/-! ### COMMIT and FINISH as they retire (R126, R128) -/

/-- The slot's solve control is replaced, and its header written. -/
def State.headed (s : State) (c k : Nat) (n : SolveCtl) : State := (s.updSlot c k fun x => { x with sc := n }).writeHeader c k

theorem State.updSc_eq {f : SolveCtl → SolveCtl} {n : SolveCtl} (h : f (s.slot c k).sc = n) :
    s.updSc c k f = s.updSlot c k fun x => { x with sc := n } :=
  updSlot_congr (congrArg (fun m => ({ s.slot c k with sc := m } : Slot)) h)

theorem SolveCtl.countPivots_eq (sc : SolveCtl) (cseq : Nat) (l : List Pivot) : sc.countPivots cseq l =
    { sc with pivCnt := satAdd 32 sc.pivCnt l.length, pivFirst := sc.pivFirst.orElse fun _ => l.head?.map fun p => (cseq, p) } := by
  refine congrArg (fun v => ({ sc with pivCnt := satAdd 32 sc.pivCnt l.length, pivFirst := v } : SolveCtl)) ?_
  cases sc.pivFirst <;> rfl

/-- The solve control after the first COMMIT of a solve, and after a later one. -/
def SolveCtl.first (sc : SolveCtl) (j : CommitJob) : SolveCtl :=
  { sc with committed := true, cv := true, active := 0, np0 := j.np, np1 := 0, k0 := j.k, k1 := 0, cib := j.cib, lastHalf := 0 }

def SolveCtl.later (sc : SolveCtl) (j : CommitJob) : SolveCtl :=
  { sc with
    np0 := if j.half = 0 then j.np else sc.np0, k0 := if j.half = 0 then j.k else sc.k0
    np1 := if j.half = 0 then sc.np1 else j.np, k1 := if j.half = 0 then sc.k1 else j.k
    active := if sc.cv = false ∨ decide (sgn 64 j.np < sgn 64 (if sc.active = 0 then sc.np0 else sc.np1)) = true then j.half else sc.active
    cv := true, cib := j.cib, lastHalf := j.half }

theorem SolveCtl.commit_first {sc : SolveCtl} (h : sc.committed = false) (j : CommitJob) : sc.commit j = sc.first j := by
  rw [commit, h]; rfl

theorem SolveCtl.commit_later {sc : SolveCtl} (h : sc.committed = true) (j : CommitJob) : sc.commit j = sc.later j := by
  rw [commit, h, later]
  by_cases hb : sgn 64 j.np < sgn 64 (if sc.active = 0 then sc.np0 else sc.np1) <;> cases hcv : sc.cv <;> by_cases hh : j.half = 0 <;>
    simp [hb, hh, h]

theorem State.retireCommit_invalid {cseq : Nat} (h : natBit (s.slot c k).flags fInvalid = true) (j : CommitJob) :
    s.retireCommit c k cseq j = s.terminate c k 6 4 cseq none := if_pos h

theorem State.retireCommit_valid {cseq : Nat} (h : natBit (s.slot c k).flags fInvalid = false) {j : CommitJob} {n : SolveCtl}
    (hn : (s.slot c k).sc.commit j = n) : s.retireCommit c k cseq j = s.headed c k n := by
  rw [retireCommit, if_neg (ne_true_of_eq_false h), updSc_eq hn]
  rfl

/-- A task that may not finish so: an operand that FINISH has not, or a solve without a COMMIT. -/
def SolveCtl.wrongFinish (sc : SolveCtl) (op : Nat) : Bool :=
  decide (op ≠ 0) || (sc.retired && decide (sc.method < 2) && !sc.committed)

theorem State.retireFinish_wrong {op cseq : Nat} (h : (s.slot c k).sc.wrongFinish op = true) :
    s.retireFinish c k op cseq = s.terminate c k 9 4 cseq none := if_pos h

theorem State.retireFinish_invalid {op cseq : Nat} (h : (s.slot c k).sc.wrongFinish op = false)
    (hi : ((s.slot c k).sc.retired && natBit (s.slot c k).flags fInvalid) = true) :
    s.retireFinish c k op cseq = s.terminate c k 6 4 cseq none := (if_neg (ne_true_of_eq_false h)).trans (if_pos hi)

theorem State.retireFinish_good {op cseq : Nat} (h : (s.slot c k).sc.wrongFinish op = false)
    (hi : ((s.slot c k).sc.retired && natBit (s.slot c k).flags fInvalid) = false) :
    s.retireFinish c k op cseq =
      (if ((s.slot c k).sc.retired && decide ((s.slot c k).sc.method < 2)) = true
          ∧ ¬ ((s.slot c k).sc.cv = true ∧ (s.slot c k).sc.active = (s.slot c k).sc.lastHalf) then
        s.headed c k { (s.slot c k).sc with active := (s.slot c k).sc.lastHalf, cv := true } else s).terminate c k 0 0 cseq none := by
  refine (if_neg (ne_true_of_eq_false h)).trans ((if_neg (ne_true_of_eq_false hi)).trans ?_)
  rw [updSc_eq (f := SolveCtl.finish) rfl, apply_ite (fun u : State => u.terminate c k 0 0 cseq none)]
  refine if_congr ?_ rfl rfl
  simp only [Bool.and_eq_true, Bool.not_eq_true', Bool.and_eq_false_iff, beq_eq_false_iff_ne, ne_eq, not_and_or, Bool.not_eq_true]

end Sys2Proof.Machine
end

/-! ### COMMIT at issue, and its copy (R124 to R127, R158) -/

section
namespace Sys2Proof.Machine

variable {s : State} {c k : Nat} {j : CommitJob}

/-! ### COMMIT at issue -/

/-- The commands in flight whose writes meet one of three vectors. -/
theorem Core.mem_writersOf {q : Core} {a n : Nat} {p : Nat × Nat} : p ∈ q.writersOf a n ↔
    ∃ r ∈ q.sb, p = (r.uid, r.cseq) ∧ r.write = true ∧ r.lo < (a + n + 63) / 64 ∧ a / 64 < r.hi := by
  simp only [writersOf, lineRange, List.mem_map, List.mem_filter, Bool.and_eq_true]
  exact ⟨fun ⟨r, ⟨hr, ⟨hw, h1⟩, h2⟩, he⟩ => ⟨r, hr, he.symm, hw, of_decide_eq_true h1, of_decide_eq_true h2⟩,
    fun ⟨r, hr, he, hw, h1, h2⟩ => ⟨r, ⟨hr, ⟨hw, decide_eq_true h1⟩, decide_eq_true h2⟩, he.symm⟩⟩

/-- The earlier commands that a copy of z, z_c and y waits for. -/
def Core.copyWriters (q : Core) (x : Slot) (j : CommitJob) : List (Nat × Nat) :=
  q.writersOf j.z (4 * x.sc.nVar) ++ q.writersOf j.zc (4 * x.sc.mCon) ++ q.writersOf j.y (4 * x.sc.mCon)

theorem Core.mem_copyWriters {q : Core} {x : Slot} {p : Nat × Nat} : p ∈ q.copyWriters x j ↔
    ∃ r ∈ q.sb, p = (r.uid, r.cseq) ∧ r.write = true
      ∧ ∃ v ∈ [(j.z, 4 * x.sc.nVar), (j.zc, 4 * x.sc.mCon), (j.y, 4 * x.sc.mCon)], r.lo < (v.1 + v.2 + 63) / 64 ∧ v.1 / 64 < r.hi := by
  simp only [copyWriters, List.mem_append, mem_writersOf, List.mem_cons, List.not_mem_nil, or_false, exists_eq_or_imp, exists_eq_left]
  constructor
  · rintro ((⟨r, hr, he, hw, h⟩ | ⟨r, hr, he, hw, h⟩) | ⟨r, hr, he, hw, h⟩)
    · exact ⟨r, hr, he, hw, .inl h⟩
    · exact ⟨r, hr, he, hw, .inr (.inl h)⟩
    · exact ⟨r, hr, he, hw, .inr (.inr h)⟩
  · rintro ⟨r, hr, he, hw, h | h | h⟩
    · exact .inl (.inl ⟨r, hr, he, hw, h⟩)
    · exact .inl (.inr ⟨r, hr, he, hw, h⟩)
    · exact .inr ⟨r, hr, he, hw, h⟩

/-- The slot of a COMMIT goes on behind it and starts the copy. -/
def Slot.copying (q : Core) (j : CommitJob) (x : Slot) : Slot :=
  { x with pc := x.pc + 16, copy := some j, copyHold := q.copyWriters x j }

/-- The registers a COMMIT reads. -/
def commitRegs (f : LFields) : List Nat :=
  operandRegs f.op0 ++ operandRegs f.op1 ++ operandRegs f.op2 ++ [natBits f.param.toNat 9 5, natBits f.param.toNat 4 0]

theorem exec_commit {f : LFields} (ha : s.atIssue c k (longWord0 0x34 f) (some (longWord1 f)) = true) (hres : f.res = 0)
    (hrnd : f.rnd.toNat ≤ 1) (hscl : f.scl = 0) (hpreg : f.preg = 0)
    (hops : ∀ o ∈ [f.op0, f.op1, f.op2, f.op3], (resolve (s.slotJob c k) (s.slot c k) o).isWrong = false)
    (hheld : s.held c k (commitRegs f) [] = false) (hret : ∀ e ∈ (s.slot c k).ret, e.opc ≠ 0x34) (hj : commitJob s c k f = some j) :
    exec (.commit c k f) s = .next (s.takeCseq c k (fun n => ⟨n, 0x34, 0, false, 3, [], none, .commit j⟩) fun y =>
      { y with pc := y.pc + 16, copy := some j, copyHold := (s.core c).copyWriters (s.slot c k) j }) := by
  obtain ⟨hslot, hready, hfetch, hread, -, hcseq, htabs⟩ := State.atIssue_iff.1 ha
  have hw : ([f.op0, f.op1, f.op2, f.op3].any fun o => (resolve (s.slotJob c k) (s.slot c k) o).isWrong) = false :=
    List.any_eq_false.2 fun o ho => ne_true_of_eq_false (hops o ho)
  have hbusy : ((s.slot c k).ret.any fun e => e.opc == 0x34) = false :=
    List.any_eq_false.2 fun e he => ne_true_of_eq_false (beq_eq_false_iff_ne.2 (hret e he))
  have hbad : ¬ (decide (2 ^ 32 ≤ (s.slot c k).cseq) || decide (f.res ≠ 0) || decide (1 < f.rnd.toNat) || decide (f.scl ≠ 0)
      || decide (f.preg ≠ 0) || ([f.op0, f.op1, f.op2, f.op3].any fun o => (resolve (s.slotJob c k) (s.slot c k) o).isWrong)) = true := by
    rw [hw, hres, hscl, hpreg]
    simp only [ne_eq, not_true_eq_false, decide_false, Bool.or_false, Bool.or_eq_true, decide_eq_true_eq, not_or]
    omega
  change execCommit c k f s = _
  rw [execCommit, hslot, hready, hfetch]
  dsimp only
  rw [hread, if_neg (not_bnot rfl), if_neg (not_bnot rfl), if_neg hbad]
  rw [if_neg (by rw [hbusy, Bool.or_false]; exact ne_true_of_eq_false hheld), hj]
  rfl

/-- What the issue of a COMMIT leaves. -/
theorem commit_issued (h : s.slotTabs c k = true) {w : List (Nat × Nat)} :
    let t := s.takeCseq c k (fun n => ⟨n, 0x34, 0, false, 3, [], none, .commit j⟩) fun y =>
      { y with pc := y.pc + 16, copy := some j, copyHold := w }
    (t.slot c k).copy = some j ∧ (t.slot c k).copyHold = w
      ∧ SlotIssued (s.slot c k) (t.slot c k) (fun n => ⟨n, 0x34, 0, false, 3, [], none, .commit j⟩) ((s.slot c k).pc + 16) (s.slot c k).cy []
      ∧ ∀ a, t.rd a = s.rd a := by
  intro t
  have hslot := State.takeCseq_slot h (fun x => x) (fun n => ⟨n, 0x34, 0, false, 3, [], none, .commit j⟩)
    (fun y => { y with pc := y.pc + 16, copy := some j, copyHold := w })
  have honly := State.takeCseq_only h (fun x => x) (fun n => ⟨n, 0x34, 0, false, 3, [], none, .commit j⟩)
    (fun y => { y with pc := y.pc + 16, copy := some j, copyHold := w })
  rw [State.updSlot_self h] at hslot honly
  refine ⟨(congrArg Slot.copy hslot).trans rfl, (congrArg Slot.copyHold hslot).trans rfl, ?_, honly.mem⟩
  exact
    { regs := fun r _ => (congrArg (·.reg r) hslot).trans rfl
      cy := (congrArg Slot.cy hslot).trans rfl
      pc := (congrArg Slot.pc hslot).trans rfl
      cseq := (congrArg Slot.cseq hslot).trans rfl
      ret := (congrArg Slot.ret hslot).trans rfl }

/-! ### The bytes that a copy writes -/

theorem bytesAt_append (a : Nat) (l m : List Byte) : bytesAt a (l ++ m) = bytesAt a l ++ bytesAt (a + l.length) m := by
  rw [bytesAt, List.zipIdx_append, List.map_append, bytesAt, bytesAt, Nat.zero_add]
  refine congrArg (List.map (fun p => (a + p.2, p.1)) l.zipIdx ++ ·) ?_
  rw [List.zipIdx_eq_map_add, List.map_map]
  exact List.map_congr_left fun p _ => by simp only [Function.comp_apply, Nat.add_assoc]

/-- Whole lines one after the other are one write. -/
theorem flatMap_bytesAt (a n : Nat) {g : Nat → List Byte} (hg : ∀ i, (g i).length = 64) :
    ((List.range n).flatMap fun i => bytesAt (a + 64 * i) (g i)) = bytesAt a ((List.range n).flatMap g) := by
  induction n with
  | zero => rfl
  | succ n ih =>
    rw [List.range_succ, List.flatMap_append, List.flatMap_append, ih, List.flatMap_singleton, List.flatMap_singleton, bytesAt_append,
      length_flatMap_of_length n hg]

/-- The bytes of one line of the half of a CIB. -/
def State.lineBytes (s : State) (c : Nat) (sc : SolveCtl) (j : CommitJob) (l : CopyLine) : List Byte :=
  (s.core c).mem.read l.lo (l.hi - l.lo) ++ (List.range (64 - (l.hi - l.lo))).map fun i =>
    BitVec.ofNat 8 (Config.cmdFree j.key (s.copyBits c sc j) [4, l.at_ + (l.hi - l.lo) + i])

/-- The lines of one vector of a copy, by number. -/
def partLine (p : Nat × Nat × Nat) (i : Nat) : CopyLine := ⟨p.2.2 + 64 * i, p.1 + 64 * i, min (p.1 + 64 * i + 64) (p.1 + p.2.1)⟩

/-- The bytes of one vector of a copy, with its pad bytes. -/
def State.partBytes (s : State) (c : Nat) (sc : SolveCtl) (j : CommitJob) (p : Nat × Nat × Nat) : List Byte :=
  (List.range (lineUp p.2.1 / 64)).flatMap fun i => s.lineBytes c sc j (partLine p i)

theorem State.length_lineBytes (sc : SolveCtl) (p : Nat × Nat × Nat) (i : Nat) :
    (s.lineBytes c sc j (partLine p i)).length = 64 := by
  have : (partLine p i).hi - (partLine p i).lo ≤ 64 := by dsimp only [partLine]; omega
  simp only [lineBytes, List.length_append, Mem.length_read, List.length_map, List.length_range]
  omega

theorem lineUp_div_mul (x : Nat) : 64 * (lineUp x / 64) = lineUp x := by unfold lineUp; omega

theorem le_lineUp (x : Nat) : x ≤ lineUp x := by unfold lineUp; omega

theorem State.length_partBytes (sc : SolveCtl) (p : Nat × Nat × Nat) : (s.partBytes c sc j p).length = lineUp p.2.1 := by
  rw [partBytes, length_flatMap_of_length _ fun i => length_lineBytes sc p i, lineUp_div_mul]

/-- A byte of a vector of a copy is the byte it copies. -/
theorem State.getD_partBytes (sc : SolveCtl) {p : Nat × Nat × Nat} {i : Nat} (hi : i < p.2.1) :
    (s.partBytes c sc j p).getD i 0 = Tab.get 0 (s.core c).mem (p.1 + i) := by
  have hup := lineUp_div_mul p.2.1
  have hle := le_lineUp p.2.1
  rw [partBytes, getD_flatMap_of_length (fun i => length_lineBytes sc p i) (by omega), lineBytes]
  have hlt : i % 64 < (partLine p (i / 64)).hi - (partLine p (i / 64)).lo := by dsimp only [partLine]; omega
  rw [List.getD_append _ _ _ _ (by rwa [Mem.length_read]), List.getD_eq_getElem _ _ (by rwa [Mem.length_read])]
  simp only [Mem.read, List.getElem_map, List.getElem_range, partLine]
  rw [show p.1 + 64 * (i / 64) + i % 64 = p.1 + i by omega]

/-- The three vectors, one behind the other. -/
def State.copyBytes (s : State) (c : Nat) (sc : SolveCtl) (j : CommitJob) : List Byte := (j.parts c sc).flatMap (s.partBytes c sc j)

theorem State.copyLine_partLine (sc : SolveCtl) (p : Nat × Nat × Nat) (i : Nat) :
    s.copyLine c sc j (partLine p i) = bytesAt (j.target c sc + p.2.2 + 64 * i) (s.lineBytes c sc j (partLine p i)) :=
  congrArg (fun a => bytesAt a (s.lineBytes c sc j (partLine p i))) (Nat.add_assoc ..).symm

theorem State.copyLines_part (sc : SolveCtl) (p : Nat × Nat × Nat) :
    ((List.range (lineUp p.2.1 / 64)).map (partLine p)).flatMap (s.copyLine c sc j) =
      bytesAt (j.target c sc + p.2.2) (s.partBytes c sc j p) := by
  rw [List.flatMap_map, partBytes, ← flatMap_bytesAt _ _ fun i => length_lineBytes sc p i]
  simp only [copyLine_partLine]

theorem CommitJob.lines_eq (j : CommitJob) (c : Nat) (sc : SolveCtl) :
    j.lines c sc = (j.parts c sc).flatMap fun p => (List.range (lineUp p.2.1 / 64)).map (partLine p) := rfl

theorem flatMap_bytesAt_three (a : Nat) {g : Nat × Nat × Nat → List Byte} (hg : ∀ p, (g p).length = lineUp p.2.1) {p q r : Nat × Nat × Nat}
    (hp : p.2.2 = 0) (hq : q.2.2 = lineUp p.2.1) (hr : r.2.2 = lineUp p.2.1 + lineUp q.2.1) :
    ([p, q, r].flatMap fun p => bytesAt (a + p.2.2) (g p)) = bytesAt a ([p, q, r].flatMap g) := by
  simp only [List.flatMap_cons, List.flatMap_nil, List.append_nil, bytesAt_append, hg, hp, hq, hr, Nat.add_zero, Nat.add_assoc]

/-- A commit copy is one write, of whole lines. -/
theorem State.copyLines_eq (sc : SolveCtl) :
    (j.lines c sc).flatMap (s.copyLine c sc j) = bytesAt (j.target c sc) (s.copyBytes c sc j) := by
  have hpart : (fun p => ((List.range (lineUp p.2.1 / 64)).map (partLine p)).flatMap (s.copyLine c sc j)) =
      fun p => bytesAt (j.target c sc + p.2.2) (s.partBytes c sc j p) := funext fun p => copyLines_part sc p
  rw [CommitJob.lines_eq, List.flatMap_assoc, hpart, copyBytes, CommitJob.parts]
  exact flatMap_bytesAt_three _ (length_partBytes sc) rfl rfl rfl

theorem State.length_copyBytes (sc : SolveCtl) : (s.copyBytes c sc j).length = sc.halfBytes := by
  simp only [copyBytes, CommitJob.parts, List.flatMap_cons, List.flatMap_nil, List.append_nil, List.length_append, length_partBytes,
    SolveCtl.halfBytes]
  omega

/-- The bytes of each vector stand at its place in the half. -/
theorem State.getD_copyBytes (sc : SolveCtl) {p : Nat × Nat × Nat} (hp : p ∈ j.parts c sc) {i : Nat} (hi : i < p.2.1) :
    (s.copyBytes c sc j).getD (p.2.2 + i) 0 = Tab.get 0 (s.core c).mem (p.1 + i) := by
  have hle := le_lineUp p.2.1
  rw [← getD_partBytes sc hi]
  simp only [CommitJob.parts, List.mem_cons, List.not_mem_nil, or_false] at hp
  simp only [copyBytes, CommitJob.parts, List.flatMap_cons, List.flatMap_nil, List.append_nil]
  rcases hp with rfl | rfl | rfl <;> dsimp only at hi hle ⊢
  · rw [Nat.zero_add, List.getD_append _ _ _ _ (by rw [length_partBytes]; dsimp only; omega)]
  · rw [List.getD_append_right _ _ _ _ (by rw [length_partBytes]; dsimp only; omega), length_partBytes]
    dsimp only
    rw [Nat.add_sub_cancel_left, List.getD_append _ _ _ _ (by rw [length_partBytes]; dsimp only; omega)]
  · rw [List.getD_append_right _ _ _ _ (by rw [length_partBytes]; dsimp only; omega), length_partBytes]
    dsimp only
    rw [Nat.add_assoc, Nat.add_sub_cancel_left, List.getD_append_right _ _ _ _ (by rw [length_partBytes]; dsimp only; omega),
      length_partBytes]
    dsimp only
    rw [Nat.add_sub_cancel_left]

/-- Whole units written into core memory, read back through the address map. -/
theorem State.rd_coreWrite_bytesAt (h : s.memsOk = true) {off : Nat} {l : List Byte} (hc : c < s.var.cores) (ho : 4 ∣ off) (hl : 4 ∣ l.length)
    {i : Nat} (hi : i < l.length) (hfit : off + i < coreBytes) :
    (s.coreWrite c (bytesAt off l)).1.rd (coreBase c + (off + i)) = (l.getD i 0).toNat := by
  obtain ⟨h1, -⟩ := memsOk_iff.1 h
  have hplace : (s.coreWrite c (bytesAt off l)).1.place (coreBase c + (off + i)) = .core c (off + i) :=
    place_eq_core_iff.2 ⟨rfl, hfit, hc⟩
  rw [rd_of_core hplace, coreWrite, core_updCore_self h1]
  refine congrArg BitVec.toNat ?_
  change Tab.get 0 (writeChecked 4 (s.core c).mem (s.core c).bad (bytesAt off l)).1 (off + i) = _
  rw [writeChecked_of_aligned (by decide) ho hl, Mem.get_write (memOk_core h c), if_pos ⟨by omega, by omega⟩, Nat.add_sub_cancel_left]

/-! ### COMMIT_COPY_COMPLETE -/

theorem unitsIn_mono {u : Nat} {l : List Nat} {lo hi lo' hi' : Nat} (h : unitsIn u l lo hi = []) (hlo : lo ≤ lo') (hhi : hi' ≤ hi) :
    unitsIn u l lo' hi' = [] := by
  refine List.filter_eq_nil_iff.2 fun b hb hin => List.filter_eq_nil_iff.1 h b hb ?_
  rw [Bool.and_eq_true, decide_eq_true_iff, decide_eq_true_iff] at hin ⊢
  omega

/-- No line that a copy reads has an error. -/
def State.copySound (s : State) (c : Nat) (sc : SolveCtl) (j : CommitJob) : Prop :=
  ∀ p ∈ j.parts c sc, (s.core c).badIn (lineAddr p.1) (lineUp (p.1 + p.2.1)) = []
    ∧ (s.core c).weakIn (lineAddr p.1) (lineUp (p.1 + p.2.1)) = []

theorem State.copyBad_of_sound {sc : SolveCtl} (h : s.copySound c sc j) : s.copyBad c sc j = [] := by
  refine List.flatMap_eq_nil_iff.2 fun l hl => ?_
  rw [CommitJob.lines_eq] at hl
  obtain ⟨p, hp, hl⟩ := List.mem_flatMap.1 hl
  obtain ⟨i, -, rfl⟩ := List.mem_map.1 hl
  refine unitsIn_mono (h p hp).1 ?_ ?_
  · simp only [lineAddr, partLine]
    omega
  · simp only [lineUp, partLine]
    omega

theorem State.copyReads_of_sound {sc : SolveCtl} (h : s.copySound c sc j) (dom : State → Option Nat) :
    (j.parts c sc).foldl (fun s p => s.coreRead c (lineAddr p.1) (lineUp (p.1 + p.2.1)) (dom s)) s = s := by
  have key : ∀ ps : List (Nat × Nat × Nat), (∀ p ∈ ps, (s.core c).weakIn (lineAddr p.1) (lineUp (p.1 + p.2.1)) = []) →
      ps.foldl (fun s p => s.coreRead c (lineAddr p.1) (lineUp (p.1 + p.2.1)) (dom s)) s = s := by
    intro ps hps
    induction ps with
    | nil => rfl
    | cons p ps ih =>
      rw [List.foldl_cons, coreRead_of_weakIn_nil (hps p (by simp))]
      exact ih fun q hq => hps q (by simp [hq])
  exact key _ fun p hp => (h p hp).2

/-- The slot of a COMMIT whose copy has completed without an error. -/
def Slot.copied (x : Slot) : Slot :=
  { x with copy := none, copyHold := [],
           ret := x.ret.map fun e => match e.act with
             | .commit _ => { e with complete := true, fault := none }
             | _ => e }

theorem exec_commitCopyComplete (hs : s.hasSlot c k = true) (hcopy : (s.slot c k).copy = some j) (hheld : s.copyHeld c k = false)
    (h : s.copySound c (s.slot c k).sc j) : exec (.commitCopyComplete c k) s = .next
      ((s.coreWrite c (bytesAt (j.target c (s.slot c k).sc) (s.copyBytes c (s.slot c k).sc j))).1.updSlot c k Slot.copied) := by
  change execCommitCopyComplete c k s = _
  rw [execCommitCopyComplete, hs]
  dsimp only
  rw [if_neg (not_bnot rfl), hcopy]
  dsimp only
  rw [if_neg (ne_true_of_eq_false hheld), State.copyReads_of_sound h fun s => some (s.slotDom c k), State.copyBad_of_sound h, State.copyLines_eq]
  rfl

theorem Slot.mem_copied {x : Slot} {e : RetEntry} (he : e ∈ x.copied.ret) {i : CommitJob} (ha : e.act = .commit i) :
    e.complete = true ∧ e.fault = none := by
  obtain ⟨y, -, rfl⟩ := List.mem_map.1 he
  cases hy : y.act with
  | commit => simp only [and_self]
  | _ => simp [hy] at ha

/-- The half of a CIB starts at a whole line of core memory. -/
theorem four_dvd_target {sc : SolveCtl} (h : j.cib % 64 = 0) : 4 ∣ j.target c sc := by
  have hb : 64 ∣ coreBase c := ⟨0x1000000 + c * 0x4000, by rw [coreBase]; omega⟩
  have hh : 64 ∣ sc.halfBytes := ⟨(4 * sc.nVar + 63) / 64 + 2 * ((4 * sc.mCon + 63) / 64), by rw [SolveCtl.halfBytes, lineUp, lineUp]; omega⟩
  have hm : 64 ∣ j.half * sc.halfBytes := hh.mul_left _
  rw [CommitJob.target]
  omega

theorem hasSlot_core (h : s.hasSlot c k = true) : c < s.var.cores := by
  rw [State.hasSlot, Bool.and_eq_true, decide_eq_true_iff] at h
  exact h.1

/-- A copy of vectors that lie in core memory leaves their bytes in the half, and its COMMIT can retire. -/
theorem commitCopy_lands (hs : s.hasSlot c k = true) (htabs : s.slotTabs c k = true) (hm : s.memsOk = true) {sc : SolveCtl}
    (hcib : j.cib % 64 = 0) :
    let t := (s.coreWrite c (bytesAt (j.target c sc) (s.copyBytes c sc j))).1.updSlot c k Slot.copied
    (t.slot c k).copy = none ∧ (∀ e ∈ (t.slot c k).ret, ∀ i, e.act = .commit i → e.complete = true ∧ e.fault = none)
      ∧ ∀ p ∈ j.parts c sc, p.1 + p.2.1 ≤ coreBytes → j.target c sc + p.2.2 + p.2.1 ≤ coreBytes → p.2.2 + p.2.1 ≤ sc.halfBytes → ∀ i, i < p.2.1 →
        t.rd (coreBase c + (j.target c sc + (p.2.2 + i))) = s.rd (coreBase c + (p.1 + i)) := by
  intro t
  have htabs' := State.slotTabs_coreWrite htabs (bytesAt (j.target c sc) (s.copyBytes c sc j))
  have hslot := State.slot_updSlot_self htabs' Slot.copied
  have hlen := State.length_copyBytes (s := s) (c := c) (j := j) sc
  have hfour : 4 ∣ sc.halfBytes := ⟨16 * ((4 * sc.nVar + 63) / 64 + 2 * ((4 * sc.mCon + 63) / 64)), by
    rw [SolveCtl.halfBytes, lineUp, lineUp]; omega⟩
  refine ⟨(congrArg Slot.copy hslot).trans rfl, fun e he i ha => ?_, fun p hp hsrc hdst hhalf i hi => ?_⟩
  · rw [hslot] at he
    exact Slot.mem_copied he ha
  · rw [(State.onlySlot_updSlot htabs' Slot.copied).mem,
      State.rd_coreWrite_bytesAt hm (hasSlot_core hs) (four_dvd_target hcib) (hlen ▸ hfour) (by omega) (by omega), State.getD_copyBytes sc hp hi,
      State.rd_of_core (State.place_eq_core_iff.2 ⟨rfl, by omega, hasSlot_core hs⟩)]

end Sys2Proof.Machine
end

/-! ### The obligation -/

section
namespace Sys2Proof.Machine

/-- Settles O17: retirements by the action of the instruction, COMMIT and its copy. -/
theorem retirementsTakeEffect : Obligations.RetirementsTakeEffect := by
  refine ⟨fun s c k e => ?plain, fun s c k e => ?events, fun s c k uid d t => exec_retire_of_late, fun s c k e => ?solve,
    fun s c k f j => ?issue, fun s c k j => ?copy⟩
  case plain =>
    intro x h hf hr ha
    have hslot := State.slot_updSlot_self h.tabs fun x => x.retired e
    refine ⟨_, exec_retire_acts h hf hr ha, (congrArg Slot.flags hslot).trans rfl, (congrArg Slot.exc hslot).trans rfl,
      (congrArg Slot.lastRet hslot).trans rfl, (congrArg Slot.ret hslot).trans rfl, ?_, State.onlySlot_updSlot h.tabs _⟩
    exact (congrArg (fun y : Slot => ({ y with flags := x.flags, exc := x.exc, lastRet := x.lastRet, ret := x.ret } : Slot)) hslot).trans rfl
  case events =>
    intro u h
    have hu := exec_retire_eq h
    exact ⟨fun l hf => hu.trans (congrArg _ (State.retireEvents_dataError _ c k hf)),
      fun hf => hu.trans (congrArg _ (State.retireEvents_malformed _ c k hf)),
      fun hf => hu.trans (congrArg _ (State.retireEvents_aborted _ c k hf)),
      fun hf ha hr => hu.trans (congrArg _ (State.retireEvents_range _ c k hf ha hr)),
      fun hf ha hr => exec_retire_acts h hf hr ha, fun hf ha hr => exec_retire_acts h hf hr ha,
      fun hf ha hr => exec_retire_acts h hf hr ha⟩
  case solve =>
    intro sc u invalid headed h hf hr
    have hslot : u.slot c k = (s.slot c k).retired e := State.slot_updSlot_self h.tabs fun x => x.retired e
    have hsc : (u.slot c k).sc = sc := by rw [hslot]; rfl
    have hinv : natBit (u.slot c k).flags fInvalid = invalid := by rw [hslot]; rfl
    refine ⟨fun ha => exec_retire_acts h hf hr ha, fun l ha => ?pivots, fun j ha => ?commit, fun op ha => ?finish⟩
    case pivots =>
      refine (exec_retire_acts h hf hr ha).trans (congrArg Host.Outcome.next (State.updSlot_congr ?_))
      exact congrArg (fun n => ({ u.slot c k with sc := n } : Slot)) (SolveCtl.countPivots_eq ..)
    case commit =>
      have hx := exec_retire_acts h hf hr ha
      refine ⟨fun hi => hx.trans (congrArg _ (State.retireCommit_invalid (hinv.trans hi) j)), fun hi hc => ?_, fun hi hc => ?_⟩
      · exact hx.trans (congrArg _ (State.retireCommit_valid (hinv.trans hi) (by rw [hsc]; exact SolveCtl.commit_first hc j)))
      · exact hx.trans (congrArg _ (State.retireCommit_valid (hinv.trans hi) (by rw [hsc]; exact SolveCtl.commit_later hc j)))
    case finish =>
      intro solve wrong
      have hx := exec_retire_acts h hf hr ha
      have hw : (u.slot c k).sc.wrongFinish op = wrong := by rw [hsc]; rfl
      have hri : ((u.slot c k).sc.retired && natBit (u.slot c k).flags fInvalid) = (sc.retired && invalid) := by rw [hsc, hinv]
      refine ⟨fun hb => hx.trans (congrArg _ (State.retireFinish_wrong (hw.trans hb))), fun hb hr' hi => ?_, fun hb hi => ?_⟩
      · exact hx.trans (congrArg _ (State.retireFinish_invalid (hw.trans hb) (hri.trans (by rw [hr', hi]; rfl))))
      · refine hx.trans (congrArg _ ((State.retireFinish_good (hw.trans hb) (hri.trans hi)).trans ?_))
        rw [hsc]
        rfl
  case issue =>
    intro x regs ha hres hrnd hscl hpreg hops hheld hret hj
    obtain ⟨hcopy, hhold, hissued, hrd⟩ := commit_issued (j := j) (w := (s.core c).copyWriters x j) (State.atIssue_iff.1 ha).2.2.2.2.2.2
    exact ⟨_, exec_commit ha hres hrnd hscl hpreg hops hheld hret hj, hcopy, fun p => by rw [hhold]; exact Core.mem_copyWriters, hissued, hrd⟩
  case copy =>
    intro x n m h parts hs htabs hm hcopy hheld hcib hparts
    simp only [parts, List.forall_mem_cons, List.not_mem_nil, false_imp_iff, implies_true, and_true] at hparts ⊢
    obtain ⟨⟨hz1, hz2, hz3, hz4, hzb, hzw⟩, ⟨hc1, hc2, hc3, hc4, hcb, hcw⟩, ⟨hy1, hy2, hy3, hy4, hyb, hyw⟩⟩ := hparts
    have hsound : s.copySound c x.sc j := by
      simp only [State.copySound, CommitJob.parts, List.forall_mem_cons, List.not_mem_nil, false_imp_iff, implies_true, and_true]
      exact ⟨⟨hzb, hzw⟩, ⟨hcb, hcw⟩, ⟨hyb, hyw⟩⟩
    have htarget : coreBase c + j.target c x.sc = h := by rw [CommitJob.target]; omega
    have hhalf : x.sc.halfBytes = lineUp n + 2 * lineUp m := rfl
    have hln := le_lineUp n
    have hlm := le_lineUp m
    have hn : 4 * x.sc.nVar = n := rfl
    have hm' : 4 * x.sc.mCon = m := rfl
    obtain ⟨hcopied, hret, hbytes⟩ := commitCopy_lands (sc := x.sc) hs htabs hm hcib
    simp only [CommitJob.parts, List.forall_mem_cons, List.not_mem_nil, false_imp_iff, implies_true, and_true, hn, hm'] at hbytes
    obtain ⟨hz, hc, hy⟩ := hbytes
    refine ⟨_, exec_commitCopyComplete hs hcopy hheld hsound, hcopied, ⟨fun i hi => ?_, fun i hi => ?_, fun i hi => ?_⟩, hret⟩
    · have := hz (by omega) (by omega) (by omega) i hi
      rwa [show coreBase c + (j.target c x.sc + (0 + i)) = h + i by omega, show coreBase c + (j.z - coreBase c + i) = j.z + i by omega] at this
    · have := hc (by omega) (by omega) (by omega) i hi
      rwa [show coreBase c + (j.target c x.sc + (lineUp n + i)) = h + lineUp n + i by omega,
        show coreBase c + (j.zc - coreBase c + i) = j.zc + i by omega] at this
    · have := hy (by omega) (by omega) (by omega) i hi
      rwa [show coreBase c + (j.target c x.sc + (lineUp n + lineUp m + i)) = h + lineUp n + lineUp m + i by omega,
        show coreBase c + (j.y - coreBase c + i) = j.y + i by omega] at this

end Sys2Proof.Machine
end

/-!
## O16: engine commands start and end (R65, R140, R147, R224, R259)

The command that a free engine starts next: the least, by one of three keys, among the first commands of each slot in its queue.
-/

section
namespace Sys2Proof.Machine

variable {s : State} {c : Nat} {e : Engine}

/-! ### The first command of each slot -/

theorem mem_heads_append {l : List ECmd} {y m : ECmd} :
    m ∈ heads (l ++ [y]) ↔ m ∈ heads l ∨ (m = y ∧ ∀ x ∈ heads l, x.slot ≠ y.slot) := by
  rw [heads, List.foldl_append, ← heads, List.foldl_cons, List.foldl_nil]
  by_cases h : (heads l).any (fun x => x.slot == y.slot) = true
  · rw [if_pos h]
    obtain ⟨x, hx, he⟩ := List.any_eq_true.1 h
    exact ⟨.inl, fun hm => hm.elim id fun hm => absurd (beq_iff_eq.1 he) (hm.2 x hx)⟩
  · rw [if_neg h, List.mem_append, List.mem_singleton]
    have hne : ∀ x ∈ heads l, x.slot ≠ y.slot := fun x hx he => h (List.any_eq_true.2 ⟨x, hx, beq_iff_eq.2 he⟩)
    exact or_congr_right ⟨fun hm => ⟨hm, hne⟩, fun hm => hm.1⟩

/-- The heads of a queue are its slots' first commands. -/
theorem mem_heads_iff {l : List ECmd} {m : ECmd} : m ∈ heads l ↔ (l.find? fun y => y.slot == m.slot) = some m := by
  induction l using List.reverseRecOn generalizing m with
  | nil => simp [heads]
  | append_singleton l y ih =>
    rw [mem_heads_append, List.find?_append, ih]
    cases hf : l.find? fun x => x.slot == m.slot with
    | some x =>
      simp only [Option.some_or, Option.some.injEq, or_iff_left_iff_imp]
      rintro ⟨rfl, hne⟩
      have hx : x.slot = m.slot := beq_iff_eq.1 (List.find?_some hf :)
      exact absurd hx (hne x (ih.2 (by rw [hx]; exact hf)))
    | none =>
      simp only [reduceCtorEq, false_or, Option.none_or, List.find?_singleton]
      constructor
      · rintro ⟨rfl, -⟩
        exact if_pos (beq_self_eq_true _)
      · intro h
        split_ifs at h with hy
        obtain rfl : y = m := by simpa using h
        exact ⟨rfl, fun x hx he => List.find?_eq_none.1 hf x (List.mem_of_find?_eq_some (ih.1 hx)) (beq_iff_eq.2 he)⟩

theorem heads_eq_nil_iff {l : List ECmd} : heads l = [] ↔ l = [] := by
  refine ⟨fun h => ?_, fun h => by rw [h]; rfl⟩
  cases l with
  | nil => rfl
  | cons y l =>
    have hy : y ∈ heads (y :: l) := mem_heads_iff.2 (List.find?_cons_of_pos (beq_self_eq_true _))
    exact absurd (h ▸ hy) (by simp)

/-! ### The least of a list -/

/-- The strict order by which `least` replaces what it holds. -/
def keyLt (a b : Nat × Nat) : Prop := a.1 < b.1 ∨ (a.1 = b.1 ∧ a.2 < b.2)

theorem least_append_of_none {key : ECmd → Nat × Nat} {l : List ECmd} (h : least key l = none) (y : ECmd) :
    least key (l ++ [y]) = some y := by
  rw [least, List.foldl_append, ← least, h]
  rfl

theorem least_append_of_some {key : ECmd → Nat × Nat} {l : List ECmd} {b : ECmd} (h : least key l = some b) (y : ECmd) :
    least key (l ++ [y]) =
      if (key y).1 < (key b).1 || ((key y).1 == (key b).1 && (key y).2 < (key b).2) then some y else some b := by
  rw [least, List.foldl_append, ← least, h]
  rfl

theorem least_spec (key : ECmd → Nat × Nat) (l : List ECmd) :
    (least key l = none ↔ l = []) ∧ ∀ m, least key l = some m → m ∈ l ∧ ∀ y ∈ l, keyLe (key m) (key y) := by
  induction l using List.reverseRecOn with
  | nil => exact ⟨⟨fun _ => rfl, fun _ => rfl⟩, fun m h => by cases h⟩
  | append_singleton l y ih =>
    cases hl : least key l with
    | none =>
      rw [least_append_of_none hl]
      obtain rfl := ih.1.1 hl
      refine ⟨by simp, fun m h => ?_⟩
      cases h
      exact ⟨by simp, fun z hz => by rw [List.nil_append, List.mem_singleton] at hz; rw [hz]; exact .inr ⟨rfl, le_rfl⟩⟩
    | some b =>
      rw [least_append_of_some hl]
      obtain ⟨hb, hle⟩ := ih.2 b hl
      have hcond : ((key y).1 < (key b).1 || ((key y).1 == (key b).1 && (key y).2 < (key b).2)) = true ↔ keyLt (key y) (key b) := by
        simp [keyLt]
      refine ⟨by split_ifs <;> simp, fun m h => ?_⟩
      split_ifs at h with hc
      · cases h
        refine ⟨by simp, fun z hz => ?_⟩
        rcases List.mem_append.1 hz with hz | hz
        · have h1 := hle z hz
          have h2 := hcond.1 hc
          unfold keyLe keyLt at *
          omega
        · rw [List.mem_singleton.1 hz]; exact .inr ⟨rfl, le_rfl⟩
      · cases h
        refine ⟨List.mem_append_left _ hb, fun z hz => ?_⟩
        rcases List.mem_append.1 hz with hz | hz
        · exact hle z hz
        · rw [List.mem_singleton.1 hz]
          have h2 : ¬ keyLt (key y) (key b) := fun h => hc (hcond.2 h)
          unfold keyLe keyLt at *
          omega

/-! ### The next command -/

theorem State.nextCmd_eq (s : State) (c : Nat) (e : Engine) : s.nextCmd c e =
    let hs := heads ((s.core c).eng e).queue
    (least (fun m => (m.order, m.slot)) (hs.filter fun m => ((s.core c).slot m.slot).yield.isSome)).or
      ((least (fun m => (((s.task m.uid).bind (·.deadline)).getD 0, m.slot)) (hs.filter fun m => (s.task m.uid).any fun t => !t.be)).or
        (least (fun m => (m.order, m.slot)) hs)) := by
  rw [nextCmd]
  dsimp only
  cases least (fun m : ECmd => (m.order, m.slot)) _ with
  | some m => rfl
  | none =>
    rw [Option.none_or]
    cases least (fun m : ECmd => (((s.task m.uid).bind (·.deadline)).getD 0, m.slot)) _ <;> rfl

theorem least_filter_eq_none {key : ECmd → Nat × Nat} {l : List ECmd} {p : ECmd → Bool} :
    least key (l.filter p) = none ↔ ∀ y ∈ l, p y = false := by
  rw [(least_spec key _).1, List.filter_eq_nil_iff]
  exact forall₂_congr fun y _ => Bool.eq_false_iff.symm

theorem least_filter_eq_some {key : ECmd → Nat × Nat} {l : List ECmd} {p : ECmd → Bool} {m : ECmd} (h : least key (l.filter p) = some m) :
    m ∈ l ∧ p m = true ∧ ∀ y ∈ l, p y = true → keyLe (key m) (key y) := by
  obtain ⟨hm, hle⟩ := (least_spec key _).2 m h
  obtain ⟨h1, h2⟩ := List.mem_filter.1 hm
  exact ⟨h1, h2, fun y hy hp => hle y (List.mem_filter.2 ⟨hy, hp⟩)⟩

theorem State.nextCmd_eq_none : s.nextCmd c e = none ↔ ((s.core c).eng e).queue = [] := by
  rw [nextCmd_eq]
  dsimp only
  rw [Option.or_eq_none_iff, Option.or_eq_none_iff, least_filter_eq_none, least_filter_eq_none, (least_spec _ _).1, heads_eq_nil_iff]
  exact ⟨fun h => h.2.2, fun h => ⟨by simp [h, heads], by simp [h, heads], h⟩⟩

/-- Which of the three keys decides, and what it decides. -/
theorem State.nextCmd_eq_some {m : ECmd} (h : s.nextCmd c e = some m) :
    let hs := heads ((s.core c).eng e).queue
    let yields := fun (m : ECmd) => ((s.core c).slot m.slot).yield.isSome = true
    let lc := fun (m : ECmd) => ((s.task m.uid).any fun t => !t.be) = true
    let due := fun (m : ECmd) => ((s.task m.uid).bind (·.deadline)).getD 0
    m ∈ hs
      ∧ ((∃ y ∈ hs, yields y) → yields m ∧ ∀ y ∈ hs, yields y → keyLe (m.order, m.slot) (y.order, y.slot))
      ∧ ((∀ y ∈ hs, ¬ yields y) → (∃ y ∈ hs, lc y) → lc m ∧ ∀ y ∈ hs, lc y → keyLe (due m, m.slot) (due y, y.slot))
      ∧ ((∀ y ∈ hs, ¬ yields y) → (∀ y ∈ hs, ¬ lc y) → ∀ y ∈ hs, keyLe (m.order, m.slot) (y.order, y.slot)) := by
  intro hs yields lc due
  rw [nextCmd_eq] at h
  rcases Option.or_eq_some_iff.1 h with hy | ⟨hy, h⟩
  · obtain ⟨hm, hym, hle⟩ := least_filter_eq_some hy
    exact ⟨hm, fun _ => ⟨hym, hle⟩, fun hno => absurd hym (hno m hm), fun hno => absurd hym (hno m hm)⟩
  · have hno : ∀ y ∈ hs, ¬ yields y := fun y hy' => ne_true_of_eq_false (least_filter_eq_none.1 hy y hy')
    have hnot : ¬ ∃ y ∈ hs, yields y := fun ⟨y, hy', hy''⟩ => hno y hy' hy''
    rcases Option.or_eq_some_iff.1 h with hl | ⟨hl, h⟩
    · obtain ⟨hm, hlm, hle⟩ := least_filter_eq_some hl
      exact ⟨hm, fun hex => absurd hex hnot, fun _ _ => ⟨hlm, hle⟩, fun _ hno' => absurd hlm (hno' m hm)⟩
    · obtain ⟨hm, hle⟩ := (least_spec _ _).2 m h
      have hnol : ∀ y ∈ hs, ¬ lc y := fun y hy' => ne_true_of_eq_false (least_filter_eq_none.1 hl y hy')
      exact ⟨hm, fun hex => absurd hex hnot, fun _ ⟨y, hy', hy''⟩ => absurd hy'' (hnol y hy'), fun _ _ => hle⟩

/-- The order in which an engine starts its commands, in the words of O16. -/
theorem State.nextCmd_spec (s : State) (c : Nat) (e : Engine) :
    let q := ((s.core c).eng e).queue
    let head := fun (m : ECmd) => (q.find? fun y => y.slot == m.slot) = some m
    let yields := fun (m : ECmd) => ((s.core c).slot m.slot).yield.isSome = true
    let lc := fun (m : ECmd) => ∃ t, s.task m.uid = some t ∧ t.be = false
    let due := fun (m : ECmd) => ((s.task m.uid).bind (·.deadline)).getD 0
    let older := fun (m y : ECmd) => m.order < y.order ∨ (m.order = y.order ∧ m.slot ≤ y.slot)
    (s.nextCmd c e = none ↔ q = [])
    ∧ ∀ m, s.nextCmd c e = some m → head m
      ∧ ((∃ y, head y ∧ yields y) → yields m ∧ ∀ y, head y → yields y → older m y)
      ∧ ((∀ y, head y → ¬ yields y) → (∃ y, head y ∧ lc y) →
        lc m ∧ ∀ y, head y → lc y → due m < due y ∨ (due m = due y ∧ m.slot ≤ y.slot))
      ∧ ((∀ y, head y → ¬ yields y) → (∀ y, head y → ¬ lc y) → ∀ y, head y → older m y) := by
  intro q head yields lc due older
  refine ⟨nextCmd_eq_none, fun m h => ?_⟩
  have hhead : ∀ y, head y ↔ y ∈ heads q := fun y => mem_heads_iff.symm
  have hlc : ∀ y, lc y ↔ ((s.task y.uid).any fun t => !t.be) = true := fun y => by
    simp only [lc, Option.any_eq_true, Bool.not_eq_true']
  simp only [hhead, hlc]
  exact nextCmd_eq_some h

end Sys2Proof.Machine
end

/-! ### How a command starts, completes and is aborted (R65, R140, R147, R148, R259) -/

section
namespace Sys2Proof.Machine

variable {s t : State} {c : Nat} {e : Engine} {m : ECmd}

/-! ### Start -/

theorem exec_engineCommandStart (hc : c < s.var.cores) (hrun : ((s.core c).eng e).run = none) (hfence : s.ras.fence.contains c = false)
    (hnext : s.nextCmd c e = some m) (hcred : s.creditRequest c e = (.start, t)) :
    let u := t.stageCmd c e m
    exec (.engineCommandStart c e) s = .next
      (({ u with pwr := { u.pwr with waiting := u.pwr.waiting.erase ⟨c, e, m.uid, m.cseq⟩ } } : State).noteFall c) := by
  intro u
  change execEngineCommandStart c e s = _
  have h1 : ¬ (!(decide (c < s.var.cores))) = true := by simp [hc]
  have h2 : ¬ (((s.core c).eng e).run.isSome || s.ras.fence.contains c) = true := by rw [hrun, hfence]; exact Bool.false_ne_true
  rw [execEngineCommandStart, if_neg h1, if_neg h2, hnext, hcred]

/-- Staging from a memory without errors changes the engine alone. -/
theorem State.stageCmd_of_sound (hbad : (s.core c).bad = []) (hweak : (s.core c).weak = []) :
    let r := m.result (specOf m.opc) (m.cmd c (s.coreRd c) [])
    let got := (s.core c).stage c r.lines
    s.stageCmd c e m = s.updCore c fun k => k.setEng e
        { run := some { m with
            started := s.dt, line := none, got := got, dur := if r.refuse || r.fault then r.dur else max r.dur (staging e r) }
          queue := (k.eng e).queue.erase m
          buf := got.filter fun p => (r.lines.drop (r.lines.length - bufLines e)).contains (p.1 / 64) } := by
  intro r got
  have hlines : s.badLines c r.lines = [] := by
    rw [badLines, hbad]
    simp
  rw [stageCmd, hlines, hweak]
  rfl

/-! ### The end of a command -/

theorem Core.SameButLeash.sb {q r : Core} (h : q.SameButLeash r) : r.sb = q.sb := by rw [SameButLeash] at h; rw [← h]

theorem Core.SameButLeash.eng {q r : Core} (h : q.SameButLeash r) (e : Engine) : r.eng e = q.eng e := by
  rw [SameButLeash] at h
  rw [← h]
  cases e <;> rfl

/-- The core after a command has left its engine. -/
def Core.left (q : Core) (e : Engine) (m : ECmd) : Core :=
  ({ q with sb := q.sb.filter fun r => !(r.uid == m.uid && r.cseq == m.cseq) } : Core).setEng e { q.eng e with run := none }

theorem State.leave_eq (s : State) (c : Nat) (e : Engine) (m : ECmd) : s.leave c e m = s.updCore c fun q => q.left e m := by
  rw [leave]
  exact congrArg (fun f => s.updCore c f) (funext fun q => by cases e <;> rfl)

@[simp] theorem Core.left_slots (q : Core) (e : Engine) (m : ECmd) : (q.left e m).slots = q.slots := setEng_slots ..
@[simp] theorem Core.left_mem (q : Core) (e : Engine) (m : ECmd) : (q.left e m).mem = q.mem := setEng_mem ..
@[simp] theorem Core.left_sb (q : Core) (e : Engine) (m : ECmd) :
    (q.left e m).sb = q.sb.filter fun r => !(r.uid == m.uid && r.cseq == m.cseq) := setEng_sb ..

theorem Core.left_eng_run (q : Core) (e : Engine) (m : ECmd) : ((q.left e m).eng e).run = none := by rw [left, eng_setEng_self]

/-- The fault with which a command ends: DATA_ERROR of a line it received or could not write, before any other (R119). -/
def endFault (line w : Option Nat) (fault : Option RFault) : Option RFault :=
  match line, w with
  | some l, _ => some (.dataError l)
  | none, some l => some (.dataError l)
  | none, none => fault

/-- The slot of a command that ends. -/
def Slot.cmdEnded (m : ECmd) (r : ERes) (fault : Option RFault) (x : Slot) : Slot :=
  (match m.reg, r.reg with
    | some g, some v => x.setReg g v
    | _, _ => x).cmdDone m r fault

/-- The state before Leash notes that a demand may have fallen. -/
def State.cmdLeft (s : State) (c : Nat) (e : Engine) (m : ECmd) (r : ERes) (fault : Option RFault) : State :=
  if (s.leave c e m).cmdLive c m then (s.leave c e m).updSlot c m.slot (Slot.cmdEnded m r fault) else s.leave c e m

theorem State.cmdEnd_eq (s : State) (c : Nat) (e : Engine) (m : ECmd) (r : ERes) (line : Option Nat) (fault : Option RFault) :
    s.cmdEnd c e m r line fault =
      ((s.cmdWrite c r).1.cmdLeft c e m (s.cmdWrite c r).2.1 (endFault line (s.cmdWrite c r).2.2 fault)).noteFall c := by
  unfold cmdEnd
  generalize s.cmdWrite c r = w
  obtain ⟨u, r', l⟩ := w
  rw [cmdLeft]
  have hf : (match line, l with
      | some l, _ => some (.dataError l)
      | none, some l => some (.dataError l)
      | none, none => fault) = endFault line l fault := by cases line <;> cases l <;> rfl
  refine congrArg (fun v : State => v.noteFall c) (if_congr Iff.rfl ?_ rfl)
  refine congrArg (fun f => (u.leave c e m).updSlot c m.slot f) (funext fun x => ?_)
  rw [Slot.cmdEnded, ← hf] <;> cases m.reg <;> cases r'.reg <;> rfl

section
variable (h : s.slotTabs c m.slot = true)
include h

theorem State.slot_leave : (s.leave c e m).slot c m.slot = s.slot c m.slot := by
  rw [leave_eq, slot_updCore (slotTabs_iff.1 h).1 fun q => Core.left_slots ..]

theorem State.cmdLive_leave : (s.leave c e m).cmdLive c m = s.cmdLive c m := by
  rw [cmdLive, cmdLive, slot_leave h]

theorem State.slotTabs_leave : (s.leave c e m).slotTabs c m.slot = true := by
  rw [leave_eq]
  exact slotTabs_updCore (slotTabs_iff.1 h).1 (fun q => Core.left_slots ..) h

theorem State.rd_leave (a : Nat) : (s.leave c e m).rd a = s.rd a := by
  rw [leave_eq]
  refine rd_congr (s := s) (t := s.updCore c fun q => q.left e m) rfl rfl (fun c' => ?_) a
  rw [core_updCore (slotTabs_iff.1 h).1]
  split_ifs with hc
  · rw [hc, Core.left_mem]
  · rfl

theorem State.core_cmdLeft (r : ERes) (fault : Option RFault) :
    (((s.cmdLeft c e m r fault).core c).eng e).run = none
      ∧ ((s.cmdLeft c e m r fault).core c).sb = (s.core c).sb.filter fun r => !(r.uid == m.uid && r.cseq == m.cseq) := by
  obtain ⟨h1, -, -⟩ := slotTabs_iff.1 h
  have hleave : (s.leave c e m).core c = (s.core c).left e m := by rw [leave_eq, core_updCore_self h1]
  have hslot : ∀ (u : State) (f : Slot → Slot), Tab.wf ({} : Core) u.cores = true →
      ((u.updSlot c m.slot f).core c).eng e = (u.core c).eng e ∧ ((u.updSlot c m.slot f).core c).sb = (u.core c).sb := by
    intro u f hu
    rw [core_updSlot hu, if_pos rfl]
    exact ⟨by cases e <;> rfl, rfl⟩
  rw [cmdLeft]
  split_ifs
  · obtain ⟨he, hs⟩ := hslot (s.leave c e m) (Slot.cmdEnded m r fault) (slotTabs_iff.1 (slotTabs_leave h)).1
    rw [he, hs, hleave]
    exact ⟨Core.left_eng_run .., Core.left_sb ..⟩
  · rw [hleave]
    exact ⟨Core.left_eng_run .., Core.left_sb ..⟩

theorem State.rd_cmdLeft (r : ERes) (fault : Option RFault) (a : Nat) : (s.cmdLeft c e m r fault).rd a = s.rd a := by
  rw [cmdLeft]
  split_ifs
  · rw [(onlySlot_updSlot (slotTabs_leave h) _).mem, rd_leave h]
  · exact rd_leave h a

theorem State.wf_cmdLeft (r : ERes) (fault : Option RFault) : Tab.wf ({} : Core) (s.cmdLeft c e m r fault).cores = true := by
  have hl := (slotTabs_iff.1 (slotTabs_leave (e := e) h)).1
  rw [cmdLeft]
  split_ifs
  · exact wf_updSlot hl c m.slot _
  · exact hl

theorem State.slot_cmdLeft (hlive : s.cmdLive c m = true) (r : ERes) (fault : Option RFault) :
    (s.cmdLeft c e m r fault).slot c m.slot = (s.slot c m.slot).cmdEnded m r fault := by
  rw [cmdLeft, if_pos ((cmdLive_leave h).trans hlive), slot_updSlot_self (slotTabs_leave h), slot_leave h]

end

theorem Slot.mem_cmdEnded {x : Slot} {r : ERes} {fault : Option RFault} {y : RetEntry} (hy : y ∈ (x.cmdEnded m r fault).ret)
    (hcseq : y.cseq = m.cseq) : y.complete = true ∧ y.fault = fault := by
  obtain ⟨z, -, rfl⟩ := List.mem_map.1 hy
  by_cases hz : z.cseq = m.cseq
  · rw [if_pos hz]
    exact ⟨rfl, rfl⟩
  · rw [if_neg hz] at hcseq
    exact absurd hcseq hz

/-! ### The writes of a command -/

theorem State.cmdWrite_of_merged {r : ERes} (h : (s.coreWrite c (s.landing c r.writes)).2 = []) :
    s.cmdWrite c r = ((s.coreWrite c (s.landing c r.writes)).1, r, none) := by
  rw [cmdWrite, h]

/-- What the writes of a command leave: bytes of its core's memory, a record, and free values used. -/
theorem State.cmdWrite_eq (s : State) (c : Nat) (r : ERes) :
    ∃ w x n, (s.cmdWrite c r).1 = { (s.coreWrite c w).1 with ras := x, freeCtr := n } := by
  rw [cmdWrite]
  dsimp only
  split
  · exact ⟨_, _, _, rfl⟩
  · obtain ⟨x, hx⟩ := ueMet_eq _ 0 (some (s.owner c).dom) skCore c _
    exact ⟨_, x, _, hx⟩

theorem State.cmdWrite_slot (h : s.slotTabs c m.slot = true) (r : ERes) :
    (s.cmdWrite c r).1.slotTabs c m.slot = true ∧ (s.cmdWrite c r).1.slot c m.slot = s.slot c m.slot
      ∧ ((s.cmdWrite c r).1.core c).sb = (s.core c).sb := by
  obtain ⟨h1, -, -⟩ := slotTabs_iff.1 h
  obtain ⟨w, x, n, hw⟩ := cmdWrite_eq s c r
  have hcores : (s.cmdWrite c r).1.cores = (s.coreWrite c w).1.cores := by rw [hw]
  rw [slotTabs_congr hcores, slot_congr hcores, core_congr hcores]
  exact ⟨slotTabs_coreWrite h w, slot_coreWrite h1 .., by rw [coreWrite, core_updCore_self h1]⟩

/-- What the end of a command leaves of it. -/
theorem State.cmdEnd_spec (h : s.slotTabs c m.slot = true) (r : ERes) (line : Option Nat) (fault : Option RFault) :
    let t := s.cmdEnd c e m r line fault
    ((t.core c).eng e).run = none
      ∧ (t.core c).sb = (s.core c).sb.filter (fun r => !(r.uid == m.uid && r.cseq == m.cseq))
      ∧ (∀ a, t.rd a = (s.cmdWrite c r).1.rd a)
      ∧ (s.cmdLive c m = true → ∀ y ∈ (t.slot c m.slot).ret, y.cseq = m.cseq →
          y.complete = true ∧ y.fault = endFault line (s.cmdWrite c r).2.2 fault) := by
  intro t
  obtain ⟨htabs, hslot, hsb⟩ := cmdWrite_slot h r
  have hlive : (s.cmdWrite c r).1.cmdLive c m = s.cmdLive c m := by rw [cmdLive, cmdLive, hslot]
  have ht : t = _ := cmdEnd_eq s c e m r line fault
  generalize hu : (s.cmdWrite c r).1.cmdLeft c e m (s.cmdWrite c r).2.1 (endFault line (s.cmdWrite c r).2.2 fault) = u at ht
  have hwf : Tab.wf ({} : Core) u.cores = true := hu ▸ wf_cmdLeft htabs _ _
  have hmv := LeashMoves.noteFall u c
  have hcore := hmv.core hwf c
  obtain ⟨hrun, hfil⟩ := core_cmdLeft (e := e) htabs (s.cmdWrite c r).2.1 (endFault line (s.cmdWrite c r).2.2 fault)
  rw [hu] at hrun hfil
  rw [ht]
  refine ⟨by rw [hcore.eng, hrun], by rw [hcore.sb, hfil, hsb], fun a => ?_, fun hl y hy hcs => ?_⟩
  · rw [hmv.rd hwf, ← hu, rd_cmdLeft htabs]
  · rw [hmv.slot hwf, ← hu, slot_cmdLeft htabs (hlive.trans hl)] at hy
    exact Slot.mem_cmdEnded hy hcs

/-! ### Completion and abort -/

/-- No unit of an operand buffer is in error but a line that the command received. -/
theorem State.bufErrors_nil (lines : List Nat) : s.bufErrors c e m lines [] = (s, m.line) := by
  rw [bufErrors]
  dsimp only [List.filter_nil, List.foldl_nil, List.find?_nil]
  cases m.line <;> rfl

theorem exec_complete (hc : c < s.var.cores) (hrun : ((s.core c).eng e).run = some m) (hdur : m.dur ≤ 8192) :
    exec (.engineCommandComplete c e []) s = .next
      (let p := if m.line.isSome then s.keepFree (m.made c).1 else ((m.made c).1, s)
       p.2.cmdEnd c e m p.1 m.line (if (m.made c).1.refuse || (m.made c).1.fault then some .malformed else none)) := by
  change execEngineCommandComplete c e [] s = _
  have h1 : ¬ (!(decide (c < s.var.cores))) = true := by simp [hc]
  rw [execEngineCommandComplete, if_neg h1, hrun]
  dsimp only
  rw [if_neg (by omega), State.bufErrors_nil]

theorem exec_commandAbort (hc : c < s.var.cores) (hrun : ((s.core c).eng e).run = some m) (hdur : 8192 < m.dur) :
    exec (.commandAbort c (e, [])) s = .next
      (let p := if m.line.isSome then s.keepFree (m.cut c) else (m.cut c, s)
       p.2.cmdEnd c e m p.1 m.line (some .aborted)) := by
  change execCommandAbort c (e, []) s = _
  have h1 : ¬ (!(decide (c < s.var.cores))) = true := by simp [hc]
  rw [execCommandAbort, if_neg h1]
  dsimp only
  rw [hrun]
  dsimp only
  rw [if_neg (by omega), State.bufErrors_nil]

/-- A command that has received every line, and whose writes all merge. -/
theorem exec_complete_merged (hc : c < s.var.cores) (hrun : ((s.core c).eng e).run = some m) (hdur : m.dur ≤ 8192) (hline : m.line = none)
    (hw : (s.coreWrite c (s.landing c (m.made c).1.writes)).2 = []) :
    let r := (m.made c).1
    let u := (s.coreWrite c (s.landing c r.writes)).1.leave c e m
    exec (.engineCommandComplete c e []) s = .next
      ((if u.cmdLive c m then u.updSlot c m.slot (Slot.cmdEnded m r (if r.refuse || r.fault then some .malformed else none)) else u).noteFall c) := by
  intro r u
  rw [exec_complete hc hrun hdur, hline]
  dsimp only [Option.isSome_none]
  rw [if_neg Bool.false_ne_true, State.cmdEnd_eq, State.cmdWrite_of_merged hw]
  rfl

theorem exec_complete_line {l : Nat} (hc : c < s.var.cores) (hrun : ((s.core c).eng e).run = some m) (hdur : m.dur ≤ 8192)
    (hline : m.line = some l) (htabs : s.slotTabs c m.slot = true) :
    ∃ t, exec (.engineCommandComplete c e []) s = .next t
      ∧ ((t.core c).eng e).run = none
      ∧ (t.core c).sb = (s.core c).sb.filter (fun r => !(r.uid == m.uid && r.cseq == m.cseq))
      ∧ (s.cmdLive c m = true → ∀ r ∈ (t.slot c m.slot).ret, r.cseq = m.cseq → r.complete = true ∧ r.fault = some (.dataError l)) := by
  refine ⟨_, exec_complete hc hrun hdur, ?_⟩
  rw [hline]
  dsimp only [Option.isSome_some]
  rw [if_pos rfl]
  obtain ⟨h1, h2, -, h3⟩ := State.cmdEnd_spec (s := (s.keepFree (m.made c).1).2) (e := e) htabs (s.keepFree (m.made c).1).1 (some l)
    (if (m.made c).1.refuse || (m.made c).1.fault then some .malformed else none)
  exact ⟨h1, h2, h3⟩

/-! ### What an abort writes -/

theorem mem_pick_writes {r : ERes} {pick : Nat → Bool} {w : Wr} (h : w ∈ (r.pick pick).writes) : w ∈ r.writes := by
  obtain ⟨p, hp, rfl⟩ := List.mem_map.1 h
  exact List.fst_mem_of_mem_zipIdx (List.mem_filter.1 hp).1

/-- Every byte that lands is one of a write. -/
theorem exists_of_mem_landAll {m : Rd} {l : List Wr} {p : Nat × Byte} (h : p ∈ landAll m l) : ∃ w ∈ l, p.1 ∈ w.addrs := by
  induction l using List.reverseRecOn generalizing p with
  | nil => exact absurd h (by simp [landAll])
  | append_singleton l w ih =>
    have hold : p ∈ landAll m l → ∃ v ∈ l ++ [w], p.1 ∈ v.addrs := fun hp => by
      obtain ⟨v, hv, hpv⟩ := ih hp
      exact ⟨v, List.mem_append_left _ hv, hpv⟩
    have hnew : p.1 ∈ w.addrs → ∃ v ∈ l ++ [w], p.1 ∈ v.addrs := fun hp => ⟨w, by simp, hp⟩
    rw [landAll, List.foldl_append, ← landAll, List.foldl_cons, List.foldl_nil] at h
    have hbytes : p ∈ landAll m l ++ w.bytes → ∃ v ∈ l ++ [w], p.1 ∈ v.addrs := fun hp =>
      (List.mem_append.1 hp).elim hold fun hb => hnew (List.mem_append_left _ (List.mem_map_of_mem hb))
    rcases Option.eq_none_or_eq_some w.nib with hn | ⟨⟨n, x⟩, hn⟩ <;> rw [hn] at h <;> dsimp only at h
    · exact hbytes h
    · rcases List.mem_append.1 h with hp | hp
      · exact hbytes hp
      · refine hnew (List.mem_append_right _ ?_)
        rw [List.mem_singleton.1 hp, hn]
        simp

/-- A byte outside a command's writes stays. -/
theorem State.rd_landing (hm : s.memsOk = true) {l : List Wr} {a : Nat} (hbase : ∀ p ∈ l, ∀ b ∈ p.addrs, coreBase c ≤ b)
    (ha : ∀ p ∈ l, a ∉ p.addrs) : (s.coreWrite c (s.landing c l)).1.rd a = s.rd a := by
  refine rd_coreWrite_of_notMem hm fun p hp he => ?_
  obtain ⟨q, hq, rfl⟩ := List.mem_map.1 hp
  obtain ⟨w, hw, hqw⟩ := exists_of_mem_landAll hq
  have := hbase w hw _ hqw
  exact ha w hw ((show a = q.1 by dsimp only at he; omega) ▸ hqw)

theorem State.coreWrite_merged (hbad : (s.core c).bad = []) (w : List (Nat × Byte)) : (s.coreWrite c w).2 = [] := by
  rw [coreWrite, hbad]
  rfl

/-- An abort from a memory without errors, on a state `u` that differs from `s` in its free values alone. -/
theorem State.cmdEnd_aborted (hm : s.memsOk = true) (htabs : s.slotTabs c m.slot = true) (hbad : (s.core c).bad = []) {r : ERes}
    {l : List Wr} (hsub : ∀ w ∈ r.writes, w ∈ l) (hbase : ∀ p ∈ l, ∀ b ∈ p.addrs, coreBase c ≤ b) (n : Nat) :
    let t := ({ s with freeCtr := n } : State).cmdEnd c e m r m.line (some .aborted)
    ((t.core c).eng e).run = none
      ∧ (t.core c).sb = (s.core c).sb.filter (fun r => !(r.uid == m.uid && r.cseq == m.cseq))
      ∧ (∀ a, (∀ p ∈ l, a ∉ p.addrs) → t.rd a = s.rd a)
      ∧ (s.cmdLive c m = true → ∀ y ∈ (t.slot c m.slot).ret, y.cseq = m.cseq →
          y.complete = true ∧ y.fault = (match m.line with
            | some l => some (.dataError l)
            | none => some .aborted)) := by
  have hw := cmdWrite_of_merged (s := { s with freeCtr := n }) (r := r) (coreWrite_merged (c := c) hbad _)
  obtain ⟨h1, h2, h3, h4⟩ := cmdEnd_spec (s := { s with freeCtr := n }) (e := e) htabs r m.line (some .aborted)
  rw [hw] at h3 h4
  refine ⟨h1, h2, fun a ha => ?_, fun hl y hy hcs => ?_⟩
  · rw [h3]
    exact rd_landing (s := { s with freeCtr := n }) hm (fun p hp => hbase p (hsub p hp)) fun p hp => ha p (hsub p hp)
  · obtain ⟨hcomplete, hfault⟩ := h4 hl y hy hcs
    refine ⟨hcomplete, hfault.trans ?_⟩
    cases m.line <;> rfl

theorem exec_abort_spec (hc : c < s.var.cores) (hrun : ((s.core c).eng e).run = some m) (hdur : 8192 < m.dur) (hm : s.memsOk = true)
    (htabs : s.slotTabs c m.slot = true) (hbase : ∀ p ∈ (m.made c).1.writes, ∀ b ∈ p.addrs, coreBase c ≤ b) (hbad : (s.core c).bad = []) :
    ∃ t, exec (.commandAbort c (e, [])) s = .next t
      ∧ ((t.core c).eng e).run = none
      ∧ (t.core c).sb = (s.core c).sb.filter (fun r => !(r.uid == m.uid && r.cseq == m.cseq))
      ∧ (∀ a, (∀ p ∈ (m.made c).1.writes, a ∉ p.addrs) → t.rd a = s.rd a)
      ∧ (s.cmdLive c m = true → ∀ y ∈ (t.slot c m.slot).ret, y.cseq = m.cseq →
          y.complete = true ∧ y.fault = (match m.line with
            | some l => some (.dataError l)
            | none => some .aborted)) := by
  have hcut : ∀ w ∈ (m.cut c).writes, w ∈ (m.made c).1.writes := fun w => mem_pick_writes
  refine ⟨_, exec_commandAbort hc hrun hdur, ?_⟩
  cases hline : m.line.isSome with
  | true =>
    rw [if_pos rfl]
    exact State.cmdEnd_aborted hm htabs hbad (r := (s.keepFree (m.cut c)).1) (fun w hw => hcut w (mem_pick_writes hw)) hbase _
  | false =>
    rw [if_neg Bool.false_ne_true]
    exact State.cmdEnd_aborted hm htabs hbad hcut hbase s.freeCtr

end Sys2Proof.Machine
end

/-! ### Exact numbers, and how a unit reads and stores them (R36, R37, R45, R57, R59) -/

section
namespace Sys2Proof.Machine

/-! ### The values of exact operations -/

theorem pow2_eq (n : Nat) : pow2 n = 2 ^ n := by rw [pow2]; norm_cast

theorem Dy.val_zero : Dy.zero.val = 0 := by simp [Dy.val, Dy.zero]

theorem Dy.val_eq_zero_iff {x : Dy} : x.val = 0 ↔ x.m = 0 := by
  rw [Dy.val, mul_eq_zero, Int.cast_eq_zero]
  exact or_iff_left (zpow_ne_zero _ two_ne_zero)

theorem Dy.val_lt_zero_iff {x : Dy} : x.val < 0 ↔ x.m < 0 := by
  have hp : (0 : Rat) < 2 ^ x.e := zpow_pos two_pos _
  rw [← Int.cast_lt_zero (R := Rat), Dy.val]
  constructor
  · exact fun h => by by_contra hn; exact absurd h (not_lt.2 (mul_nonneg (not_lt.1 hn) hp.le))
  · exact fun h => mul_neg_of_neg_of_pos h hp

theorem Dy.val_add (x y : Dy) : (x.add y).val = x.val + y.val := by
  rw [Dy.val_eq_mant (min_le_left x.e y.e), Dy.val_eq_mant (min_le_right x.e y.e), ← add_mul, ← Int.cast_add]
  rfl

theorem Dy.val_neg (x : Dy) : x.neg.val = -x.val := by
  rw [Dy.val, Dy.val, Dy.neg, Int.cast_neg, neg_mul]

theorem Dy.val_sub (x y : Dy) : (x.sub y).val = x.val - y.val := by
  rw [Dy.sub, val_add, val_neg, sub_eq_add_neg]

theorem Dy.val_mul (x y : Dy) : (x.mul y).val = x.val * y.val := by
  rw [Dy.val, Dy.val, Dy.val, Dy.mul, Int.cast_mul, zpow_add₀ two_ne_zero]
  ring

theorem Dy.val_abs (x : Dy) : x.abs.val = |x.val| := by
  rw [Dy.val, Dy.val, Dy.abs, abs_mul, abs_of_pos (zpow_pos two_pos x.e : (0 : Rat) < 2 ^ x.e), ← Int.cast_abs, Int.natCast_natAbs]

/-! ### Storing into a fixed-point format (R57) -/

theorem breaksRange_iff {rb : Int} {nonneg : Bool} {g k : Int} : breaksRange rb nonneg g k = true ↔
    (rb ≠ -128 ∧ (2 : Rat) ^ rb ≤ |(k : Rat) * 2 ^ g|) ∨ (nonneg = true ∧ k < 0) := by
  have hone : (⟨1, rb⟩ : Dy).val = 2 ^ rb := by simp [Dy.val]
  have habs : (⟨k.natAbs, g⟩ : Dy).val = |(k : Rat) * 2 ^ g| := Dy.val_abs ⟨k, g⟩
  simp only [breaksRange, Bool.or_eq_true, Bool.and_eq_true, decide_eq_true_eq, Dy.le_iff, hone, habs]

/-- A number on its way into a format of `w` bits, in the words of R57. -/
theorem storeInt_num (r : Rnd) (w : Nat) (g rb : Int) (nonneg : Bool) (x : Dy) :
    storeInt r w g rb nonneg (.num x) =
      if (x.round r g).1 < -2 ^ (w - 1) then (-2 ^ (w - 1), [fSat, fRange])
      else if 2 ^ (w - 1) - 1 < (x.round r g).1 then (2 ^ (w - 1) - 1, [fSat, fRange])
      else ((x.round r g).1,
        (if (rb ≠ -128 ∧ (2 : Rat) ^ rb ≤ |((x.round r g).1 : Rat) * 2 ^ g|) ∨ (nonneg = true ∧ (x.round r g).1 < 0) then [fRange] else [])
        ++ (if x.val ≠ 0 ∧ (x.round r g).1 = 0 then [fUnder] else [])) := by
  have hunder : (x.m ≠ 0 && (x.round r g).1 == 0) = true ↔ x.val ≠ 0 ∧ (x.round r g).1 = 0 := by
    simp [Dy.val_eq_zero_iff]
  simp only [storeInt, pow2_eq]
  refine if_congr Iff.rfl rfl (if_congr Iff.rfl rfl (congrArg (Prod.mk _) (congrArg₂ (· ++ ·) (if_congr breaksRange_iff rfl rfl) ?_)))
  exact if_congr hunder rfl rfl

theorem storeInt_extreme (r : Rnd) (w : Nat) (g rb : Int) (nonneg n : Bool) :
    storeInt r w g rb nonneg (.sat n) = (if n = true then -2 ^ (w - 1) else 2 ^ (w - 1) - 1, [fSat, fRange])
      ∧ storeInt r w g rb nonneg (.inf n) = (if n = true then -2 ^ (w - 1) else 2 ^ (w - 1) - 1, [fSat, fRange]) := by
  simp only [storeInt, pow2_eq, and_self]

/-- An integer of a format goes into it as it is. -/
theorem storeInt_fst_bounds (r : Rnd) {w : Nat} (g rb : Int) (nonneg : Bool) (v : XV) :
    -2 ^ (w - 1) ≤ (storeInt r w g rb nonneg v).1 ∧ (storeInt r w g rb nonneg v).1 ≤ 2 ^ (w - 1) - 1 := by
  have hp : (0 : Int) < 2 ^ (w - 1) := by positivity
  cases v with
  | num x => rw [storeInt_num]; split_ifs <;> constructor <;> dsimp only <;> omega
  | nan => simp only [storeInt]; omega
  | inf n => rw [(storeInt_extreme ..).2]; cases n <;> simp
  | sat n => rw [(storeInt_extreme ..).1]; cases n <;> simp

/-! ### Fine exponents (R59) -/

theorem fitsBlock_iff {r : Rnd} {fmt : Nat} {cexp : Int} {e : Nat} {v : XV} : fitsBlock r fmt cexp e v = true ↔
    v = .nan ∨ ∃ x, v = .num x ∧ (x.round r (lsbExp fmt 0 cexp e)).1.natAbs ≤ (if fmt = 3 then 127 else 32767) := by
  have hmax : (blockMax fmt).natAbs = if fmt = 3 then 127 else 32767 := by rw [blockMax]; split_ifs <;> rfl
  cases v <;> simp [fitsBlock, hmax]

/-- A unit chooses the largest fine exponent by which a block's elements fit. -/
theorem chooseFine_spec (r : Rnd) (fmt : Nat) (cexp : Int) (l : List XV) :
    let e := chooseFine r fmt cexp l
    let fits := fun (e : Nat) => ∀ v ∈ l, v = .nan ∨ ∃ x, v = .num x ∧ (x.round r (lsbExp fmt 0 cexp e)).1.natAbs ≤ (if fmt = 3 then 127 else 32767)
    ((∃ i, i < 16 ∧ fits i) → e < 16 ∧ fits e ∧ ∀ i, i < 16 → fits i → i ≤ e) ∧ ((∀ i, i < 16 → ¬ fits i) → e = 0) := by
  intro e fits
  have hfits : ∀ i, l.all (fitsBlock r fmt cexp i) = true ↔ fits i := fun i => by
    rw [List.all_eq_true]
    exact forall₂_congr fun v _ => fitsBlock_iff
  have he : e = ((List.range 16).reverse.find? fun e => l.all (fitsBlock r fmt cexp e)).getD 0 := rfl
  cases hf : (List.range 16).reverse.find? fun e => l.all (fitsBlock r fmt cexp e) with
  | none =>
    rw [hf] at he
    have hno : ∀ i, i < 16 → ¬ fits i := fun i hi h =>
      List.find?_eq_none.1 hf i (List.mem_reverse.2 (List.mem_range.2 hi)) ((hfits i).2 h)
    exact ⟨fun ⟨i, hi, h⟩ => absurd h (hno i hi), fun _ => he⟩
  | some m =>
    rw [hf] at he
    obtain rfl : e = m := he
    have hlt : e < 16 := List.mem_range.1 (List.mem_reverse.1 (List.mem_of_find?_eq_some hf))
    have hfit : fits e := (hfits e).1 (List.find?_some hf :)
    refine ⟨fun _ => ⟨hlt, hfit, fun i hi h => ?_⟩, fun hno => absurd hfit (hno e hlt)⟩
    obtain ⟨-, as, bs, hsplit, hbefore⟩ := List.find?_eq_some_iff_append.1 hf
    by_contra hgt
    have hi' : i ∈ as := by
      have hmem : i ∈ as ++ e :: bs := hsplit ▸ List.mem_reverse.2 (List.mem_range.2 hi)
      have hsorted : (as ++ e :: bs).Pairwise (· > ·) := hsplit ▸ by decide
      rcases List.mem_append.1 hmem with h' | h'
      · exact h'
      · rcases List.mem_cons.1 h' with rfl | h'
        · omega
        · have := (List.pairwise_cons.1 (List.pairwise_append.1 hsorted).2.1).1 i h'
          omega
    have hnot : (l.all (fitsBlock r fmt cexp i)) = false := by simpa using hbefore i hi'
    rw [(hfits i).2 h] at hnot
    exact absurd hnot (by decide)

/-! ### The values of fixed-point elements (R36, R37) -/

theorem isHQ_cases {f : Nat} (h : isHQ f = true) : f = 0 ∨ f = 1 ∨ f = 2 := by
  rw [isHQ, decide_eq_true_iff] at h
  omega

theorem TDesc.val_of_isHQ {d : TDesc} (h : isHQ d.fmt = true) (m : Rd) (i : Nat) :
    d.val m i = .num ⟨sgn (elemBits d.fmt) (Rd.le m (d.addr i) (elemBits d.fmt / 8)), -(d.frac : Int)⟩ := by
  rcases isHQ_cases h with hf | hf | hf <;> rw [val, raw, hf] <;> rfl

theorem TDesc.val_number {d : TDesc} (h : isHQ d.fmt = true) (m : Rd) (i : Nat) :
    ∃ v, d.val m i = .num v ∧ v.val = (sgn (elemBits d.fmt) (Rd.le m (d.addr i) (elemBits d.fmt / 8)) : Rat) / 2 ^ d.frac := by
  refine ⟨_, val_of_isHQ h m i, ?_⟩
  rw [Dy.val, zpow_neg, zpow_natCast, div_eq_mul_inv]

/-! ### Storing a tensor that has no blocks -/

theorem storeTensor_of_not_block {d : TDesc} (h : isBlock d.fmt = false) (r : Rnd) (one : Option (List Nat)) (x : Nat → Option XV) :
    storeTensor d r one x =
      let rs := (List.range d.n).filterMap fun i => (x i).map (storeElem d r i)
      (rs.map (·.1), rs.flatMap (·.2)) := by
  rw [storeTensor, h]
  rfl

/-- Results for the first `n` elements. -/
theorem storeTensor_of_range {d : TDesc} (h : isBlock d.fmt = false) (r : Rnd) {x : Nat → Option XV} {n : Nat} (hn : n ≤ d.n) {f : Nat → XV}
    (hx : ∀ i, i < d.n → x i = if i < n then some (f i) else none) :
    storeTensor d r none x = ((List.range n).map fun i => (storeElem d r i (f i)).1, (List.range n).flatMap fun i => (storeElem d r i (f i)).2) := by
  have hrs : (List.range d.n).filterMap (fun i => (x i).map (storeElem d r i)) = (List.range n).map fun i => storeElem d r i (f i) := by
    rw [← Nat.add_sub_cancel' hn, List.range_add, List.filterMap_append, List.filterMap_map]
    have h1 : (List.range n).filterMap (fun i => (x i).map (storeElem d r i)) = (List.range n).map fun i => storeElem d r i (f i) := by
      rw [← List.filterMap_eq_map]
      refine List.filterMap_congr fun i hi => ?_
      have hi := List.mem_range.1 hi
      rw [hx i (by omega), if_pos hi]
      rfl
    have h2 : (List.range (d.n - n)).filterMap ((fun i => (x i).map (storeElem d r i)) ∘ fun i => n + i) = [] := by
      refine List.filterMap_eq_nil_iff.2 fun i hi => ?_
      have hi := List.mem_range.1 hi
      rw [Function.comp_apply, hx _ (by omega), if_neg (by omega)]
      rfl
    rw [h1, h2, List.append_nil]
  rw [storeTensor_of_not_block h]
  dsimp only
  rw [hrs, List.map_map, List.flatMap_map]
  rfl

theorem storeElem_of_isHQ {d : TDesc} (h : isHQ d.fmt = true) (r : Rnd) (i : Nat) (v : XV) :
    storeElem d r i v =
      let st := storeInt r (elemBits d.fmt) (-(d.frac : Int)) d.rb d.nonneg v
      (⟨bytesAt (d.addr i) (toLE (elemBits d.fmt / 8) (wrapN (elemBits d.fmt) st.1)), none⟩, st.2.map fun f => (f, i)) := by
  have h5 : d.fmt ≠ 5 := by rcases isHQ_cases h with hf | hf | hf <;> omega
  rw [storeElem, if_neg h5]
  rfl

theorem isBlock_of_isHQ {f : Nat} (h : isHQ f = true) : isBlock f = false := by
  rcases isHQ_cases h with rfl | rfl | rfl <;> rfl

end Sys2Proof.Machine
end

/-! ### Element-wise commands of the VE (R45, R57, R64, R70, R502) -/

section
namespace Sys2Proof.Machine

variable {x : Cmd} {d : TDesc}

/-! ### What an element-wise command reads -/

/-- The value of element `i` of a source as a command into `d` reads it. -/
def Cmd.srcVal (x : Cmd) (d : TDesc) (op i : Nat) : XV :=
  match x.op op with
  | .tensor t => t.val x.m i
  | .scalar _ v => scalarVal d.fmt d.frac v
  | _ => .nan

/-- A source that a command into `d` can read: a tensor with an element for each of the destination, or a scalar. -/
def Cmd.srcOk (x : Cmd) (d : TDesc) (op : Nat) : Prop :=
  match x.op op with
  | .tensor t => t.ok x.c veFmts = true ∧ d.n ≤ t.n
  | .scalar _ _ => True
  | _ => False

theorem srcVals_of_ok {op : Nat} (h : x.srcOk d op) : srcVals x d op = some ((List.range d.n).map (x.srcVal d op)) := by
  rw [Cmd.srcOk] at h
  rw [srcVals]
  cases ho : x.op op with
  | tensor t =>
    rw [ho] at h
    obtain ⟨hok, hn⟩ := h
    dsimp only
    rw [if_pos hok]
    refine congrArg some (List.map_congr_left fun i hi => ?_)
    have hi := List.mem_range.1 hi
    rw [TDesc.valIn, if_pos (by omega), Cmd.srcVal, ho]
  | scalar r w =>
    refine congrArg some ?_
    have : x.srcVal d op = fun _ => scalarVal d.fmt d.frac w := funext fun i => by rw [Cmd.srcVal, ho]
    rw [this, List.map_const', List.length_range]
  | none => rw [ho] at h; exact h.elim
  | wrong => rw [ho] at h; exact h.elim

theorem foldr_srcVals {srcs : List Nat} (h : ∀ op ∈ srcs, x.srcOk d op) :
    (srcs.map (srcVals x d)).foldr (fun a b => a.bind fun a => b.map fun b => a :: b) (some []) =
      some (srcs.map fun op => (List.range d.n).map (x.srcVal d op)) := by
  induction srcs with
  | nil => rfl
  | cons op srcs ih =>
    rw [List.map_cons, List.foldr_cons, ih fun o ho => h o (by simp [ho]), srcVals_of_ok (h op (by simp))]
    rfl

theorem zipArgs_srcVals (srcs : List Nat) :
    zipArgs d.n (srcs.map fun op => (List.range d.n).map (x.srcVal d op)) =
      (List.range d.n).map fun i => srcs.map fun op => x.srcVal d op i := by
  refine List.map_congr_left fun i hi => ?_
  rw [List.map_map]
  refine List.map_congr_left fun op _ => ?_
  have hi := List.mem_range.1 hi
  rw [Function.comp_apply, List.getD_eq_getElem _ _ (by simpa using hi)]
  simp

/-- The results of an element-wise command, before the store. -/
def elemResults (x : Cmd) (d : TDesc) (srcs : List Nat) (op : ElemOp) (i : Nat) : XV × List Nat :=
  op d x.rnd (srcs.map fun o => x.srcVal d o i)

theorem tens_of_ok {o : Opnd} {c : Nat} {fmts : List Nat} (ho : o = .tensor d) (hok : d.ok c fmts = true) : o.tens c fmts = some d := by
  rw [ho]
  exact Option.filter_eq_some_iff.2 ⟨rfl, hok⟩

/-- What an element-wise command makes of sources that it can read. -/
theorem runElem_eq {srcs : List Nat} {agree : List Nat → Bool} {op : ElemOp} (hd : x.o0 = .tensor d) (hok : d.ok x.c veFmts = true)
    (hblk : isBlock d.fmt = false) (hsrc : ∀ o ∈ srcs, x.srcOk d o) (hagree : agree (srcFmts x d.fmt srcs) = true) :
    let r := runElem srcs agree op x
    let res := elemResults x d srcs op
    r.refuse = false ∧ r.fault = false ∧ r.reg = none ∧ r.dur = ceilDiv d.n (lanesOf x)
      ∧ r.writes = (List.range d.n).map (fun i => (storeElem d x.rnd i (res i).1).1)
      ∧ r.evs = ((List.range d.n).flatMap fun i => (res i).2.map fun f => (f, i))
          ++ (List.range d.n).flatMap fun i => (storeElem d x.rnd i (res i).1).2 := by
  intro r res
  have hrs : (zipArgs d.n (srcs.map fun op => (List.range d.n).map (x.srcVal d op))).map (op d x.rnd) = (List.range d.n).map res := by
    rw [zipArgs_srcVals, List.map_map]
    rfl
  have hr : r =
      let w := storeTensor d x.rnd none fun i => (((List.range d.n).map res)[i]?).map (·.1)
      { dur := ceilDiv d.n (lanesOf x), writes := w.1,
        evs := ((((List.range d.n).map res).zipIdx).flatMap fun p => p.1.2.map fun f => (f, p.2)) ++ w.2,
        rd := (srcs.map x.op).flatMap Opnd.readRows, wr := d.rows, bits := (srcs.map x.op).flatMap (Opnd.scalarIn d.fmt) } := by
    change runElem srcs agree op x = _
    rw [runElem, tens_of_ok hd hok]
    dsimp only
    rw [foldr_srcVals hsrc]
    dsimp only
    rw [hagree, if_neg (not_bnot rfl), hrs]
  have hst := storeTensor_of_range hblk x.rnd (x := fun i => (((List.range d.n).map res)[i]?).map (·.1)) le_rfl (f := fun i => (res i).1)
    fun i hi => by simp [hi]
  rw [hst] at hr
  rw [hr]
  refine ⟨rfl, rfl, rfl, rfl, rfl, ?_⟩
  refine congrArg (· ++ _) ?_
  rw [zipIdx_eq_map_range (d := (.nan, [])), List.flatMap_map, List.length_map, List.length_range]
  refine List.flatMap_congr fun i hi => ?_
  have hi := List.mem_range.1 hi
  rw [List.getD_eq_getElem _ _ (by simpa using hi), List.getElem_map, List.getElem_range]

/-! ### Element-wise commands into fixed-point formats -/

/-- Where every element comes out as a number without a flag, it is rounded once and stored (R57). -/
theorem runElem_numbers {srcs : List Nat} {agree : List Nat → Bool} {op : ElemOp} {rel : Nat → Rat → Prop} (hd : x.o0 = .tensor d)
    (hok : d.ok x.c veFmts = true) (hq : isHQ d.fmt = true) (hsrc : ∀ o ∈ srcs, x.srcOk d o)
    (hagree : agree (srcFmts x d.fmt srcs) = true)
    (hz : ∀ i, i < d.n → ∃ z : Dy, op d x.rnd (srcs.map fun o => x.srcVal d o i) = (.num z, []) ∧ rel i z.val) :
    ∃ z : Nat → Dy, (∀ i, i < d.n → rel i (z i).val)
      ∧ (let r := runElem srcs agree op x
        let st := fun i => storeInt x.rnd (elemBits d.fmt) (-(d.frac : Int)) d.rb d.nonneg (.num (z i))
        r.refuse = false ∧ r.fault = false ∧ r.reg = none ∧ r.dur = ceilDiv d.n (lanesOf x)
        ∧ r.writes = (List.range d.n).map (fun i =>
            ⟨bytesAt (d.addr i) (toLE (elemBits d.fmt / 8) (wrapN (elemBits d.fmt) (st i).1)), none⟩)
        ∧ r.evs = (List.range d.n).flatMap fun i => (st i).2.map fun f => (f, i)) := by
  have hex : ∀ i, ∃ z : Dy, i < d.n → elemResults x d srcs op i = (.num z, []) ∧ rel i z.val := fun i => by
    by_cases hi : i < d.n
    · obtain ⟨z, hz⟩ := hz i hi
      exact ⟨z, fun _ => hz⟩
    · exact ⟨Dy.zero, fun h => absurd h hi⟩
  choose z hz using hex
  refine ⟨z, fun i hi => (hz i hi).2, ?_⟩
  obtain ⟨h1, h2, h3, h4, h5, h6⟩ := runElem_eq hd hok (isBlock_of_isHQ hq) hsrc hagree (op := op)
  have hres : ∀ i ∈ List.range d.n, elemResults x d srcs op i = (.num (z i), []) := fun i hi => (hz i (List.mem_range.1 hi)).1
  refine ⟨h1, h2, h3, h4, h5.trans (List.map_congr_left fun i hi => ?_), h6.trans ?_⟩
  · rw [hres i hi, storeElem_of_isHQ hq]
  · have hnil : ((List.range d.n).flatMap fun i => (elemResults x d srcs op i).2.map fun f => (f, i)) = [] :=
      List.flatMap_eq_nil_iff.2 fun i hi => by rw [hres i hi]; rfl
    rw [hnil, List.nil_append]
    exact List.flatMap_congr fun i hi => by rw [hres i hi, storeElem_of_isHQ hq]

/-! ### Formats that agree (R64, R502) -/

theorem agreeAll_of {l : List Nat} (h : ∀ f ∈ l, ∀ g ∈ l, f = g ∨ (isHQ f = true ∧ isHQ g = true)) : agreeAll l = true := by
  cases l with
  | nil => rfl
  | cons a t =>
    refine List.all_eq_true.2 fun g hg => ?_
    rw [fmtsAgree, Bool.or_eq_true, beq_iff_eq, Bool.and_eq_true]
    exact h a (by simp) g (by simp [hg])

theorem agreeOne_of {l : List Nat} (h : ∀ f ∈ l, ∀ g ∈ l, f = g) : agreeOne l = true := by
  cases l with
  | nil => rfl
  | cons a t => exact List.all_eq_true.2 fun g hg => beq_iff_eq.2 (h g (by simp [hg]) a (by simp))

/-! ### The operations on numbers (R70, R502) -/

theorem clampOp_num {r : Rnd} {a b c : Dy} : ∃ z : Dy, clampOp d r [.num a, .num b, .num c] = (.num z, [])
    ∧ z.val = if a.val < b.val then b.val else if c.val < a.val then c.val else a.val := by
  by_cases hb : a.val < b.val
  · exact ⟨b, if_pos (Dy.lt_iff.2 hb), (if_pos hb).symm⟩
  · have hb' : ¬ (XV.num a).lt (.num b) = true := fun h => hb (Dy.lt_iff.1 h)
    by_cases hc : c.val < a.val
    · exact ⟨c, (if_neg hb').trans (if_pos (Dy.lt_iff.2 hc)), ((if_neg hb).trans (if_pos hc)).symm⟩
    · have hc' : ¬ (XV.num c).lt (.num a) = true := fun h => hc (Dy.lt_iff.1 h)
      exact ⟨a, (if_neg hb').trans (if_neg hc'), ((if_neg hb).trans (if_neg hc)).symm⟩

theorem fineGrid_of_isHQ (h : isHQ d.fmt = true) : fineGrid d = -(d.frac : Int) := by
  rcases isHQ_cases h with hf | hf | hf <;> rw [fineGrid, hf] <;> rfl

theorem maddOp_num (h : isHQ d.fmt = true) (r : Rnd) (a b c : Dy) : maddOp d r [.num a, .num b, .num c] =
    (.num (a.add ⟨((b.mul c).round r (-(d.frac : Int))).1, -(d.frac : Int)⟩), []) := by
  have h5 : d.fmt ≠ fmtHF24 := by rcases isHQ_cases h with hf | hf | hf <;> rw [hf] <;> decide
  have hp : maddProduct d r (.num b) (.num c) = (.num ⟨((b.mul c).round r (fineGrid d)).1, fineGrid d⟩, []) := if_neg h5
  rw [fineGrid_of_isHQ h] at hp
  change (((XV.num a).plus (maddProduct d r (.num b) (.num c)).1).1,
    (maddProduct d r (.num b) (.num c)).2 ++ ((XV.num a).plus (maddProduct d r (.num b) (.num c)).1).2) = _
  rw [hp]
  rfl

/-! ### The obligation's clause -/

/-- A grid multiple near a number, as VMADD rounds its product. -/
def gridVal (x : Cmd) (d : TDesc) (v : Dy) : Rat := ((v.round x.rnd (-(d.frac : Int))).1 : Rat) * 2 ^ (-(d.frac : Int))

/-- What an element-wise command of the list makes of numbers, in the words of O16. -/
def ElemClause (x : Cmd) (d : TDesc) (run : Cmd → ERes) (rel : Nat → Rat → Prop) : Prop :=
  ∃ z : Nat → Dy, (∀ i, i < d.n → rel i (z i).val)
    ∧ (let r := run x
      let st := fun i => storeInt x.rnd (elemBits d.fmt) (-(d.frac : Int)) d.rb d.nonneg (.num (z i))
      r.refuse = false ∧ r.fault = false ∧ r.reg = none ∧ r.dur = ceilDiv d.n (lanesOf x)
      ∧ r.writes = (List.range d.n).map (fun i =>
          ⟨bytesAt (d.addr i) (toLE (elemBits d.fmt / 8) (wrapN (elemBits d.fmt) (st i).1)), none⟩)
      ∧ r.evs = (List.range d.n).flatMap fun i => (st i).2.map fun f => (f, i))

section
variable {q : Nat → Nat → Rat} (hd : x.o0 = .tensor d) (hok : d.ok x.c veFmts = true) (hq : isHQ d.fmt = true)
include hd hok hq

theorem elem_unary {agree : List Nat → Bool} {f : XV → XV} {rel : Rat → Rat → Prop}
    (hf : ∀ v : Dy, ∃ z : Dy, f (.num v) = .num z ∧ rel v.val z.val) (hsrc : ∀ o ∈ [1], x.srcOk d o)
    (hagree : agree (srcFmts x d.fmt [1]) = true)
    (hval : ∀ o ∈ [1], ∀ i, i < d.n → ∃ v, x.srcVal d o i = .num v ∧ v.val = q o i) :
    ElemClause x d (runElem [1] agree fun _ _ l => (f (arg l 0), [])) fun i z => rel (q 1 i) z := by
  refine runElem_numbers hd hok hq hsrc hagree fun i hi => ?_
  obtain ⟨v, hv, he⟩ := hval 1 (by simp) i hi
  obtain ⟨z, hz, hrel⟩ := hf v
  refine ⟨z, ?_, he ▸ hrel⟩
  change (f (x.srcVal d 1 i), []) = _
  rw [hv, hz]

theorem elem_binary {agree : List Nat → Bool} {op : ElemOp} {rel : Rat → Rat → Rat → Prop}
    (hf : ∀ v w : Dy, ∃ z : Dy, op d x.rnd [.num v, .num w] = (.num z, []) ∧ rel v.val w.val z.val) (hsrc : ∀ o ∈ [1, 2], x.srcOk d o)
    (hagree : agree (srcFmts x d.fmt [1, 2]) = true)
    (hval : ∀ o ∈ [1, 2], ∀ i, i < d.n → ∃ v, x.srcVal d o i = .num v ∧ v.val = q o i) :
    ElemClause x d (runElem [1, 2] agree op) fun i z => rel (q 1 i) (q 2 i) z := by
  refine runElem_numbers hd hok hq hsrc hagree fun i hi => ?_
  obtain ⟨v, hv, he⟩ := hval 1 (by simp) i hi
  obtain ⟨w, hw, he'⟩ := hval 2 (by simp) i hi
  obtain ⟨z, hz, hrel⟩ := hf v w
  refine ⟨z, ?_, he ▸ he' ▸ hrel⟩
  change op d x.rnd [x.srcVal d 1 i, x.srcVal d 2 i] = _
  rw [hv, hw, hz]

theorem elem_ternary {agree : List Nat → Bool} {op : ElemOp} {rel : Rat → Rat → Rat → Rat → Prop}
    (hf : ∀ u v w : Dy, ∃ z : Dy, op d x.rnd [.num u, .num v, .num w] = (.num z, []) ∧ rel u.val v.val w.val z.val)
    (hsrc : ∀ o ∈ [1, 2, 3], x.srcOk d o) (hagree : agree (srcFmts x d.fmt [1, 2, 3]) = true)
    (hval : ∀ o ∈ [1, 2, 3], ∀ i, i < d.n → ∃ v, x.srcVal d o i = .num v ∧ v.val = q o i) :
    ElemClause x d (runElem [1, 2, 3] agree op) fun i z => rel (q 1 i) (q 2 i) (q 3 i) z := by
  refine runElem_numbers hd hok hq hsrc hagree fun i hi => ?_
  obtain ⟨u, hu, he⟩ := hval 1 (by simp) i hi
  obtain ⟨v, hv, he'⟩ := hval 2 (by simp) i hi
  obtain ⟨w, hw, he''⟩ := hval 3 (by simp) i hi
  obtain ⟨z, hz, hrel⟩ := hf u v w
  refine ⟨z, ?_, he ▸ he' ▸ he'' ▸ hrel⟩
  change op d x.rnd [x.srcVal d 1 i, x.srcVal d 2 i, x.srcVal d 3 i] = _
  rw [hu, hv, hw, hz]

end

/-- A scalar register read in a fixed-point format is a number. -/
theorem scalarVal_of_isHQ (h : isHQ d.fmt = true) (w : Nat) :
    scalarVal d.fmt d.frac w = .num ⟨sgn (elemBits d.fmt) (w % 2 ^ elemBits d.fmt), -(d.frac : Int)⟩ := by
  rcases isHQ_cases h with hf | hf | hf <;> rw [hf] <;> rfl

theorem selOp_num (h : isHQ d.fmt = true) (r : Rnd) (a b : Dy) : ∃ z : Dy, selOp x d r [.num a, .num b] = (.num z, [])
    ∧ ∃ v, scalarVal d.fmt d.frac (Tab.get 0 x.g (if a.val = b.val then x.param 9 5 else x.param 4 0)).toNat = .num v ∧ z.val = v.val := by
  have hsel : selOp x d r [.num a, .num b] =
      (scalarVal d.fmt d.frac (Tab.get 0 x.g (if a.eqv b = true then x.param 9 5 else x.param 4 0)).toNat, []) := rfl
  rw [if_congr Dy.eqv_iff rfl rfl] at hsel
  rw [hsel, scalarVal_of_isHQ h]
  exact ⟨_, rfl, _, rfl, rfl⟩

/-- The element-wise commands into a fixed-point format. -/
theorem elementWise_numbers {q : Nat → Nat → Rat} (hd : x.o0 = .tensor d) (hok : d.ok x.c veFmts = true) (hq : isHQ d.fmt = true) :
    let picked := fun (r : Nat) (z : Rat) => ∃ v, scalarVal d.fmt d.frac (Tab.get 0 x.g r).toNat = .num v ∧ z = v.val
    ∀ p ∈ ([ (specVadd, [1, 2], fun a b _ z => z = a + b), (specVsub, [1, 2], fun a b _ z => z = a - b),
             (specVmul, [1, 2], fun a b _ z => z = a * b),
             (specVmadd, [1, 2, 3], fun a b c z => ∃ v : Dy, v.val = b * c ∧ z = a + gridVal x d v),
             (specVclr, [], fun _ _ _ z => z = 0), (specVcopy, [1], fun a _ _ z => z = a), (specVcvt, [1], fun a _ _ z => z = a),
             (specVsel, [1, 2], fun a b _ z => picked (if a = b then x.param 9 5 else x.param 4 0) z),
             (specVclamp, [1, 2, 3], fun a b c z => z = if a < b then b else if c < a then c else a),
             (specVneg, [1], fun a _ _ z => z = -a), (specVabs, [1], fun a _ _ z => z = |a|) ]
             : List (CmdSpec × List Nat × (Rat → Rat → Rat → Rat → Prop))),
      (∀ op ∈ p.2.1, x.srcOk d op) →
      (∀ f ∈ srcFmts x d.fmt p.2.1, ∀ g ∈ srcFmts x d.fmt p.2.1,
        f = g ∨ (isHQ f = true ∧ isHQ g = true ∧ p.1.opc ≠ 0x87 ∧ p.1.opc ≠ 0x88)) →
      (∀ op ∈ p.2.1, ∀ i, i < d.n → ∃ v, x.srcVal d op i = .num v ∧ v.val = q op i) →
      ElemClause x d p.1.run fun i z => p.2.2 (q 1 i) (q 2 i) (q 3 i) z := by
  intro picked
  have hall : ∀ {l : List Nat} {opc : Nat}, (∀ f ∈ l, ∀ g ∈ l, f = g ∨ (isHQ f = true ∧ isHQ g = true ∧ opc ≠ 0x87 ∧ opc ≠ 0x88)) →
      agreeAll l = true := fun h => agreeAll_of fun f hf g hg => (h f hf g hg).imp_right fun h => ⟨h.1, h.2.1⟩
  have hone : ∀ {l : List Nat} {opc : Nat}, (opc = 0x87 ∨ opc = 0x88) →
      (∀ f ∈ l, ∀ g ∈ l, f = g ∨ (isHQ f = true ∧ isHQ g = true ∧ opc ≠ 0x87 ∧ opc ≠ 0x88)) → agreeOne l = true := fun ho h =>
    agreeOne_of fun f hf g hg => (h f hf g hg).elim id fun h => absurd ho (by tauto)
  refine List.forall_mem_cons.2 ⟨fun hs ha hv => ?vadd, List.forall_mem_cons.2 ⟨fun hs ha hv => ?vsub,
    List.forall_mem_cons.2 ⟨fun hs ha hv => ?vmul, List.forall_mem_cons.2 ⟨fun hs ha hv => ?vmadd,
    List.forall_mem_cons.2 ⟨fun hs ha hv => ?vclr, List.forall_mem_cons.2 ⟨fun hs ha hv => ?vcopy,
    List.forall_mem_cons.2 ⟨fun hs ha hv => ?vcvt, List.forall_mem_cons.2 ⟨fun hs ha hv => ?vsel,
    List.forall_mem_cons.2 ⟨fun hs ha hv => ?vclamp, List.forall_mem_cons.2 ⟨fun hs ha hv => ?vneg,
    List.forall_mem_cons.2 ⟨fun hs ha hv => ?vabs, List.forall_mem_nil _⟩⟩⟩⟩⟩⟩⟩⟩⟩⟩⟩
  case vadd => exact elem_binary hd hok hq (rel := fun a b z => z = a + b) (fun v w => ⟨v.add w, rfl, Dy.val_add v w⟩) hs (hall ha) hv
  case vsub => exact elem_binary hd hok hq (rel := fun a b z => z = a - b) (fun v w => ⟨v.sub w, rfl, Dy.val_sub v w⟩) hs (hall ha) hv
  case vmul => exact elem_binary hd hok hq (rel := fun a b z => z = a * b) (fun v w => ⟨v.mul w, rfl, Dy.val_mul v w⟩) hs (hall ha) hv
  case vmadd =>
    refine elem_ternary hd hok hq (rel := fun a b c z => ∃ v : Dy, v.val = b * c ∧ z = a + gridVal x d v) (fun u v w => ?_) hs (hall ha) hv
    exact ⟨_, maddOp_num hq x.rnd u v w, v.mul w, Dy.val_mul v w, Dy.val_add ..⟩
  case vclr =>
    exact runElem_numbers hd hok hq (rel := fun _ z => z = 0) hs rfl fun i _ => ⟨Dy.zero, rfl, Dy.val_zero⟩
  case vcopy => exact elem_unary hd hok hq (f := id) (rel := fun a z => z = a) (fun v => ⟨v, rfl, rfl⟩) hs (hall ha) hv
  case vcvt => exact elem_unary hd hok hq (f := id) (rel := fun a z => z = a) (fun v => ⟨v, rfl, rfl⟩) hs (hall ha) hv
  case vsel =>
    obtain ⟨z, hz, hrun⟩ := elem_binary hd hok hq (op := selOp x) (rel := fun a b z => picked (if a = b then x.param 9 5 else x.param 4 0) z)
      (fun v w => selOp_num hq x.rnd v w) hs (hone (.inl rfl) ha) hv
    exact ⟨z, hz, hrun⟩
  case vclamp =>
    exact elem_ternary (q := q) hd hok hq (agree := agreeOne) (op := clampOp)
      (rel := fun a b c z => z = if a < b then b else if c < a then c else a) (fun u v w => clampOp_num) hs (hone (.inr rfl) ha) hv
  case vneg => exact elem_unary (q := q) hd hok hq (f := negXV) (rel := fun a z => z = -a) (fun v => ⟨v.neg, rfl, Dy.val_neg v⟩) hs (hall ha) hv
  case vabs => exact elem_unary hd hok hq (f := absXV) (rel := fun a z => z = |a|) (fun v => ⟨v.abs, rfl, Dy.val_abs v⟩) hs (hall ha) hv

/-! ### Element-wise commands on HF24 (R44, R45) -/

/-- The encoding with its sign changed has the value with its sign changed. -/
theorem hfVal_hfNeg (b : Nat) : XV.ofHV (hfVal (hfNeg b)) = negXV (XV.ofHV (hfVal b)) := by
  have h23 : natBit (hfNeg b) 23 = !natBit b 23 := by
    rw [natBit_eq_decide, natBit_eq_decide, hfNeg, natBit_eq_decide]
    by_cases h : b / 2 ^ 23 % 2 = 1
    · simp only [h, decide_true, if_true, Bool.not_true, decide_eq_false_iff_not]
      omega
    · simp only [h, decide_false, Bool.false_eq_true, if_false, Bool.not_false, decide_eq_true_eq]
      omega
  have hx : natBits (hfNeg b) 22 15 = natBits b 22 15 := by
    rw [natBits_eq_div_mod, natBits_eq_div_mod, hfNeg]
    split_ifs <;> omega
  have hf : natBits (hfNeg b) 14 0 = natBits b 14 0 := by
    rw [natBits_eq_div_mod, natBits_eq_div_mod, hfNeg]
    split_ifs <;> omega
  rw [hfVal, hfVal]
  dsimp only
  rw [h23, hx, hf]
  generalize natBit b 23 = n
  by_cases h1 : natBits b 22 15 = 255
  · rw [if_pos h1, if_pos h1]
    split_ifs <;> rfl
  · rw [if_neg h1, if_neg h1]
    cases n <;> simp [XV.ofHV, negXV, Dy.neg]

theorem hfAdd_eq (r : Rnd) (a b : Nat) :
    let p := (XV.ofHV (hfVal a)).plus (XV.ofHV (hfVal b))
    hfAdd r a b = ((storeHF r p.1).1, p.2 ++ (storeHF r p.1).2) := by
  rw [hfAdd]
  cases hfVal a with
  | nan => rfl
  | fin x => cases hfVal b <;> rfl
  | inf s =>
    cases hfVal b with
    | nan => rfl
    | fin y => rfl
    | inf t => cases s <;> cases t <;> rfl

theorem hfSub_eq (r : Rnd) (a b : Nat) :
    let p := (XV.ofHV (hfVal a)).plus (negXV (XV.ofHV (hfVal b)))
    hfSub r a b = ((storeHF r p.1).1, p.2 ++ (storeHF r p.1).2) := by
  rw [← hfVal_hfNeg]
  exact hfAdd_eq r a (hfNeg b)

theorem hfMul_eq (r : Rnd) (a b : Nat) :
    let p := (XV.ofHV (hfVal a)).times (XV.ofHV (hfVal b))
    hfMul r a b = ((storeHF r p.1).1, p.2 ++ (storeHF r p.1).2) := by
  rw [hfMul]
  cases hfVal a with
  | nan => rfl
  | fin x =>
    cases hfVal b with
    | nan => rfl
    | fin y => rfl
    | inf t => by_cases h : x.m = 0 <;> simp [XV.ofHV, XV.times, h, storeHF]
  | inf s =>
    cases hfVal b with
    | nan => rfl
    | fin y => by_cases h : y.m = 0 <;> simp [XV.ofHV, XV.times, h, storeHF]
    | inf t => rfl

theorem TDesc.val_of_hf {t : TDesc} (h : t.fmt = fmtHF24) (m : Rd) (i : Nat) : t.val m i = XV.ofHV (hfVal (t.raw m i % 2 ^ 24)) := by
  rw [val, h]
  rfl

/-- A command on two HF24 tensors whose elements come out as `h` has them. -/
theorem elem_hf {a b : TDesc} {f : XV → XV → XV × List Nat} {h : Nat → Nat → Nat × List Nat} (hd : x.o0 = .tensor d) (ha : x.o1 = .tensor a)
    (hb : x.o2 = .tensor b) (hok : ∀ t ∈ [d, a, b], t.ok x.c veFmts = true ∧ t.fmt = fmtHF24 ∧ d.n ≤ t.n)
    (heq : ∀ u v, h u v = ((storeHF x.rnd (f (XV.ofHV (hfVal u)) (XV.ofHV (hfVal v))).1).1,
      (f (XV.ofHV (hfVal u)) (XV.ofHV (hfVal v))).2 ++ (storeHF x.rnd (f (XV.ofHV (hfVal u)) (XV.ofHV (hfVal v))).1).2)) :
    let r := runBin (binOp f) x
    let g := fun i => h (a.raw x.m i % 2 ^ 24) (b.raw x.m i % 2 ^ 24)
    r.refuse = false ∧ r.fault = false
    ∧ r.writes = (List.range d.n).map (fun i => ⟨bytesAt (d.addr i) (toLE 4 (g i).1), none⟩)
    ∧ r.evs.Perm ((List.range d.n).flatMap fun i => (g i).2.map fun f => (f, i)) := by
  intro r g
  simp only [List.forall_mem_cons, List.not_mem_nil, false_imp_iff, implies_true, and_true] at hok
  obtain ⟨⟨hdok, hdf, -⟩, ⟨haok, haf, han⟩, ⟨hbok, hbf, hbn⟩⟩ := hok
  have hval1 : ∀ i, x.srcVal d 1 i = XV.ofHV (hfVal (a.raw x.m i % 2 ^ 24)) := fun i => by
    rw [Cmd.srcVal, Cmd.op, ha]
    exact TDesc.val_of_hf haf x.m i
  have hval2 : ∀ i, x.srcVal d 2 i = XV.ofHV (hfVal (b.raw x.m i % 2 ^ 24)) := fun i => by
    rw [Cmd.srcVal, Cmd.op, hb]
    exact TDesc.val_of_hf hbf x.m i
  have hsrc : ∀ o ∈ [1, 2], x.srcOk d o := by
    simp only [List.forall_mem_cons, List.not_mem_nil, false_imp_iff, implies_true, and_true]
    refine ⟨?_, ?_⟩
    · rw [Cmd.srcOk, Cmd.op, ha]; exact ⟨haok, han⟩
    · rw [Cmd.srcOk, Cmd.op, hb]; exact ⟨hbok, hbn⟩
  have hagree : agreeAll (srcFmts x d.fmt [1, 2]) = true := by
    simp only [srcFmts, List.map_cons, List.map_nil, Cmd.op, ha, hb, Opnd.fmt?, Opnd.tensor?, List.filterMap_cons, Option.map_some, haf, hbf]
    rfl
  have hblk : isBlock d.fmt = false := by rw [hdf]; rfl
  obtain ⟨h1, h2, -, -, h5, h6⟩ := runElem_eq hd hdok hblk hsrc hagree (op := binOp f)
  have hres : ∀ i, elemResults x d [1, 2] (binOp f) i = f (XV.ofHV (hfVal (a.raw x.m i % 2 ^ 24))) (XV.ofHV (hfVal (b.raw x.m i % 2 ^ 24))) :=
    fun i => by rw [← hval1, ← hval2]; rfl
  have hstore : ∀ i v, storeElem d x.rnd i v = (⟨bytesAt (d.addr i) (toLE 4 (storeHF x.rnd v).1), none⟩, (storeHF x.rnd v).2.map fun f => (f, i)) :=
    fun i v => by rw [storeElem, if_pos (show d.fmt = 5 from hdf), hdf]; rfl
  refine ⟨h1, h2, h5.trans (List.map_congr_left fun i _ => ?_), ?_⟩
  · rw [hstore, hres]
    dsimp only [g]
    rw [heq]
  · refine (List.Perm.of_eq h6).trans ((List.flatMap_append_perm ..).trans (List.Perm.of_eq (List.flatMap_congr fun i _ => ?_)))
    rw [hstore, hres]
    dsimp only [g]
    rw [heq, List.map_append]

end Sys2Proof.Machine
end

/-! ### Accumulators, and the sum of products of VDOT (R66, R70, R501) -/

section
namespace Sys2Proof.Machine

/-! ### Accumulators (R66) -/

theorem val_foldl_add (x : Dy) (l : List Dy) : (l.foldl Dy.add x).val = x.val + (l.map Dy.val).sum := by
  induction l generalizing x with
  | nil => simp
  | cons y l ih => rw [List.foldl_cons, ih, Dy.val_add, List.map_cons, List.sum_cons, add_assoc]

theorem val_dySum (l : List Dy) : (dySum l).val = (l.map Dy.val).sum := by rw [dySum, val_foldl_add, Dy.val_zero, zero_add]

/-- The accumulator of an output element after its groups. -/
def accOf (b : Int) (gs : List (List Dy)) : Acc := gs.foldl (fun (a : Acc) g => a.add ((dySum g).round .rto b).1) (.num 0)

theorem accumulate_eq (b : Int) (gs : List (List Dy)) : accumulate b gs = (accOf b gs).val b := rfl

theorem accOf_append (b : Int) (gs : List (List Dy)) (g : List Dy) :
    accOf b (gs ++ [g]) = (accOf b gs).add ((dySum g).round .rto b).1 := by
  rw [accOf, List.foldl_append]
  rfl

theorem Acc.add_num (y x : Int) : (Acc.num y).add x =
    if y + x < -2 ^ 63 then .sat true else if 2 ^ 63 ≤ y + x then .sat false else .num (y + x) := by
  have h : pow2 63 = 2 ^ 63 := pow2_eq 63
  simp only [add, h]
  exact if_congr Iff.rfl rfl (if_congr (by omega) rfl rfl)

/-- Groups are summed exactly and placed on the grid one after the other; a saturated accumulator stays so (R66). -/
theorem accumulate_spec (b : Int) (gs : List (List Dy)) (g : List Dy) :
    accumulate b [] = .num ⟨0, b⟩
    ∧ (dySum g).val = (g.map Dy.val).sum
    ∧ (∀ n, accumulate b gs = .sat n → accumulate b (gs ++ [g]) = .sat n)
    ∧ (∀ y, accumulate b gs = .num ⟨y, b⟩ →
      let z := y + ((dySum g).round .rto b).1
      accumulate b (gs ++ [g]) = if z < -2 ^ 63 then .sat true else if 2 ^ 63 ≤ z then .sat false else .num ⟨z, b⟩)
    ∧ ((∃ n, accumulate b gs = .sat n) ∨ ∃ y, accumulate b gs = .num ⟨y, b⟩) := by
  refine ⟨rfl, val_dySum g, fun n h => ?_, fun y h => ?_, ?_⟩
  · rw [accumulate_eq] at h ⊢
    rw [accOf_append]
    cases ha : accOf b gs with
    | num x => rw [ha] at h; cases h
    | sat m => rw [ha] at h; exact h
  · intro z
    rw [accumulate_eq] at h ⊢
    rw [accOf_append]
    cases ha : accOf b gs with
    | num x =>
      rw [ha] at h
      cases h
      rw [Acc.add_num, apply_ite (Acc.val b), apply_ite (Acc.val b)]
      rfl
    | sat m => rw [ha] at h; cases h
  · rw [accumulate_eq]
    cases accOf b gs with
    | num x => exact .inr ⟨x, rfl⟩
    | sat m => exact .inl ⟨m, rfl⟩

/-! ### The 64 lanes of a reduction (R70) -/

/-- The lanes that hold the numbers of `f`. -/
def lanesNum (f : Nat → Int) : List Acc := (List.range 64).map fun l => .num (f l)

theorem getD_lanesNum (f : Nat → Int) {l : Nat} (hl : l < 64) : (lanesNum f).getD l (.num 0) = .num (f l) := by
  rw [lanesNum, List.getD_eq_getElem _ _ (by simpa using hl)]
  simp

theorem set_lanesNum (f : Nat → Int) (l : Nat) (v : Int) :
    (lanesNum f).set l (.num v) = lanesNum (Function.update f l v) := by
  refine List.ext_getElem (by simp [lanesNum]) fun i h1 h2 => ?_
  simp only [lanesNum, List.getElem_set, List.getElem_map, List.getElem_range, Function.update_apply]
  split_ifs with hi hi' hi'
  · rfl
  · exact absurd hi.symm hi'
  · exact absurd hi'.symm hi
  · rfl

theorem Acc.join_num {x y : Int} (h : |x + y| < 2 ^ 63) : (Acc.num x).join (.num y) = .num (x + y) := by
  obtain ⟨h1, h2⟩ := abs_lt.1 h
  change (Acc.num x).add y = _
  rw [add_num, if_neg (by omega), if_neg (by omega)]

/-- Lanes of numbers with a sum, and a bound on the sum of their magnitudes, over the first `n` lanes. -/
structure Lanes (n : Nat) (L : List Acc) (S B : Int) : Prop where
  lanes : ∃ f : Nat → Int, L = lanesNum f ∧ ∑ l ∈ Finset.range n, f l = S ∧ ∑ l ∈ Finset.range n, |f l| ≤ B

theorem abs_le_sum {n : Nat} {f : Nat → Int} {l : Nat} (hl : l < n) : |f l| ≤ ∑ i ∈ Finset.range n, |f i| :=
  Finset.single_le_sum (f := fun i => |f i|) (fun _ _ => abs_nonneg _) (Finset.mem_range.2 hl)

/-- A term added to a lane. -/
theorem Lanes.add {L : List Acc} {S B : Int} (h : Lanes 64 L S B) {l : Nat} (hl : l < 64) {v : Int} (hb : B + |v| < 2 ^ 63) :
    Lanes 64 (L.set l ((L.getD l (.num 0)).join (.num v))) (S + v) (B + |v|) := by
  obtain ⟨f, rfl, hS, hB⟩ := h
  have hfl := abs_le_sum (f := f) hl
  have habs : |f l + v| ≤ |f l| + |v| := abs_add_le ..
  rw [getD_lanesNum f hl, Acc.join_num (by omega), set_lanesNum]
  have hmem := Finset.mem_range.2 hl
  have hsum : ∀ g : Int → Int, ∑ i ∈ Finset.range 64, g (Function.update f l (f l + v) i) =
      ∑ i ∈ Finset.range 64, g (f i) + (g (f l + v) - g (f l)) := fun g => by
    rw [← Finset.add_sum_erase _ _ hmem, ← Finset.add_sum_erase (Finset.range 64) (fun i => g (f i)) hmem, Function.update_self]
    have hrest : ∑ i ∈ (Finset.range 64).erase l, g (Function.update f l (f l + v) i) = ∑ i ∈ (Finset.range 64).erase l, g (f i) :=
      Finset.sum_congr rfl fun i hi => by rw [Function.update_of_ne (Finset.ne_of_mem_erase hi)]
    rw [hrest]
    ring
  refine ⟨_, rfl, ?_, ?_⟩
  · have := hsum id
    simp only [id] at this
    rw [this, hS]
    ring
  · have := hsum abs
    omega

/-- The lanes after the first `j` additions of a step of the halving tree. -/
def halving (f : Nat → Int) (w j l : Nat) : Int := if l < j then f l + f (l + w) else f l

theorem foldl_halving {f : Nat → Int} {w : Nat} (hw : 2 * w ≤ 64) (hb : ∀ l, l < w → |f l + f (l + w)| < 2 ^ 63) {j : Nat} (hj : j ≤ w) :
    (List.range j).foldl (fun (L : List Acc) l => L.set l ((L.getD l (.num 0)).join (L.getD (l + w) (.num 0)))) (lanesNum f) =
      lanesNum (halving f w j) := by
  induction j with
  | zero => exact congrArg lanesNum (funext fun l => (if_neg (Nat.not_lt_zero l)).symm)
  | succ j ih =>
    have h1 : halving f w j j = f j := if_neg (lt_irrefl j)
    have h2 : halving f w j (j + w) = f (j + w) := if_neg (by omega)
    rw [List.range_succ, List.foldl_append, ih (by omega), List.foldl_cons, List.foldl_nil, getD_lanesNum _ (by omega),
      getD_lanesNum _ (by omega), h1, h2, Acc.join_num (hb j (by omega)), set_lanesNum]
    refine congrArg lanesNum (funext fun l => ?_)
    rw [Function.update_apply, halving, halving]
    split_ifs with e1 e2 e2
    · rw [e1]
    · omega
    · rfl
    · omega
    · omega
    · rfl

/-- A step of the halving tree keeps the sum in half as many lanes. -/
theorem Lanes.halve {L : List Acc} {S B : Int} {w : Nat} (h : Lanes (2 * w) L S B) (hw : 2 * w ≤ 64) (hb : B < 2 ^ 63) :
    Lanes w ((List.range w).foldl (fun (L : List Acc) l => L.set l ((L.getD l (.num 0)).join (L.getD (l + w) (.num 0)))) L) S B := by
  obtain ⟨f, rfl, hS, hB⟩ := h
  have hsplit : ∀ g : Nat → Int, ∑ l ∈ Finset.range (2 * w), g l = ∑ l ∈ Finset.range w, (g l + g (l + w)) := fun g => by
    rw [two_mul, Finset.sum_range_add, Finset.sum_add_distrib]
    simp only [Nat.add_comm]
  have habs : ∀ l, l < w → |f l + f (l + w)| ≤ |f l| + |f (l + w)| := fun l _ => abs_add_le ..
  rw [hsplit fun l => |f l|] at hB
  have hle : ∀ l, l < w → |f l| + |f (l + w)| ≤ ∑ l ∈ Finset.range w, (|f l| + |f (l + w)|) := fun l hl =>
    Finset.single_le_sum (f := fun l => |f l| + |f (l + w)|) (fun _ _ => add_nonneg (abs_nonneg _) (abs_nonneg _)) (Finset.mem_range.2 hl)
  rw [foldl_halving hw (fun l hl => by have := habs l hl; have := hle l hl; omega) le_rfl]
  have hin : ∀ l ∈ Finset.range w, halving f w w l = f l + f (l + w) := fun l hl => if_pos (Finset.mem_range.1 hl)
  refine ⟨_, rfl, ?_, ?_⟩
  · rw [Finset.sum_congr rfl hin, ← hsplit f, hS]
  · refine le_trans (Finset.sum_le_sum fun l hl => ?_) hB
    rw [hin l hl]
    exact habs l (Finset.mem_range.1 hl)

/-- The two parts of a reduction of accumulators, without its flags. -/
def laneTerms (n : Nat) (t : Nat → Acc) : List Acc :=
  (List.range n).foldl (fun L i => L.set (i % 64) ((L.getD (i % 64) (.num 0)).join (t i))) (List.replicate 64 (.num 0))

def laneTree (L : List Acc) : List Acc :=
  [32, 16, 8, 4, 2, 1].foldl (fun L w => (List.range w).foldl (fun L l => L.set l ((L.getD l (.num 0)).join (L.getD (l + w) (.num 0)))) L) L

theorem foldl_fst {α β γ : Type} (f : β → α → β) (g : β × γ → α → γ) (l : List α) (p : β × γ) :
    (l.foldl (fun p a => (f p.1 a, g p a)) p).1 = l.foldl f p.1 := by
  induction l generalizing p with
  | nil => rfl
  | cons a l ih => rw [List.foldl_cons, ih, List.foldl_cons]

theorem fst_termSteps (t : Nat → Acc) (l : List Nat) (p : List Acc × List Ev) :
    (l.foldl (fun p i => (p.1.set (i % 64) ((p.1.getD (i % 64) (.num 0)).join (t i)), p.2 ++ [])) p).1 =
      l.foldl (fun L i => L.set (i % 64) ((L.getD (i % 64) (.num 0)).join (t i))) p.1 :=
  foldl_fst (fun L i => L.set (i % 64) ((L.getD (i % 64) (.num 0)).join (t i))) (fun p _ => p.2 ++ []) l p

theorem fst_treeSteps (w : Nat) (l : List Nat) (p : List Acc × List Ev) :
    (l.foldl (fun p l => (p.1.set l ((p.1.getD l (.num 0)).join (p.1.getD (l + w) (.num 0))), p.2 ++ [])) p).1 =
      l.foldl (fun L l => L.set l ((L.getD l (.num 0)).join (L.getD (l + w) (.num 0)))) p.1 :=
  foldl_fst (fun L l => L.set l ((L.getD l (.num 0)).join (L.getD (l + w) (.num 0)))) (fun p _ => p.2 ++ []) l p

theorem reduce64_acc (n : Nat) (t : Nat → Acc) :
    (reduce64 (Acc.num 0) (fun p u _ => (p.join u, [])) ((List.range n).map t)).1 = (laneTree (laneTerms n t)).getD 0 (.num 0) := by
  have hzip : ((List.range n).map t).zipIdx = (List.range n).map fun i => (t i, i) := by
    refine List.ext_getElem (by simp) fun i h1 h2 => by simp
  rw [reduce64]
  dsimp only
  refine congrArg (fun L : List Acc => L.getD 0 (.num 0)) ?_
  rw [laneTree, laneTerms, hzip, List.foldl_map]
  simp only [List.foldl_cons, List.foldl_nil, fst_treeSteps, fst_termSteps]

theorem sum_range_eq (f : Nat → Int) (n : Nat) : ((List.range n).map f).sum = ∑ i ∈ Finset.range n, f i := by
  induction n with
  | zero => rfl
  | succ n ih => rw [List.range_succ, List.map_append, List.sum_append, ih, Finset.sum_range_succ]; simp

/-- Terms whose magnitudes sum to less than `2^63` are added without saturation. -/
theorem laneTerms_lanes {t : Nat → Int} {n : Nat} (h : ∑ i ∈ Finset.range n, |t i| < 2 ^ 63) :
    Lanes 64 (laneTerms n fun i => .num (t i)) (∑ i ∈ Finset.range n, t i) (∑ i ∈ Finset.range n, |t i|) := by
  induction n with
  | zero =>
    refine ⟨fun _ => 0, ?_, by simp, by simp⟩
    rw [lanesNum, List.map_const', List.length_range]
    rfl
  | succ n ih =>
    rw [Finset.sum_range_succ] at h
    have habs := abs_nonneg (t n)
    have hl := (ih (by omega)).add (Nat.mod_lt n (by decide : 0 < 64)) (v := t n) (by omega)
    rw [Finset.sum_range_succ, Finset.sum_range_succ, laneTerms, List.range_succ, List.foldl_append]
    exact hl

theorem laneTree_of_lanes {L : List Acc} {S B : Int} (h : Lanes 64 L S B) (hb : B < 2 ^ 63) : (laneTree L).getD 0 (.num 0) = .num S := by
  have h1 := (((((h.halve (w := 32) (by decide) hb).halve (w := 16) (by decide) hb).halve (w := 8) (by decide) hb).halve (w := 4)
    (by decide) hb).halve (w := 2) (by decide) hb).halve (w := 1) (by decide) hb
  obtain ⟨f, hf, hS, -⟩ := h1
  change (List.getD _ 0 (Acc.num 0)) = _
  rw [laneTree]
  simp only [List.foldl_cons, List.foldl_nil]
  rw [hf, getD_lanesNum f (by decide), ← hS]
  simp

/-! ### VDOT (R501) -/

theorem TDesc.val_raw {d : TDesc} (h : isHQ d.fmt = true) (m : Rd) (i : Nat) :
    d.val m i = .num ⟨sgn (elemBits d.fmt) (d.raw m i), -(d.frac : Int)⟩ := by
  rcases isHQ_cases h with hf | hf | hf <;> rw [val, hf] <;> rfl

theorem TDesc.getD_dysIn {d : TDesc} {x : Cmd} (h : isHQ d.fmt = true) {op n i : Nat} (hi : i < n) (hn : n ≤ d.n) :
    (d.dysIn x op n)[i]? = some ⟨sgn (elemBits d.fmt) (d.raw x.m i), -(d.frac : Int)⟩ := by
  rw [dysIn, valsIn, List.map_map, List.getElem?_map, List.getElem?_range hi]
  refine congrArg some ?_
  rw [Function.comp_apply, valIn, if_pos (by omega), val_raw h]
  rfl

/-- The product of element `i` of two fixed-point tensors. -/
def prodAt (x : Cmd) (a b : TDesc) (i : Nat) : Int := sgn (elemBits a.fmt) (a.raw x.m i) * sgn (elemBits a.fmt) (b.raw x.m i)

theorem isHQ_of_ok {d : TDesc} {c : Nat} (h : d.ok c [fmtHQ16, fmtHQ32, fmtHQ64] = true) : isHQ d.fmt = true := by
  rw [TDesc.ok, Bool.and_eq_true] at h
  have hmem : d.fmt ∈ [fmtHQ16, fmtHQ32, fmtHQ64] := by simpa using h.2
  simp only [List.mem_cons, List.not_mem_nil, or_false] at hmem
  rcases hmem with hf | hf | hf <;> rw [hf] <;> rfl

theorem runVdot_eq {x : Cmd} {a b : TDesc} (ha : x.o1 = .tensor a) (hb : x.o2 = .tensor b) (haok : a.ok x.c [fmtHQ16, fmtHQ32, fmtHQ64] = true)
    (hbok : b.ok x.c [fmtHQ16, fmtHQ32, fmtHQ64] = true) (hf : a.fmt = b.fmt) (hn : a.n ≤ b.n) :
    runVdot x = scalarResult x fmtHQ64
      ((reduce64 (Acc.num 0) (fun p t _ => (p.join t, [])) ((List.range a.n).map fun i => (Acc.num 0).add (prodAt x a b i))).1.val
        (-((a.frac + b.frac : Nat) : Int))) [] { dur := ceilDiv a.n (lanesOf x) + 5, rd := a.rows ++ b.rows } := by
  have hps : ((a.dysIn x 1 a.n).zip (b.dysIn x 2 a.n)).map (fun p => (Acc.num 0).add (p.1.m * p.2.m)) =
      (List.range a.n).map fun i => (Acc.num 0).add (prodAt x a b i) := by
    refine List.ext_getElem? fun i => ?_
    by_cases hi : i < a.n
    · have hz : ((a.dysIn x 1 a.n).zip (b.dysIn x 2 a.n))[i]? = some (⟨sgn (elemBits a.fmt) (a.raw x.m i), -(a.frac : Int)⟩,
          ⟨sgn (elemBits b.fmt) (b.raw x.m i), -(b.frac : Int)⟩) := List.getElem?_zip_eq_some.2
        ⟨TDesc.getD_dysIn (isHQ_of_ok haok) hi le_rfl, TDesc.getD_dysIn (isHQ_of_ok hbok) hi hn⟩
      rw [List.getElem?_map, hz, List.getElem?_map, List.getElem?_range hi, ← hf]
      rfl
    · rw [List.getElem?_eq_none (by simp [TDesc.dysIn, TDesc.valsIn]; omega), List.getElem?_eq_none (by simp; omega)]
  rw [runVdot, tens_of_ok ha haok, tens_of_ok hb hbok]
  dsimp only
  rw [if_neg (not_not.2 hf), hps]

/-- What VDOT makes of two fixed-point tensors. -/
theorem vdot_spec {x : Cmd} {a b : TDesc} (ha : x.o1 = .tensor a) (hb : x.o2 = .tensor b)
    (haok : a.ok x.c [fmtHQ16, fmtHQ32, fmtHQ64] = true) (hbok : b.ok x.c [fmtHQ16, fmtHQ32, fmtHQ64] = true) (hf : a.fmt = b.fmt)
    (hn : a.n ≤ b.n) :
    let r := specVdot.run x
    let st := storeInt x.rnd 64 (-(x.param 31 26 : Int)) (-128) false
      (.num ⟨((List.range a.n).map (prodAt x a b)).sum, -((a.frac + b.frac : Nat) : Int)⟩)
    r.refuse = false ∧ r.fault = false ∧ r.writes = [] ∧ r.dur = ceilDiv a.n (lanesOf x) + 5
    ∧ (((List.range a.n).map fun i => (prodAt x a b i).natAbs).sum < 2 ^ 63 →
      r.reg = some (BitVec.ofInt 64 st.1) ∧ r.evs = st.2.map fun f => (f, 0))
    ∧ (a.n = 1 → 2 ^ 63 ≤ prodAt x a b 0 → r.reg = some (BitVec.ofInt 64 (2 ^ 63 - 1)) ∧ r.evs = [(fSat, 0), (fRange, 0)]) := by
  intro r st
  have hr : r = _ := runVdot_eq ha hb haok hbok hf hn
  have hscalar : ∀ (v : XV) (base : ERes), (scalarResult x fmtHQ64 v [] base).reg =
      some (BitVec.ofInt 64 (storeInt x.rnd 64 (-(x.param 31 26 : Int)) (-128) false v).1) ∧ (scalarResult x fmtHQ64 v [] base).evs =
        (storeInt x.rnd 64 (-(x.param 31 26 : Int)) (-128) false v).2.map fun f => (f, 0) := fun v base => ⟨rfl, rfl⟩
  refine ⟨by rw [hr]; rfl, by rw [hr]; rfl, by rw [hr]; rfl, by rw [hr]; rfl, fun hsum => ?_, fun hone hbig => ?_⟩
  · have hbound : ∑ i ∈ Finset.range a.n, |prodAt x a b i| < 2 ^ 63 := by
      rw [← sum_range_eq]
      have hcast : ((List.range a.n).map fun i => |prodAt x a b i|) = ((List.range a.n).map fun i => (prodAt x a b i).natAbs).map Nat.cast := by
        rw [List.map_map]
        exact List.map_congr_left fun i _ => (Int.natCast_natAbs _).symm
      rw [hcast, ← Nat.cast_list_sum]
      exact_mod_cast hsum
    have hterm : ((List.range a.n).map fun i => (Acc.num 0).add (prodAt x a b i)) = (List.range a.n).map fun i => .num (prodAt x a b i) :=
      List.map_congr_left fun i hi => by
        have h1 := abs_le_sum (f := prodAt x a b) (List.mem_range.1 hi)
        have h2 := Acc.join_num (x := 0) (y := prodAt x a b i) (by rw [zero_add]; omega)
        rw [zero_add] at h2
        exact h2
    rw [hr, hterm, reduce64_acc, laneTree_of_lanes (laneTerms_lanes hbound) hbound, ← sum_range_eq]
    exact hscalar _ _
  · have hterm : ((List.range a.n).map fun i => (Acc.num 0).add (prodAt x a b i)) = [.sat false] := by
      rw [hone, List.range_one, List.map_cons, List.map_nil, Acc.add_num, zero_add, if_neg (by omega), if_pos hbig]
    have hred : (reduce64 (Acc.num 0) (fun p t _ => (p.join t, [])) [.sat false]).1 = .sat false := by decide +kernel
    rw [hr, hterm, hred]
    exact hscalar _ _

end Sys2Proof.Machine
end

/-! ### Pattern programs, and SPMV (R66, R99 to R103) -/

section
namespace Sys2Proof.Machine

/-! ### The lanes of one record (R101, R102) -/

section
variable (lane : Nat → Nat)

/-- The number of segments that lanes below `n` start, beside the first. -/
def segCount (n : Nat) : Nat := ((List.range n).filter fun i => decide (i ≠ 0) && natBit (lane i) 14).length

/-- The valid lanes below `n`. -/
def validLanes (n : Nat) : List Nat := (List.range n).filter fun l => natBit (lane l) 15

theorem segCount_succ (n : Nat) : segCount lane (n + 1) = segCount lane n + if (decide (n ≠ 0) && natBit (lane n) 14) = true then 1 else 0 := by
  rw [segCount, List.range_succ, List.filter_append, List.length_append, ← segCount]
  refine congrArg (segCount lane n + ·) ?_
  by_cases h : (decide (n ≠ 0) && natBit (lane n) 14) = true
  · rw [List.filter_cons_of_pos (by exact h), if_pos h]; rfl
  · rw [List.filter_cons_of_neg (by exact h), if_neg h]; rfl

theorem validLanes_succ (n : Nat) : validLanes lane (n + 1) = validLanes lane n ++ if natBit (lane n) 15 = true then [n] else [] := by
  rw [validLanes, List.range_succ, List.filter_append, ← validLanes]
  refine congrArg (validLanes lane n ++ ·) ?_
  by_cases h : natBit (lane n) 15 = true
  · rw [List.filter_cons_of_pos (by exact h), if_pos h]; rfl
  · rw [List.filter_cons_of_neg (by exact h), if_neg h]; rfl

end

section
variable {h : PHead} {row0 base : Nat} {lane : Nat → Nat} {V : List Nat} {m : Nat} {p : PLanes}

/-- The segments after the valid lanes `V`, `m` of them started beside the first: their rows, their products and their number. -/
structure PLanes.Holds (h : PHead) (row0 base : Nat) (lane : Nat → Nat) (V : List Nat) (m : Nat) (p : PLanes) : Prop where
  len : p.segs.length = m + 1
  rows : p.segs.reverse.map (·.row) = (List.range (m + 1)).map (row0 + ·)
  next : p.next = base + V.length
  valid : p.valid = V.length
  prods : p.segs.reverse.flatMap (·.prods) = V.zipIdx.map fun q => (base + q.2, natBits (lane q.1) 13 0)
  counts : ∀ i sg, p.segs.reverse[i]? = some sg → sg.prods.length = (V.filter fun l => segCount lane (l + 1) == i).length
  below : ∀ l ∈ V, segCount lane (l + 1) ≤ m
  nnz : V ≠ [] → p.next ≤ h.nnz

/-- The lanes so far with a new segment. -/
def PLanes.opened (p : PLanes) (row0 : Nat) : PLanes := { p with segs := { row := row0 + p.segs.length, prods := [] } :: p.segs }

/-- The segments with a product added to the newest. -/
def addProd (q : Nat × Nat) : List PSeg → List PSeg
  | [] => []
  | s :: t => { s with prods := s.prods ++ [q] } :: t

/-- The lanes so far with a product in the newest segment. -/
def PLanes.taken (p : PLanes) (col : Nat) : PLanes :=
  { p with segs := addProd (p.next, col) p.segs, next := p.next + 1, valid := p.valid + 1 }

theorem PLanes.Holds.opened (hp : p.Holds h row0 base lane V m) : (p.opened row0).Holds h row0 base lane V (m + 1) where
  len := congrArg (· + 1) hp.len
  rows := by
    change (({ row := row0 + p.segs.length, prods := [] } :: p.segs : List PSeg).reverse.map (·.row)) = _
    rw [List.reverse_cons, List.map_append, hp.rows, List.range_succ (n := m + 1), List.map_append, hp.len]
    rfl
  next := hp.next
  valid := hp.valid
  prods := by
    change (({ row := row0 + p.segs.length, prods := [] } :: p.segs : List PSeg).reverse.flatMap (·.prods)) = _
    rw [List.reverse_cons, List.flatMap_append, hp.prods]
    exact List.append_nil _
  counts := by
    intro i sg hi
    change (({ row := row0 + p.segs.length, prods := [] } :: p.segs : List PSeg).reverse)[i]? = some sg at hi
    rw [List.reverse_cons, List.getElem?_append] at hi
    split_ifs at hi with hlt
    · exact hp.counts i sg hi
    · rw [List.length_reverse, hp.len] at hi hlt
      have h0 : i - (m + 1) < 1 := by
        by_contra hge
        rw [List.getElem?_eq_none (by simp only [List.length_singleton]; omega)] at hi
        cases hi
      obtain rfl : i = m + 1 := by omega
      rw [Nat.sub_self] at hi
      cases hi
      have hnil : (V.filter fun l => segCount lane (l + 1) == m + 1) = [] := List.filter_eq_nil_iff.2 fun l hl he => by
        have := hp.below l hl
        have := beq_iff_eq.1 he
        omega
      rw [hnil]
      rfl
  below l hl := (hp.below l hl).trans (Nat.le_succ m)
  nnz := hp.nnz

theorem PLanes.Holds.taken (hp : p.Holds h row0 base lane V m) {n : Nat} (hn : segCount lane (n + 1) = m) (hnnz : p.next < h.nnz) :
    (p.taken (natBits (lane n) 13 0)).Holds h row0 base lane (V ++ [n]) m := by
  obtain ⟨s, t, hst⟩ : ∃ s t, p.segs = s :: t := List.exists_cons_of_ne_nil fun h0 => by
    have := hp.len
    rw [h0] at this
    simp at this
  have hsegs : (p.taken (natBits (lane n) 13 0)).segs = { s with prods := s.prods ++ [(p.next, natBits (lane n) 13 0)] } :: t := by
    rw [PLanes.taken, hst]
    rfl
  have hlen := hp.len
  have hrows := hp.rows
  have hprods := hp.prods
  have hcounts := hp.counts
  rw [hst] at hlen hrows hprods hcounts
  rw [List.length_cons] at hlen
  rw [List.reverse_cons, List.map_append] at hrows
  rw [List.reverse_cons, List.flatMap_append] at hprods
  have htlen : t.reverse.length = m := by rw [List.length_reverse]; omega
  refine ⟨?_, ?_, ?_, ?_, ?_, ?_, ?_, fun _ => hnnz⟩
  · rw [hsegs, List.length_cons, hlen]
  · rw [hsegs, List.reverse_cons, List.map_append, ← hrows]
    rfl
  · change p.next + 1 = _
    rw [hp.next, List.length_append]
    rfl
  · change p.valid + 1 = _
    rw [hp.valid, List.length_append]
    rfl
  · rw [hsegs, List.reverse_cons, List.flatMap_append, List.zipIdx_append, List.map_append, ← hprods, List.append_assoc]
    refine congrArg (_ ++ ·) ?_
    simp [hp.next]
  · intro i sg hi
    rw [hsegs, List.reverse_cons, List.getElem?_append] at hi
    rw [List.filter_append, List.length_append]
    split_ifs at hi with hlt
    · have hne : (segCount lane (n + 1) == i) = false := beq_eq_false_iff_ne.2 (by rw [hn]; omega)
      rw [List.filter_cons_of_neg (by rw [hne]; decide)]
      exact hcounts i sg (by rw [List.reverse_cons, List.getElem?_append, if_pos hlt, hi])
    · have hlt' : i - t.reverse.length < 1 := by
        by_contra hge
        rw [List.getElem?_eq_none (by simp only [List.length_singleton]; omega)] at hi
        cases hi
      obtain rfl : i = m := by omega
      rw [htlen, Nat.sub_self] at hi
      cases hi
      have hs := hcounts i s (by rw [List.reverse_cons, List.getElem?_append, if_neg hlt, htlen, Nat.sub_self]; rfl)
      rw [List.filter_cons_of_pos (by rw [hn]; exact beq_self_eq_true _), List.length_append, hs]
      rfl
  · intro l hl
    rcases List.mem_append.1 hl with hl | hl
    · exact hp.below l hl
    · rw [List.mem_singleton.1 hl, hn]

/-- The first segment, before any lane. -/
theorem PLanes.holds_first : (PLanes.mk [{ row := row0, prods := [] }] base 0 false).Holds h row0 base lane [] 0 where
  len := rfl
  rows := rfl
  next := rfl
  valid := rfl
  prods := rfl
  counts i sg hi := by
    cases i with
    | zero => cases hi; rfl
    | succ i => cases hi
  below l hl := absurd hl (by simp)
  nnz hne := absurd rfl hne

/-- One lane that breaks no rule starts its segment and takes its product. -/
theorem patLane_of_good {l e : Nat} (hb : (patLane h row0 p l e).bad = false) :
    p.bad = false ∧ natBits e 13 0 < h.ncols ∧ (natBit e 14 = true → natBit e 15 = true)
    ∧ (natBit e 15 = true → p.next < h.nnz)
    ∧ patLane h row0 p l e =
      let q := if (natBit e 14 && decide (l ≠ 0)) = true then p.opened row0 else p
      if natBit e 15 = true then q.taken (natBits e 13 0) else q := by
  unfold patLane at hb ⊢
  dsimp only at hb ⊢
  by_cases h1 : (natBit e 14 && !natBit e 15 || decide (h.ncols ≤ natBits e 13 0)) = true
  · rw [if_pos h1] at hb
    cases hb
  rw [if_neg h1] at hb ⊢
  rw [Bool.not_eq_true, Bool.or_eq_false_iff, decide_eq_false_iff_not, not_le] at h1
  obtain ⟨hsv, hcol⟩ := h1
  have himp : natBit e 14 = true → natBit e 15 = true := fun h14 => by
    rw [h14] at hsv
    simpa using hsv
  by_cases hv : natBit e 15 = true
  · rw [if_pos hv] at hb ⊢
    by_cases hn : h.nnz ≤ p.next
    · rw [if_pos hn] at hb
      cases hb
    rw [if_neg hn] at hb ⊢
    refine ⟨hb, hcol, himp, fun _ => by omega, ?_⟩
    rw [if_pos hv]
    by_cases ho : (natBit e 14 && decide (l ≠ 0)) = true
    · rw [if_pos ho, if_pos ho]
      rfl
    · rw [if_neg ho, if_neg ho]
      rw [PLanes.taken]
      cases p.segs <;> rfl
  · rw [if_neg hv] at hb ⊢
    refine ⟨hb, hcol, himp, fun h => absurd h hv, ?_⟩
    rw [if_neg hv]
    by_cases ho : (natBit e 14 && decide (l ≠ 0)) = true
    · rw [if_pos ho, if_pos ho]
      rfl
    · rw [if_neg ho, if_neg ho]

theorem PLanes.Holds.succ {n : Nat} (hp : p.Holds h row0 base lane (validLanes lane n) (segCount lane n))
    (hb : (patLane h row0 p n (lane n)).bad = false) :
    (patLane h row0 p n (lane n)).Holds h row0 base lane (validLanes lane (n + 1)) (segCount lane (n + 1)) := by
  obtain ⟨-, -, -, hnnz, heq⟩ := patLane_of_good hb
  rw [heq]
  generalize hq : (if (natBit (lane n) 14 && decide (n ≠ 0)) = true then p.opened row0 else p) = q
  have hnext : q.next = p.next := by rw [← hq]; split_ifs <;> rfl
  have hopen : q.Holds h row0 base lane (validLanes lane n) (segCount lane (n + 1)) := by
    rw [segCount_succ, Bool.and_comm, ← hq]
    split_ifs
    · exact hp.opened
    · exact hp
  rw [validLanes_succ]
  dsimp only
  split_ifs with hv
  · exact hopen.taken rfl (hnext ▸ hnnz hv)
  · rw [List.append_nil]
    exact hopen

/-- The lanes below `n` of a record, none of which breaks a rule. -/
theorem patLanes_holds {n : Nat} (hb : ((List.range n).foldl (fun p l => patLane h row0 p l (lane l))
      (PLanes.mk [{ row := row0, prods := [] }] base 0 false)).bad = false) :
    ((List.range n).foldl (fun p l => patLane h row0 p l (lane l)) (PLanes.mk [{ row := row0, prods := [] }] base 0 false)).Holds h row0 base
        lane (validLanes lane n) (segCount lane n)
      ∧ ∀ l, l < n → natBits (lane l) 13 0 < h.ncols ∧ (natBit (lane l) 14 = true → natBit (lane l) 15 = true) := by
  induction n with
  | zero => exact ⟨PLanes.holds_first, fun l hl => absurd hl (Nat.not_lt_zero l)⟩
  | succ n ih =>
    rw [List.range_succ, List.foldl_append, List.foldl_cons, List.foldl_nil] at hb ⊢
    obtain ⟨hbad, hcol, himp, -, -⟩ := patLane_of_good hb
    obtain ⟨hp, hcols⟩ := ih hbad
    refine ⟨hp.succ hb, fun l hl => ?_⟩
    rcases Nat.lt_succ_iff_lt_or_eq.1 hl with hl | rfl
    · exact hcols l hl
    · exact ⟨hcol, himp⟩

end

/-- A record that breaks no rule, in the words of R101 to R103. -/
theorem patRecord_spec {h : PHead} {m : Rd} {a : Nat} {last : Option Nat} {next nx : Nat} {segs : List PSeg}
    (hr : patRecord h m a last next = some (segs, nx)) :
    let cw := Rd.le m a 8
    let lane := fun (l : Nat) => Rd.le m (a + 8 + 2 * l) 2
    let valid := (List.range 64).filter fun l => natBit (lane l) 15
    let seg := fun (l : Nat) => ((List.range (l + 1)).filter fun i => decide (i ≠ 0) && natBit (lane i) 14).length
    natBits cw 49 0 = 0 ∧ valid ≠ [] ∧ nx = next + valid.length ∧ nx ≤ h.nnz
    ∧ segs.length = seg 63 + 1 ∧ segs.length ≤ 16 ∧ natBits cw 63 50 + segs.length ≤ h.nrows
    ∧ segs.map (·.row) = (List.range segs.length).map (natBits cw 63 50 + ·)
    ∧ segs.flatMap (·.prods) = valid.zipIdx.map (fun p => (next + p.2, natBits (lane p.1) 13 0))
    ∧ (∀ i sg, segs[i]? = some sg → sg.prods.length = (valid.filter fun l => seg l == i).length)
    ∧ (∀ l, l < 64 → natBits (lane l) 13 0 < h.ncols ∧ (natBit (lane l) 14 = true → natBit (lane l) 15 = true))
    ∧ (∀ r, last = some r → if natBit (lane 0) 14 = true then r < natBits cw 63 50 else natBits cw 63 50 = r) := by
  intro cw lane valid seg
  unfold patRecord at hr
  dsimp only at hr
  generalize hP : (List.range 64).foldl (fun p l => patLane h (natBits cw 63 50) p l (lane l))
    (PLanes.mk [{ row := natBits cw 63 50, prods := [] }] next 0 false) = P at hr
  obtain ⟨hc, hsome⟩ := Option.ite_none_left_eq_some.1 hr
  cases hsome
  simp only [Bool.or_eq_true, not_or, Bool.not_eq_true, Bool.not_eq_eq_eq_not, Bool.not_true, Bool.not_eq_false,
    decide_eq_true_eq, beq_eq_false_iff_ne, ne_eq, Decidable.not_not, not_lt, not_le] at hc
  obtain ⟨⟨⟨⟨⟨hz, hstart⟩, hbad⟩, hvalid⟩, h16⟩, hrows⟩ := hc
  obtain ⟨hp, hcols⟩ := patLanes_holds (h := h) (row0 := natBits cw 63 50) (base := next) (lane := lane) (n := 64) (by rw [hP]; exact hbad)
  rw [hP] at hp
  have hne : valid ≠ [] := fun h0 => hvalid (by rw [hp.valid]; exact congrArg List.length h0)
  have hlen : P.segs.reverse.length = seg 63 + 1 := by rw [List.length_reverse]; exact hp.len
  refine ⟨hz, hne, hp.next, hp.nnz hne, hlen, by rw [List.length_reverse]; exact h16, ?_, ?_, hp.prods, hp.counts, hcols, fun r hl => ?_⟩
  · have hl := hp.len
    have hcw : natBits (Rd.le m a 8) 63 50 = natBits cw 63 50 := rfl
    rw [List.length_reverse]
    omega
  · rw [hp.rows, List.length_reverse, hp.len]
  · rw [hl] at hstart
    dsimp only at hstart
    split_ifs at hstart ⊢ with h14
    · exact of_decide_eq_true hstart
    · exact beq_iff_eq.1 hstart

/-! ### The records of a program (R103) -/

theorem patWalk_spec (h : PHead) (m : Rd) (a n i next : Nat) (last : Option PSeg) :
    let r := patRecord h m (a + 32 + 136 * i) (last.map (·.row)) next
    (patWalk h m a 0 i last next = ([], if next = h.nnz then none else some i))
    ∧ (r = none → patWalk h m a (n + 1) i last next = ([], some i))
    ∧ (∀ segs nx, r = some (segs, nx) →
      let mine := segs.map fun sg => { sg with start := ((last.filter (·.row == sg.row)).map (·.start)).getD i }
      let rest := patWalk h m a n (i + 1) mine.getLast? nx
      patWalk h m a (n + 1) i last next = (mine ++ rest.1, rest.2)) := by
  intro r
  refine ⟨rfl, fun hr => ?_, fun segs nx hr => ?_⟩
  · have hr' : patRecord h m (a + 32 + 136 * i) (last.map (·.row)) next = none := hr
    rw [patWalk, hr']
  · have hr' : patRecord h m (a + 32 + 136 * i) (last.map (·.row)) next = some (segs, nx) := hr
    intro mine rest
    rw [patWalk, hr']

theorem lt_foldl_max_row {i n : Nat} {l : List PSeg} :
    i < l.foldl (fun a s => max a (s.row + 1)) n ↔ i < n ∨ ∃ sg ∈ l, i ≤ sg.row := by
  induction l generalizing n with
  | nil => simp
  | cons s l ih =>
    rw [List.foldl_cons, ih, lt_max_iff, Nat.lt_succ_iff, List.exists_mem_cons_iff, or_assoc]

/-- How many rows a program that broke a rule at record `b` has written (R103). -/
theorem rowsWritten_spec (h : PHead) (segs : List PSeg) (b : Nat) :
    (b = h.nrec → rowsWritten h segs (some b) = h.nrows)
    ∧ (b ≠ h.nrec → ∀ l, segs.getLast? = some l → ∀ i, i < rowsWritten h segs (some b) ↔ ∃ sg ∈ segs, i ≤ sg.row ∧ sg.start < l.start) := by
  refine ⟨fun hb => if_pos hb, fun hb l hl i => ?_⟩
  have hrows : rowsWritten h segs (some b) = (segs.filter fun s => s.start < l.start).foldl (fun a s => max a (s.row + 1)) 0 := by
    rw [rowsWritten, hl]
    exact if_neg hb
  rw [hrows, lt_foldl_max_row, or_iff_right (Nat.not_lt_zero i)]
  simp only [List.mem_filter, decide_eq_true_eq]
  exact ⟨fun ⟨sg, ⟨h1, h2⟩, h3⟩ => ⟨sg, h1, h3, h2⟩, fun ⟨sg, h1, h3, h2⟩ => ⟨sg, ⟨h1, h2⟩, h3⟩⟩

/-! ### SPMV (R66, R99, R103) -/

section
variable {x : Cmd} {d v xv : TDesc}

/-- The shapes that SPMV asks of its operands. -/
def SpmvShaped (x : Cmd) (d v xv : TDesc) : Prop :=
  patOk x.c x.m x.preg = true ∧ d.dim0 = (patHead x.m x.preg).nrows ∧ xv.dim0 = (patHead x.m x.preg).ncols
    ∧ v.dim0 = (patHead x.m x.preg).nnz ∧ v.dim1 = 1 ∧ v.dim2 = 1

/-- The sum that stands in row `i` of a pattern program's result. -/
def rowSum (x : Cmd) (v xv : TDesc) (segs : List PSeg) (i : Nat) : XV :=
  accumulate x.scl ((segs.filter fun sg => sg.row == i).map fun sg => sg.prods.map fun p => (at_ (v.dys x.m) p.1).mul (at_ (xv.dys x.m) p.2))

theorem runSpmv_eq (hd : x.o0.tens x.c seOut = some d) (hv : x.o1.tens x.c [fmtHB16] = some v) (hx : x.o2.tens x.c seVec = some xv) :
    let h := patHead x.m x.preg
    let walk := patWalk h x.m x.preg h.nrec 0 none 0
    let w := storeTensor d x.rnd none fun i => if i < rowsWritten h walk.1 walk.2 then some (rowSum x v xv walk.1 i) else none
    (¬ SpmvShaped x d v xv → runSpmv x = x.refusedPat)
    ∧ (SpmvShaped x d v xv → runSpmv x =
      { fault := walk.2.isSome, dur := patCycles h 1 walk.2, writes := w.1, evs := w.2,
        rd := v.rows ++ xv.rows, prog := patBytes h x.preg, aux := patHeadBytes x.c x.preg, wr := d.rows }) := by
  intro h walk w
  have hcond : (!patOk x.c x.m x.preg || decide (d.dim0 ≠ h.nrows) || decide (xv.dim0 ≠ h.ncols) || decide (v.dim0 ≠ h.nnz)
      || decide (v.dim1 ≠ 1) || decide (v.dim2 ≠ 1)) = true ↔ ¬ SpmvShaped x d v xv := by
    simp only [SpmvShaped, Bool.or_eq_true, Bool.not_eq_true', decide_eq_true_eq, not_and_or, Bool.not_eq_true, or_assoc]
    exact Iff.rfl
  have hrow : ∀ i, (rowGroups walk.1 i).map (prodsOf (v.dys x.m) (xv.dys x.m)) =
      (walk.1.filter fun sg => sg.row == i).map fun sg => sg.prods.map fun p => (at_ (v.dys x.m) p.1).mul (at_ (xv.dys x.m) p.2) := fun i => by
    rw [rowGroups, List.map_map]
    rfl
  refine ⟨fun hs => ?_, fun hs => ?_⟩
  · rw [runSpmv, hd, hv, hx]
    exact if_pos (hcond.2 hs)
  · rw [runSpmv, hd, hv, hx]
    have hw : w = storeTensor d x.rnd none fun i => if i < rowsWritten h walk.1 walk.2 then
        some (accumulate x.scl ((rowGroups walk.1 i).map (prodsOf (v.dys x.m) (xv.dys x.m)))) else none := by
      simp only [w, rowSum, hrow]
    rw [hw]
    exact if_neg fun hc => hcond.1 hc hs

/-- What SPMV makes of its operands. -/
theorem spmv_spec (hd : x.o0.tens x.c seOut = some d) (hv : x.o1.tens x.c [fmtHB16] = some v) (hx : x.o2.tens x.c seVec = some xv) :
    let r := specSpmv.run x
    let h := patHead x.m x.preg
    let walk := patWalk h x.m x.preg h.nrec 0 none 0
    let st := fun i => storeInt x.rnd 32 (-(d.frac : Int)) d.rb d.nonneg (rowSum x v xv walk.1 i)
    (¬ SpmvShaped x d v xv → r.refuse = true ∧ r.writes = [])
    ∧ (SpmvShaped x d v xv → r.refuse = false ∧ (r.fault = true ↔ walk.2 ≠ none) ∧ r.dur = patCycles h 1 walk.2
      ∧ (d.fmt = fmtHQ32 → rowsWritten h walk.1 walk.2 ≤ d.n →
        r.writes = (List.range (rowsWritten h walk.1 walk.2)).map (fun i => ⟨bytesAt (d.addr i) (toLE 4 (wrapN 32 (st i).1)), none⟩)
        ∧ r.evs = (List.range (rowsWritten h walk.1 walk.2)).flatMap fun i => (st i).2.map fun f => (f, i))) := by
  intro r h walk st
  obtain ⟨hbad, hgood⟩ := runSpmv_eq hd hv hx
  refine ⟨fun hs => ?_, fun hs => ?_⟩
  · have hr : r = x.refusedPat := hbad hs
    rw [hr]
    exact ⟨rfl, rfl⟩
  · have hr : r = _ := hgood hs
    rw [hr]
    refine ⟨rfl, Option.isSome_iff_ne_none, rfl, fun hf hn => ?_⟩
    have hq : isHQ d.fmt = true := by rw [hf]; rfl
    have hst := storeTensor_of_range (isBlock_of_isHQ hq) x.rnd hn (f := rowSum x v xv walk.1)
      (x := fun i => if i < rowsWritten h walk.1 walk.2 then some (rowSum x v xv walk.1 i) else none) fun i _ => rfl
    dsimp only
    rw [hst]
    have helem : ∀ i, storeElem d x.rnd i (rowSum x v xv walk.1 i) =
        (⟨bytesAt (d.addr i) (toLE 4 (wrapN 32 (st i).1)), none⟩, (st i).2.map fun f => (f, i)) := fun i => by
      rw [storeElem_of_isHQ hq, hf]
      rfl
    simp only [helem, and_self]

end

end Sys2Proof.Machine
end

/-! ### The pivot rule and FACT (R55, R112, R131, R500) -/

section
namespace Sys2Proof.Machine

/-! ### The pivot rule (R131) -/

theorem pivotRule_spec (tau delta d : Dy) (fB fI ix : Nat) :
    let r := pivotRule tau delta fB fI ix d
    let kind := if |d.val| ≤ tau.val then (if d.val = 0 then 1 else 2) else if |d.val| ≤ (2 : Rat) ^ ((fI : Int) - 31) then 3 else 0
    let st := storeInt .rto 32 (-(fB : Int)) (-128) false (.num (if d.val < 0 then delta.neg else delta))
    r.2.1 = kind ∧ (kind = 0 → r.1 = d ∧ r.2.2 = [])
    ∧ (kind ≠ 0 → r.1 = ⟨st.1, -(fB : Int)⟩ ∧ r.2.2 = st.2.map fun f => (f, ix)) := by
  intro r kind st
  have hsmall : (⟨1, (fI : Int) - 31⟩ : Dy).val = 2 ^ ((fI : Int) - 31) := by simp [Dy.val]
  have hkind : (if Dy.le d.abs tau then (if d.m = 0 then 1 else 2) else if Dy.le d.abs ⟨1, (fI : Int) - 31⟩ then 3 else 0) = kind :=
    if_congr (by rw [Dy.le_iff, Dy.val_abs]) (if_congr Dy.val_eq_zero_iff.symm rfl rfl) (if_congr (by rw [Dy.le_iff, Dy.val_abs, hsmall]) rfl rfl)
  have hst : storeInt .rto 32 (-(fB : Int)) (-128) false (.num (if d.m < 0 then delta.neg else delta)) = st := by
    rw [if_congr Dy.val_lt_zero_iff.symm rfl rfl]
  have hr : r = if kind = 0 then (d, 0, []) else (⟨st.1, -(fB : Int)⟩, kind, st.2.map fun f => (f, ix)) := by
    rw [← hkind, ← hst]
    rfl
  by_cases h : kind = 0
  · rw [if_pos h] at hr
    rw [hr]
    exact ⟨h.symm, fun _ => ⟨rfl, rfl⟩, fun h' => absurd h h'⟩
  · rw [if_neg h] at hr
    rw [hr]
    exact ⟨rfl, fun h' => absurd h' h, fun _ => ⟨rfl, rfl⟩⟩

/-! ### Quotients rounded to odd (R55) -/

/-- A rational number to the odd one of its two neighbours, or to itself where it is an integer. -/
def roundOdd (y : Rat) : Int := if (⌊y⌋ : Rat) = y ∨ ⌊y⌋ % 2 = 1 then ⌊y⌋ else ⌊y⌋ + 1

theorem floor_div_eq {m p : Int} (hp : 0 < p) : ⌊(m : Rat) / p⌋ = m / p := by
  have hp' : (0 : Rat) < p := by exact_mod_cast hp
  rw [Int.floor_eq_iff]
  constructor
  · rw [le_div_iff₀ hp']
    exact_mod_cast Int.ediv_mul_le m hp.ne'
  · rw [div_lt_iff₀ hp']
    exact_mod_cast Int.lt_ediv_add_one_mul_self m hp

theorem roundOdd_div {m p : Int} (hp : 0 < p) : roundOdd ((m : Rat) / p) = nearestOdd m p := by
  have hp' : (p : Rat) ≠ 0 := by exact_mod_cast hp.ne'
  have hexact : ((m / p : Int) : Rat) = (m : Rat) / p ↔ m % p = 0 := by
    rw [eq_div_iff hp', ← Int.cast_mul, Int.cast_inj]
    have := Int.mul_ediv_add_emod m p
    rw [mul_comm] at this
    constructor <;> intro h <;> omega
  rw [roundOdd, floor_div_eq hp, if_congr (or_congr_left hexact) rfl rfl, nearestOdd]
  by_cases h : m % p = 0
  · rw [if_pos (.inl h), if_pos h]
  · rw [if_neg h]
    by_cases h2 : m / p % 2 = 0
    · rw [if_neg (by omega), if_pos h2]
    · rw [if_pos (by omega), if_neg h2]

theorem neg_ediv_emod {m p : Int} (hp : 0 < p) (h : m % p ≠ 0) : (-m) / p = -(m / p) - 1 ∧ (-m) % p = p - m % p := by
  have h0 := Int.emod_nonneg m hp.ne'
  have h1 := Int.emod_lt_of_pos m hp
  have h2 := Int.mul_ediv_add_emod m p
  refine (Int.ediv_emod_unique hp).2 ⟨?_, by omega, by omega⟩
  linear_combination -h2

/-- Rounding to odd is the same above and below zero. -/
theorem nearestOdd_neg {m p : Int} (hp : 0 < p) : nearestOdd (-m) p = -nearestOdd m p := by
  by_cases h : m % p = 0
  · have h' : (-m) % p = 0 := Int.emod_eq_zero_of_dvd (dvd_neg.2 (Int.dvd_of_emod_eq_zero h))
    rw [nearestOdd, nearestOdd, if_pos h, if_pos h', Int.neg_ediv_of_dvd (Int.dvd_of_emod_eq_zero h)]
  · obtain ⟨hd, hm⟩ := neg_ediv_emod hp h
    have h1 := Int.emod_lt_of_pos m hp
    have h' : (-m) % p ≠ 0 := by omega
    rw [nearestOdd, nearestOdd, if_neg h, if_neg h', hd]
    split_ifs <;> omega

theorem nearestOdd_congr {m p m' p' : Int} (hd : m / p = m' / p') (hr : m % p = 0 ↔ m' % p' = 0) : nearestOdd m p = nearestOdd m' p' := by
  rw [nearestOdd, nearestOdd, hd, if_congr hr rfl rfl]

/-- The quotient of `a * t` by `b` with a bit more and a sticky bit. -/
def stickyDiv (a b : Nat) : Nat := 2 * (a / b) + if a % b = 0 then 0 else 1

/-- A sticky quotient rounds to odd, on a coarser grid, as the exact one. -/
theorem nearestOdd_stickyDiv {a b t : Nat} (hb : 0 < b) (ht : 0 < t) :
    nearestOdd (stickyDiv (a * t) b : Int) ((2 * t : Nat) : Int) = nearestOdd (a : Int) (b : Int) := by
  have hquot : stickyDiv (a * t) b / (2 * t) = a / b := by
    have hhalf : stickyDiv (a * t) b / 2 = a * t / b := by rw [stickyDiv]; split_ifs <;> omega
    rw [← Nat.div_div_eq_div_mul, hhalf, Nat.div_div_eq_div_mul, Nat.mul_div_mul_right a b ht]
  have hrem : stickyDiv (a * t) b % (2 * t) = 0 ↔ a % b = 0 := by
    constructor
    · intro h
      obtain ⟨c, hc⟩ := Nat.dvd_of_mod_eq_zero h
      have heven : stickyDiv (a * t) b = 2 * (t * c) := by rw [hc, Nat.mul_assoc]
      rw [stickyDiv] at heven
      split_ifs at heven with hz
      · have hdvd : a * t = b * (t * c) := by
          have := Nat.div_add_mod (a * t) b
          rw [hz] at this
          rw [show t * c = a * t / b by omega]
          omega
        refine Nat.mod_eq_zero_of_dvd ⟨c, Nat.eq_of_mul_eq_mul_right ht ?_⟩
        rw [hdvd]
        ring
      · omega
    · intro h
      obtain ⟨c, hc⟩ := Nat.dvd_of_mod_eq_zero h
      have h1 : a * t = b * (c * t) := by rw [hc]; ring
      rw [stickyDiv, h1, Nat.mul_mod_right, if_pos rfl, Nat.mul_div_cancel_left _ hb]
      exact Nat.mod_eq_zero_of_dvd ⟨c, by ring⟩
  refine nearestOdd_congr ?_ ?_
  · exact_mod_cast hquot
  · exact_mod_cast hrem

/-- The reciprocal of a number on the grid `2^-f`, rounded to odd on `2^-g`, as FACT computes it. -/
theorem round_recip {p : Dy} {f g : Nat} (hv : p.val ≠ 0) (he : p.e = -(f : Int)) (hf : f ≤ 62) (hg : g ≤ 62) :
    ((Dy.div 128 ⟨1, 0⟩ p).round .rto (-(g : Int))).1 = roundOdd (1 / p.val * 2 ^ g) := by
  have hm : p.m ≠ 0 := fun h => hv (Dy.val_eq_zero_iff.2 h)
  obtain ⟨t, ht⟩ : ∃ t, 128 - f - g = t := ⟨_, rfl⟩
  have hdiv : Dy.div 128 ⟨1, 0⟩ p =
      ⟨if (((1 : Int) < 0) = (p.m < 0)) then (stickyDiv (2 ^ (f + g) * 2 ^ t) p.m.natAbs : Int)
        else -(stickyDiv (2 ^ (f + g) * 2 ^ t) p.m.natAbs : Int), (f : Int) - 129⟩ := by
    rw [← pow_add, show f + g + t = 128 by omega, Dy.div]
    have h1 : (1 : Int).natAbs * 2 ^ 128 = 2 ^ 128 := by decide
    rw [h1, he]
    simp only [stickyDiv, Dy.mk.injEq, true_and]
    omega
  have hshift : ((-(g : Int)) - ((f : Int) - 129)).toNat = t + 1 := by omega
  have hlow : (Dy.div 128 ⟨1, 0⟩ p).e < -(g : Int) := by rw [hdiv]; change (f : Int) - 129 < _; omega
  have hpow : pow2 (t + 1) = ((2 * 2 ^ t : Nat) : Int) := by rw [pow2, pow_succ, Nat.mul_comm]
  have hb : 0 < p.m.natAbs := Int.natAbs_pos.2 hm
  have hbase := nearestOdd_stickyDiv (a := 2 ^ (f + g)) (b := p.m.natAbs) (t := 2 ^ t) hb (Nat.two_pow_pos t)
  have hval : 1 / p.val * 2 ^ g = (2 ^ (f + g) : Rat) / p.m := by
    have hm' : (p.m : Rat) ≠ 0 := by exact_mod_cast hm
    rw [Dy.val, he, zpow_neg, zpow_natCast, pow_add]
    field_simp
  rw [Dy.round_rto hlow, hdiv]
  dsimp only
  rw [hshift, hpow, hval]
  have hb' : (0 : Int) < p.m.natAbs := by exact_mod_cast hb
  have h2t : (0 : Int) < ((2 * 2 ^ t : Nat) : Int) := by positivity
  rcases lt_or_gt_of_ne hm with hneg | hpos
  · have habs : (p.m : Rat) = -((p.m.natAbs : Int) : Rat) := by rw [← Int.cast_neg]; congr 1; omega
    have hq : (2 ^ (f + g) : Rat) / p.m = ((-((2 ^ (f + g) : Nat) : Int) : Int) : Rat) / ((p.m.natAbs : Int) : Rat) := by
      rw [habs, div_neg, Int.cast_neg, neg_div]
      norm_cast
    rw [if_neg (by simp [hneg]), nearestOdd_neg h2t, hbase, hq, roundOdd_div hb', nearestOdd_neg hb']
  · have habs : (p.m : Rat) = ((p.m.natAbs : Int) : Rat) := by congr 1; omega
    have hq : (2 ^ (f + g) : Rat) / p.m = (((2 ^ (f + g) : Nat) : Int) : Rat) / ((p.m.natAbs : Int) : Rat) := by
      rw [habs]
      norm_cast
    rw [if_pos (by simp [hpos.le]), hbase, hq, roundOdd_div hb']

/-- What goes into HQ32 is held between its extremes. -/
theorem storeInt_fst_clamp (r : Rnd) (g rb : Int) (nonneg : Bool) (x : Dy) :
    (storeInt r 32 g rb nonneg (.num x)).1 = max (-2 ^ 31) (min (2 ^ 31 - 1) (x.round r g).1) := by
  rw [storeInt_num]
  split_ifs <;> dsimp only <;> omega

/-! ### One column of FACT (R112) -/

/-- A number as FACT keeps its intermediates. -/
def stored32 (f : Nat) (v : Dy) : Dy := ⟨(storeInt .rto 32 (-(f : Int)) (-128) false (.num v)).1, -(f : Int)⟩

theorem fst_rtoHq32 (f ix : Nat) (v : Dy) : (rtoHq32 f ix (.num v)).1 = stored32 f v := rfl

section
variable {α : Type} {L : List α} {ki kj : α → Nat} {v : α → Dy} {M : Mat} {a b : Nat}

theorem foldl_put_of_notMem (h : ∀ q ∈ L, ¬ (ki q = a ∧ kj q = b)) : (L.foldl (fun (m : Mat) q => m.put (ki q) (kj q) (v q)) M) a b = M a b := by
  induction L generalizing M with
  | nil => rfl
  | cons q L ih =>
    rw [List.foldl_cons, ih fun r hr => h r (by simp [hr]), Mat.put, if_neg fun hab => h q (by simp) ⟨hab.1.symm, hab.2.symm⟩]

theorem foldl_put_of_mem {w : Dy} (hex : ∃ q ∈ L, ki q = a ∧ kj q = b) (h : ∀ q ∈ L, ki q = a → kj q = b → v q = w) :
    (L.foldl (fun (m : Mat) q => m.put (ki q) (kj q) (v q)) M) a b = w := by
  induction L using List.reverseRecOn with
  | nil => obtain ⟨q, hq, -⟩ := hex; exact absurd hq (by simp)
  | append_singleton L q ih =>
    rw [List.foldl_append, List.foldl_cons, List.foldl_nil, Mat.put]
    by_cases hab : a = ki q ∧ b = kj q
    · rw [if_pos hab]
      exact h q (by simp) hab.1.symm hab.2.symm
    · rw [if_neg hab]
      refine ih ?_ fun r hr => h r (by simp [hr])
      obtain ⟨r, hr, hk⟩ := hex
      rcases List.mem_append.1 hr with hr | hr
      · exact ⟨r, hr, hk⟩
      · rw [List.mem_singleton.1 hr] at hk
        exact absurd ⟨hk.1.symm, hk.2.symm⟩ hab

end

section
variable (st : TDesc) (tau delta : Dy) (fI k n j : Nat) (s : FactSt)

theorem mem_below {i : Nat} : i ∈ (List.range n).filter (fun i => decide (j < i)) ↔ j < i ∧ i < n := by
  rw [List.mem_filter, List.mem_range, decide_eq_true_iff, and_comm]

/-- The column of L that FACT computes, and what it leaves of the others. -/
theorem factCol_l :
    let t := factCol st tau delta fI k n s j
    (∀ i, j < i → i < n → t.l i j = stored32 st.frac ((s.b i j).mul (t.dinv j)))
    ∧ (∀ i c, c ≠ j ∨ i ≤ j ∨ n ≤ i → t.l i c = s.l i c) := by
  intro t
  have hdinv : t.dinv j = _ := if_pos rfl
  rw [hdinv]
  refine ⟨fun i h1 h2 => ?_, fun i c h => ?_⟩
  · refine (foldl_put_of_mem (ki := fun q : Nat × Dy × List Ev => q.1) (kj := fun _ => j) (v := fun q => q.2.1)
      ⟨_, List.mem_map_of_mem (mem_below n j |>.2 ⟨h1, h2⟩), rfl, rfl⟩ fun q hq hi _ => ?_)
    obtain ⟨i', -, rfl⟩ := List.mem_map.1 hq
    rw [← hi]
    rfl
  · refine foldl_put_of_notMem (ki := fun q : Nat × Dy × List Ev => q.1) (kj := fun _ => j) (v := fun q => q.2.1) fun q hq hk => ?_
    obtain ⟨i', hi', rfl⟩ := List.mem_map.1 hq
    obtain ⟨h1, h2⟩ := (mem_below n j).1 hi'
    obtain ⟨hki, hkj⟩ := hk
    dsimp only at hki
    omega

/-- The working matrix after a column of FACT. -/
theorem factCol_b :
    let t := factCol st tau delta fI k n s j
    (∀ i c, j < c → c ≤ i → i < n → t.b i c = stored32 st.frac ((s.b i c).sub ((t.l i j).mul (s.b c j))))
    ∧ (∀ i c, ¬ (j < c ∧ c ≤ i ∧ i < n) → t.b i c = s.b i c) := by
  intro t
  refine ⟨fun i c h1 h2 h3 => ?_, fun i c h => ?_⟩
  · refine (foldl_put_of_mem (ki := fun q : Nat × Nat × Dy × List Ev => q.1) (kj := fun q => q.2.1) (v := fun q => q.2.2.1) ?_
      fun q hq hi hc => ?_)
    · exact ⟨_, List.mem_flatMap.2 ⟨i, (mem_below n j).2 ⟨by omega, h3⟩, List.mem_map_of_mem (List.mem_filter.2
        ⟨(mem_below n j).2 ⟨h1, by omega⟩, decide_eq_true h2⟩)⟩, rfl, rfl⟩
    · obtain ⟨i', -, hq⟩ := List.mem_flatMap.1 hq
      obtain ⟨c', -, rfl⟩ := List.mem_map.1 hq
      rw [← hi, ← hc]
      rfl
  · refine foldl_put_of_notMem (ki := fun q : Nat × Nat × Dy × List Ev => q.1) (kj := fun q => q.2.1) (v := fun q => q.2.2.1) fun q hq hk => ?_
    obtain ⟨i', hi', hq⟩ := List.mem_flatMap.1 hq
    obtain ⟨c', hc', rfl⟩ := List.mem_map.1 hq
    obtain ⟨hc', hle⟩ := List.mem_filter.1 hc'
    obtain ⟨h1, h2⟩ := (mem_below n j).1 hi'
    obtain ⟨h3, h4⟩ := (mem_below n j).1 hc'
    obtain ⟨hki, hkj⟩ := hk
    dsimp only at hki hkj
    exact h ⟨by omega, by have := of_decide_eq_true hle; omega, by omega⟩

/-- The diagonal that a column of FACT computes. -/
theorem factCol_dinv :
    let t := factCol st tau delta fI k n s j
    let p := pivotRule tau delta st.frac fI (st.ix j j k) (s.b j j)
    (∀ q, q ≠ j → t.dinv q = s.dinv q)
    ∧ t.dinv j = (rtoHq32 fI (st.ix j j k) (if p.1.m = 0 then .sat false else .num (Dy.div 128 ⟨1, 0⟩ p.1))).1
    ∧ t.piv = s.piv ++ (if p.2.1 = 0 then [] else [⟨k, j, p.2.1⟩]) := by
  intro t p
  refine ⟨fun q hq => if_neg hq, if_pos rfl, ?_⟩
  change (if p.2.1 = 0 then s.piv else s.piv ++ [⟨k, j, p.2.1⟩]) = _
  split_ifs
  · exact (List.append_nil _).symm
  · rfl

/-- One column of FACT, in the words of R112. -/
theorem factCol_spec :
    let t := factCol st tau delta fI k n s j
    let p := pivotRule tau delta st.frac fI (st.ix j j k) (s.b j j)
    (∀ i, j < i → i < n → t.l i j = stored32 st.frac ((s.b i j).mul (t.dinv j)))
    ∧ (∀ i c, j < c → c ≤ i → i < n → t.b i c = stored32 st.frac ((s.b i c).sub ((t.l i j).mul (s.b c j))))
    ∧ (∀ i c, ¬ (j < c ∧ c ≤ i ∧ i < n) → t.b i c = s.b i c)
    ∧ (∀ i c, c ≠ j ∨ i ≤ j ∨ n ≤ i → t.l i c = s.l i c)
    ∧ (∀ q, q ≠ j → t.dinv q = s.dinv q)
    ∧ t.piv = s.piv ++ (if p.2.1 = 0 then [] else [⟨k, j, p.2.1⟩])
    ∧ (p.1.val ≠ 0 → p.1.e = -(st.frac : Int) → p.1.m.natAbs ≤ 2 ^ 31 → st.frac ≤ 62 → fI ≤ 62 →
      let y := 1 / p.1.val * 2 ^ fI
      let o := if (⌊y⌋ : Rat) = y ∨ ⌊y⌋ % 2 = 1 then ⌊y⌋ else ⌊y⌋ + 1
      t.dinv j = ⟨max (-2 ^ 31) (min (2 ^ 31 - 1) o), -(fI : Int)⟩) := by
  intro t p
  obtain ⟨hl, hl'⟩ := factCol_l st tau delta fI k n j s
  obtain ⟨hb, hb'⟩ := factCol_b st tau delta fI k n j s
  obtain ⟨hd, hdj, hpiv⟩ := factCol_dinv st tau delta fI k n j s
  refine ⟨hl, hb, hb', hl', hd, hpiv, fun hv he _ hf hg => ?_⟩
  intro y o
  have hm : ¬ p.1.m = 0 := fun h => hv (Dy.val_eq_zero_iff.2 h)
  have hround : ((Dy.div 128 ⟨1, 0⟩ p.1).round .rto (-(fI : Int))).1 = o := round_recip hv he hf hg
  rw [hdj, if_neg hm, fst_rtoHq32, stored32, storeInt_fst_clamp, hround]

end

/-! ### What FACT stores (R112, R500) -/

/-- A number on the grid of HQ32 with fraction length `f`, within its range. -/
def Dy.fits32 (f : Nat) (v : Dy) : Prop := v.e = -(f : Int) ∧ -2 ^ 31 ≤ v.m ∧ v.m ≤ 2 ^ 31 - 1

theorem fits32_rtoHq32 (f ix : Nat) (v : XV) : Dy.fits32 f (rtoHq32 f ix v).1 := ⟨rfl, storeInt_fst_bounds .rto (w := 32) ..⟩

/-- A number that fits is stored as it is. -/
theorem storeInt_of_fits32 {f : Nat} {v : Dy} (h : v.fits32 f) (r : Rnd) (rb : Int) (nonneg : Bool) :
    (storeInt r 32 (-(f : Int)) rb nonneg (.num v)).1 = v.m := by
  obtain ⟨he, h1, h2⟩ := h
  have hr : (v.round r (-(f : Int))).1 = v.m := by
    rw [Dy.round_of_le (by omega), Dy.mant, he, Int.sub_self]
    exact Int.mul_one _
  rw [storeInt_fst_clamp, hr]
  omega

section
variable {st : TDesc} {tau delta : Dy} {fI k n : Nat}

/-- The columns of one stage before column `j`. -/
theorem factCols_fit (s : FactSt) (j : Nat) :
    let t := (List.range j).foldl (factCol st tau delta fI k n) s
    (∀ i c, c < j → c < i → i < n → (t.l i c).fits32 st.frac) ∧ ∀ q, q < j → (t.dinv q).fits32 fI := by
  induction j with
  | zero => exact ⟨fun i c hc => absurd hc (Nat.not_lt_zero c), fun q hq => absurd hq (Nat.not_lt_zero q)⟩
  | succ j ih =>
    intro t
    obtain ⟨hl, hd⟩ := ih
    have ht : t = factCol st tau delta fI k n ((List.range j).foldl (factCol st tau delta fI k n) s) j := by
      change (List.range (j + 1)).foldl _ _ = _
      rw [List.range_succ, List.foldl_append]
      rfl
    obtain ⟨hcol, hkeep⟩ := factCol_l st tau delta fI k n j ((List.range j).foldl (factCol st tau delta fI k n) s)
    obtain ⟨hdk, hdj, -⟩ := factCol_dinv st tau delta fI k n j ((List.range j).foldl (factCol st tau delta fI k n) s)
    rw [ht]
    refine ⟨fun i c hc hci hi => ?_, fun q hq => ?_⟩
    · rcases Nat.lt_succ_iff_lt_or_eq.1 hc with hc | rfl
      · rw [hkeep i c (by omega)]
        exact hl i c hc hci hi
      · rw [hcol i hci hi]
        exact fits32_rtoHq32 st.frac 0 (.num _)
    · rcases Nat.lt_succ_iff_lt_or_eq.1 hq with hq | rfl
      · rw [hdk q (by omega)]
        exact hd q hq
      · rw [hdj]
        exact fits32_rtoHq32 ..

end

theorem mem_storeTensor {d : TDesc} (h : isBlock d.fmt = false) {r : Rnd} {x : Nat → Option XV} {w : Wr} :
    w ∈ (storeTensor d r none x).1 ↔ ∃ i, i < d.n ∧ ∃ v, x i = some v ∧ w = (storeElem d r i v).1 := by
  rw [storeTensor_of_not_block h]
  simp only [List.mem_map, List.mem_filterMap, List.mem_range, Option.map_eq_some_iff]
  constructor
  · rintro ⟨p, ⟨i, hi, v, hv, rfl⟩, rfl⟩
    exact ⟨i, hi, v, hv, rfl⟩
  · rintro ⟨i, hi, v, hv, rfl⟩
    exact ⟨_, ⟨i, hi, v, hv, rfl⟩, rfl⟩

/-- A linear index of a per-stage tensor and its place. -/
theorem TDesc.ix_parts {d : TDesc} {b c i k : Nat} (h0 : d.dim0 = b) (hc : c < b) (h1 : d.dim1 = b) (hi : i < b) :
    d.ix c i k % b = c ∧ d.ix c i k / b % b = i ∧ d.ix c i k / (b * b) = k := by
  have hb : 0 < b := by omega
  have hdiv : d.ix c i k / b = i + b * k := by
    rw [ix, h0, h1, Nat.add_mul_div_left _ _ hb, Nat.div_eq_of_lt hc, Nat.zero_add]
  refine ⟨?_, ?_, ?_⟩
  · rw [ix, h0, Nat.add_mul_mod_self_left, Nat.mod_eq_of_lt hc]
  · rw [hdiv, Nat.add_mul_mod_self_left, Nat.mod_eq_of_lt hi]
  · rw [← Nat.div_div_eq_div_mul, hdiv, Nat.add_mul_div_left _ _ hb, Nat.div_eq_of_lt hi, Nat.zero_add]

theorem TDesc.ix_of_parts {d : TDesc} {b : Nat} (h0 : d.dim0 = b) (h1 : d.dim1 = b) (m : Nat) :
    d.ix (m % b) (m / b % b) (m / (b * b)) = m := by
  rw [ix, h0, h1, ← Nat.div_div_eq_div_mul, Nat.mod_add_div, Nat.mod_add_div]

theorem TDesc.ix_lt_n {d : TDesc} {b c i k : Nat} (h0 : d.dim0 = b) (hc : c < b) (h1 : d.dim1 = b) (hi : i < b) (hk : k < d.dim2) :
    d.ix c i k < d.n := by
  rw [ix, n, h0, h1]
  have e1 : i + b * k + 1 ≤ b * (k + 1) := by rw [Nat.mul_succ]; omega
  have e2 := Nat.mul_le_mul_left b e1
  have e3 := Nat.mul_le_mul_left (b * b) (Nat.succ_le_of_lt hk)
  rw [Nat.mul_succ] at e2
  rw [← Nat.mul_assoc] at e2
  rw [Nat.succ_eq_add_one] at e3
  omega

section
variable {x : Cmd} {st : TDesc}

/-- The stage `k` of a FACT. -/
def Cmd.factStageAt (x : Cmd) (st : TDesc) (k : Nat) : FactSt :=
  factStage st ⟨sgn 32 x.sc.tau, -30⟩ ⟨sgn 32 x.sc.delta, -30⟩ (x.param 27 22) (st.dys x.m) (stageB x) k

/-- The bytes of an element that FACT writes. -/
def factCell (st : TDesc) (v : Dy) (i c k : Nat) : Wr := ⟨bytesAt (st.addr (st.ix c i k)) (toLE 4 (wrapN 32 v.m)), none⟩

theorem getElem?_stages {n k0 m : Nat} {g : Nat → FactSt} {t : FactSt} :
    ((List.range n).map fun s => g (k0 + s))[m]? = some t ↔ m < n ∧ t = g (k0 + m) := by
  rw [List.getElem?_map, Option.map_eq_some_iff]
  constructor
  · rintro ⟨a, ha, rfl⟩
    obtain ⟨h1, h2⟩ := List.getElem?_eq_some_iff.1 ha
    rw [List.getElem_range] at h2
    rw [List.length_range] at h1
    exact ⟨h1, by rw [h2]⟩
  · rintro ⟨hm, rfl⟩
    exact ⟨m, List.getElem?_range hm, rfl⟩

/-- The writes of one part of a FACT: L below the diagonal, or dinv on it. -/
theorem mem_factPart {d : TDesc} {b k0 n : Nat} {g : Nat → FactSt} {sel : Nat → Nat → Prop} [DecidableRel sel] {val : FactSt → Nat → Nat → Dy}
    (hf : d.fmt = fmtHQ32) (h0 : d.dim0 = b) (h1 : d.dim1 = b) (h2 : k0 + n ≤ d.dim2) (hb : b ≠ 0)
    (hfit : ∀ k i c, sel c i → i < b → c < b → (val (g k) i c).fits32 d.frac) {x : Nat → Option XV}
    (hx : ∀ m, x m = if k0 ≤ m / (b * b) ∧ sel (m % b) (m / b % b) then
      (((List.range n).map fun s => g (k0 + s))[m / (b * b) - k0]?).map fun t => XV.num (val t (m / b % b) (m % b)) else none) {w : Wr} :
    w ∈ (storeTensor d .rto none x).1 ↔
      ∃ k, k0 ≤ k ∧ k < k0 + n ∧ ∃ i c, sel c i ∧ i < b ∧ c < b ∧ w = factCell d (val (g k) i c) i c k := by
  have hq : isHQ d.fmt = true := by rw [hf]; rfl
  have hcell : ∀ k i c, sel c i → i < b → c < b →
      (storeElem d .rto (d.ix c i k) (.num (val (g k) i c))).1 = factCell d (val (g k) i c) i c k := fun k i c hs hi hc => by
    rw [storeElem_of_isHQ hq, hf]
    dsimp only
    have := storeInt_of_fits32 (hfit k i c hs hi hc) .rto d.rb d.nonneg
    rw [factCell, ← this]
    rfl
  rw [mem_storeTensor (isBlock_of_isHQ hq)]
  constructor
  · rintro ⟨m, hm, v, hv, rfl⟩
    rw [hx] at hv
    split_ifs at hv with hc
    obtain ⟨t, ht, rfl⟩ := Option.map_eq_some_iff.1 hv
    obtain ⟨hlt, rfl⟩ := getElem?_stages.1 ht
    have hmod := Nat.mod_lt m (Nat.pos_of_ne_zero hb)
    have hmod' := Nat.mod_lt (m / b) (Nat.pos_of_ne_zero hb)
    have hk : k0 + (m / (b * b) - k0) = m / (b * b) := by omega
    refine ⟨m / (b * b), hc.1, by omega, m / b % b, m % b, hc.2, hmod', hmod, ?_⟩
    rw [hk, ← hcell _ _ _ hc.2 hmod' hmod, TDesc.ix_of_parts h0 h1]
  · rintro ⟨k, hk, hk', i, c, hs, hi, hc, rfl⟩
    obtain ⟨e1, e2, e3⟩ := TDesc.ix_parts (k := k) h0 hc h1 hi
    refine ⟨d.ix c i k, TDesc.ix_lt_n h0 hc h1 hi (by omega), .num (val (g k) i c), ?_, (hcell k i c hs hi hc).symm⟩
    rw [hx, e1, e2, e3, if_pos ⟨hk, hs⟩, getElem?_stages.2 ⟨by omega, rfl⟩, show k0 + (k - k0) = k by omega]
    rfl

/-- The shapes that FACT asks of its operand. -/
def FactShaped (x : Cmd) (st : TDesc) : Prop :=
  st.dim0 = stageB x ∧ st.dim1 = stageB x ∧ stage0 x + stageN x ≤ st.dim2 ∧ stageB x ≠ 0 ∧ x.param 27 22 ≤ 62

/-- What FACT makes of its operand. -/
theorem fact_spec (hd : x.o0 = .tensor st) (hok : st.ok x.c [fmtHQ32] = true) :
    let r := specFact.run x
    (¬ FactShaped x st → r.refuse = true ∧ r.writes = [])
    ∧ (FactShaped x st → r.refuse = false ∧ r.fault = false ∧ r.dur = stageN x * stageB x * (2 + 4 * ceilDiv (stageB x) 16)
      ∧ (∀ w, w ∈ r.writes ↔ ∃ k, stage0 x ≤ k ∧ k < stage0 x + stageN x ∧
          ((∃ i c, c < i ∧ i < stageB x ∧ w = factCell st ((x.factStageAt st k).l i c) i c k)
            ∨ ∃ i, i < stageB x ∧ w = factCell st ((x.factStageAt st k).dinv i) i i k))
      ∧ r.pivots = (List.range (stageN x)).flatMap fun i => (x.factStageAt st (stage0 x + i)).piv) := by
  intro r
  have hr : r = runFact x := rfl
  have hcond : (!perStage x st || decide (62 < x.param 27 22)) = true ↔ ¬ FactShaped x st := by
    simp only [FactShaped, perStage, Bool.or_eq_true, Bool.not_eq_true', decide_eq_true_eq, not_and_or, Bool.and_eq_false_iff, beq_eq_false_iff_ne,
      decide_eq_false_iff_not, ne_eq, not_le, or_assoc]
  rw [runFact, tens_of_ok hd hok] at hr
  dsimp only at hr
  refine ⟨fun hs => ?_, fun hs => ?_⟩
  · rw [if_pos (hcond.2 hs)] at hr
    rw [hr]
    exact ⟨rfl, rfl⟩
  · rw [if_neg fun hc => hcond.1 hc hs] at hr
    obtain ⟨h0, h1, h2, hb, hfI⟩ := hs
    have hf : st.fmt = fmtHQ32 := by
      rw [TDesc.ok, Bool.and_eq_true] at hok
      simpa using hok.2
    have hfit := fun k => factCols_fit (st := st) (tau := ⟨sgn 32 x.sc.tau, -30⟩) (delta := ⟨sgn 32 x.sc.delta, -30⟩) (fI := x.param 27 22)
      (k := k) (n := stageB x) ⟨fun i j => matAt st (st.dys x.m) k i j, fun _ _ => Dy.zero, fun _ => Dy.zero, [], []⟩ (stageB x)
    rw [hr]
    refine ⟨rfl, rfl, rfl, fun w => ?_, List.flatMap_map ..⟩
    dsimp only
    refine (List.mem_append.trans (or_congr
      (mem_factPart (g := x.factStageAt st) (sel := fun c i => c < i) (val := fun t i c => t.l i c) hf h0 h1 h2 hb
        (fun k i c hs hi hc => (hfit k).1 i c hc hs hi) fun m => if_congr (by simp) rfl rfl)
      (mem_factPart (d := { st with frac := x.param 27 22 }) (g := x.factStageAt st) (sel := fun c i => c = i) (val := fun t _ c => t.dinv c)
        hf h0 h1 h2 hb (fun k i c _ _ hc => (hfit k).2 c hc) fun m => if_congr (by simp) rfl rfl))).trans ?_
    constructor
    · rintro (⟨k, hk, hk', i, c, hs, hi, -, rfl⟩ | ⟨k, hk, hk', i, c, rfl, hi, -, rfl⟩)
      · exact ⟨k, hk, hk', .inl ⟨i, c, hs, hi, rfl⟩⟩
      · exact ⟨k, hk, hk', .inr ⟨c, hi, rfl⟩⟩
    · rintro ⟨k, hk, hk', ⟨i, c, hs, hi, rfl⟩ | ⟨i, hi, rfl⟩⟩
      · exact .inl ⟨k, hk, hk', i, c, hs, hi, by omega, rfl⟩
      · exact .inr ⟨k, hk, hk', i, i, rfl, hi, hi, rfl⟩

end

end Sys2Proof.Machine
end

/-! ## Engine commands from their start to their end (O16) -/

section

namespace Sys2Proof.Machine

/-- The opcode of each engine command names its own row. -/
theorem specOf_opc : ∀ sp ∈ [specSpmv, specVscale, specDgemm, specBdapply, specFormk, specFact, specInvblk, specVadd, specVsub, specVmul, specVmadd,
    specVclr, specVcopy, specVcvt, specVsel, specVclamp, specVneg, specVabs, specShift, specVdot, specVmaxabs, specVsumh, specRspmv, specRmul,
    specLmatv, specRdot], specOf sp.opc = sp := by
  simp only [List.forall_mem_cons]
  exact ⟨rfl, rfl, rfl, rfl, rfl, rfl, rfl, rfl, rfl, rfl, rfl, rfl, rfl, rfl, rfl, rfl, rfl, rfl, rfl, rfl, rfl, rfl, rfl, rfl, rfl, rfl,
    List.forall_mem_nil _⟩

theorem ECmd.result_specOf {sp : CmdSpec} (m : ECmd) (x : Cmd) (hsp : specOf sp.opc = sp) (hm : m.opc = sp.opc) :
    m.result (specOf m.opc) x = if m.refuse then { refuse := true, dur := 2 } else sp.run x := by
  rw [hm, hsp]
  rfl

/-- What the three HF24 element-wise commands of two tensors make of them. -/
theorem hf_numbers {x : Cmd} {d a b : TDesc} (hd : x.o0 = .tensor d) (ha : x.o1 = .tensor a) (hb : x.o2 = .tensor b)
    (hok : ∀ t ∈ [d, a, b], t.ok x.c veFmts = true ∧ t.fmt = fmtHF24 ∧ d.n ≤ t.n) :
    ∀ p ∈ ([(specVadd, hfAdd x.rnd), (specVsub, hfSub x.rnd), (specVmul, hfMul x.rnd)] : List (CmdSpec × (Nat → Nat → Nat × List Nat))),
      let r := p.1.run x
      let h := fun i => p.2 (a.raw x.m i % 2 ^ 24) (b.raw x.m i % 2 ^ 24)
      r.refuse = false ∧ r.fault = false
      ∧ r.writes = (List.range d.n).map (fun i => ⟨bytesAt (d.addr i) (toLE 4 (h i).1), none⟩)
      ∧ r.evs.Perm ((List.range d.n).flatMap fun i => (h i).2.map fun f => (f, i)) :=
  List.forall_mem_cons.2 ⟨elem_hf hd ha hb hok (hfAdd_eq x.rnd), List.forall_mem_cons.2 ⟨elem_hf hd ha hb hok (hfSub_eq x.rnd),
    List.forall_mem_cons.2 ⟨elem_hf hd ha hb hok (hfMul_eq x.rnd), List.forall_mem_nil _⟩⟩⟩

/-- SPMV in the words of O16. -/
theorem spmv_walk {x : Cmd} {d v xv : TDesc} (hd : x.o0 = .tensor d) (hv : x.o1 = .tensor v) (hx : x.o2 = .tensor xv)
    (hdok : d.ok x.c [fmtHQ32, fmtHB16] = true) (hvok : v.ok x.c [fmtHB16] = true) (hxok : xv.ok x.c [fmtHB16, fmtHQ32] = true) :
    let r := specSpmv.run x
    let h := patHead x.m x.preg
    let walk := patWalk h x.m x.preg h.nrec 0 none 0
    let rows := match walk.2 with
      | none => h.nrows
      | some b => rowsWritten h walk.1 (some b)
    let st := fun i => storeInt x.rnd 32 (-(d.frac : Int)) d.rb d.nonneg (rowSum x v xv walk.1 i)
    (¬ SpmvShaped x d v xv → r.refuse = true ∧ r.writes = [])
    ∧ (SpmvShaped x d v xv → r.refuse = false ∧ (r.fault = true ↔ walk.2 ≠ none)
      ∧ r.dur = (match walk.2 with | none => h.nrec | some b => min (b + 1) h.nrec)
      ∧ (d.fmt = fmtHQ32 → rows ≤ d.n →
        r.writes = (List.range rows).map (fun i => ⟨bytesAt (d.addr i) (toLE 4 (wrapN 32 (st i).1)), none⟩)
        ∧ r.evs = (List.range rows).flatMap fun i => (st i).2.map fun f => (f, i))) := by
  intro r h walk rows st
  obtain ⟨hbad, hgood⟩ := spmv_spec (tens_of_ok hd hdok) (tens_of_ok hv hvok) (tens_of_ok hx hxok)
  have hrows : rows = rowsWritten h walk.1 walk.2 := by
    change (match walk.2 with | none => h.nrows | some b => rowsWritten h walk.1 (some b)) = _
    cases walk.2 <;> rfl
  have hdur : (match walk.2 with | none => h.nrec | some b => min (b + 1) h.nrec) = patCycles h 1 walk.2 := by
    cases walk.2 with
    | none => exact (Nat.one_mul _).symm
    | some b => exact (Nat.one_mul _).symm
  refine ⟨hbad, fun hs => ?_⟩
  rw [hdur, hrows]
  exact hgood hs

/-- Settles O16: clause by clause, by the facts about the choice of the next command, the results of the engines' units, and the rows that start,
end and abort a command. -/
theorem engineCommandsStartAndEnd : Obligations.EngineCommandsStartAndEnd := by
  unfold Obligations.EngineCommandsStartAndEnd
  refine ⟨State.nextCmd_spec, ⟨fun sp hsp m x hm => m.result_specOf x (specOf_opc sp hsp) hm,
    fun r w g rb nonneg _ => ⟨storeInt_num r w g rb nonneg, storeInt_extreme r w g rb nonneg, rfl⟩, chooseFine_spec,
    fun t m i h => TDesc.val_number h m i, ?elements, fun x d a b hd ha hb hok => hf_numbers hd ha hb hok,
    fun x a b ha hb haok hbok hf hn => vdot_spec ha hb haok hbok hf hn⟩,
    ⟨accumulate_spec, ?record, patWalk_spec, fun x d v xv hd hv hx hdok hvok hxok => spmv_walk hd hv hx hdok hvok hxok, rowsWritten_spec⟩,
    ⟨pivotRule_spec, fun st tau delta fI k n j s _ => factCol_spec st tau delta fI k n j s, fun x st hd hok => fact_spec hd hok⟩,
    ?start, ?complete, ?abort⟩
  case elements => exact fun x d q hd hok hq => elementWise_numbers hd hok hq
  case record =>
    intro h m a last next nx segs cw lane valid seg hr
    exact patRecord_spec hr
  case start =>
    intro s s' c e m u r got hc hrun hfence hnext hcred
    exact ⟨exec_engineCommandStart hc hrun hfence hnext hcred, State.stageCmd_of_sound⟩
  case complete =>
    intro s c e m r w u hc hrun hdur
    exact ⟨exec_complete_merged hc hrun hdur, fun l hline htabs => exec_complete_line hc hrun hdur hline htabs⟩
  case abort =>
    intro s c e m r hc hrun hdur hm htabs hbase hbad
    exact exec_abort_spec hc hrun hdur hm htabs hbase hbad

end Sys2Proof.Machine

end

/-! ## O5: HF24 arithmetic and conversions (R42 to R45, R54, R55, R89, R255)

A result that is not of the form `m * 2^e` is kept with a sticky bit; what the rounding asks of a number is only on which side of each half of its
grid's step the number stands, and there the sticky bit answers as the exact number does. -/

section
namespace Sys2Proof.Machine

/-! ### Numbers that round alike -/

/-- The two stand on the same side of each half-integer. -/
def Alike (a u : ℝ) : Prop := ∀ j : ℤ, ((j : ℝ) < 2 * a ↔ (j : ℝ) < 2 * u) ∧ (2 * a < j ↔ 2 * u < j)

/-- `k` is `u` rounded to an integer. -/
def Nearest (r : Rnd) (k : ℤ) (u : ℝ) : Prop :=
  match r with
  | .rne => ¬ 2 * u < 2 * k - 1 ∧ ¬ 2 * (k : ℝ) + 1 < 2 * u ∧ (2 * u = 2 * k - 1 ∨ 2 * u = 2 * k + 1 → k % 2 = 0)
  | .rto => u = k ∨ (u ≠ k ∧ k % 2 = 1 ∧ (k : ℝ) - 1 < u ∧ u < k + 1)

theorem Alike.refl (a : ℝ) : Alike a a := fun _ => ⟨Iff.rfl, Iff.rfl⟩

section
variable {a u : ℝ} (h : Alike a u)
include h

theorem Alike.neg : Alike (-a) (-u) := fun j => by
  obtain ⟨h1, h2⟩ := h (-j)
  push_cast at h1 h2
  constructor
  · rw [mul_neg, lt_neg, h2, mul_neg, lt_neg]
  · rw [mul_neg, neg_lt, h1, mul_neg, neg_lt]

theorem Alike.half_lt (j : ℤ) : 2 * a < j ↔ 2 * u < j := (h j).2

theorem Alike.lt_half (j : ℤ) : (j : ℝ) < 2 * a ↔ (j : ℝ) < 2 * u := (h j).1

theorem Alike.eq_half (j : ℤ) : 2 * a = j ↔ 2 * u = j := by
  rw [← not_iff_not, ← ne_eq, ← ne_eq, ne_iff_lt_or_gt, ne_iff_lt_or_gt, h.lt_half, h.half_lt]

theorem Alike.lt_int (j : ℤ) : (j : ℝ) < a ↔ (j : ℝ) < u := by
  have := h.lt_half (2 * j)
  push_cast at this
  simpa using this

theorem Alike.int_lt (j : ℤ) : a < j ↔ u < j := by
  have := h.half_lt (2 * j)
  push_cast at this
  simpa using this

theorem Alike.eq_int (j : ℤ) : a = j ↔ u = j := by
  rw [← not_iff_not, ← ne_eq, ← ne_eq, ne_iff_lt_or_gt, ne_iff_lt_or_gt, h.lt_int, h.int_lt]

theorem Alike.nearest {r : Rnd} {k : ℤ} (hk : Nearest r k a) : Nearest r k u := by
  have e1 := h.eq_half (2 * k - 1)
  have e2 := h.eq_half (2 * k + 1)
  have l1 := h.half_lt (2 * k - 1)
  have l2 := h.lt_half (2 * k + 1)
  have i0 := h.eq_int k
  have i1 := h.lt_int (k - 1)
  have i2 := h.int_lt (k + 1)
  push_cast at e1 e2 l1 l2 i1 i2
  cases r with
  | rne =>
    rw [Nearest] at hk ⊢
    rwa [← e1, ← e2, ← l1, ← l2]
  | rto =>
    rw [Nearest] at hk ⊢
    rwa [← i1, ← i2, ne_eq, ← i0]

end

/-! ### The rounding of an exact number on a grid (R54, R55) -/

section
variable {m p j : ℤ} (hp : 0 < p)
include hp

theorem lt_two_quot_iff : (j : ℝ) < 2 * ((m : ℝ) / p) ↔ j * p < 2 * m := by
  have hp' : (0 : ℝ) < p := Int.cast_pos.2 hp
  rw [← mul_div_assoc, lt_div_iff₀ hp']
  norm_cast

theorem two_quot_lt_iff : 2 * ((m : ℝ) / p) < j ↔ 2 * m < j * p := by
  have hp' : (0 : ℝ) < p := Int.cast_pos.2 hp
  rw [← mul_div_assoc, div_lt_iff₀ hp']
  norm_cast

theorem two_quot_eq_iff : 2 * ((m : ℝ) / p) = j ↔ 2 * m = j * p := by
  have hp' : (p : ℝ) ≠ 0 := Int.cast_ne_zero.2 hp.ne'
  rw [← mul_div_assoc, div_eq_iff hp']
  norm_cast

theorem quot_eq_iff : (m : ℝ) / p = j ↔ m = j * p := by
  have hp' : (p : ℝ) ≠ 0 := Int.cast_ne_zero.2 hp.ne'
  rw [div_eq_iff hp']
  norm_cast

theorem nearest_nearestEven : Nearest .rne (nearestEven m p) ((m : ℝ) / p) := by
  obtain ⟨hnear, htie⟩ := nearestEven_spec (m := m) hp
  have l1 := two_quot_lt_iff (m := m) (j := 2 * nearestEven m p - 1) hp
  have l2 := lt_two_quot_iff (m := m) (j := 2 * nearestEven m p + 1) hp
  have e1 := two_quot_eq_iff (m := m) (j := 2 * nearestEven m p - 1) hp
  have e2 := two_quot_eq_iff (m := m) (j := 2 * nearestEven m p + 1) hp
  push_cast at l1 l2 e1 e2
  rw [Nearest, l1, l2, e1, e2]
  have d1 : (2 * nearestEven m p - 1) * p = 2 * (nearestEven m p * p) - p := by ring
  have d2 : (2 * nearestEven m p + 1) * p = 2 * (nearestEven m p * p) + p := by ring
  rw [d1, d2]
  generalize nearestEven m p * p = w at *
  exact ⟨by omega, by omega, fun h => htie (by omega)⟩

theorem nearest_nearestOdd : Nearest .rto (nearestOdd m p) ((m : ℝ) / p) := by
  obtain ⟨hexact, hodd⟩ := nearestOdd_spec (m := m) hp
  by_cases hm : m % p = 0
  · exact .inl ((quot_eq_iff hp).2 (hexact hm))
  · obtain ⟨hnear, hodd⟩ := hodd hm
    have l1 := lt_two_quot_iff (m := m) (j := 2 * (nearestOdd m p - 1)) hp
    have l2 := two_quot_lt_iff (m := m) (j := 2 * (nearestOdd m p + 1)) hp
    push_cast at l1 l2
    rw [mul_lt_mul_iff_right₀ two_pos] at l1 l2
    refine .inr ⟨fun he => hm ?_, hodd, l1.2 ?_, l2.2 ?_⟩
    · rw [(quot_eq_iff hp).1 he, Int.mul_emod_left]
    · have d : 2 * (nearestOdd m p - 1) * p = 2 * (nearestOdd m p * p) - 2 * p := by ring
      omega
    · have d : 2 * (nearestOdd m p + 1) * p = 2 * (nearestOdd m p * p) + 2 * p := by ring
      omega

end

/-- A number in steps of the grid `2^g`. -/
noncomputable def Dy.steps (x : Dy) (g : ℤ) : ℝ := (x.val : ℝ) / 2 ^ g

theorem Dy.steps_of_le {x : Dy} {g : ℤ} (h : g ≤ x.e) : x.steps g = x.mant g := by
  rw [steps, val_eq_mant h]
  push_cast
  exact mul_div_cancel_right₀ _ (zpow_ne_zero _ two_ne_zero)

theorem Dy.steps_of_lt {x : Dy} {g : ℤ} (h : x.e < g) : x.steps g = (x.m : ℝ) / (pow2 (g - x.e).toNat : ℤ) := by
  have hpow : ((pow2 (g - x.e).toNat : ℤ) : ℝ) = 2 ^ g / 2 ^ x.e := by
    rw [pow2_eq, Int.cast_pow, Int.cast_two, ← zpow_natCast, Int.toNat_of_nonneg (by omega), zpow_sub₀ two_ne_zero]
  rw [steps, val, hpow, div_div_eq_mul_div]
  push_cast
  rfl

theorem Dy.nearest_round (x : Dy) (r : Rnd) (g : ℤ) : Nearest r (x.round r g).1 (x.steps g) := by
  by_cases h : g ≤ x.e
  · rw [round_of_le h, steps_of_le h]
    cases r with
    | rne => exact ⟨by linarith, by linarith, fun h => by rcases h with h | h <;> linarith⟩
    | rto => exact .inl rfl
  · rw [steps_of_lt (not_le.1 h)]
    cases r with
    | rne => rw [round_rne (not_le.1 h)]; exact nearest_nearestEven (pow2_pos _)
    | rto => rw [round_rto (not_le.1 h)]; exact nearest_nearestOdd (pow2_pos _)

theorem Dy.round_snd {x : Dy} {g : ℤ} (h : x.e < g) (r : Rnd) : (x.round r g).2 = decide (x.m % pow2 (g - x.e).toNat = 0) := by
  cases r with
  | rto => rw [round_rto h]
  | rne =>
    simp only [Dy.round, if_neg h.not_ge]
    split_ifs with h0 <;> simp [h0]

theorem Dy.round_fst_of_dvd {x : Dy} {g : ℤ} (h : x.e < g) (r : Rnd) (h0 : x.m % pow2 (g - x.e).toNat = 0) :
    (x.round r g).1 = x.m / pow2 (g - x.e).toNat := by
  rw [Dy.round, if_neg h.not_ge]
  dsimp only
  rw [if_pos h0]

theorem Dy.round_exact_iff (x : Dy) (r : Rnd) (g : ℤ) : (x.round r g).2 = true ↔ x.steps g = (x.round r g).1 := by
  by_cases h : g ≤ x.e
  · rw [round_of_le h, steps_of_le h]
    exact iff_of_true rfl rfl
  · have h := not_le.1 h
    rw [steps_of_lt h, quot_eq_iff (pow2_pos _), round_snd h, decide_eq_true_iff]
    constructor
    · intro h0
      rw [round_fst_of_dvd h r h0]
      exact (Int.ediv_mul_cancel (Int.dvd_of_emod_eq_zero h0)).symm
    · intro he
      rw [he, Int.mul_emod_left]

end Sys2Proof.Machine
end

/-! ### The values of HF24 and the numbers between them (R42, R43) -/

section
namespace Sys2Proof.Machine

theorem hfVal_of_lt {k : ℕ} (hk : k < 0x8000) : hfVal k = .fin ⟨k, -141⟩ := by
  have h1 : natBits k 22 15 = 0 := by rw [natBits_eq_div_mod]; omega
  have h2 : natBits k 14 0 = k := by rw [natBits_eq_div_mod]; omega
  have h3 : natBit k 23 = false := by rw [natBit_eq_decide, decide_eq_false_iff_not]; omega
  simp [hfVal, h1, h2, h3]

theorem hfVal_exponent {e f : ℕ} (h1 : 1 ≤ e) (h2 : e ≤ 254) (hf : f < 0x8000) :
    hfVal (e * 0x8000 + f) = .fin ⟨((f + 0x8000 : ℕ) : ℤ), e - 142⟩ := by
  have b1 : natBits (e * 0x8000 + f) 22 15 = e := by rw [natBits_eq_div_mod]; omega
  have b2 : natBits (e * 0x8000 + f) 14 0 = f := by rw [natBits_eq_div_mod]; omega
  have b3 : natBit (e * 0x8000 + f) 23 = false := by rw [natBit_eq_decide, decide_eq_false_iff_not]; omega
  have e255 : e ≠ 255 := by omega
  have e0 : e ≠ 0 := by omega
  simp only [hfVal, b1, b2, b3, if_neg e255, if_neg e0, Bool.false_eq_true, if_false]

/-- The significand and the exponent of a finite value are in their ranges. -/
theorem hfVal_fin_bounds {b : ℕ} {w : Dy} (h : hfVal b = .fin w) : w.m.natAbs < 0x10000 ∧ -141 ≤ w.e := by
  have hf : natBits b 14 0 < 0x8000 := by rw [natBits_eq_div_mod]; omega
  rw [hfVal] at h
  dsimp only at h
  split_ifs at h with h1 h2 h3 h4 h4 <;> cases h
  all_goals
    dsimp only
    omega

theorem hfVal_hfNeg_fin {b : ℕ} {w : Dy} (h : hfVal b = .fin w) : hfVal (hfNeg b) = .fin w.neg := by
  have hx := hfVal_hfNeg b
  rw [h] at hx
  cases hn : hfVal (hfNeg b) with
  | nan => rw [hn] at hx; cases hx
  | inf s => rw [hn] at hx; cases hx
  | fin v => rw [hn] at hx; cases hx; rfl

/-- In steps of a grid that HF24 has, a finite value is whole, or smaller than what has 16 bits there. -/
theorem hfVal_steps {b : ℕ} {w : Dy} (h : hfVal b = .fin w) (g : ℤ) :
    (∃ j : ℤ, w.steps g = j) ∨ (w.steps g < 2 ^ 15 ∧ g ≠ -141) := by
  obtain ⟨hm, he⟩ := hfVal_fin_bounds h
  by_cases hg : g ≤ w.e
  · exact .inl ⟨_, Dy.steps_of_le hg⟩
  · have hlt := not_le.1 hg
    refine .inr ⟨?_, by omega⟩
    have hp : (2 : ℤ) ≤ pow2 (g - w.e).toNat := by
      rw [show (g - w.e).toNat = 1 + (g - w.e - 1).toNat by omega, pow2_add]
      have := pow2_pos (g - w.e - 1).toNat
      rw [show pow2 1 = 2 from rfl]
      omega
    have hp' : (2 : ℝ) ≤ (pow2 (g - w.e).toNat : ℤ) := by exact_mod_cast hp
    have hm' : (w.m : ℝ) < 2 ^ 16 := by
      have : w.m < 2 ^ 16 := by omega
      exact_mod_cast this
    rw [Dy.steps_of_lt hlt, div_lt_iff₀ (by linarith)]
    linarith

section
variable {k : ℤ} {u t : ℝ} (ht : (∃ j : ℤ, t = j) ∨ (t < 2 ^ 15 ∧ 2 ^ 15 ≤ u))

/-- No whole number is nearer than the nearest one. -/
theorem Nearest.rne_le_int (h : Nearest .rne k u) (j : ℤ) : |(k : ℝ) - u| ≤ |(j : ℝ) - u| ∧ ((j : ℝ) ≠ k → |(k : ℝ) - u| = |(j : ℝ) - u| → k % 2 = 0) := by
  obtain ⟨h1, h2, heven⟩ := h
  rcases lt_trichotomy j k with hj | rfl | hj
  · have hj' : (j : ℝ) + 1 ≤ k := by exact_mod_cast hj
    have hju : |(j : ℝ) - u| = u - j := by rw [abs_sub_comm, abs_of_nonneg (by linarith)]
    rw [hju]
    refine ⟨abs_le.2 ⟨by linarith, by linarith⟩, fun _ he => heven ?_⟩
    rcases abs_choice ((k : ℝ) - u) with ha | ha <;> rw [ha] at he
    · exact .inl (by linarith)
    · linarith
  · exact ⟨le_rfl, fun h => absurd rfl h⟩
  · have hj' : (k : ℝ) + 1 ≤ j := by exact_mod_cast hj
    have hju : |(j : ℝ) - u| = j - u := abs_of_nonneg (by linarith)
    rw [hju]
    refine ⟨abs_le.2 ⟨by linarith, by linarith⟩, fun _ he => heven ?_⟩
    rcases abs_choice ((k : ℝ) - u) with ha | ha <;> rw [ha] at he
    · linarith
    · exact .inr (by linarith)

include ht

theorem Nearest.rne_le (h : Nearest .rne k u) : |(k : ℝ) - u| ≤ |t - u| ∧ (t ≠ k → |(k : ℝ) - u| = |t - u| → k % 2 = 0) := by
  rcases ht with ⟨j, rfl⟩ | ⟨ht, hu⟩
  · exact h.rne_le_int j
  · obtain ⟨hle, -⟩ := h.rne_le_int (2 ^ 15)
    rw [Int.cast_pow, Int.cast_two] at hle
    have h1 : |(2 : ℝ) ^ 15 - u| = u - 2 ^ 15 := by rw [abs_sub_comm, abs_of_nonneg (by linarith)]
    have h2 : |t - u| = u - t := by rw [abs_sub_comm, abs_of_nonneg (by linarith)]
    rw [h1] at hle
    rw [h2]
    exact ⟨by linarith, fun _ he => by linarith⟩

theorem Nearest.rto_between (h1 : u ≠ k) (h2 : (k : ℝ) - 1 < u) (h3 : u < k + 1) :
    t ≠ u ∧ ¬ ((k : ℝ) < t ∧ t < u) ∧ ¬ (u < t ∧ t < k) := by
  rcases ht with ⟨j, rfl⟩ | ⟨ht, hu⟩
  · refine ⟨fun he => h1 ?_, fun ⟨ha, hb⟩ => ?_, fun ⟨ha, hb⟩ => ?_⟩
    · rw [← he] at h2 h3 ⊢
      have e1 : k - 1 < j := by exact_mod_cast h2
      have e2 : j < k + 1 := by exact_mod_cast h3
      rw [show j = k by omega]
    · have e1 : k < j := by exact_mod_cast ha
      have e2 : j < k + 1 := by exact_mod_cast hb.trans h3
      omega
    · have e1 : k - 1 < j := by exact_mod_cast h2.trans ha
      have e2 : j < k := by exact_mod_cast hb
      omega
  · have hk : (2 : ℝ) ^ 15 ≤ k := by
      have : (2 ^ 15 : ℤ) < k + 1 := by exact_mod_cast hu.trans_lt h3
      exact_mod_cast Int.lt_add_one_iff.1 this
    exact ⟨by linarith, fun ⟨ha, _⟩ => by linarith, fun ⟨ha, _⟩ => by linarith⟩

end

/-! ### The encoding of a significand on its grid -/

/-- The encoding of `k` steps of the grid `2^g`. -/
def hfEnc (g : ℤ) (k : ℕ) : ℕ := if k < 0x8000 then k else (g + 142).toNat * 0x8000 + (k - 0x8000)

theorem hfEnc_mod_two (g : ℤ) (k : ℕ) : hfEnc g k % 2 = k % 2 := by
  rw [hfEnc]
  split_ifs <;> omega

section
variable {g : ℤ} {k : ℕ} (hg : -141 ≤ g)
include hg

theorem hfEnc_eq_zero_iff : hfEnc g k = 0 ↔ k = 0 := by
  rw [hfEnc]
  split_ifs <;> omega

variable (hg' : g ≤ 112) (hk : k ≤ 0x10000)
include hg' hk

theorem hfEnc_lt : hfEnc g k < 0x800000 := by
  rw [hfEnc]
  split_ifs <;> omega

variable (htop : ¬ (k = 0x10000 ∧ g = 112))
include htop

theorem hfVal_hfEnc (hlow : k < 0x8000 → g = -141) : ∃ v, hfVal (hfEnc g k) = .fin v ∧ (v.val : ℝ) = k * 2 ^ g := by
  have hval : ∀ (m : ℕ) (e : ℤ), (((⟨m, e⟩ : Dy).val : Rat) : ℝ) = m * 2 ^ e := fun m e => by
    rw [Dy.val]
    push_cast
    rfl
  rw [hfEnc]
  by_cases h1 : k < 0x8000
  · rw [if_pos h1, hfVal_of_lt h1, hlow h1]
    exact ⟨_, rfl, hval k _⟩
  · rw [if_neg h1]
    by_cases h2 : k = 0x10000
    · have he : (g + 142).toNat * 0x8000 + (k - 0x8000) = (g + 143).toNat * 0x8000 + 0 := by omega
      rw [he, hfVal_exponent (by omega) (by omega) (by decide)]
      refine ⟨_, rfl, (hval _ _).trans ?_⟩
      rw [h2, Int.toNat_of_nonneg (by omega), show g + 143 - 142 = g + 1 by ring, zpow_add_one₀ two_ne_zero]
      push_cast
      ring
    · rw [hfVal_exponent (by omega) (by omega) (by omega)]
      refine ⟨_, rfl, (hval _ _).trans ?_⟩
      rw [Int.toNat_of_nonneg (by omega), show g + 142 - 142 = g by ring, Nat.sub_add_cancel (by omega)]

end

end Sys2Proof.Machine
end

/-! ### Rounding to HF24 (R42 to R45, R54, R55) -/

section
namespace Sys2Proof.Machine

/-- What is beyond the finite values of HF24. -/
def HfBeyond (r : Rnd) (z : ℝ) : Prop :=
  match r with
  | .rne => (2 - 2 ^ (-16 : Int)) * 2 ^ 127 ≤ |z|
  | .rto => (2 - 2 ^ (-15 : Int)) * 2 ^ 127 < |z|

/-- What such a number becomes. -/
def hfTop (r : Rnd) (neg : Bool) : ℕ :=
  match r with
  | .rne => hfInf neg
  | .rto => hfMax neg

theorem hfRounds_of_beyond {r : Rnd} {z : ℝ} (hb : HfBeyond r z) : HfRounds r z (hfTop r (decide (z < 0)), [fInf]) := by
  cases r with
  | rne =>
    refine ⟨fun _ => ?_, fun hn => absurd hb hn⟩
    simp only [hfTop, hfInf, decide_eq_true_eq]
  | rto =>
    refine ⟨fun _ => ?_, fun hn => absurd hb hn⟩
    simp only [hfTop, hfMax, decide_eq_true_eq]

theorem hfRounds_zero (r : Rnd) : HfRounds r 0 (0, []) := by
  have hz : hfVal 0 = .fin ⟨0, -141⟩ := rfl
  have hv : (((⟨0, -141⟩ : Dy).val : ℚ) : ℝ) = 0 := by simp [Dy.val]
  have hpos : ∀ n : ℤ, n < 0 → (0 : ℝ) < (2 - 2 ^ n) * 2 ^ 127 := fun n hn =>
    mul_pos (sub_pos.2 ((zpow_le_one_of_nonpos₀ one_le_two hn.le).trans_lt one_lt_two)) (by positivity)
  cases r with
  | rne =>
    refine ⟨fun hb => absurd hb ?_, fun _ => ⟨_, by decide, hz, fun _ => rfl, ?_, ?_⟩⟩
    · rw [abs_zero]
      exact (hpos _ (by decide)).not_ge
    · rw [hv, if_neg fun h => h.2 rfl]
    · intro b w hw
      rw [hv, sub_self, abs_zero]
      exact ⟨abs_nonneg _, fun _ _ => rfl⟩
  | rto =>
    refine ⟨fun hb => absurd hb ?_, fun _ => ⟨_, by decide, hz, fun _ => rfl, ?_, .inl hv⟩⟩
    · rw [abs_zero]
      exact (hpos _ (by decide)).le.not_gt
    · rw [hv, if_neg fun h => h.2 rfl]

theorem Dy.steps_mul (x : Dy) (g : ℤ) : x.steps g * 2 ^ g = x.val := div_mul_cancel₀ _ (zpow_ne_zero _ two_ne_zero)

section
variable {r : Rnd} {g : ℤ} {k : ℕ} {u : ℝ} (hn : Nearest r k u) (hg : -141 ≤ g) (hg' : g ≤ 112) (hk : k ≤ 0x10000)
  (htop : ¬ (k = 0x10000 ∧ g = 112)) (hlow : k < 0x8000 → g = -141) (hbig : g ≠ -141 → 2 ^ 15 ≤ u)
include hn hg hg' hk htop hlow hbig

/-- The nearest whole number of steps, encoded, is the rounded value. -/
theorem hfRounds_of_nearest (hb : ¬ HfBeyond r (u * 2 ^ g)) :
    HfRounds r (u * 2 ^ g) (hfEnc g k, if k < 0x8000 ∧ (k : ℝ) ≠ u then [fUnder] else []) := by
  obtain ⟨v, hv, hval⟩ := hfVal_hfEnc hg hg' hk htop hlow
  have hp : (0 : ℝ) < 2 ^ g := zpow_pos two_pos _
  have hlt : hfEnc g k < 2 ^ 24 := (hfEnc_lt hg hg' hk).trans (by decide)
  have hzero : (v.val : ℝ) = 0 → hfEnc g k = 0 := fun h0 => by
    rw [hval, mul_eq_zero, or_iff_left hp.ne'] at h0
    exact (hfEnc_eq_zero_iff hg).2 (Nat.cast_eq_zero.1 h0)
  have hsub : |(v.val : ℝ)| < 2 ^ (-126 : ℤ) ↔ k < 0x8000 := by
    have h126 : (2 : ℝ) ^ (-126 : ℤ) = 2 ^ 15 * 2 ^ (-141 : ℤ) := by rw [← zpow_natCast, ← zpow_add₀ two_ne_zero]; rfl
    rw [hval, abs_of_nonneg (by positivity), h126]
    constructor
    · intro h
      by_contra hc
      have h1 : (2 : ℝ) ^ 15 ≤ k := by exact_mod_cast not_lt.1 hc
      have h2 : (2 : ℝ) ^ (-141 : ℤ) ≤ 2 ^ g := zpow_le_zpow_right₀ one_le_two hg
      exact absurd h (mul_le_mul h1 h2 (by positivity) (by positivity)).not_gt
    · intro h
      rw [hlow h]
      have h1 : (k : ℝ) < 2 ^ 15 := by exact_mod_cast h
      exact mul_lt_mul_of_pos_right h1 (by positivity)
  have hfl : (if k < 0x8000 ∧ (k : ℝ) ≠ u then [fUnder] else []) =
      if |(v.val : ℝ)| < 2 ^ (-126 : ℤ) ∧ (v.val : ℝ) ≠ u * 2 ^ g then [fUnder] else [] := by
    refine if_congr (and_congr hsub.symm (not_congr ?_)) rfl rfl
    rw [hval, mul_left_inj' hp.ne']
  have hsteps : ∀ {b w}, hfVal b = .fin w → (∃ j : ℤ, w.steps g = j) ∨ (w.steps g < 2 ^ 15 ∧ 2 ^ 15 ≤ u) := fun hw =>
    (hfVal_steps hw g).imp_right fun h => ⟨h.1, hbig h.2⟩
  cases r with
  | rne =>
    refine ⟨fun h => absurd h hb, fun _ => ⟨v, hlt, hv, hzero, hfl, fun b w hw => ?_⟩⟩
    obtain ⟨hle, hev⟩ := Nearest.rne_le (hsteps hw) hn
    rw [hval, ← w.steps_mul g, ← sub_mul, ← sub_mul, abs_mul, abs_mul, abs_of_pos hp, mul_left_inj' hp.ne']
    refine ⟨mul_le_mul_of_nonneg_right hle hp.le, fun hne he => ?_⟩
    have := hev (fun he => hne (by rw [he]; rfl)) he
    rw [hfEnc_mod_two]
    omega
  | rto =>
    refine ⟨fun h => absurd h hb, fun _ => ⟨v, hlt, hv, hzero, hfl, ?_⟩⟩
    rcases hn with he | ⟨hne, hodd, h1, h2⟩
    · exact .inl (by rw [hval, he]; rfl)
    · refine .inr ⟨?_, fun b w hw => ?_⟩
      · rw [hfEnc_mod_two]
        omega
      · obtain ⟨c1, c2, c3⟩ := Nearest.rto_between (hsteps hw) hne h1 h2
        rw [hval, ← w.steps_mul g, ne_eq, mul_left_inj' hp.ne', mul_lt_mul_iff_left₀ hp, mul_lt_mul_iff_left₀ hp, mul_lt_mul_iff_left₀ hp,
          mul_lt_mul_iff_left₀ hp]
        exact ⟨c1, c2, c3⟩

end

end Sys2Proof.Machine
end

/-! ### The rounding of the model (R45) -/

section
namespace Sys2Proof.Machine

/-- The exponent of a value's leading bit. -/
def Dy.lead (x : Dy) : ℤ := (bits x.m.natAbs : ℤ) - 1 + x.e

/-- The grid on which HF24 rounds a value: 16 bits from its leading one, or that of the subnormal values. -/
def Dy.hfGrid (x : Dy) : ℤ := if -126 ≤ x.lead then x.lead - 15 else -141

/-- The value overflows: it has more bits than HF24, or it is above the largest finite value and rounds to odd, or it rounds up to more bits. -/
def HfOver (r : Rnd) (x : Dy) : Prop :=
  let k := (x.abs.round r x.hfGrid).1.toNat
  127 < x.lead ∨ (x.lead = 127 ∧ (k = 0x10000
    ∨ (r = .rto ∧ (x.abs.round r x.hfGrid).2 = false ∧ k = 0xFFFF ∧ x.abs.le ⟨0xFFFF, 112⟩ = false)))

/-- An encoding with a sign; a zero has none (R44). -/
def hfSigned (neg : Bool) (n : ℕ) : ℕ := if n = 0 then 0 else n + if neg then 0x800000 else 0

theorem Dy.lead_abs (x : Dy) : x.abs.lead = x.lead := rfl

/-- What a value becomes that does not overflow, by its steps `k` and whether they are exact. -/
def hfFinite (neg : Bool) (g : ℤ) (k : ℕ) (exact : Bool) : ℕ × List ℕ :=
  let carry := decide (k = 0x10000)
  let k' := if carry then 0x8000 else k
  let g' := if carry then g + 1 else g
  if k' < 0x8000 then (if k' = 0 then 0 else k' + (if neg then 0x800000 else 0), if exact then [] else [fUnder])
  else (((g' + 142).toNat * 0x8000 + (k' - 0x8000)) + (if neg then 0x800000 else 0), [])

theorem hfFinite_eq {neg : Bool} {g : ℤ} (hg : -141 ≤ g) (k : ℕ) (exact : Bool) :
    hfFinite neg g k exact = (hfSigned neg (hfEnc g k), if k < 0x8000 ∧ exact = false then [fUnder] else []) := by
  rw [hfFinite, hfSigned]
  have hz := hfEnc_eq_zero_iff (k := k) hg
  by_cases h1 : k < 0x8000
  · have hk : ¬ k = 0x10000 := by omega
    rw [decide_eq_false hk, hfEnc, if_pos h1]
    simp only [Bool.false_eq_true, if_false, if_pos h1]
    cases exact <;> simp [h1]
  · have h0 : ¬ hfEnc g k = 0 := fun h => by omega
    have hf : ¬ (k < 0x8000 ∧ exact = false) := fun h => h1 h.1
    rw [if_neg h0, if_neg hf, hfEnc, if_neg h1]
    by_cases hk : k = 0x10000
    · have he : (g + 1 + 142).toNat * 0x8000 + (0x8000 - 0x8000) = (g + 142).toNat * 0x8000 + (k - 0x8000) := by omega
      rw [decide_eq_true hk]
      simp only [if_true, if_neg (Nat.lt_irrefl _), he]
    · rw [decide_eq_false hk]
      simp only [Bool.false_eq_true, if_false, if_neg h1]

/-- The model's rounding in the words above. -/
theorem hfRound_eq (r : Rnd) {x : Dy} (hm : x.m ≠ 0) :
    let neg := decide (x.m < 0)
    let w := x.abs.round r x.hfGrid
    let k := w.1.toNat
    hfRound r x = if 127 < x.lead then (hfTop r neg, [fInf])
      else if (decide (r = .rto) && !w.2 && x.lead == 127 && decide (k = 0xFFFF) && !(x.abs.le ⟨0xFFFF, 112⟩)) = true then (hfTop r neg, [fInf])
      else if (decide (k = 0x10000) && x.lead == 127) = true then (hfTop r neg, [fInf])
      else hfFinite neg x.hfGrid k w.2 := by
  intro neg w k
  rw [hfRound, if_neg hm]
  cases r <;> rfl

section
variable {r : Rnd} {x : Dy} (hm : x.m ≠ 0)
include hm

theorem hfRound_of_over (h : HfOver r x) : hfRound r x = (hfTop r (decide (x.m < 0)), [fInf]) := by
  rw [hfRound_eq r hm]
  split_ifs with h1 h2 h3
  · rfl
  · rfl
  · rfl
  · refine absurd h fun h => ?_
    rcases h with hl | ⟨hl, hk | ⟨rfl, ha, hb, hc⟩⟩
    · exact h1 hl
    · exact h3 (by simp [hl, hk])
    · exact h2 (by simp [hl, ha, hb, hc])

theorem hfRound_of_not_over (h : ¬ HfOver r x) :
    let k := (x.abs.round r x.hfGrid).1.toNat
    hfRound r x = (hfSigned (decide (x.m < 0)) (hfEnc x.hfGrid k), if k < 0x8000 ∧ (x.abs.round r x.hfGrid).2 = false then [fUnder] else []) := by
  intro k
  have hg : -141 ≤ x.hfGrid := by rw [Dy.hfGrid]; split_ifs <;> omega
  rw [← hfFinite_eq hg, hfRound_eq r hm]
  split_ifs with h1 h2 h3
  · exact absurd (.inl h1) h
  · simp only [Bool.and_eq_true, Bool.not_eq_true', decide_eq_true_eq, beq_iff_eq] at h2
    exact absurd (.inr ⟨by tauto, .inr (by tauto)⟩) h
  · simp only [Bool.and_eq_true, decide_eq_true_eq, beq_iff_eq] at h3
    exact absurd (.inr ⟨h3.2, .inl h3.1⟩) h
  · rfl

end

end Sys2Proof.Machine
end

/-! ### A number that rounds alike is rounded (R45, R54, R55) -/

section
namespace Sys2Proof.Machine

/-! #### The leading bit -/

theorem Dy.abs_eq_of_pos {x : Dy} (hm : 0 < x.m) : x.abs = x := by
  rw [Dy.abs, Int.natAbs_of_nonneg hm.le]

section
variable {x : Dy} (hm : 0 < x.m)
include hm

theorem Dy.val_pos : (0 : ℝ) < x.val := by
  have h : 0 ≤ x.val := not_lt.1 fun h => by have := val_lt_zero_iff.1 h; omega
  exact_mod_cast h.lt_of_ne fun h0 => hm.ne' (val_eq_zero_iff.1 h0.symm)

theorem Dy.steps_pos (g : ℤ) : 0 < x.steps g := div_pos (val_pos hm) (zpow_pos two_pos _)

theorem Dy.lead_bounds : (2 : ℝ) ^ x.lead ≤ x.val ∧ (x.val : ℝ) < 2 ^ (x.lead + 1) := by
  have h0 : x.m.natAbs ≠ 0 := by omega
  have hlead : x.lead = (Nat.log2 x.m.natAbs : ℤ) + x.e := by
    rw [lead, bits, if_neg h0]
    push_cast
    ring
  have hm' : ((x.m.natAbs : ℕ) : ℝ) = (x.m : ℝ) := by rw [Nat.cast_natAbs, abs_of_pos hm]
  have h1 : (2 : ℝ) ^ Nat.log2 x.m.natAbs ≤ x.m := by rw [← hm']; exact_mod_cast Nat.log2_self_le h0
  have h2 : (x.m : ℝ) < 2 ^ (Nat.log2 x.m.natAbs + 1) := by rw [← hm']; exact_mod_cast Nat.lt_log2_self
  have hp : (0 : ℝ) < 2 ^ x.e := zpow_pos two_pos _
  rw [hlead, add_right_comm, zpow_add₀ two_ne_zero, zpow_add₀ two_ne_zero, val]
  push_cast
  rw [← zpow_natCast] at h1 h2
  push_cast at h2
  exact ⟨mul_le_mul_of_nonneg_right h1 hp.le, mul_lt_mul_of_pos_right h2 hp⟩

theorem Dy.steps_of_normal (h : -126 ≤ x.lead) : x.hfGrid = x.lead - 15 ∧ 2 ^ 15 ≤ x.steps x.hfGrid ∧ x.steps x.hfGrid < 2 ^ 16 := by
  obtain ⟨h1, h2⟩ := lead_bounds hm
  have hg : x.hfGrid = x.lead - 15 := if_pos h
  have hp : (0 : ℝ) < 2 ^ (x.lead - 15) := zpow_pos two_pos _
  have e1 : (2 : ℝ) ^ x.lead = 2 ^ 15 * 2 ^ (x.lead - 15) := by rw [← zpow_natCast, ← zpow_add₀ two_ne_zero]; congr 1; push_cast; ring
  have e2 : (2 : ℝ) ^ (x.lead + 1) = 2 ^ 16 * 2 ^ (x.lead - 15) := by rw [← zpow_natCast, ← zpow_add₀ two_ne_zero]; congr 1; push_cast; ring
  rw [hg, steps, le_div_iff₀ hp, div_lt_iff₀ hp, ← e1, ← e2]
  exact ⟨rfl, h1, h2⟩

theorem Dy.steps_of_subnormal (h : ¬ -126 ≤ x.lead) : x.hfGrid = -141 ∧ x.steps x.hfGrid < 2 ^ 15 := by
  obtain ⟨-, h2⟩ := lead_bounds hm
  have hg : x.hfGrid = -141 := if_neg h
  have hp : (0 : ℝ) < 2 ^ (-141 : ℤ) := zpow_pos two_pos _
  have e : (2 : ℝ) ^ (-126 : ℤ) = 2 ^ 15 * 2 ^ (-141 : ℤ) := by rw [← zpow_natCast, ← zpow_add₀ two_ne_zero]; rfl
  rw [hg, steps, div_lt_iff₀ hp, ← e]
  exact ⟨rfl, h2.trans_le (zpow_le_zpow_right₀ one_le_two (by omega))⟩

end

/-! #### Nearest whole numbers keep bounds -/

section
variable {r : Rnd} {k j : ℤ} {u : ℝ} (h : Nearest r k u)
include h

theorem Nearest.le_of_le (hj : (j : ℝ) ≤ u) : j ≤ k := by
  have hk : (j : ℝ) < k + 1 := by
    cases r with
    | rne => obtain ⟨-, h2, -⟩ := h; linarith
    | rto =>
      rcases h with h | ⟨-, -, -, h⟩ <;> linarith
  exact Int.lt_add_one_iff.1 (by exact_mod_cast hk)

theorem Nearest.le_of_ge (hj : u ≤ j) : k ≤ j := by
  have hk : (k : ℝ) < j + 1 := by
    cases r with
    | rne => obtain ⟨h1, -, -⟩ := h; linarith
    | rto =>
      rcases h with h | ⟨-, -, h, -⟩ <;> linarith
  exact Int.lt_add_one_iff.1 (by exact_mod_cast hk)

end

/-! #### Overflow -/

theorem hfBeyond_rne {u : ℝ} (hu : 0 < u) : HfBeyond .rne (u * 2 ^ (112 : ℤ)) ↔ 2 * 65536 - 1 ≤ 2 * u := by
  have hp : (0 : ℝ) < 2 ^ (112 : ℤ) := zpow_pos two_pos _
  have he : (2 - (2 : ℝ) ^ (-16 : ℤ)) * 2 ^ 127 = (65536 - 1 / 2) * 2 ^ (112 : ℤ) := by norm_num
  rw [HfBeyond, abs_of_pos (mul_pos hu hp), he, mul_le_mul_iff_left₀ hp]
  constructor <;> intro h <;> linarith

theorem hfBeyond_rto {u : ℝ} (hu : 0 < u) : HfBeyond .rto (u * 2 ^ (112 : ℤ)) ↔ 65535 < u := by
  have hp : (0 : ℝ) < 2 ^ (112 : ℤ) := zpow_pos two_pos _
  have he : (2 - (2 : ℝ) ^ (-15 : ℤ)) * 2 ^ 127 = 65535 * 2 ^ (112 : ℤ) := by norm_num
  rw [HfBeyond, abs_of_pos (mul_pos hu hp), he, mul_lt_mul_iff_left₀ hp]

theorem hfBeyond_of_ge {z : ℝ} (r : Rnd) (h : 2 ^ 128 ≤ z) : HfBeyond r z := by
  have hz : |z| = z := abs_of_pos (by linarith [show (0 : ℝ) < 2 ^ 128 by positivity])
  cases r <;> rw [HfBeyond, hz] <;> norm_num at h ⊢ <;> linarith

theorem not_hfBeyond_of_lt {z : ℝ} (r : Rnd) (h0 : 0 < z) (h : z < 2 ^ 127) : ¬ HfBeyond r z := by
  cases r <;> rw [HfBeyond, abs_of_pos h0] <;> norm_num at h ⊢ <;> linarith

end Sys2Proof.Machine
end

/-! ### `hfRound` rounds every number that its operand tells (R45, R54, R55) -/

section
namespace Sys2Proof.Machine

section
variable {k : ℕ} {u : ℝ}

/-- To nearest, 65536 steps are reached half a step below. -/
theorem Nearest.rne_top (hn : Nearest .rne k u) (hk : k ≤ 0x10000) : k = 0x10000 ↔ 2 * 65536 - 1 ≤ 2 * u := by
  obtain ⟨h1, h2, heven⟩ := hn
  push_cast at h1 h2 heven
  constructor
  · rintro rfl
    push_cast at h1
    linarith
  · intro hb
    by_contra hne
    have hk3 : k ≤ 65535 := by omega
    have hk3' : (k : ℝ) ≤ 65535 := by exact_mod_cast hk3
    have hk4 : (k : ℝ) = 65535 := by linarith
    have hk5 : k = 65535 := by exact_mod_cast hk4
    have := heven (.inr (by linarith))
    omega

/-- To odd, what is above 65535 steps stays there. -/
theorem Nearest.rto_top (hn : Nearest .rto k u) (hu : u < 2 ^ 16) :
    (k = 0x10000 ∨ ((k : ℝ) ≠ u ∧ k = 0xFFFF ∧ 65535 < u)) ↔ 65535 < u := by
  constructor
  · rintro (rfl | ⟨-, -, hb⟩)
    · rcases hn with he | ⟨-, hodd, -⟩
      · push_cast at he
        linarith
      · omega
    · exact hb
  · intro hb
    rcases hn with he | ⟨hne, hodd, h1, h2⟩
    · have e1 : 65535 < k := by exact_mod_cast he ▸ hb
      have e2 : k < 2 ^ 16 := by exact_mod_cast he ▸ hu
      omega
    · have e1 : 65535 < k + 1 := by exact_mod_cast hb.trans h2
      have e2 : k - 1 < 2 ^ 16 := by
        have : (k : ℝ) < (2 ^ 16 + 1 : ℕ) := by push_cast; push_cast at h1; linarith
        have := Nat.cast_lt.1 this
        omega
      exact .inr ⟨fun he => hne he.symm, by omega, hb⟩

end

theorem hfSigned_false (n : ℕ) : hfSigned false n = n := by
  cases n <;> rfl

section
variable {r : Rnd} {x : Dy} {z : ℝ} (hm : 0 < x.m) (h : Alike (x.steps x.hfGrid) (z / 2 ^ x.hfGrid))
include hm h

/-- The steps of the number and of its rounding, with what the model's tests say of them. -/
theorem hfSteps_spec : ∃ k : ℕ, (x.round r x.hfGrid).1 = k ∧ Nearest r k (z / 2 ^ x.hfGrid) ∧ 0 < z / 2 ^ x.hfGrid
    ∧ ((x.round r x.hfGrid).2 = false ↔ (k : ℝ) ≠ z / 2 ^ x.hfGrid)
    ∧ (x.lead < -126 → x.hfGrid = -141 ∧ z / 2 ^ x.hfGrid < 2 ^ 15 ∧ k ≤ 2 ^ 15)
    ∧ (-126 ≤ x.lead → x.hfGrid = x.lead - 15 ∧ 2 ^ 15 ≤ z / 2 ^ x.hfGrid ∧ z / 2 ^ x.hfGrid < 2 ^ 16 ∧ 2 ^ 15 ≤ k ∧ k ≤ 2 ^ 16) := by
  have hn : Nearest r (x.round r x.hfGrid).1 (z / 2 ^ x.hfGrid) := h.nearest (x.nearest_round r _)
  have hex := x.round_exact_iff r x.hfGrid
  rw [h.eq_int] at hex
  have hu : 0 < z / 2 ^ x.hfGrid := by simpa using (h.lt_int 0).1 (by simpa using Dy.steps_pos hm x.hfGrid)
  obtain ⟨k, hk⟩ := Int.eq_ofNat_of_zero_le (hn.le_of_le (j := 0) (by simpa using hu.le))
  rw [hk] at hn hex
  have hle : ∀ j : ℕ, z / 2 ^ x.hfGrid < j → k ≤ j := fun j hj => by
    have := hn.le_of_ge (j := (j : ℤ)) (by simpa using hj.le)
    omega
  have hge : ∀ j : ℕ, (j : ℝ) ≤ z / 2 ^ x.hfGrid → j ≤ k := fun j hj => by
    have := hn.le_of_le (j := (j : ℤ)) (by simpa using hj)
    omega
  have hlt := fun n : ℕ => h.int_lt (2 ^ n)
  simp only [Int.cast_pow, Int.cast_ofNat] at hlt
  have hcast : ∀ n : ℕ, ((2 ^ n : ℕ) : ℝ) = 2 ^ n := fun n => by rw [Nat.cast_pow, Nat.cast_two]
  refine ⟨k, hk, hn, hu, ?_, fun hl => ?_, fun hl => ?_⟩
  · rw [← Bool.not_eq_true, hex]
    exact not_congr eq_comm
  · obtain ⟨h1, h2⟩ := Dy.steps_of_subnormal hm (by omega)
    have h3 := (hlt 15).1 h2
    exact ⟨h1, h3, hle (2 ^ 15) (by rwa [hcast])⟩
  · obtain ⟨h1, h2, h3⟩ := Dy.steps_of_normal hm hl
    have h4 := (hlt 16).1 h3
    have h5 := not_lt.1 (mt (hlt 15).2 h2.not_gt)
    exact ⟨h1, h5, h4, hge (2 ^ 15) (by rwa [hcast]), hle (2 ^ 16) (by rwa [hcast])⟩

/-- The model's tests for overflow tell what is beyond the finite values. -/
theorem hfOver_iff_beyond : HfOver r x ↔ HfBeyond r z := by
  obtain ⟨k, hk, hn, hu, hex, hsub, hnorm⟩ := hfSteps_spec (r := r) hm h
  have hp : (0 : ℝ) < 2 ^ x.hfGrid := zpow_pos two_pos _
  have hz : z / 2 ^ x.hfGrid * 2 ^ x.hfGrid = z := div_mul_cancel₀ _ hp.ne'
  have hover : HfOver r x ↔ 127 < x.lead ∨ (x.lead = 127 ∧ (k = 0x10000
      ∨ (r = .rto ∧ (k : ℝ) ≠ z / 2 ^ x.hfGrid ∧ k = 0xFFFF ∧ x.le ⟨0xFFFF, 112⟩ = false))) := by
    rw [HfOver, Dy.abs_eq_of_pos hm, hk, hex]
    exact Iff.rfl
  rw [hover]
  rcases lt_trichotomy x.lead 127 with hl | hl | hl
  · refine iff_of_false (by omega) (not_hfBeyond_of_lt r ?_ ?_)
    · rw [← hz]
      exact mul_pos hu hp
    · have hbound : z / 2 ^ x.hfGrid < 2 ^ 16 ∧ x.hfGrid ≤ 111 := by
        by_cases hs : x.lead < -126
        · obtain ⟨hg, hs, -⟩ := hsub hs
          exact ⟨hs.trans (by norm_num), by omega⟩
        · obtain ⟨hg, -, hs, -⟩ := hnorm (by omega)
          exact ⟨hs, by omega⟩
      calc z = z / 2 ^ x.hfGrid * 2 ^ x.hfGrid := hz.symm
        _ < 2 ^ 16 * 2 ^ x.hfGrid := mul_lt_mul_of_pos_right hbound.1 hp
        _ ≤ 2 ^ 16 * 2 ^ (111 : ℤ) := mul_le_mul_of_nonneg_left (zpow_le_zpow_right₀ one_le_two hbound.2) (by positivity)
        _ = 2 ^ 127 := by norm_num
  · obtain ⟨hg, hlow, hhigh, hk1, hk2⟩ := hnorm (by omega)
    have hg : x.hfGrid = 112 := by omega
    have hle : x.le ⟨0xFFFF, 112⟩ = false ↔ 65535 < z / 2 ^ x.hfGrid := by
      have hv : (((⟨0xFFFF, 112⟩ : Dy).val : ℚ) : ℝ) = 65535 * 2 ^ (112 : ℤ) := by norm_num [Dy.val]
      have hj := h.lt_int 65535
      rw [← Bool.not_eq_true, Dy.le_iff, not_le, ← Rat.cast_lt (K := ℝ), hv, ← hg, ← lt_div_iff₀ hp]
      exact_mod_cast hj
    rw [hle, or_iff_right (by omega), and_iff_right hl]
    rw [hg] at hz hn hhigh hu ⊢
    generalize z / 2 ^ (112 : ℤ) = u at *
    rw [← hz]
    cases r with
    | rne => rw [hfBeyond_rne hu, ← hn.rne_top hk2, or_iff_left fun hr => Rnd.noConfusion hr.1]
    | rto => 
      rw [hfBeyond_rto hu, and_iff_right rfl]
      exact hn.rto_top hhigh
  · obtain ⟨hg, hlow, -⟩ := hnorm (by omega)
    refine iff_of_true (.inl hl) (hfBeyond_of_ge r ?_)
    calc (2 : ℝ) ^ 128 = 2 ^ 15 * 2 ^ (113 : ℤ) := by norm_num
      _ ≤ 2 ^ 15 * 2 ^ x.hfGrid := mul_le_mul_of_nonneg_left (zpow_le_zpow_right₀ one_le_two (by omega)) (by positivity)
      _ ≤ z / 2 ^ x.hfGrid * 2 ^ x.hfGrid := mul_le_mul_of_nonneg_right hlow hp.le
      _ = z := hz

/-- A positive number that the operand tells is rounded. -/
theorem hfRounds_of_pos : HfRounds r z (hfRound r x) ∧ (hfRound r x).1 < 0x800000 := by
  obtain ⟨k, hk, hn, hu, hex, hsub, hnorm⟩ := hfSteps_spec (r := r) hm h
  have hz : z / 2 ^ x.hfGrid * 2 ^ x.hfGrid = z := div_mul_cancel₀ _ (zpow_ne_zero _ two_ne_zero)
  have hz0 : ¬ z < 0 := by
    rw [← hz]
    exact (mul_pos hu (zpow_pos two_pos _)).not_gt
  by_cases ho : HfOver r x
  · have hrounds := hfRounds_of_beyond ((hfOver_iff_beyond hm h).1 ho)
    rw [hfRound_of_over hm.ne' ho, decide_eq_false hm.not_gt]
    rw [decide_eq_false hz0] at hrounds
    exact ⟨hrounds, by cases r <;> decide⟩
  · have hg : -141 ≤ x.hfGrid ∧ x.hfGrid ≤ 112 ∧ k ≤ 0x10000 ∧ ¬ (k = 0x10000 ∧ x.hfGrid = 112) ∧ (k < 0x8000 → x.hfGrid = -141)
        ∧ (x.hfGrid ≠ -141 → 2 ^ 15 ≤ z / 2 ^ x.hfGrid) := by
      by_cases hl : x.lead < -126
      · obtain ⟨h1, h2, h3⟩ := hsub hl
        exact ⟨by omega, by omega, by omega, by omega, fun _ => h1, fun hne => absurd h1 hne⟩
      · obtain ⟨h1, h2, h3, h4, h5⟩ := hnorm (by omega)
        have h6 : ¬ 127 < x.lead := fun h6 => ho (.inl h6)
        refine ⟨by omega, by omega, h5, fun h7 => ho (.inr ⟨by omega, .inl ?_⟩), by omega, fun _ => h2⟩
        rw [Dy.abs_eq_of_pos hm, hk, h7.1]
        rfl
    obtain ⟨hg1, hg2, hk2, htop, hlow, hbig⟩ := hg
    have hrounds := hfRounds_of_nearest hn hg1 hg2 hk2 htop hlow hbig (by rw [hz]; exact mt (hfOver_iff_beyond hm h).2 ho)
    rw [hz] at hrounds
    have heq := hfRound_of_not_over hm.ne' ho
    dsimp only at heq
    rw [Dy.abs_eq_of_pos hm, hk, Int.toNat_natCast, decide_eq_false hm.not_gt, hfSigned_false] at heq
    rw [heq, if_congr (and_congr_right' hex) rfl rfl]
    exact ⟨hrounds, hfEnc_lt hg1 hg2 hk2⟩

end

end Sys2Proof.Machine
end

/-! ### Signs, and operands with a sticky bit (R44, R45) -/

section
namespace Sys2Proof.Machine

/-! #### Signs -/

/-- An encoding and its flags with the sign of a nonzero encoding set. -/
def hfFlip (p : ℕ × List ℕ) : ℕ × List ℕ := (if p.1 = 0 then 0 else p.1 + 0x800000, p.2)

theorem Dy.neg_abs (x : Dy) : x.neg.abs = x.abs := by
  rw [Dy.abs, Dy.neg, Int.natAbs_neg]
  rfl

theorem Dy.neg_lead (x : Dy) : x.neg.lead = x.lead := by
  rw [← lead_abs, neg_abs, lead_abs]

theorem Dy.neg_hfGrid (x : Dy) : x.neg.hfGrid = x.hfGrid := by
  rw [hfGrid, neg_lead]
  rfl

theorem Dy.neg_steps (x : Dy) (g : ℤ) : x.neg.steps g = -x.steps g := by
  rw [steps, val_neg, steps, ← neg_div]
  push_cast
  rfl

theorem hfOver_neg {r : Rnd} {x : Dy} : HfOver r x.neg ↔ HfOver r x := by
  simp only [HfOver, Dy.neg_abs, Dy.neg_lead, Dy.neg_hfGrid]

theorem hfRound_neg (r : Rnd) {x : Dy} (hm : 0 < x.m) : hfRound r x.neg = hfFlip (hfRound r x) := by
  have hneg : x.neg.m < 0 := Int.neg_neg_of_pos hm
  by_cases h : HfOver r x
  · rw [hfRound_of_over hneg.ne (hfOver_neg.2 h), hfRound_of_over hm.ne' h, decide_eq_true hneg, decide_eq_false hm.not_gt]
    cases r <;> rfl
  · rw [hfRound_of_not_over hneg.ne (mt hfOver_neg.1 h), hfRound_of_not_over hm.ne' h, decide_eq_true hneg, decide_eq_false hm.not_gt,
      Dy.neg_abs, Dy.neg_hfGrid, hfSigned_false, hfFlip, hfSigned]
    rfl

theorem hfNeg_of_lt {n : ℕ} (h : n < 0x800000) : hfNeg n = n + 0x800000 := by
  have hb : natBit n 23 = false := by rw [natBit_eq_decide, decide_eq_false_iff_not]; omega
  rw [hfNeg, hb, if_neg Bool.false_ne_true, Nat.mod_eq_of_lt h]

/-- The encoding with its sign set has the value with its sign changed. -/
theorem hfVal_hfFlip {p : ℕ × List ℕ} {v : Dy} (hp : p.1 < 0x800000) (hv : hfVal p.1 = .fin v) : hfVal (hfFlip p).1 = .fin v.neg := by
  by_cases h0 : p.1 = 0
  · have hz : hfVal 0 = .fin ⟨0, -141⟩ := rfl
    rw [h0, hz, HV.fin.injEq] at hv
    rw [hfFlip, if_pos h0, ← hv]
    exact hz.trans rfl
  · rw [hfFlip, if_neg h0, ← hfNeg_of_lt hp]
    exact hfVal_hfNeg_fin hv

theorem hfFlip_mod_two (p : ℕ × List ℕ) : (hfFlip p).1 % 2 = p.1 % 2 := by
  rw [hfFlip]
  dsimp only
  split_ifs <;> omega

/-- The value `y` is the one of the encodings to which `z` is rounded, and its encoding `n` has the parity for it. -/
def HfBest (r : Rnd) (z y : ℝ) (n : ℕ) : Prop :=
  match r with
  | .rne => ∀ b w, hfVal b = .fin w → |y - z| ≤ |(w.val : ℝ) - z| ∧ ((w.val : ℝ) ≠ y → |y - z| = |(w.val : ℝ) - z| → n % 2 = 0)
  | .rto => y = z ∨ (n % 2 = 1 ∧ ∀ b w, hfVal b = .fin w →
      (w.val : ℝ) ≠ z ∧ ¬ (y < w.val ∧ (w.val : ℝ) < z) ∧ ¬ (z < w.val ∧ (w.val : ℝ) < y))

/-- What is beyond, and what is not, in one form for both modes. -/
theorem hfRounds_iff {r : Rnd} {z : ℝ} {p : ℕ × List ℕ} : HfRounds r z p ↔
    (HfBeyond r z → p = (hfTop r (decide (z < 0)), [fInf]))
    ∧ (¬ HfBeyond r z → ∃ v : Dy, p.1 < 2 ^ 24 ∧ hfVal p.1 = .fin v ∧ ((v.val : ℝ) = 0 → p.1 = 0)
      ∧ p.2 = (if |(v.val : ℝ)| < 2 ^ (-126 : Int) ∧ (v.val : ℝ) ≠ z then [fUnder] else []) ∧ HfBest r z v.val p.1) := by
  cases r with
  | rne => simp only [HfRounds, HfBeyond, HfBest, hfTop, hfInf, decide_eq_true_eq]
  | rto => simp only [HfRounds, HfBeyond, HfBest, hfTop, hfMax, decide_eq_true_eq]

theorem HfBeyond.neg {r : Rnd} {z : ℝ} : HfBeyond r (-z) ↔ HfBeyond r z := by
  cases r <;> rw [HfBeyond, HfBeyond, abs_neg]

theorem Dy.cast_val_neg (v : Dy) : ((v.neg.val : ℚ) : ℝ) = -(v.val : ℝ) := by
  rw [val_neg]
  exact Rat.cast_neg _

theorem HfBest.neg {r : Rnd} {z y : ℝ} {n n' : ℕ} (hn : n' % 2 = n % 2) (h : HfBest r z y n) : HfBest r (-z) (-y) n' := by
  have hdist : ∀ a : ℝ, |a - -z| = |-a - z| := fun a => by rw [← abs_neg]; congr 1; ring
  cases r with
  | rne =>
    intro b w hw
    obtain ⟨h1, h2⟩ := h _ _ (hfVal_hfNeg_fin hw)
    rw [Dy.cast_val_neg] at h1 h2
    rw [hdist, hdist, neg_neg, hn]
    exact ⟨h1, fun hne => h2 fun he => hne (neg_eq_iff_eq_neg.1 he)⟩
  | rto =>
    rcases h with rfl | ⟨hodd, hb⟩
    · exact .inl rfl
    · refine .inr ⟨hn.trans hodd, fun b w hw => ?_⟩
      obtain ⟨h1, h2, h3⟩ := hb _ _ (hfVal_hfNeg_fin hw)
      rw [Dy.cast_val_neg] at h1 h2 h3
      exact ⟨fun he => h1 (by rw [he, neg_neg]), fun ⟨ha, hc⟩ => h3 ⟨by linarith, by linarith⟩, fun ⟨ha, hc⟩ => h2 ⟨by linarith, by linarith⟩⟩

theorem hfRounds_neg {r : Rnd} {z : ℝ} {p : ℕ × List ℕ} (hz : 0 < z) (hp : p.1 < 0x800000) (h : HfRounds r z p) : HfRounds r (-z) (hfFlip p) := by
  obtain ⟨h1, h2⟩ := hfRounds_iff.1 h
  refine hfRounds_iff.2 ⟨fun hb => ?_, fun hb => ?_⟩
  · rw [h1 (HfBeyond.neg.1 hb), decide_eq_false hz.not_gt, decide_eq_true (neg_lt_zero.2 hz)]
    cases r <;> rfl
  · obtain ⟨v, -, hv, h0, hfl, hbest⟩ := h2 (mt HfBeyond.neg.2 hb)
    have hlt : (hfFlip p).1 < 2 ^ 24 := by rw [hfFlip]; dsimp only; split_ifs <;> omega
    refine ⟨v.neg, hlt, hfVal_hfFlip hp hv, fun hz => if_pos (h0 ?_), hfl.trans ?_, ?_⟩
    · rwa [Dy.cast_val_neg, neg_eq_zero] at hz
    · simp only [Dy.cast_val_neg, abs_neg, ne_eq, neg_inj]
    · rw [Dy.cast_val_neg]
      exact hbest.neg (hfFlip_mod_two p)

/-- A number that the operand tells is rounded, whatever its sign. -/
theorem hfRounds_of_alike {r : Rnd} {x : Dy} {z : ℝ} (hm : x.m ≠ 0) (h : Alike (x.steps x.hfGrid) (z / 2 ^ x.hfGrid)) :
    HfRounds r z (hfRound r x) := by
  rcases hm.lt_or_gt with hneg | hpos
  · have hpos : 0 < x.neg.m := Int.neg_pos_of_neg hneg
    have hx : x = x.neg.neg := by rw [Dy.neg, Dy.neg, neg_neg]
    have h' : Alike (x.neg.steps x.neg.hfGrid) (-z / 2 ^ x.neg.hfGrid) := by
      rw [Dy.neg_hfGrid, Dy.neg_steps, neg_div]
      exact h.neg
    have hz : 0 < -z := by
      obtain ⟨-, -, -, hu, -⟩ := hfSteps_spec (r := r) hpos h'
      exact (div_pos_iff_of_pos_right (zpow_pos two_pos _)).1 hu
    obtain ⟨hr, hlt⟩ := hfRounds_of_pos (r := r) hpos h'
    have := hfRounds_neg hz hlt hr
    rwa [neg_neg, ← hfRound_neg r hpos, ← hx] at this
  · exact (hfRounds_of_pos hpos h).1

/-- An exact number is rounded. -/
theorem hfRounds_val (r : Rnd) (x : Dy) : HfRounds r x.val (hfRound r x) := by
  by_cases hm : x.m = 0
  · rw [hfRound, if_pos hm, Dy.val_eq_zero_iff.2 hm, Rat.cast_zero]
    exact hfRounds_zero r
  · exact hfRounds_of_alike hm (Alike.refl _)

/-! #### Sticky bits -/

/-- An odd significand tells every number between its neighbours, on a grid at least two bits above it. -/
theorem alike_of_sticky {x : Dy} {g : ℤ} {u : ℝ} (hodd : x.m % 2 = 1) (hg : x.e + 2 ≤ g) (h1 : (x.m : ℝ) - 1 < u) (h2 : u < x.m + 1) :
    Alike (x.steps g) (u * 2 ^ x.e / 2 ^ g) := by
  have hp := pow2_pos (g - x.e).toNat
  have hp' : (0 : ℝ) < (pow2 (g - x.e).toNat : ℤ) := Int.cast_pos.2 hp
  have hu : u * 2 ^ x.e / 2 ^ g = u / (pow2 (g - x.e).toNat : ℤ) := by
    have hpow : ((pow2 (g - x.e).toNat : ℤ) : ℝ) = 2 ^ g / 2 ^ x.e := by
      rw [pow2_eq, Int.cast_pow, Int.cast_two, ← zpow_natCast, Int.toNat_of_nonneg (by omega), zpow_sub₀ two_ne_zero]
    rw [hpow, div_div_eq_mul_div]
  have hfour : ∀ j : ℤ, j * pow2 (g - x.e).toNat = 4 * (j * pow2 (g - x.e - 2).toNat) := fun j => by
    rw [show (g - x.e).toNat = 2 + (g - x.e - 2).toNat by omega, pow2_add, show pow2 2 = 4 from rfl]
    ring
  intro j
  rw [Dy.steps_of_lt (by omega), hu, lt_two_quot_iff hp, two_quot_lt_iff hp, hfour, ← mul_div_assoc, lt_div_iff₀ hp', div_lt_iff₀ hp']
  have hcast : (j : ℝ) * (pow2 (g - x.e).toNat : ℤ) = 4 * ((j * pow2 (g - x.e - 2).toNat : ℤ) : ℝ) := by exact_mod_cast congrArg (Int.cast (R := ℝ)) (hfour j)
  rw [hcast]
  generalize j * pow2 (g - x.e - 2).toNat = i
  constructor <;> constructor <;> intro h
  · have h' : 2 * i ≤ x.m - 1 := by omega
    have h'' : (2 : ℝ) * i ≤ x.m - 1 := by exact_mod_cast h'
    linarith
  · have h' : (2 : ℝ) * i < x.m + 1 := by linarith
    have h'' : 2 * i < x.m + 1 := by exact_mod_cast h'
    omega
  · have h' : x.m + 1 ≤ 2 * i := by omega
    have h'' : (x.m : ℝ) + 1 ≤ 2 * i := by exact_mod_cast h'
    linarith
  · have h' : (x.m : ℝ) - 1 < 2 * i := by linarith
    have h'' : x.m - 1 < 2 * i := by exact_mod_cast h'
    omega

/-- A significand of 18 bits stands two bits below the grid of its rounding. -/
theorem Dy.low_of_bits {x : Dy} (h : 2 ^ 17 ≤ x.m.natAbs) : x.e + 2 ≤ x.hfGrid := by
  have h0 : x.m.natAbs ≠ 0 := by omega
  have hlog := (Nat.le_log2 h0).2 h
  have hlead : x.lead = (Nat.log2 x.m.natAbs : ℤ) + x.e := by
    rw [lead, bits, if_neg h0]
    push_cast
    ring
  rw [hfGrid]
  split_ifs <;> omega

end Sys2Proof.Machine
end

/-! ### Quotients and square roots (R45) -/

section
namespace Sys2Proof.Machine

/-- `u` by its whole part `n` and a sticky bit `s`. -/
def StickyOf (n s : ℕ) (u : ℝ) : Prop := (s = 0 ∧ u = n) ∨ (s = 1 ∧ (n : ℝ) < u ∧ u < n + 1)

section
variable {n s : ℕ} {u : ℝ} (hs : StickyOf n s u) (hn : 2 ^ 16 ≤ n)
include hs hn

theorem alike_of_stickyOf (e : ℤ) :
    let x : Dy := ⟨(2 * n + s : ℕ), e - 1⟩
    Alike (x.steps x.hfGrid) (u * 2 ^ e / 2 ^ x.hfGrid) := by
  intro x
  have he : u * 2 ^ e = 2 * u * 2 ^ x.e := by
    change u * 2 ^ e = 2 * u * 2 ^ (e - 1)
    rw [zpow_sub_one₀ two_ne_zero]
    ring
  have hm : (x.m : ℝ) = 2 * n + s := by
    change (((2 * n + s : ℕ) : ℤ) : ℝ) = _
    push_cast
    rfl
  rw [he]
  rcases hs with ⟨h0, rfl⟩ | ⟨h1, h2, h3⟩
  · have hx : x.steps x.hfGrid = 2 * n * 2 ^ x.e / 2 ^ x.hfGrid := by
      rw [Dy.steps, Dy.val]
      push_cast
      rw [hm, h0, Nat.cast_zero, add_zero]
    rw [hx]
    exact Alike.refl _
  · have hmod : x.m % 2 = 1 := by
      change ((2 * n + s : ℕ) : ℤ) % 2 = 1
      omega
    have hbits : 2 ^ 17 ≤ x.m.natAbs := by
      change 2 ^ 17 ≤ (((2 * n + s : ℕ) : ℤ)).natAbs
      omega
    refine alike_of_sticky hmod (Dy.low_of_bits hbits) ?_ ?_ <;> rw [hm, h1, Nat.cast_one] <;> linarith

theorem hfRounds_of_stickyOf (r : Rnd) (e : ℤ) : HfRounds r (u * 2 ^ e) (hfRound r ⟨(2 * n + s : ℕ), e - 1⟩) :=
  hfRounds_of_alike (by dsimp only; omega) (alike_of_stickyOf hs hn e)

theorem hfRounds_of_stickyOf_neg (r : Rnd) (e : ℤ) : HfRounds r (-(u * 2 ^ e)) (hfRound r ⟨-(2 * n + s : ℕ), e - 1⟩) := by
  have h := (alike_of_stickyOf hs hn e).neg
  rw [← Dy.neg_steps, ← neg_div, ← Dy.neg_hfGrid] at h
  exact hfRounds_of_alike (by dsimp only; omega) h

end

theorem stickyOf_quot {a b : ℕ} (hb : 0 < b) : StickyOf (a / b) (if a % b = 0 then 0 else 1) ((a : ℝ) / b) := by
  have hb' : (0 : ℝ) < b := Nat.cast_pos.2 hb
  have hdiv := Nat.div_add_mod a b
  have hmod := Nat.mod_lt a hb
  by_cases h0 : a % b = 0
  · refine .inl ⟨if_pos h0, ?_⟩
    rw [div_eq_iff hb'.ne']
    exact_mod_cast (Nat.div_mul_cancel (Nat.dvd_of_mod_eq_zero h0)).symm
  · refine .inr ⟨if_neg h0, ?_, ?_⟩
    · rw [lt_div_iff₀ hb']
      have : a / b * b < a := by rw [mul_comm]; omega
      exact_mod_cast this
    · rw [div_lt_iff₀ hb']
      have : a < (a / b + 1) * b := by rw [Nat.add_mul, Nat.one_mul, mul_comm]; omega
      exact_mod_cast this

theorem cast_eq_sign_mul_natAbs (m : ℤ) : (m : ℝ) = (if m < 0 then -1 else 1) * (m.natAbs : ℝ) := by
  rw [Nat.cast_natAbs, Int.cast_abs]
  split_ifs with h
  · rw [abs_of_neg (Int.cast_lt_zero.2 h), neg_one_mul, neg_neg]
  · rw [abs_of_nonneg (Int.cast_nonneg (not_lt.1 h)), one_mul]

/-- The quotient of two significands and what their exponents leave. -/
theorem Dy.val_div_val {x y : Dy} (hy : y.m ≠ 0) : (x.val : ℝ) / y.val =
    (if (x.m < 0) = (y.m < 0) then 1 else -1) * (((x.m.natAbs * 2 ^ 48 : ℕ) : ℝ) / (y.m.natAbs : ℕ) * 2 ^ (x.e - y.e - 48)) := by
  have hsign : ((if x.m < 0 then -1 else 1) / (if y.m < 0 then -1 else 1) : ℝ) = if (x.m < 0) = (y.m < 0) then 1 else -1 := by
    by_cases h1 : x.m < 0 <;> by_cases h2 : y.m < 0 <;> simp [h1, h2]
  have hpow : (2 : ℝ) ^ (x.e - y.e - 48) = 2 ^ x.e / 2 ^ y.e / 2 ^ 48 := by
    rw [zpow_sub₀ two_ne_zero, zpow_sub₀ two_ne_zero]
    rfl
  have hval : ∀ v : Dy, ((v.val : ℚ) : ℝ) = v.m * 2 ^ v.e := fun v => by rw [val]; push_cast; rfl
  rw [hval, hval, cast_eq_sign_mul_natAbs x.m, cast_eq_sign_mul_natAbs y.m, ← hsign, hpow, Nat.cast_mul, Nat.cast_pow, Nat.cast_two]
  have hb : (y.m.natAbs : ℝ) ≠ 0 := Nat.cast_ne_zero.2 (Int.natAbs_ne_zero.2 hy)
  have hs : ((if y.m < 0 then -1 else 1 : ℝ)) ≠ 0 := by split_ifs <;> norm_num
  have hye : (2 : ℝ) ^ y.e ≠ 0 := zpow_ne_zero _ two_ne_zero
  field_simp

theorem hfRounds_div (r : Rnd) {x y : Dy} (hx : x.m ≠ 0) (hy : y.m ≠ 0) (hy16 : y.m.natAbs < 2 ^ 16) :
    HfRounds r ((x.val : ℝ) / y.val) (hfRound r (x.div 48 y)) := by
  have hb : 0 < y.m.natAbs := Int.natAbs_pos.2 hy
  have hn : 2 ^ 16 ≤ x.m.natAbs * 2 ^ 48 / y.m.natAbs := by
    rw [Nat.le_div_iff_mul_le hb]
    have := Int.natAbs_pos.2 hx
    omega
  have hs := stickyOf_quot (a := x.m.natAbs * 2 ^ 48) hb
  rw [Dy.val_div_val hy, Dy.div]
  by_cases h : (x.m < 0) = (y.m < 0)
  · rw [if_pos h, if_pos h, one_mul]
    exact hfRounds_of_stickyOf hs hn r _
  · rw [if_neg h, if_neg h, neg_one_mul]
    exact hfRounds_of_stickyOf_neg hs hn r _

/-! #### Square roots -/

theorem isqrtGo_spec (x n : ℕ) : ∀ r, r * r ≤ x → x < (r + 2 ^ n) * (r + 2 ^ n) →
    isqrtGo x n r * isqrtGo x n r ≤ x ∧ x < (isqrtGo x n r + 1) * (isqrtGo x n r + 1) := by
  induction n with
  | zero => exact fun r h1 h2 => ⟨h1, h2⟩
  | succ n ih =>
    intro r h1 h2
    rw [isqrtGo]
    split_ifs with h
    · refine ih _ h ?_
      rwa [add_assoc, ← two_mul, ← pow_succ']
    · exact ih _ h1 (not_le.1 h)

theorem stickyOf_sqrt {m n : ℕ} (h1 : n * n ≤ m) (h2 : m < (n + 1) * (n + 1)) : StickyOf n (if n * n = m then 0 else 1) (Real.sqrt m) := by
  have hsq : ∀ k : ℕ, ((k * k : ℕ) : ℝ) = (k : ℝ) ^ 2 := fun k => by push_cast; ring
  by_cases h : n * n = m
  · refine .inl ⟨if_pos h, ?_⟩
    rw [← h, hsq, Real.sqrt_sq (Nat.cast_nonneg n)]
  · refine .inr ⟨if_neg h, ?_, ?_⟩
    · refine Real.lt_sqrt_of_sq_lt ?_
      rw [← hsq]
      exact Nat.cast_lt.2 (lt_of_le_of_ne h1 h)
    · have h3 : (m : ℝ) < ((n : ℝ) + 1) ^ 2 := by
        have := hsq (n + 1)
        push_cast at this
        rw [← this]
        exact_mod_cast h2
      exact (Real.sqrt_lt' (by positivity)).2 h3

theorem hfRounds_sqrt (r : Rnd) {x : Dy} (hx : 0 < x.m) (h16 : x.m.natAbs < 2 ^ 16) :
    HfRounds r (Real.sqrt x.val) (hfRound r x.sqrt) := by
  have hmain : ∀ k : ℕ, 80 ≤ k → k ≤ 81 → (x.e - k) % 2 = 0 →
      let n := isqrtGo (x.m.natAbs * 2 ^ k) 64 0
      HfRounds r (Real.sqrt x.val) (hfRound r ⟨2 * (n : ℤ) + if n * n = x.m.natAbs * 2 ^ k then 0 else 1, (x.e - k) / 2 - 1⟩) := by
    intro k hk1 hk2 heven n
    have hpow1 : 2 ^ 80 ≤ 2 ^ k := Nat.pow_le_pow_right two_pos hk1
    have hpow2 : 2 ^ k ≤ 2 ^ 81 := Nat.pow_le_pow_right two_pos hk2
    have hm1 : 2 ^ 80 ≤ x.m.natAbs * 2 ^ k := hpow1.trans (Nat.le_mul_of_pos_left _ (by omega))
    have hm2 : x.m.natAbs * 2 ^ k < 2 ^ 128 := (Nat.mul_lt_mul'' h16 (hpow2.trans_lt (b := 2 ^ 81) (c := 2 ^ 82) (by norm_num))).trans_le (by norm_num)
    obtain ⟨h1, h2⟩ := isqrtGo_spec (x.m.natAbs * 2 ^ k) 64 0 (by simp) (by simpa using hm2)
    have hn : 2 ^ 16 ≤ n := by
      by_contra hn
      have := Nat.mul_le_mul (show n + 1 ≤ 2 ^ 16 by omega) (show n + 1 ≤ 2 ^ 16 by omega)
      have h2' : x.m.natAbs * 2 ^ k < (n + 1) * (n + 1) := h2
      omega
    have hval : Real.sqrt x.val = Real.sqrt ((x.m.natAbs * 2 ^ k : ℕ) : ℝ) * 2 ^ ((x.e - k) / 2) := by
      have hexp : x.e = k + ((x.e - k) / 2 + (x.e - k) / 2) := by omega
      have hp : (0 : ℝ) < 2 ^ ((x.e - k) / 2) := zpow_pos two_pos _
      have hsq : (x.val : ℝ) = ((x.m.natAbs * 2 ^ k : ℕ) : ℝ) * (2 ^ ((x.e - k) / 2)) ^ 2 := by
        rw [Dy.val, hexp, zpow_add₀ two_ne_zero, zpow_add₀ two_ne_zero, ← hexp]
        push_cast
        rw [cast_eq_sign_mul_natAbs x.m, if_neg hx.not_gt, zpow_natCast]
        ring
      rw [hsq, Real.sqrt_mul (Nat.cast_nonneg _), Real.sqrt_sq hp.le]
    have hm : 2 * (n : ℤ) + (if n * n = x.m.natAbs * 2 ^ k then 0 else 1) = (2 * n + if n * n = x.m.natAbs * 2 ^ k then 0 else 1 : ℕ) := by
      push_cast
      rfl
    rw [hval, hm]
    exact hfRounds_of_stickyOf (stickyOf_sqrt h1 h2) hn r _
  rw [Dy.sqrt]
  by_cases hodd : x.e % 2 ≠ 0
  · have := hmain 81 (by omega) (by omega) (by push_cast; omega)
    simp only [if_pos hodd]
    exact this
  · have := hmain 80 (by omega) (by omega) (by push_cast; omega)
    simp only [if_neg hodd]
    exact this

end Sys2Proof.Machine
end

/-! ### The instructions and their special results (R44, R45, R57, R89, R255) -/

section
namespace Sys2Proof.Machine

/-! #### Finite operands -/

section
variable {r : Rnd} {a b : ℕ} {x y : Dy}

theorem hfRounds_hfAdd (ha : hfVal a = .fin x) (hb : hfVal b = .fin y) : HfRounds r ((x.val : ℝ) + y.val) (hfAdd r a b) := by
  have h := hfRounds_val r (x.add y)
  rw [Dy.val_add, Rat.cast_add] at h
  rwa [hfAdd, ha, hb]

theorem hfRounds_hfSub (ha : hfVal a = .fin x) (hb : hfVal b = .fin y) : HfRounds r ((x.val : ℝ) - y.val) (hfSub r a b) := by
  rw [sub_eq_add_neg, ← Dy.cast_val_neg]
  exact hfRounds_hfAdd ha (hfVal_hfNeg_fin hb)

theorem hfRounds_hfMul (ha : hfVal a = .fin x) (hb : hfVal b = .fin y) : HfRounds r ((x.val : ℝ) * y.val) (hfMul r a b) := by
  have h := hfRounds_val r (x.mul y)
  rw [Dy.val_mul, Rat.cast_mul] at h
  rwa [hfMul, ha, hb]

theorem hfDiv_fin (ha : hfVal a = .fin x) (hb : hfVal b = .fin y) : hfDiv r a b =
    if y.m = 0 then (if x.m = 0 then (hfNaN, [fInvalid]) else (hfInf (decide (x.m < 0)), [fDivZero]))
    else if x.m = 0 then (0, []) else hfRound r (x.div 48 y) := by
  rw [hfDiv, ha, hb]

theorem hfRounds_hfDiv (ha : hfVal a = .fin x) (hb : hfVal b = .fin y) (hy : y.val ≠ 0) : HfRounds r ((x.val : ℝ) / y.val) (hfDiv r a b) := by
  have hy' := mt Dy.val_eq_zero_iff.2 hy
  rw [hfDiv_fin ha hb, if_neg hy']
  by_cases hx : x.m = 0
  · rw [if_pos hx, Dy.val_eq_zero_iff.2 hx, Rat.cast_zero, zero_div]
    exact hfRounds_zero r
  · rw [if_neg hx]
    exact hfRounds_div r hx hy' (hfVal_fin_bounds hb).1

theorem hfDiv_zero (ha : hfVal a = .fin x) (hb : hfVal b = .fin y) (hy : y.val = 0) :
    (x.val = 0 → hfDiv r a b = (hfNaN, [fInvalid])) ∧ (x.val ≠ 0 → hfDiv r a b = (hfInf (decide (x.val < 0)), [fDivZero])) := by
  rw [hfDiv_fin ha hb, if_pos (Dy.val_eq_zero_iff.1 hy)]
  refine ⟨fun hx => if_pos (Dy.val_eq_zero_iff.1 hx), fun hx => ?_⟩
  rw [if_neg (mt Dy.val_eq_zero_iff.2 hx), decide_eq_decide.2 Dy.val_lt_zero_iff]

theorem hfSqrt_fin (ha : hfVal a = .fin x) :
    hfSqrt r a = if x.m = 0 then (0, []) else if x.m < 0 then (hfNaN, [fInvalid]) else hfRound r x.sqrt := by
  rw [hfSqrt, ha]

theorem hfRounds_hfSqrt (ha : hfVal a = .fin x) (hx : 0 ≤ x.val) : HfRounds r (Real.sqrt x.val) (hfSqrt r a) := by
  have hx' : ¬ x.m < 0 := fun h => absurd (Dy.val_lt_zero_iff.2 h) hx.not_gt
  rw [hfSqrt_fin ha, if_neg hx']
  by_cases h0 : x.m = 0
  · rw [if_pos h0, Dy.val_eq_zero_iff.2 h0, Rat.cast_zero, Real.sqrt_zero]
    exact hfRounds_zero r
  · rw [if_neg h0]
    exact hfRounds_sqrt r (by omega) (hfVal_fin_bounds ha).1

theorem hfSqrt_of_neg (ha : hfVal a = .fin x) (hx : x.val < 0) : hfSqrt r a = (hfNaN, [fInvalid]) := by
  have hx' := Dy.val_lt_zero_iff.1 hx
  rw [hfSqrt_fin ha, if_neg hx'.ne, if_pos hx']

end

theorem hfRounds_integer (r : Rnd) (n : ℤ) (q : ℕ) : HfRounds r ((n : ℝ) / 2 ^ q) (hfRound r ⟨n, -(q : ℤ)⟩) := by
  have h := hfRounds_val r ⟨n, -(q : ℤ)⟩
  have hv : (((⟨n, -(q : ℤ)⟩ : Dy).val : ℚ) : ℝ) = (n : ℝ) / 2 ^ q := by
    rw [Dy.val, zpow_neg, zpow_natCast, div_eq_mul_inv]
    push_cast
    rfl
  rwa [hv] at h

/-! #### Special operands -/

section
variable (r : Rnd) {a b : ℕ}

theorem hfVal_hfNeg_nan (h : hfVal b = .nan) : hfVal (hfNeg b) = .nan := by
  have hx := hfVal_hfNeg b
  rw [h] at hx
  cases hn : hfVal (hfNeg b) with
  | nan => rfl
  | inf s => rw [hn] at hx; cases hx
  | fin v => rw [hn] at hx; cases hx

theorem hfVal_hfNeg_inf {q : Bool} (h : hfVal b = .inf q) : hfVal (hfNeg b) = .inf (!q) := by
  have hx := hfVal_hfNeg b
  rw [h] at hx
  cases hn : hfVal (hfNeg b) with
  | nan => rw [hn] at hx; cases hx
  | fin v => rw [hn] at hx; cases hx
  | inf s => rw [hn] at hx; cases hx; rfl

theorem hfAdd_nan (h : hfVal a = .nan ∨ hfVal b = .nan) : hfAdd r a b = (hfNaN, []) := by
  rw [hfAdd]
  rcases h with h | h <;> rw [h]
  cases hfVal a <;> rfl

theorem hfMul_nan (h : hfVal a = .nan ∨ hfVal b = .nan) : hfMul r a b = (hfNaN, []) := by
  rw [hfMul]
  rcases h with h | h <;> rw [h]
  cases hfVal a <;> rfl

theorem hfDiv_nan (h : hfVal a = .nan ∨ hfVal b = .nan) : hfDiv r a b = (hfNaN, []) := by
  rw [hfDiv]
  rcases h with h | h <;> rw [h]
  cases hfVal a <;> rfl

theorem hf_inf_inf {p q : Bool} (ha : hfVal a = .inf p) (hb : hfVal b = .inf q) :
    hfAdd r a b = (if p = q then (hfInf p, []) else (hfNaN, [fInvalid]))
    ∧ hfSub r a b = (if p = q then (hfNaN, [fInvalid]) else (hfInf p, []))
    ∧ hfMul r a b = (hfInf (p != q), []) ∧ hfDiv r a b = (hfNaN, [fInvalid]) := by
  rw [hfSub, hfAdd, hfAdd, hfMul, hfDiv, ha, hb, hfVal_hfNeg_inf hb]
  refine ⟨rfl, ?_, rfl, rfl⟩
  cases p <;> cases q <;> rfl

theorem hf_inf_fin {p : Bool} {y : Dy} (ha : hfVal a = .inf p) (hb : hfVal b = .fin y) :
    hfAdd r a b = (hfInf p, []) ∧ hfSub r a b = (hfInf p, [])
    ∧ hfMul r a b = (if y.val = 0 then (hfNaN, [fInvalid]) else (hfInf (p != decide (y.val < 0)), []))
    ∧ hfDiv r a b = (hfInf (p != decide (y.val < 0)), []) := by
  rw [hfSub, hfAdd, hfAdd, hfMul, hfDiv, ha, hb, hfVal_hfNeg_fin hb, decide_eq_decide.2 Dy.val_lt_zero_iff, if_congr Dy.val_eq_zero_iff rfl rfl]
  exact ⟨rfl, rfl, rfl, rfl⟩

theorem hf_fin_inf {q : Bool} {x : Dy} (ha : hfVal a = .fin x) (hb : hfVal b = .inf q) :
    hfAdd r a b = (hfInf q, []) ∧ hfSub r a b = (hfInf !q, [])
    ∧ hfMul r a b = (if x.val = 0 then (hfNaN, [fInvalid]) else (hfInf (q != decide (x.val < 0)), []))
    ∧ hfDiv r a b = (0, []) := by
  rw [hfSub, hfAdd, hfAdd, hfMul, hfDiv, ha, hb, hfVal_hfNeg_inf hb, decide_eq_decide.2 Dy.val_lt_zero_iff, if_congr Dy.val_eq_zero_iff rfl rfl]
  exact ⟨rfl, rfl, rfl, rfl⟩

theorem hfSqrt_nan (h : hfVal a = .nan) : hfSqrt r a = (hfNaN, []) := by
  rw [hfSqrt, h]

theorem hfSqrt_inf {p : Bool} (h : hfVal a = .inf p) : hfSqrt r a = if p = true then (hfNaN, [fInvalid]) else (hfInf false, []) := by
  rw [hfSqrt, h]

end

/-! #### The conversion to a fixed-point value -/

theorem storeScalar_hq64 (q : ℕ) (r : Rnd) (v : XV) : storeScalar fmtHQ64 q r v =
    (BitVec.ofInt 64 (storeInt r 64 (-(q : ℤ)) (-128) false v).1, (storeInt r 64 (-(q : ℤ)) (-128) false v).2) := rfl

theorem storeScalar_hq64_num (q : ℕ) (r : Rnd) (x : Dy) :
    let k := (x.round r (-(q : ℤ))).1
    storeScalar fmtHQ64 q r (.num x) =
      if k < -2 ^ 63 then (BitVec.ofInt 64 (-2 ^ 63), [fSat, fRange])
      else if 2 ^ 63 ≤ k then (BitVec.ofInt 64 (2 ^ 63 - 1), [fSat, fRange])
      else (BitVec.ofInt 64 k, if k = 0 ∧ x.val ≠ 0 then [fUnder] else []) := by
  intro k
  have hnone : ¬ (((-128 : ℤ) ≠ -128 ∧ (2 : ℚ) ^ (-128 : ℤ) ≤ |(k : ℚ) * 2 ^ (-(q : ℤ))|) ∨ (false = true ∧ k < 0)) := by simp
  rw [storeScalar_hq64, storeInt_num, if_neg hnone, List.nil_append, if_congr and_comm rfl rfl]
  have hhigh : (2 : ℤ) ^ (64 - 1) - 1 < k ↔ 2 ^ 63 ≤ k := by omega
  rw [if_congr hhigh rfl rfl]
  by_cases h1 : k < -2 ^ 63
  · rw [if_pos h1, if_pos h1]
  · rw [if_neg h1, if_neg h1]
    by_cases h2 : 2 ^ 63 ≤ k
    · rw [if_pos h2, if_pos h2]
    · rw [if_neg h2, if_neg h2]

theorem storeScalar_hq64_inf (q : ℕ) (r : Rnd) (p : Bool) : storeScalar fmtHQ64 q r (.inf p) =
    (BitVec.ofInt 64 (if p = true then -2 ^ 63 else 2 ^ 63 - 1), [fSat, fRange]) := by
  rw [storeScalar_hq64, (storeInt_extreme r 64 (-(q : ℤ)) (-128) false p).2]

/-! #### The rows -/

section
variable {s : State} {c k : ℕ} {f : SFields} {r : Rnd}

theorem rndOf_eq {n : ℕ} (h : Rnd.ofField n = some r) : rndOf n = r := by
  rw [rndOf, h]
  rfl

/-- A two-operand HF24 instruction that issues writes its result to RD. -/
theorem hfOp_issues {opc cyc : ℕ} {op : Rnd → ℕ → ℕ → ℕ × List ℕ} (hr : Rnd.ofField f.rnd.toNat = some r)
    (h : s.issues c k opc f (srcRegs f) [f.rd.toNat] = true) :
    let p := op r ((srcA (s.slot c k) f).toNat % 2 ^ 24) ((srcB (s.slot c k) f).toNat % 2 ^ 24)
    ∃ t, hfOp c k opc f cyc op s = .next t ∧ (t.slot c k).reg f.rd.toNat = BitVec.ofNat 64 p.1
      ∧ Issued s t c k (plainEntry opc cyc p.2 .none) ((s.slot c k).pc + 8) (s.slot c k).cy [f.rd.toNat] := by
  have hr := rndOf_eq hr
  subst hr
  exact issueShort_setReg rfl h rfl rfl

end

/-- Settles O5: the rows write RD with the model's results, and these are the rounded exact ones, since what is kept of a quotient or a root tells on
which side of every boundary of the rounding it stands. -/
theorem halfFloatOperationsWriteRd : Obligations.HalfFloatOperationsWriteRd := by
  unfold Obligations.HalfFloatOperationsWriteRd
  refine ⟨?rows, ?finite, hfRounds_integer, ?special, ?convert⟩
  case rows =>
    intro s c k f r x a b q hf
    simp only [List.forall_mem_cons, List.not_mem_nil, false_imp_iff, implies_true, and_true]
    refine ⟨fun hr _ h => hfOp_issues hr h, fun hr _ h => hfOp_issues hr h, fun hr _ h => hfOp_issues hr h, fun hr _ h => hfOp_issues hr h,
      fun hr _ h => ?hsqrt, fun hr hq h => ?hcvti, fun hr hq h => ?hcvtf⟩
    case hsqrt =>
      have hr := rndOf_eq hr
      subst hr
      exact issueShort_setReg (o := execHsqrt c k f s) rfl h rfl rfl
    case hcvti =>
      have hr := rndOf_eq hr
      subst hr
      exact issueShort_setReg (o := execHcvti c k f s) rfl h (decide_eq_false hq.not_gt) rfl
    case hcvtf =>
      have hr := rndOf_eq hr
      subst hr
      exact issueShort_setReg (o := execHcvtf c k f s) rfl h (decide_eq_false hq.not_gt) rfl
  case finite =>
    intro r a b x y ha hb
    exact ⟨hfRounds_hfAdd ha hb, hfRounds_hfSub ha hb, hfRounds_hfMul ha hb, hfRounds_hfDiv ha hb, fun hy => (hfDiv_zero ha hb hy).1,
      fun hy => (hfDiv_zero ha hb hy).2, hfRounds_hfSqrt ha, hfSqrt_of_neg ha⟩
  case special =>
    intro r a b
    refine ⟨fun h => ⟨hfAdd_nan r h, hfAdd_nan r (h.imp_right hfVal_hfNeg_nan), hfMul_nan r h, hfDiv_nan r h⟩, hfSqrt_nan r, fun p => hfSqrt_inf r,
      fun p q => hf_inf_inf r, fun p y => hf_inf_fin r, fun x q => hf_fin_inf r⟩
  case convert =>
    intro r q a _
    refine ⟨fun h => ?_, fun p h => ?_, fun x h => ?_⟩
    · rw [h]
      rfl
    · rw [h]
      exact storeScalar_hq64_inf q r p
    · rw [h]
      exact storeScalar_hq64_num q r x

end Sys2Proof.Machine
end
